-- ==== Sys2Proof/Word.lean ====
section
/-! DEFINITION. Word types of Feryth and their plainest arithmetic (R2, R5). -/

namespace Sys2Proof

/-- One byte. -/
abbrev Byte := BitVec 8
/-- An 8-bit tag or generation. -/
abbrev U8 := BitVec 8
/-- A 12-bit link sequence number (R184). -/
abbrev U12 := BitVec 12
/-- A 16-bit field. -/
abbrev U16 := BitVec 16
/-- A 24-bit flow sequence number (R213). -/
abbrev U24 := BitVec 24
/-- A 32-bit field or free-running count (R114). -/
abbrev U32 := BitVec 32
/-- A 64-bit field or counter. -/
abbrev U64 := BitVec 64
/-- A 128-bit claim key (R314). -/
abbrev U128 := BitVec 128
/-- The 64 bytes of a line, byte 0 in bits [7:0] (R2, R5). -/
abbrev Line := BitVec 512

/-- A sparse table from numbers to values. -/
abbrev Tab (α : Type) := List (Nat × α)

/-- Bytes of a line. -/
abbrev lineBytes : Nat := 64
/-- Bytes of a page (R2). -/
abbrev pageBytes : Nat := 65536
/-- Lines of a page (R2). -/
abbrev pageLines : Nat := 1024
/-- Bytes of an extent (R2). -/
abbrev extentBytes : Nat := 268435456
/-- Lines of an extent slot (R28). -/
abbrev slotLines : Nat := 4194304
/-- Pages of an extent (R2). -/
abbrev extentPages : Nat := 4096

end Sys2Proof
end

