-- ==== Sys2Proof/Syntax.lean ====
section
/-! DEFINITION. The commands of Feryth (spec/opcode_table.json) and the records their operands carry. -/

namespace Sys2Proof

/-- Completion status codes (R122, Table 6.5). -/
inductive Status where
  | ok | part | poison | uncorrectable | bounds | rights | genStale | linkDown | timeout | format
  | leaseExpired | fenced | abandoned | versionGone | noResource | saturated
deriving DecidableEq, Repr

/-- A write into the doorbell aperture (R117): the writer's context, the byte offset, the length of the single
access in bytes, and the value. -/
structure DbWrite where
  ctx : Nat
  off : Nat
  len : Nat
  value : U64
deriving DecidableEq, Repr

/-- Packet kinds (R206, Table 9.3); `reserved` stands for every other value. -/
inductive PktKind where
  | read | write | writePartial | atomic | mirrorWrite
  | readReply | writeAck | atomicReply
  | lost | replyLost | skip | heartbeat
  | reserved
deriving DecidableEq, Repr

/-- A Swearis packet: the header of Table 9.2 and its data units (R205). `rsvd` is true when some reserved
header bit is not zero. -/
structure Packet where
  tc : Nat := 0
  epoch : Bool := false
  escaped : Bool := false
  flowTc : Nat := 0
  kind : PktKind
  retry : Bool := false
  posted : Bool := false
  sync : Bool := false
  hops : Nat := 15
  status : Nat := 0
  dstEp : Nat := 0
  srcEp : Nat := 0
  job : Nat := 0
  srcRank : Nat := 0
  window : Nat := 0
  flowSeq : U24 := 0
  reqTag : Nat := 0
  gen : U8 := 0
  lines : Nat := 0
  addr : U64 := 0
  byteEn : U64 := 0
  atomicOp : U8 := 0
  claim : U128 := 0
  rsvd : Bool := false
  units : Nat := 0
  data : List Line := []
deriving DecidableEq, Repr

/-- One of the 19 slots of a frame, by its code in `slot_map` (R180, R181): 0 EMPTY, 1 HEAD, 2 BODY, 3 reserved. The header unit of a
packet is carried as the packet without its data units. -/
inductive Slot where
  | empty
  | head (p : Packet)
  | body (w : Line)
  | reserved (w : Line)
deriving DecidableEq, Repr

/-- One credit return of a frame header (Table 8.2). -/
structure CreditRet where
  tc : Nat := 0
  hdr : U16 := 0
  data : BitVec 20 := 0
deriving DecidableEq, Repr

/-- A link frame (R180, Table 8.2). `ftype` is the raw type value; `control` is what slot 0 of a CONTROL frame holds (R182); `rsvd` is
true when some reserved header bit is not zero. -/
structure Frame where
  ftype : Nat := 1
  nak : Bool := false
  keyPhase : Bool := false
  ackValid : Bool := false
  rsvd : Bool := false
  seq : U12 := 0
  ackSeq : U12 := 0
  crA : CreditRet := {}
  crB : CreditRet := {}
  nonce : U64 := 0
  slots : List Slot := []
  control : Line := 0
deriving DecidableEq, Repr

/-- How a frame arrived: FEC codewords corrected and uncorrectable (of its two), and whether its tag failed
(R183, R200). -/
structure FrameCond where
  corrected : Nat := 0
  uncorrectable : Nat := 0
  tagFail : Bool := false
deriving DecidableEq, Repr

/-- What a PARAM frame carries after its 64 fixed bytes (R195, Table 8.5). SEC's verdicts on a certificate chain, with the identifier that
it certifies, and on a signature arrive with the frame that they are given on. -/
inductive ParamContent where
  | hello (nonce : BitVec 256)
  | cert (chainLen offset : BitVec 32) (part : List Byte) (chainOk : Bool) (certifiedId : U64)
  | keys (publicKey : BitVec 776) (signature : BitVec 768) (signatureOk : Bool)
  | credits (adv : Line)
  | audit (freed occupancy : Line) (e : U12)
  | ready
deriving DecidableEq, Repr

/-- A PARAM frame: its body (Table 8.5), and of its frame header the nonce counter and whether some reserved bit is not zero (Table 8.2). -/
structure ParamBody where
  version : Nat := 1
  port : Nat := 0
  retrain : Bool := false
  deviceId : U64 := 0
  content : ParamContent
  nonce : U64 := 0
  rsvd : Bool := false
deriving DecidableEq, Repr

/-- A flow: source endpoint, destination endpoint and class (R213). -/
structure FlowId where
  src : Nat
  dst : Nat
  tc : Nat
deriving DecidableEq, Repr

/-- Where a Huanik command comes from (R302): the device ring, the fabric manager, or a partition ring. -/
inductive CmdSrc where
  | device
  | fm
  | part (p : Nat)
deriving DecidableEq, Repr

/-- The header of a Huanik command (R292, Table 12.3). `rsvd` is true when a reserved bit of the header or an
unused inline byte is not zero. -/
structure CmdHdr where
  src : CmdSrc
  seq : U32
  version : Nat := 1
  rsvd : Bool := false
  partition : Nat := 0
  bufOff : Nat := 0
  bufLen : Nat := 0
deriving DecidableEq, Repr

/-- The named units of a partition (Table 11.1), as PART_CREATE takes them. -/
structure PartIn where
  diag : Bool := false
  subchannels : BitVec 48 := 0
  pseudoChannels : U64 := 0
  engines : U64 := 0
  movers : U32 := 0
  queueBase : Nat := 0
  queueCount : Nat := 0
  tallyBase : Nat := 0
  tallyCount : Nat := 0
  dirWays : Nat := 0
  spareSlots : Nat := 0
  rsvd : Bool := false
deriving DecidableEq, Repr

/-- An extent-list entry (R32, Table 2.3). -/
structure Extent where
  near : Bool
  unit : Nat
  slot : Nat
deriving DecidableEq, Repr

/-- An extent-list entry as REGION_CREATE receives it: `rsvd` is true when a reserved bit is not zero. -/
structure ExtentIn where
  ext : Extent
  rsvd : Bool := false
deriving DecidableEq, Repr

/-- Region tiers (Table 2.2). -/
inductive Tier where
  | capacity | near | nearIfFree | sequence
deriving DecidableEq, Repr

/-- REGION_CREATE inputs: Table 2.2 fields as raw numbers, the salt (none: Huanik draws one, R35) and the extent
list. -/
structure RegionIn where
  extentCount : Nat
  grainM8 : Nat
  width : Nat
  tier : Nat
  durable : Bool := false
  coherence : Nat := 0
  salt : Option U32 := none
  extents : List ExtentIn
deriving DecidableEq, Repr

/-- OBJECT_CREATE inputs (R53). `rsvd` is true when a bit that must be zero is not zero. -/
structure ObjIn where
  region : Nat
  flat : Bool := false
  gqM1 : Nat := 0
  layersM1 : Nat := 0
  kvFormat : Nat := 0
  headDim : Nat := 0
  kvHeadsM1 : Nat := 0
  chunks : Nat := 0
  flatPages : Nat := 0
  rsvd : Bool := false
deriving DecidableEq, Repr

/-- Segment kinds (Table 9.6). -/
inductive SegKind where
  | invalid | region | doorbell | remote | reserved
deriving DecidableEq, Repr

/-- A segment of a context (Table 9.6). -/
structure Segment where
  base : Nat := 0
  lines : Nat := 0
  kind : SegKind := .invalid
  r : Bool := false
  w : Bool := false
  a : Bool := false
  targetId : Nat := 0
  targetOff : Nat := 0
  remoteWindow : Nat := 0
  rsvd : Bool := false
deriving DecidableEq, Repr

/-- A context record as CONTEXT_WRITE carries it (Tables 9.5, 9.6). -/
structure ContextIn where
  context : Nat
  valid : Bool
  partition : Nat
  job : Nat := 0
  tc : Nat := 0
  rsvd : Bool := false
  segments : List Segment := []
deriving DecidableEq, Repr

/-- A window record as WINDOW_WRITE carries it (Table 9.4). -/
structure WindowIn where
  job : Nat
  window : Nat
  valid : Bool
  rankLo : Nat
  rankHi : Nat
  context : Nat
  rsvd : Bool := false
deriving DecidableEq, Repr

/-- One entry of a RANK_TABLE_LOAD (Table 9.1): the rank it sets. -/
structure RankIn where
  rank : Nat
  endpoint : Nat
  valid : Bool
deriving DecidableEq, Repr

/-- A routing entry for a destination endpoint (Table 9.9). -/
structure RouteIn where
  dest : Nat
  spray : U32
  escapePort : Nat
  valid : Bool
  rsvd : Bool := false
deriving DecidableEq, Repr

/-- A head binding record (Table 10.2): the context of each bound DC region, and the doorbell context. -/
structure HeadBindIn where
  head : Nat
  dcr : List (Nat × Nat) := []
  doorbell : Option Nat := none
  rsvd : Bool := false
deriving DecidableEq, Repr

/-- QUEUE_CREATE inputs: Table 6.1 RO fields and `group`, `prio_cap`, `weight`. -/
structure QueueIn where
  queue : Nat
  anyContext : Bool := false
  context : Nat
  sqLog2 : Nat
  cqLog2 : Nat
  sqBase : Nat
  cqBase : Nat
  group : Nat := 0
  prioCap : Nat := 0
  weight : Nat := 1
deriving DecidableEq, Repr

/-- The new mode a MODE_CHANGE stages (R350): dispatch group records, queue bindings, enabled formats,
XB.ARB_MODE and MC.PACE_US; a field left out keeps its value. -/
structure ModeIn where
  groups : List (Nat × Nat × U64 × U32) := []
  queues : List (Nat × Nat × Nat × Nat) := []
  formats : Option (BitVec 5) := none
  arbMode : Option Nat := none
  paceUs : Option Nat := none
deriving DecidableEq, Repr

/-- Kinds of units as event records name them (Table 12.5). -/
inductive UnitKind where
  | engine | mover | subchannel | pseudoChannel | swPort | cxlHead | mgmtCore | sec | aon | xbar
deriving DecidableEq, Repr

/-- The structure a metadata line holds (Table 14.4). -/
inductive MetaStruct where
  | region (r : Nat)
  | object (r idx : Nat)
  | pageCount (r page : Nat)
  | lease (l : Nat)
  | queue (q : Nat)
  | context (c : Nat)
  | window (w : Nat)
  | rankTable (job : Nat)
  | wrappedKey (p : Nat)
  | pair
deriving DecidableEq, Repr

/-- An extent offered by the fabric manager (R237): its DPA and length, and the fields of its tag (Table 10.3). -/
structure DcExtentIn where
  dpa : Nat
  length : Nat
  region : Nat
  r : Bool
  w : Bool
  offset : Nat
  duration : Nat
  tagRsvd : Bool := false
deriving DecidableEq, Repr

/-- A host's answer to a back-invalidate snoop (R253): what the host keeps, and the data it writes back. -/
inductive BiAnswer where
  | keepsNothing | keepsShared | keepsExclusive
deriving DecidableEq, Repr

/-- What an engine, mover, management core or Swearis requester asks of a window line (Table 10.8, "other"). -/
inductive OtherAccess where
  | read
  | write (data : Line) (en : U64)
  | atomic (op : U8) (offset : Nat) (operand compare : U64)
deriving DecidableEq, Repr

/-- A head's link as it has trained: its rate in GT/s and its width (R232, R233, R255). -/
structure HeadLink where
  head : Nat
  rate : Nat
  width : Nat
deriving DecidableEq, Repr

/-- What a configuration request asks for (R232, R258, R379): the power state D3hot or D0, the capability structures, the CDAT by DOE, or
anything else. -/
inductive CfgReq where
  | power (d3hot : Bool)
  | capabilities
  | cdat
  | other
deriving DecidableEq, Repr

/-- An SPDM request to SEC (R272 to R274): only what the answer depends on. -/
inductive SpdmReq where
  | getVersion
  | getCapabilities
  | negotiateAlgorithms
  | getCertificate (slot : Nat)
  | challenge
  | getMeasurement (index : Nat)
  | keyExchange
  | other (code : U8)
deriving DecidableEq, Repr

/-- The way an SPDM request reaches SEC (R272). -/
inductive SpdmPath where
  | doe (head : Nat)
  | mctpVdm (head : Nat)
  | sideband
deriving DecidableEq, Repr

/-- A heartbeat body or health record (Table 13.4). -/
structure Heartbeat where
  deviceId : U64
  claim : U64
  seenClaim : U64
  seenId : U64
  hbSeq : U32
  role : Nat := 0
  sync : Nat := 0
  split : Bool := false
  singleton : Bool := false
  preferred : Bool := false
  returnRequest : Bool := false
  handoffReady : Bool := false
  fabricOk : Bool := false
  ringOk : Bool := false
  ringWhole : Bool := false
  fullResync : Bool := false
  ringHops : Nat := 0
  resyncPct : Nat := 0
  pendingPages : Nat := 0
  engineFail : Nat := 0
  loopbackFail : Nat := 0
  patrolCe : Nat := 0
  patrolUe : Nat := 0
  patrolPct : Nat := 0
deriving DecidableEq, Repr

/-- A PLDM request over the sideband (R356, R367, R369). -/
inductive PldmReq where
  | readAonTemp
  | readPowerState
  | readSensor (reg idx : Nat)
  | writePwr (param : Nat) (value : Nat)
  | domeEffecter (enter : Bool)
deriving DecidableEq, Repr

/-- The values of the straps at the rising edge of RESET_N (R376, Table 16.2). -/
structure Straps where
  i3cAddr : BitVec 3 := 0
  pairPref : Bool := false
  bootSlotB : Bool := false
  mringEn : Bool := false
deriving DecidableEq, Repr

/-- The flash configuration record as read at start (R378); `crcOk` false selects the defaults. -/
structure FlashCfgIn where
  crcOk : Bool := false
  bifurcated : BitVec 4 := 0
  swEnable : U32 := 0xFFFFFFFF
  transitMode : Bool := false
  k : Nat := 8
deriving DecidableEq, Repr

/-- What the boot ROM finds at the release of RESET_N (R377 steps 1 to 3): the SEC self-test, the journalled
token of a pending transition, the flash configuration, and which boot slots verify. -/
structure BootFindings where
  secOk : Bool := true
  tokenOk : Bool := true
  cfg : FlashCfgIn := {}
  slotAOk : Bool := true
  slotBOk : Bool := true
deriving DecidableEq, Repr

/-- A metadata header found on a subchannel during a start (R384): its unit, first slot and fields. -/
structure FoundHeader where
  unit : Nat
  copy1 : Bool
  k : Nat
  otherUnit : Nat
  seq : U64
  slots : List Nat
  tagOk : Bool
deriving DecidableEq, Repr

/-- What training of all units finds (R382, R383): the units that trained, with each subchannel's slot count and
log2 of its ranks; the units trained in full (contents lost); the RFM thresholds read; the engines that pass
self-test; and the metadata headers found. -/
structure TrainFindings where
  trained : List (Nat × Nat × Nat) := []
  full : List Nat := []
  raaimt : Nat := 0
  raammt : Nat := 0
  enginesOk : U64 := 0xFFFFFFFFFFFFFFFF
  headers : List FoundHeader := []
  metaReadable : Bool := true
deriving DecidableEq, Repr

/-- Reset-domain instances that carry a generation tag (R336, Table 14.1). -/
inductive Domain where
  | device
  | partition (p : Nat)
  | engine (n : Nat)
  | mover (n : Nat)
  | memUnit (m : Nat)
  | port (n : Nat)
  | head (h : Nat)
  | queue (q : Nat)
deriving DecidableEq, Repr

/-- The commands of Feryth: one constructor per row of spec/opcode_table.json, in the table's order. -/
inductive Instr where
  -- queues, tallies and movers
  | queueDoorbell (w : DbWrite)
  | apertureReservedWrite (w : DbWrite)
  | partMailboxDoorbell (w : DbWrite)
  | partEventRingDoorbell (w : DbWrite)
  | descriptorFetch (queue : Nat)
  | dispatch (part group : Nat)
  | completionWrite (job : Nat)
  | copy (job : Nat)
  | fill (job : Nat)
  | chainElementFetch (job : Nat)
  | moverBurstDone (job : Nat)
  | moverAbort (job : Nat)
  | kvAppend (job : Nat)
  | attend (job : Nat)
  | kvGather (job : Nat)
  | summaryRebuild (job : Nat)
  | plateOpen (job : Nat)
  | plateClose (job : Nat)
  | plateCloseDestroy (job : Nat)
  | platePublish (job : Nat)
  | plateFork (job : Nat)
  | pageFreeBackground (region : Nat)
  | reduceWrite (job : Nat)
  | atomic (job : Nat)
  | lockAcquire (job : Nat)
  | lockRelease (job : Nat)
  | lockOwnerRecheck (job : Nat)
  | lockWaitTimeout (job : Nat)
  | tallyAdd (job : Nat)
  | tallyWait (job : Nat)
  | tallyWaitSatisfied (job : Nat)
  | tallyWaitTimeout (job : Nat)
  | nop (job : Nat)
  -- memory and data integrity
  | lineRead (m line : Nat) (d1 d2 : BitVec 640)
  | lineWrite (m line : Nat) (data : Line)
  | readModifyWrite (m line : Nat) (data : Line) (en : U64) (d1 d2 : BitVec 640)
  | metadataWrite (idx : Nat) (data : Line)
  | metadataRead (idx quadrant : Nat) (holds : MetaStruct) (d0 d1 : BitVec 640)
  | translationCacheFill (port ctx : Nat) (addr : Nat)
  | directoryFill (region line : Nat)
  | parityRangeClean (region group range : Nat)
  | parityRecomputeDone (region group range : Nat)
  | transitPassStart (m : Nat)
  | transitLineCheck (m : Nat) (d1 d2 : BitVec 640)
  | transitEscalate (m : Nat)
  | ceRateHourRollover
  | rebuildStart (h : CmdHdr) (unit : Nat)
  | rebuildPageCopied (unit : Nat)
  | refreshDue (m rank : Nat) (readsQueued : Bool)
  | refreshCatchup (m rank : Nat)
  | rowThrottleWindowEnd (m bank : Nat)
  | dramTempCrossing (m : Nat) (above : Bool) (raaimt raammt : Nat)
  | migratePageCopied (region : Nat)
  | nearPromote (part : Nat)
  | summaryPageMove (region object page : Nat) (toNear : Bool)
  | summaryOldPageFree (region : Nat)
  | shutterSlotCleared (m slot : Nat)
  | leaseExpiry (lease : Nat)
  -- Swearis link layer
  | dataFrameReceive (port : Nat) (f : Frame) (c : FrameCond)
  | controlFrameReceive (port : Nat) (f : Frame) (c : FrameCond)
  | paramFrameReceive (port : Nat) (b : ParamBody) (c : FrameCond)
  | nakResendTimeout (port : Nat)
  | replayTimeout (port : Nat)
  | ackTimer (port : Nat)
  | packetTransmit (port tc : Nat)
  | linkRekey (port : Nat)
  | detectSuccess (port : Nat)
  | trainingStateTimeout (port : Nat)
  | backoffExpiry (port : Nat)
  | equaliseDone (port : Nat)
  | alignDone (port : Nat)
  | absentSignalDetect (port : Nat)
  | partnerSignalLost (port : Nat)
  | frameAlignmentLost (port : Nat)
  | eyeMarginLow (port : Nat)
  | retrainTimeout (port : Nat)
  | downExpiry (port : Nat)
  | portControlEnable (h : CmdHdr) (port : Nat)
  | portControlDisable (h : CmdHdr) (port : Nat)
  | portControlRetrain (h : CmdHdr) (port : Nat)
  | portControlCreditAdv (h : CmdHdr) (port : Nat) (adv : List (Nat × Nat))
  -- Swearis routing
  | readRequest (port : Nat) (p : Packet)
  | writeRequest (port : Nat) (p : Packet)
  | writePartialRequest (port : Nat) (p : Packet)
  | atomicRequest (port : Nat) (p : Packet)
  | mirrorWriteReceive (port : Nat) (p : Packet)
  | malformedDrop (port : Nat) (p : Packet)
  | replyReceive (port : Nat) (p : Packet)
  | lossDeclaration (flow : FlowId)
  | lostNoticeReceive (port : Nat) (p : Packet)
  | replyLostReceive (port : Nat) (p : Packet)
  | skipReceive (port : Nat) (p : Packet)
  | requestTimeout (tag : Nat)
  | sendRecordExpiry (flow : FlowId) (seq : U24)
  | sprayLatencyWindow (ties : List Nat)  -- the order of the ports among which latency decides nothing (R215)
  | escapeToTc7 (port tc : Nat)
  | transitForward (port : Nat) (p : Packet)
  | gateEntryBoundary (port : Nat)
  | telemetrySample (port : Nat)
  | routeLoad (h : CmdHdr) (version : Nat) (entries : List RouteIn)
  | routeFlip (h : CmdHdr) (version : Nat)
  | routeRetire (h : CmdHdr) (version : Nat)
  -- CXL heads, the coherent window, dynamic capacity
  | cxlMemRead (head hpa : Nat)
  | cxlMemWrite (head hpa : Nat) (data : Line) (en : U64)
  | bar2DoorbellWrite (head off len : Nat) (value : Option U64)  -- a single access of `len` bytes: a write of `value`, a read where none
  | windowReadShared (head hpa : Nat)
  | windowReadOwnership (head hpa : Nat)
  | windowMeminv (head hpa : Nat)
  | windowWriteback (head hpa : Nat) (data : Line)
  | windowCleanEviction (head hpa : Nat)
  | windowOtherAccess (region line : Nat) (acc : OtherAccess)
  | windowBusyRetry (region line : Nat)
  | bisnpResponse (region line head : Nat) (ans : BiAnswer) (wb : Option Line)
  | biTimeout (region line : Nat)
  | perstAssert (port : Nat)
  | perstDeassert (port : Nat)
  | configRetryWindowEnd (head : Nat)
  | cxlReset (head : Nat)
  | headRemoval (head : Nat)
  | cxlLinkDown (head : Nat)
  | dcAddExtent (head : Nat) (exts : List DcExtentIn)
  | addDcResponse (head dpa length : Nat) (accept : Bool)
  | releaseDc (head dpa length : Nat)
  | dcForcedRelease (head dpa length : Nat)
  | cxlIdentify (head : Nat)
  | getEventRecords (head log : Nat)
  | clearEventRecords (head log : Nat) (handles : List Nat) (all : Bool)
  | getEventInterruptPolicy (head : Nat)
  | setEventInterruptPolicy (head : Nat) (policy : U32)
  | getFwInfo (head : Nat)
  | transferFw (head offset : Nat) (data : List Byte) (first last verdict : Bool)
  | activateFw (head slot : Nat) (online : Bool)
  | getTimestamp (head : Nat)
  | setTimestamp (head : Nat) (t : U64)
  | getSupportedLogs (head : Nat)
  | getLog (head log offset length : Nat)
  | identifyMemoryDevice (head : Nat)
  | getHealthInfo (head : Nat)
  | getAlertConfiguration (head : Nat)
  | setAlertConfiguration (head : Nat) (cfg : U128)
  | getPoisonList (head : Nat)
  | getDcConfiguration (head : Nat)
  | getDcExtentList (head : Nat)
  | cxlMailboxUnsupported (head opcode : Nat)
  | spdmRequest (path : SpdmPath) (req : SpdmReq)
  | ideKmKeyProg (head stream keySet : Nat) (secured : Bool)
  -- the mailbox
  | mbxAttach (head : Nat)
  | mbxCmdDoorbell (head : Nat) (count : U32) (epoch : U16)
  | mbxRspDoorbell (head : Nat) (count : U32) (epoch : U16)
  | mbxEvtDoorbell (head : Nat) (count : U32) (epoch : U16)
  | registerWrite (head off len : Nat) (value : Option U64)  -- a single access of `len` bytes: a write of `value`, a read where none
  | mbxHeartbeatTick
  | paceSlotBoundary (part : Nat)
  -- Huanik commands
  | huanikNop (h : CmdHdr)
  | runtimeLoad (h : CmdHdr) (offset length total : Nat) (last verdict : Bool) (svn : U16) (digest : BitVec 384)
  | lcTransition (h : CmdHdr) (target : Nat) (byOwner verdict : Bool) (ownerHash : BitVec 384) (svnFloor : U16)
  | fwInfo (h : CmdHdr)
  | fwDownload (h : CmdHdr) (offset : Nat) (data : List Byte)
  | fwVerify (h : CmdHdr) (verdict : Bool) (digest : BitVec 384)
  | fwActivate (h : CmdHdr)
  | fwConfirm (h : CmdHdr)
  | partCreate (h : CmdHdr) (r : PartIn)
  | partTenantChange (h : CmdHdr)
  | partDestroy (h : CmdHdr)
  | partMailbox (h : CmdHdr) (ctx cmdAddr rspAddr : Nat)
  | partEventRing (h : CmdHdr) (ctx addr log2 : Nat)
  | partAddUnit (h : CmdHdr) (near : Bool) (unit : Nat)
  | regionCreate (h : CmdHdr) (r : RegionIn)
  | regionDestroy (h : CmdHdr) (region : Nat)
  | regionMigrate (h : CmdHdr) (region width tier share : Nat) (salt : Option U32)
  | regionQuery (h : CmdHdr) (region : Nat)
  | objectCreate (h : CmdHdr) (o : ObjIn)
  | contextWrite (h : CmdHdr) (c : ContextIn)
  | windowWrite (h : CmdHdr) (record : Nat) (w : WindowIn)
  | rankTableLoad (h : CmdHdr) (job : Nat) (entries : List RankIn)
  | headBind (h : CmdHdr) (b : HeadBindIn)
  | queueCreate (h : CmdHdr) (q : QueueIn)
  | queueReset (h : CmdHdr) (queue : Nat)
  | queueAbort (h : CmdHdr) (queue : Nat)
  | queueDestroy (h : CmdHdr) (queue : Nat)
  | tallyPair (h : CmdHdr) (producer consumer k : Nat)
  | tallyUnpair (h : CmdHdr) (tally : Nat)
  | tallySet (h : CmdHdr) (tally : Nat) (value : U64)
  | leaseCreate (h : CmdHdr) (ctx region first count duration : Nat)
  | leaseRenew (h : CmdHdr) (lease : Nat)
  | leaseQuery (h : CmdHdr) (lease : Nat)
  | modeChange (h : CmdHdr) (m : ModeIn)
  | unitModeAck (kind : UnitKind) (unit : Nat)
  | modeChangeTimeout
  | paramSet (h : CmdHdr) (param index : Nat) (value : U64)
  | policeSet (h : CmdHdr) (index : Nat) (value : U64)
  | gateCtrlSet (h : CmdHdr) (index : Nat) (value : U64)
  | gateEntrySet (h : CmdHdr) (index : Nat) (value : U64)
  | pairEnableSet (h : CmdHdr) (value : U64)
  | forceClaim (h : CmdHdr) (value : U64)
  | domeReq (h : CmdHdr) (value : U64)
  | logRead (h : CmdHdr) (m : Nat)
  | logClear (h : CmdHdr) (m : Nat)
  | countersRead (h : CmdHdr) (block : Nat)
  | injectFlip (h : CmdHdr) (ext : Extent) (line : Nat) (mask : BitVec 640)
  | rawModeEnter (h : CmdHdr) (ext : Extent)
  | rawWrite (h : CmdHdr) (ext : Extent) (line : Nat) (data : Line) (check : BitVec 128)
  | rawRead (h : CmdHdr) (ext : Extent) (line : Nat)
  | rawModeExit (h : CmdHdr) (ext : Extent)
  -- Coelostat pairs
  | heartbeatSend
  | heartbeatReceive (port : Nat) (p : Packet) (hb : Heartbeat)
  | ringMessageReceive (hb : Heartbeat) (hops : Nat) (crcOk : Bool)
  | heartbeatPeriod
  | discrepancyTimer
  | pairTakeover
  | mirrorHoldEnd
  | resyncStart
  | resyncPageDone
  | returnRequest
  | returnTimeout
  | returnRetry
  | handoffTimeout
  | ringWholeTimer
  | mringLockLoss
  | mringLockGain
  | standbyPatrol (d1 d2 : BitVec 640)
  | engineIdleSelftest (engine : Nat) (pass : Bool)
  | portLoopbackTest (failing : U32)
  -- resets and recovery
  | engineHangDetect (engine : Nat)
  | moverHangDetect (mover channel : Nat)
  | mcHangDetect (m rank bank : Nat)
  | mgmtCoreHangDetect
  | xbarSecHangDetect (sec : Bool) (quadrant : Nat)
  | engineReset (engine : Nat)
  | engineResetDone (engine : Nat) (pass : Bool)
  | moverReset (mover : Nat)
  | tagIncrementDeferred (d : Domain)
  | subchannelRetrain (m : Nat)
  | retrainDone (m : Nat) (raaimt raammt : Nat)
  | retrainFailTimeout (m : Nat)
  | partitionResetDone (part : Nat)
  | warmReset (sideband drained : Bool) (b : BootFindings)
  | warmResetDone
  | engineSlowWindow (part group : Nat) (ticks : List (Nat × Nat))
  | memoryUnitSlow (m rate median : Nat)
  -- power, clocks and temperature
  | powerGrant
  | drawSample (islands : List Nat)
  | thermalSample (temps : List Nat)
  | thermalLimitStep
  | voltageLoopTick (needMv : List Nat)
  | dramCalibration (m rank : Nat)
  | domeEntry
  | domeRefused
  | domeWake (byWarmN digestOk : Bool) (b : BootFindings)
  | wakeRailTimeout
  | pldmRequest (req : PldmReq)
  -- start-up and reset pins
  | powerGoodDeassert
  | resetNAssert
  | selfRefreshTimeout
  | memoryRailFault (rail : Nat)
  | resetNRelease (st : Straps) (b : BootFindings)
  | trainingDone (t : TrainFindings)
  | warmNPulse (ns : Nat) (drained : Bool) (b : BootFindings)
  -- boundary scan
  | tapReset
  | extest (cells : Nat)
  | idcode
  | samplePreload (pins preload : Nat)
  | clamp
  | highz
  | extestPulse (cells : Nat)
  | extestTrain (cells : Nat)
  | bypass
  -- further rows of the table
  | ddrAlert (channel : Nat) (errA errB : Bool)
  | cxlLinkUp (link : HeadLink)
  | configRequest (head : Nat) (req : CfgReq)
  | hdmDecoderCommit (head idx base size ways granularity dpaBase : Nat) (bi : Bool)
  | mailboxRingWrite (head off : Nat) (data : List Byte)
  | queueDepthSample (depths : List (Nat × Nat))
  | powerUp
deriving DecidableEq, Repr

end Sys2Proof
end

