-- ==== Sys2Proof/Config.lean ====
section
/-! DEFINITION. What one part fixes and the free values (opaque, so that no proof can see them). -/

namespace Sys2Proof

namespace Config

/-- The 64-bit device identifier, fused (Table 12.1, MBX.DEVICE_ID). Fixed for one part; no rule gives its value. -/
opaque deviceId : U64

/-- A free 64-bit value: the n-th value the spec leaves open (log entry 3). -/
opaque freeWord : Nat → U64

/-- A free line: what the n-th read returns where the line code gives no guarantee (R144; log entries 3, 4). -/
opaque freeLine : Nat → Line

/-- The class a decoder reaches for a word with three or more positions in error (R144): 0 valid, 1 corrected,
anything else uncorrectable. It may depend on the word (log entry 4). -/
opaque decoderClass : BitVec 640 → Nat

/-- The n-th pair of 256-bit AES-256-XTS keys that SEC draws from its CTR_DRBG (R268); keys never leave the device (log
entry 5). -/
opaque xtsKeys : Nat → BitVec 512

/-- The keys under which device metadata is encrypted, and the key-encryption key under which SEC wraps the partitions' keys: both
derived from the fused device secret (R270; log entry 5). -/
opaque metadataKeys : BitVec 512
/-- The key-encryption key (R270). -/
opaque keyEncryptionKey : BitVec 256

/-- The AES-256-GMAC tag of a metadata header's bytes 0 to 47 under the metadata key (Table 16.4; log entry 5). -/
opaque headerTag : BitVec 512 → BitVec 384 → BitVec 128

/-- The ciphertext of a line under a pair of keys and a tweak (R12, R269; log entry 5). -/
opaque cipher : BitVec 512 → BitVec 128 → Line → Line

/-- The check bytes of 64 ciphertext bytes, by tier: 16 in the capacity tier, 8 in the near tier (R143, R146). The function is
Feryth's own (R145; log entry 5). -/
opaque checkBits : Bool → Line → BitVec 128

/-- The poison pattern of a tier (R147): a fixed stored word, which no rule gives (log entry 5). -/
opaque poisonPattern : Bool → BitVec 640

/-- The class that the decoder of a tier reaches for a word that RAW_WRITE gave, by the difference between its check bytes and
those of its data, where no rule settles it without the check-bit function (R144, R145, R176; log entry 5): 0 valid, 1 + p an
error at position p, anything above 40 uncorrectable. -/
opaque syndromeClass : Bool → BitVec 128 → Nat

/-- The device's DER identity certificate chain, which SEC holds (R195, R273; log entry 6). -/
opaque certChain : List Byte

/-- The public key of the n-th ECDH P-384 pair that a port draws, uncompressed (R195; log entry 6). -/
opaque ecdhPublic : Nat → BitVec 776

/-- The shared secret of the n-th ECDH P-384 pair and a partner's public key (R201; log entry 6). -/
opaque ecdhShared : Nat → BitVec 776 → BitVec 384

/-- The device's ECDSA P-384 signature over the SHA-384 digest of a list of bytes (R195; log entry 6). -/
opaque signed : List Byte → BitVec 768

/-- The HKDF-SHA-384 output for a secret, a salt and an info of 128 bits: an AES-256 key (R201; log entry 6). -/
opaque hkdf : BitVec 384 → BitVec 512 → BitVec 128 → BitVec 256

/-- AES-256-GCM of a frame's slots under a key and a 96-bit nonce, with the 48 header bytes as additional data: the ciphertext and the
tag (R200; log entry 6). -/
opaque gcm : BitVec 256 → BitVec 96 → List Byte → List Byte → List Byte × BitVec 128

/-- Stepping, MBX.IDENT bits [35:32] (Table 12.1: reset value 0x0000_0101_0000_7480). -/
def stepping : BitVec 4 := 1

/-- SHA-384 measurement digests are SEC's; the model does not compute them (R274; log entry 6). -/
opaque digest : Nat → Nat → BitVec 384

end Config

end Sys2Proof
end

