-- ==== Sys2Proof/Machine/State.lean ====
section
/-! DEFINITION. The state of Feryth: every register, table, ring, queue, counter, mode and pin the spec gives the
device, as plain data; the faults and refusals; the state after reset. -/

namespace Sys2Proof.Machine

open Sys2Proof

/-! ## Enumerations -/

/-- MBX.STATUS `stage` (Table 12.2). -/
inductive Stage where
  | rom | bootImage | awaitRuntime | loading | running | halted | retired | transitionPending
deriving DecidableEq, Repr

/-- MBX.STATUS `life_cycle` (Table 12.2, Table 11.5). -/
inductive LifeCycle where
  | manufactured | provisioned | deployed | retired
deriving DecidableEq, Repr

/-- Update-journal states (R308). -/
inductive FwState where
  | downloading | verified | trial | confirmed | reverted
deriving DecidableEq, Repr

/-- Partition `state` (Table 11.1). -/
inductive PartState where
  | free | active | resetting
deriving DecidableEq, Repr

/-- Queue `state` (Table 6.1). -/
inductive QState where
  | disabled | active | parked | error
deriving DecidableEq, Repr

/-- Object `state` (Table 3.1). -/
inductive ObjState where
  | free | live | destroying
deriving DecidableEq, Repr

/-- Published-version slot `state` (Table 3.3). -/
inductive SlotState where
  | free | published | discarding
deriving DecidableEq, Repr

/-- Port states (R193, Table 8.4). -/
inductive PortState where
  | disabled | detect | backoff | absent | equalise | align | param | active | retrain | down | blocked
deriving DecidableEq, Repr

/-- Routing-version states (Table 9.10). -/
inductive RtState where
  | invalid | loaded | active | draining
deriving DecidableEq, Repr

/-- Lease `state` (Table 10.4). -/
inductive LeaseState where
  | free | held | fenced | clearing
deriving DecidableEq, Repr

/-- Directory `state` of a window line (R252). -/
inductive DirState where
  | i | s | f | e | m
deriving DecidableEq, Repr

/-- Pair `role` (Table 13.1). -/
inductive Role where
  | offline | standby | active
deriving DecidableEq, Repr

/-- Pair `sync` (Table 13.1). -/
inductive Sync where
  | unsynced | resync | synced
deriving DecidableEq, Repr

/-- Back-invalidate snoops (Table 10.8). -/
inductive Snoop where
  | cur | data | inv
deriving DecidableEq, Repr

/-- MRING_BYP_N (R332): driven high, driven low, or at high impedance. -/
inductive PinLevel where
  | high | low | hiZ
deriving DecidableEq, Repr

/-- Instructions of the TAP (R405, Table 17.10). -/
inductive TapInstr where
  | bypass | idcode | samplePreload | extest | clamp | highz | extestPulse | extestTrain
deriving DecidableEq, Repr

/-- Event codes (R298, R334, R355, R370, R391). -/
inductive EvCode where
  | commandDone | eventsLost | driverAttach
  | doorbellRejected | queueError | tallySaturated | moverAbort
  | nearPoolFull | pagePinned
  | ueReconstructed | ueDemand | ueScrub | scrubOverdue | ntDegraded
  | rebuildStart | rebuildDone | spareExhausted | metadataLost | rowThrottle | poisonConsumed
  | swAuthFail | swAbsent | swFlapping | swSlow
  | leaseExpired | windowLinesLost | cxlAccessRefused | windowNoBi | biTimeout
  | pairPathFailed | pairPathRestored | pairSplit | pairSplitCleared | pairTakeover | pairDemoted
  | pairResyncStart | pairResyncDone | pairReturn | pairReturnAbandoned | pairSingleton | ringBroken
  | pairIsolated | pairNoTakeover | pairSelftestFail | pairPrefConflict | pairClaimSuperseded
  | unitHung | unitReset | unitFailed | unitRetrain | partResetDone | warmResetDone | modeAbandoned | unitSlow
  | boostEnd | powerLimitUnmet | thermalThrottle | thermalThrottleCleared | thermalLimit | thermalTrip
  | domeEnter | domeWake | domeRefused
  | startRetained | startBlank | trainFailed | metadataDisplaced | configDefaulted | startFailed
deriving DecidableEq, Repr

/-- The 64-bit counters that count only upwards (R118, R155, R202, R231, R244, R336 to R338, R43, R369). -/
inductive Ctr where
  | dbRejected | dbInactive
  | diCeTotal | diUeTotal | diUeRecon | diPoisonReads | diTransient | diUnitCe (m : Nat) | diUnitNew (m : Nat)
  | rstStaleReplies (kind : Nat) | rstStaleCompletions
  | swFecCorr (n : Nat) | swFecUncorr (n : Nat) | swTagFail (n : Nat) | swNakTx (n : Nat) | swNakRx (n : Nat)
  | swReplayed (n : Nat) | swRepeats (n : Nat) | swRetrains (n : Nat) | swDowns (n : Nat)
  | swCreditLeak (n t : Nat) | swDownDropped (n : Nat) | swCreditStall (n t : Nat)
  | swTxPkts (n t : Nat) | swRxPkts (n t : Nat) | swTxUnits (n t : Nat) | swRxUnits (n t : Nat)
  | swQdepthHist (n t b : Nat) | swQdelayHist (n t b : Nat) | swPoliceDrop (n p : Nat) | swGateHold (n t : Nat)
  | swExcluded (n : Nat) | swEscaped (n : Nat)
  | rtSpoof | rtLate | rtReorderFull | rtMalformedDrop | rtNoticeIgnored | rtLostDeclared | rtResent
  | rtUnmatched | rtTransitDrop | rtHopDrop | rtEpochDrop
  | cxRefused (h s : Nat)
  | unitQdepthHist (m b : Nat)
  | pwrEnergyUj | pwrBoostCount | pwrBoostNs | pwrThrottleNs
deriving DecidableEq, Repr

/-! ## Records -/

/-- A memory location in an event record (Table 12.5). -/
structure EvLoc where
  rank : Nat
  bank : Nat
  column : Nat
  row : Nat
deriving DecidableEq, Repr

/-- An event before it is written (R296); a field that does not apply is `none`. -/
structure Event where
  code : EvCode
  part : Option Nat := none
  context : Option Nat := none
  queue : Option Nat := none
  tag : Option U16 := none
  unit : Option (UnitKind × Nat) := none
  loc : Option EvLoc := none
  detail0 : Option U64 := none
  detail1 : Option U64 := none
deriving DecidableEq, Repr

/-- The features of CXL 3.1 that Feryth implements and advertises (R232, Table 10.1). -/
inductive CxlFeature where
  | cxlIo | cxlMem | latencyOptimisedFlit | multiHeaded | hdmDecoders | hdmH | hdmDb | dynamicCapacity | ide | getPoisonList
  | eventRecords | cdat
deriving DecidableEq, Repr

/-- The rows that CDAT reports (R258, Table 10.10): latencies in ns, the bandwidth in GB/s. -/
inductive CdatRow where
  | capacityRead | nearRead | fullWrite | windowReadExtra | expiryToFence | headBandwidth
deriving DecidableEq, Repr

/-- What a command makes the block emit. -/
inductive Output where
  /-- an event record written (in whatever ring has room) -/
  | event (e : Event)
  /-- a frame started on a port, and its 1,280 bytes on the wire -/
  | frame (port : Nat) (f : Frame) (wire : List Byte)
  /-- a PARAM frame, and its 1,280 bytes on the wire -/
  | paramFrame (port : Nat) (b : ParamBody) (wire : List Byte)
  /-- a packet queued for egress -/
  | packet (port : Nat) (p : Packet)
  /-- the answer of a memory controller to a line access -/
  | line (st : Status) (data : Line)
  /-- a line acknowledged by its controller, or parked behind a retrain -/
  | lineAck (st : Status)
  | lineWaits
  /-- CXL.mem data, with its poison bit, and write completions (Table 10.5) -/
  | cxlData (head : Nat) (data : Line) (poison : Bool)
  | cxlDone (head : Nat)
  | cxlGrant (head : Nat) (st : DirState) (data : Option Line)
  | biSnoop (head : Nat) (k : Snoop) (region line : Nat)
  /-- answers to configuration requests (R379) -/
  | cfgRetry (head : Nat)
  | cfgDone (head : Nat)
  | capabilities (head : Nat) (fs : List CxlFeature)
  | cdat (head : Nat) (rows : List (CdatRow × Nat))
  /-- data of a read of BAR4 (R6, R288) -/
  | bar4Data (head off : Nat) (data : U64)
  /-- data of a BAR2 read (R235) -/
  | bar2Data (head len data : Nat)
  /-- an MSI-X message to the owner head (R288) -/
  | msix (vector : Nat)
  /-- a Huanik response: source, status and output words (Table 12.4) -/
  | response (src : CmdSrc) (st : Status) (outs : List U64)
  /-- a CXL mailbox answer: head, result (0 success) and payload words -/
  | cxlMbox (head result : Nat) (payload : List U64)
  /-- an SPDM answer: request name, measurement index and count, digest -/
  | spdm (path : SpdmPath) (payload : List Nat)
  | spdmError (path : SpdmPath)
  /-- PLDM answers -/
  | pldm (payload : List Nat)
  | pldmNotReady
  /-- a message on MRING_OUT -/
  | ringMsg (hb : Heartbeat) (hops : Nat)
  /-- a VDD_CORE set point sent over AVS, in mV -/
  | avs (mv : Nat)
  /-- an extent returned to the fabric manager, by unit and slot (R48, R243) -/
  | extentReleased (m slot : Nat)
  /-- the fabric manager's invalid-extent-list result, or acceptance (R237) -/
  | dcAdd (head : Nat) (accepted : Bool)
  /-- bits on TDO -/
  | tdo (width : Nat) (bits : Nat)
  /-- DRAM commands: refresh and RFM -/
  | refresh (m rank count : Nat)
  /-- DDRn_RESET_N of a channel, pulsed low for the full training of its subchannels (R23, R382) -/
  | ddrReset (channel : Nat)
  | rfm (m bank : Nat)
deriving DecidableEq, Repr

/-- A correction-log entry (R154, Table 7.3). -/
structure LogEntry where
  rank : Nat
  bank : Nat
  column : Nat
  row : Nat
  position : Nat
  source : Nat
  persistent : Bool
  pass : Nat
  hits : U16
  firstSeen : Nat
  lastSeen : Nat
deriving DecidableEq, Repr

/-- A request held by a memory controller during a retrain (R343). -/
inductive HeldReq where
  | read (line : Nat) (d1 d2 : BitVec 640)
  | write (line : Nat) (data : Line)
  | rmw (line : Nat) (data : Line) (en : U64) (d1 d2 : BitVec 640)
deriving DecidableEq, Repr

/-- A requester stream (R175): one source port with one context, one engine, or one data-mover channel; `other` is any other
requester, of which no rule makes a stream. -/
inductive Stream where
  | port (n ctx : Nat)
  | engine (n : Nat)
  | channel (mover ch : Nat)
  | other
deriving DecidableEq, Repr

/-- A row-disturbance throttle in force on a bank (R175): the stream, the requests to the bank that it may still make in the
64 µs that end at `until_`. -/
structure Throttle where
  bank : Nat
  stream : Stream
  left : Nat
  until_ : Nat
deriving DecidableEq, Repr

/-- A write of a management core that waits at its line: context, address and data (R45, R253, R343). -/
structure CoreWrite where
  ctx : Nat
  addr : Nat
  data : Line
deriving DecidableEq, Repr

/-- A waiter for a lock, in arrival order (R281). -/
structure LockWaiter where
  job : Nat
  line : Nat
deriving DecidableEq, Repr

/-- A key slot, or what was loaded or wrapped from it (R268): its two 256-bit AES-256-XTS keys, zero where they are overwritten,
and the number of the draw that gave them. -/
structure KeySlot where
  keys : BitVec 512 := 0
  draw : Nat := 0
deriving DecidableEq, Repr

/-- One memory unit, by memory-unit number m (R27). -/
structure MemUnit where
  trained : Bool := false
  dead : Bool := false
  removed : Bool := false
  slots : Nat := 0
  nr : Nat := 0
  /-- the queue depth last sampled (R43) -/
  depth : Nat := 0
  /-- slots cleared under the present key (R265); slot 4 of a pseudo-channel stands for its tail -/
  cleared : List Nat := []
  /-- the controller's key register for the unit, and the slot it was loaded from (R268) -/
  key : KeySlot := {}
  keySlot : Option Nat := none
  /-- by slot, the draw whose keys were in force when Shutter last cleared it -/
  slotDraw : Tab Nat := []
  /-- start of a retrain in progress (R343) -/
  retrain : Option Nat := none
  held : List HeldReq := []
  /-- times of command/address and write-CRC errors in the last 1 ms (R343, R23) -/
  errTimes : List Nat := []
  /-- (rank, position, row, time) of corrections, for device loss (R156) -/
  recent : List (Nat × Nat × Nat × Nat) := []
  rateAlarm : Bool := false
  log : List LogEntry := []
  /-- Transit (R158 to R160) -/
  transitLine : Nat := 0
  transitPass : Nat := 0
  passStart : Nat := 0
  passDone : Bool := false
  shareTenths : Nat := 0
  overdue : Bool := false
  /-- refresh commands postponed per rank (R173) -/
  postponed : Tab Nat := []
  /-- rolling activation counts per bank, the thresholds read from the DRAM, and the case temperature (R174) -/
  raa : Tab Nat := []
  raaimt : Nat := 0
  raammt : Nat := 0
  hot : Bool := false
  throttles : List Throttle := []
  /-- requester streams' activations per bank since its last RFM: (bank, stream, count) (R175) -/
  streams : List (Nat × Stream × Nat) := []
  /-- activations of the last 64 µs: (bank, stream, time) (R175) -/
  acts : List (Nat × Stream × Nat) := []
  /-- a pseudo-channel off which Huanik moves regions and summary pages since a correction alarm (R156) -/
  degraded : Bool := false
  throttleEpisode : List Nat := []
  lockWaiters : List LockWaiter := []
  calibratedAt : Tab Nat := []
deriving DecidableEq, Repr

/-- A stored word that is not the plain codeword of the line's data: the poison pattern (R147), or error bits laid
over the stored word, in 80 bytes (72 in the near tier). -/
structure LineFault where
  poison : Bool := false
  mask : BitVec 640 := 0
deriving DecidableEq, Repr

/-- The DRAM and HBM arrays. `cells` holds the plaintext bytes, at byte address 64 × (m × 2^32 + line) + byte; the
faults and raw words are keyed by m × 2^32 + line. -/
structure Pool where
  cells : List Host.Cell := []
  faults : Tab LineFault := []
  raw : Tab (Line × BitVec 128) := []
  /-- ranges (first key, number of lines) of dead units whose lines read as poison unless written since (Table 7.8) -/
  lost : List (Nat × Nat) := []
  /-- ranges (first key, number of lines) whose stored words are unknown since power was lost or a unit was trained in full
  (R374, R382), unless written since -/
  garbled : List (Nat × Nat) := []
  rawExtents : List Extent := []
deriving DecidableEq, Repr

/-- A partition record (R259, Table 11.1). -/
structure Partition where
  /-- the field `partition`: the partition's number, which is its key slot's -/
  number : Nat := 0
  state : PartState := .free
  diag : Bool := false
  clearing : Bool := false
  gen : U8 := 0
  tenantCount : U32 := 0
  subchannels : BitVec 48 := 0
  pseudoChannels : U64 := 0
  engines : U64 := 0
  movers : U32 := 0
  queueBase : Nat := 0
  queueCount : Nat := 0
  tallyBase : Nat := 0
  tallyCount : Nat := 0
  dirWays : Nat := 0
  spareSlots : Nat := 0
  /-- when the reset under way started (R344) -/
  resetAt : Nat := 0
  /-- steps 1 to 4 of a tenant change are done: Shutter clears the pseudo-channels (R263, step 5) -/
  rekeyed : Bool := false
deriving DecidableEq, Repr

/-- A partition event ring (R300). -/
structure PartRing where
  ctx : Nat
  addr : Nat
  log2 : Nat
  tail : U32 := 0
  head : U32 := 0
  lost : U32 := 0
  unreported : Nat := 0
deriving DecidableEq, Repr

/-- A partition mailbox (R299). -/
structure PartMbx where
  ctx : Nat
  cmdAddr : Nat
  rspAddr : Nat
  cmdTail : U32 := 0
  cmdDone : U32 := 0
  rspHead : U32 := 0
deriving DecidableEq, Repr

/-- A dispatch group (R128, Table 6.7) and the state of its choice (R129). -/
structure Group where
  engines : U64 := 0
  movers : U32 := 0
  lastDispatch : Tab Nat := []
  lastServed : Tab Nat := []
  withdrawn : U64 := 0
  slowRuns : Tab Nat := []
  goodRuns : Tab Nat := []
deriving DecidableEq, Repr

/-- A descriptor fetched and not yet dispatched (R126). -/
structure Fetched where
  desc : Line
  slotAddr : Nat
deriving DecidableEq, Repr

/-- A queue record (R113, Table 6.1), the descriptors fetched, and whether the queue pair exists. -/
structure Queue where
  exists_ : Bool := false
  partition : Nat := 0
  anyContext : Bool := false
  context : Nat := 0
  sqLog2 : Nat := 0
  cqLog2 : Nat := 0
  group : Nat := 0
  prioCap : Nat := 0
  state : QState := .disabled
  gen : U8 := 0
  weight : Nat := 0
  sqBase : Nat := 0
  cqBase : Nat := 0
  sqTail : U32 := 0
  sqHead : U32 := 0
  cqTail : U32 := 0
  cqHead : U32 := 0
  inFlight : Nat := 0
  fetched : List Fetched := []
deriving DecidableEq, Repr

/-- A tally counter with its sticky flags (R131). -/
structure Tally where
  value : U64 := 0
  ovf : Bool := false
  unf : Bool := false
  misuse : Bool := false
deriving DecidableEq, Repr

/-- A pair of counters (R131). -/
structure TallyPair where
  producer : Nat
  consumer : Nat
  k : Nat
deriving DecidableEq, Repr

/-- The pages of a version: its root page, the root's entries and the entries of the map pages (R54). `old` holds, for a reader, the
lines that were written in place since its dispatch, as they read before (R73). -/
structure View where
  root : Nat := 0
  entries : Tab Nat := []
  maps : Tab (Tab (Bool × Nat)) := []
  old : Tab (Status × Line) := []
deriving DecidableEq, Repr

/-- What a version of an object of a region was at a dispatch (R73): its length and its pages. -/
structure Snapshot where
  region : Nat := 0
  length : Nat := 0
  view : View := {}
deriving DecidableEq, Repr

/-- A hold on a version: region, object index, slot (R61). -/
structure Hold where
  region : Nat
  object : Nat
  slot : Nat
deriving DecidableEq, Repr

/-- The unit that executes a descriptor (R123). -/
inductive JobUnit where
  | engines (es : List Nat)
  | mover (n ch : Nat)
  | memory
  | dispatcher
deriving DecidableEq, Repr

/-- A data-mover chain (R136 to R141). -/
structure Chain where
  started : Bool := false
  /-- the element's turn on its destination object has come (R72), and its pages are its own (R68) -/
  turn : Bool := false
  /-- bytes of the present burst -/
  burst : Nat := 0
  done : Nat := 0
  elemAddr : Nat := 0
  elem : Line := 0
  needFetch : Bool := false
  moved : Nat := 0
  badLines : Nat := 0
  badUnc : Bool := false
  firstBad : Nat := 0
  /-- remote requests of the present burst still without reply, and data read so far (offset, line) -/
  outstanding : List Nat := []
  buffer : List (Nat × Line) := []
  reading : Bool := false
  lastBurst : Nat := 0
  abort : Bool := false
  /-- a status that ends the chain once its requests are answered -/
  fail : Option Status := none
deriving DecidableEq, Repr

/-- The result of a descriptor, to be written by COMPLETION_WRITE (R121). -/
structure Result where
  status : Status
  result : U64 := 0
  residue : U32 := 0
deriving DecidableEq, Repr

/-- A dispatched descriptor (R126, R351). -/
structure Job where
  id : Nat
  queue : Nat
  queueGen : U8
  modeGen : U8
  partition : Nat
  desc : Line
  slotAddr : Nat
  unit : JobUnit
  dispatchedAt : Nat
  holds : List Hold := []
  snap : Option Snapshot := none
  /-- what the working version was before this append, until its completion is written (R73) -/
  before : Option Snapshot := none
  chain : Option Chain := none
  waiting : Bool := false
  /-- set when the engine stopped making progress: time of the last memory access -/
  lastAccess : Nat := 0
  result : Option Result := none
deriving DecidableEq, Repr

/-- A published-version slot (R58, Table 3.3). -/
structure PlateSlot where
  version : U32 := 0
  root : Nat := 0
  state : SlotState := .free
  openCount : Nat := 0
  gen : U8 := 0
  length : Nat := 0
deriving DecidableEq, Repr

/-- An object record (R51, Table 3.1), its version slots, and the events raised once for it (R40, R70). -/
structure Obj where
  gen : U8 := 0
  flat : Bool := false
  state : ObjState := .free
  pinned : Bool := false
  gqM1 : Nat := 0
  layersM1 : Nat := 0
  kvFormat : Nat := 0
  headDim : Nat := 0
  kvHeadsM1 : Nat := 0
  chunks : Nat := 0
  length : Nat := 0
  kvBlockBytes : Nat := 0
  summaryBlockBytes : Nat := 0
  kvChunkPages : Nat := 0
  sumChunkPages : Nat := 0
  workingRoot : Nat := 0
  workingFreed : Bool := false
  latestVersion : U32 := 0
  parentIndex : Nat := 0
  parentGen : U8 := 0
  flatPages : Nat := 0
  slots : Tab PlateSlot := []
  nearFullRaised : Bool := false
deriving DecidableEq, Repr

/-- The pages of a SEQUENCE region (R54 to R57): roots and map pages by region page, with their entries that are not
ABSENT; the counts; the pages in use; the pages whose count reached zero and that are still to be freed (R69), each with the
descriptor in flight that started it, if one did; window copies by home page (R39); old copies of moved summary pages, each with the jobs that still read it (R41). -/
structure SeqPages where
  roots : Tab (Tab Nat) := []
  maps : Tab (Tab (Bool × Nat)) := []
  counts : Tab Nat := []
  nearCounts : Tab Nat := []
  used : List Nat := []
  freeing : List ((Bool × Nat) × Option Nat) := []
  windows : Tab Nat := []
  moved : List (Bool × Nat × List Nat) := []
deriving DecidableEq, Repr

/-- A parity group of a DURABLE region (R162, R163): the parity extent, the member indices, and the 64 KiB ranges
marked stale with the time of their last write (R165); `unprotected` are stale ranges awaiting recomputation. -/
structure ParityGroup where
  parity : Extent
  members : List Nat
  stale : Tab Nat := []
  unprotected : List Nat := []
deriving DecidableEq, Repr

/-- A region (R31, Table 2.2), its extent lists, its parity groups, and the share of its migration (R44). -/
structure Region where
  partition : Nat
  grainM8 : Nat
  width : Nat
  tier : Tier
  inNear : Bool := false
  durable : Bool := false
  window : Bool := false
  salt : U32 := 0
  extents : List Extent
  listLine : Nat := 0
  migrating : Bool := false
  newWidth : Nat := 0
  newSalt : U32 := 0
  newTier : Tier := .capacity
  newExtents : List Extent := []
  newListLine : Nat := 0
  cursor : Nat := 0
  share : Nat := 25
  migrateOp : Option Nat := none
  parity : List ParityGroup := []
  newParity : List ParityGroup := []
  newNear : Bool := false
  failed : Bool := false
  /-- serial numbers of the region's creation and of its last promotion to the near tier (R40) -/
  created : Nat := 0
  promoted : Nat := 0
  /-- directory extents of a WINDOW region (R249) -/
  dirExtents : List Extent := []
  /-- a REGION_DESTROY under way: the extents still being cleared -/
  destroying : Bool := false
deriving DecidableEq, Repr

/-- A window record (R208, Table 9.4). -/
structure WinRec where
  job : Nat
  window : Nat
  rankLo : Nat
  rankHi : Nat
  context : Nat
deriving DecidableEq, Repr

/-- A context record (R209, Tables 9.5 and 9.6). -/
structure Context where
  valid : Bool := false
  partition : Nat := 0
  job : Nat := 0
  tc : Nat := 0
  segments : List Segment := []
deriving DecidableEq, Repr

/-- A rank table (R204): its partitions and its valid entries. -/
structure RankTable where
  parts : List Nat
  entries : Tab Nat
deriving DecidableEq, Repr

/-- An entry of a port's translation cache (R15): context, region and extent-list index, newest first. -/
structure TransEntry where
  ctx : Nat
  region : Nat
  ext : Nat
deriving DecidableEq, Repr

/-- A lease (R241, Table 10.4). -/
structure Lease where
  state : LeaseState
  head : Option Nat
  context : Nat
  duration : Nat
  expiry : Nat
  region : Nat
  first : Nat
  count : Nat
deriving DecidableEq, Repr

/-- A directory entry (R252). -/
structure DirEntry where
  state : DirState := .i
  holder : Nat := 0
  sharers : U8 := 0
deriving DecidableEq, Repr

/-- What a window transaction was asked to do (Table 10.8). -/
inductive WinReq where
  | readShared (h : Nat)
  | readOwn (h : Nat)
  | memInv (h : Nat)
  | hostRead (h : Nat)
  | hostWrite (h : Nat) (data : Line) (en : U64)
  | evict (h : Nat)
  | other (acc : OtherAccess)
  /-- an access of a descriptor or a Swearis request, which is made again once the snoops are answered -/
  | deferred (write : Bool)
  /-- clients of a mirrored write: a descriptor, and a Swearis request with its reply -/
  | job (id : Nat)
  | packet (port : Nat) (p : Packet)
deriving DecidableEq, Repr

/-- A window transaction waiting on snoops (R253). -/
structure WinTxn where
  region : Nat
  line : Nat
  req : WinReq
  waiting : List Nat
  started : Nat
  /-- of an access of a descriptor or a Swearis request: the descriptor, and the stream -/
  who : Option Nat × Stream := (none, .other)
  /-- a snoop went unanswered: the access that waits ends with TIMEOUT (R254) -/
  failed : Bool := false
deriving DecidableEq, Repr

/-- A request that found its window line busy, with its age (R253). -/
structure WinWait where
  region : Nat
  line : Nat
  req : WinReq
  who : Option Nat × Stream := (none, .other)
  age : Nat := 0
  reserved : Bool := false
deriving DecidableEq, Repr

/-- A committed HDM decoder (R234, R251). -/
structure Decoder where
  base : Nat
  size : Nat
  ways : Nat
  gran : Nat
  dpaBase : Nat
  bi : Bool
  noBiRaised : Bool := false
deriving DecidableEq, Repr

/-- An accepted or offered dynamic-capacity extent (R237, R238). -/
structure DcExtent where
  dpa : Nat
  length : Nat
  region : Nat
  r : Bool
  w : Bool
  offset : Nat
  duration : Nat
  lease : Option Nat := none
  /-- the host has released it, and its lease is ending (R240) -/
  released : Bool := false
deriving DecidableEq, Repr

/-- A record of a head's CXL event log (R306, R243): log number and the words of the record. -/
structure CxlEvent where
  log : Nat
  handle : Nat
  payload : List U64
deriving DecidableEq, Repr

/-- A CXL head (R233 to R236, R306). -/
structure Head where
  linkUp : Bool := false
  /-- the rate, in GT/s, and the width at which the link trained (R232) -/
  rate : Nat := 0
  width : Nat := 0
  removed : Bool := false
  d3hot : Bool := false
  cfgReady : Bool := false
  decoders : Tab Decoder := []
  dcr : Tab Nat := []
  doorbell : Option Nat := none
  offered : List DcExtent := []
  extents : List DcExtent := []
  events : List CxlEvent := []
  nextHandle : Nat := 1
  intPolicy : U32 := 0
  tsOffset : U64 := 0
  alertCfg : U128 := 0
  ideKeys : List (Nat × Nat) := []
  lastRefused : Tab Nat := []
deriving DecidableEq, Repr

/-- Cumulative credit counts of one class (R190). -/
structure CreditCount where
  hdr : U16 := 0
  data : BitVec 20 := 0
deriving DecidableEq, Repr

/-- A packet queued for egress with the time it entered and the time it reached the head of its class. -/
structure EgressPkt where
  p : Packet
  at_ : Nat
deriving DecidableEq, Repr

/-- A sent DATA frame not yet acknowledged (R184), with the number of times it was replayed, since when the packet whose HEAD slot it
carries had stood in the egress queue (R215), and the packet whose last slot it carries. -/
structure TxFrame where
  f : Frame
  sentAt : Nat
  replays : Nat := 0
  headAt : Option Nat := none
  ends : Option Packet := none
deriving DecidableEq, Repr

/-- A token bucket (R227): level in tenths of a byte, and the time it was last refilled. -/
structure Bucket where
  level : Nat
  at_ : Nat
deriving DecidableEq, Repr

/-- A Swearis port: link layer (R179 to R203), egress queues, policing, gates (R227 to R230). -/
structure Port where
  state : PortState := .disabled
  since : Nat := 0
  attempt : Nat := 1
  retrainTimes : List Nat := []
  flapping : Bool := false
  /-- the step of a retrain: 0 EQUALISE, 1 ALIGN, 2 PARAM -/
  retrainStep : Nat := 0
  /-- the PARAM phase being sent (Table 8.5) -/
  phase : Nat := 0
  partnerId : U64 := 0
  txNext : U12 := 0
  unacked : List TxFrame := []
  lastAck : Option U12 := none
  rxExp : U12 := 0
  rxAny : Bool := false
  rxUnacked : Nat := 0
  rxFirstUnacked : Nat := 0
  nakSince : Option Nat := none
  /-- the number that the partner expects, by its AUDIT (R196) -/
  replayFrom : Option U12 := none
  badRun : Nat := 0
  badTimes : List Nat := []
  /-- SWn.CREDIT_ADV, as (header, data) per class (R189), and what was advertised at the last PARAM -/
  creditAdv : List (Nat × Nat) := List.replicate 8 (512, 2048)
  advInForce : List (Nat × Nat) := List.replicate 8 (0, 0)
  partnerAdv : List (Nat × Nat) := List.replicate 8 (0, 0)
  consumed : List CreditCount := List.replicate 8 {}
  partnerFreed : List CreditCount := List.replicate 8 {}
  freed : List CreditCount := List.replicate 8 {}
  returned : List CreditCount := List.replicate 8 {}
  restored : List (Nat × Nat) := List.replicate 8 (0, 0)
  crNext : Nat := 0
  rxPartial : Option Packet := none
  rxBuf : List Packet := []
  /-- whole packets received before the last DOWN and still to be delivered (R198) -/
  rxOld : List Packet := []
  egress : List EgressPkt := []
  nonce : U64 := 0
  keyEpoch : U64 := 0
  keyPhase : Bool := false
  keyFrames : Nat := 0
  rxKeyPhase : Bool := false
  /-- the HELLO bodies of the key exchange under way, own and partner's, the chain received so far, the number of the own ECDH pair (R195) -/
  ownHello : List Byte := []
  partnerHello : List Byte := []
  partnerChain : List Byte := []
  ecdhNo : Nat := 0
  /-- the link keys (R200, R201): the secret and the salt that they come from, the key frames are sent under, the receiver's present key
  and the one it holds for the next phase, and the epoch of the present one; all zero until KEYS is complete -/
  linkSecret : BitVec 384 := 0
  linkSalt : BitVec 512 := 0
  txKey : BitVec 256 := 0
  rxKey : BitVec 256 := 0
  rxNextKey : BitVec 256 := 0
  rxEpoch : U64 := 0
  /-- since when a class waits for credit, with the time up to which SWn.CREDIT_STALL has counted the wait (R202) -/
  stallSince : Tab (Nat × Nat) := []
  /-- up to when SWn.GATE_HOLD has counted the wait of a class that its gate holds (R230) -/
  gateSince : Tab Nat := []
  /-- latencies measured in the present window: their sum and number (R215) -/
  latSum : Nat := 0
  latCount : Nat := 0
  /-- up to when SWn.EXCLUDED has counted a present exclusion (R231) -/
  exclSince : Option Nat := none
  /-- when the port last took its telemetry samples (R231) -/
  sampledAt : Nat := 0
  buckets : Tab Bucket := []
  /-- gates (R228, R229): gating in force, schedule in force, offset in force, and the pending change -/
  gateOn : Bool := false
  gateB : Bool := false
  gateOffset : Nat := 0
  trans : List TransEntry := []
deriving DecidableEq, Repr

/-- A routing entry (Table 9.9). -/
structure Route where
  spray : U32
  escapePort : Nat
deriving DecidableEq, Repr

/-- A routing-table version (R222, R223). -/
structure RtVersion where
  state : RtState := .invalid
  routes : Tab Route := []
deriving DecidableEq, Repr

/-- What an outstanding request of Feryth serves (R212). -/
inductive Purpose where
  | moverRead (job off : Nat)
  | moverWrite (job : Nat)
  | mirror (id : Nat)
  | resync
  | huanik
deriving DecidableEq, Repr

/-- An outstanding request (R212, R220). -/
structure OutReq where
  tag : Nat
  pkt : Packet
  unit : Domain
  sentAt : Nat
  resent : Bool := false
  port : Nat
  purpose : Purpose
deriving DecidableEq, Repr

/-- The record of a sent packet, kept 200 µs (R218). -/
structure SendRec where
  flow : FlowId
  seq : U24
  pkt : Packet
  sentAt : Nat
deriving DecidableEq, Repr

/-- A packet in the reorder buffer (R216): the port it came by, and the partition it is charged to, none where the common part is. -/
structure HeldPkt where
  port : Nat
  pkt : Packet
  part : Option Nat := none
deriving DecidableEq, Repr

/-- The destination's state of a flow (R216, R217): the expected number, the packets held with the port they came by,
and the missing numbers with the time each began to be missing. -/
structure FlowRx where
  flow : FlowId
  e : U24
  held : List HeldPkt := []
  missing : List (U24 × Nat) := []
  /-- numbers ahead of `e` already declared lost (R217, R219) -/
  gone : List U24 := []
deriving DecidableEq, Repr

/-- A mirrored client write waiting for its acknowledgement (R317, R324). -/
structure MirrorWrite where
  id : Nat
  region : Nat
  offset : Nat
  lines : List Line
  /-- how the client's write is completed -/
  client : WinReq
  failed : Bool := false
deriving DecidableEq, Repr

/-- A paired-region entry (Table 13.2). -/
structure PairEntry where
  region : Nat := 0
  valid : Bool := false
  partnerAddr : Nat := 0
deriving DecidableEq, Repr

/-- One of the two paths of a pair (R321). -/
structure Path where
  failed : Bool := true
  missed : Nat := 0
  good : Nat := 0
  seen : Bool := false
  lastSeq : Option U32 := none
  failedAt : Nat := 0
deriving DecidableEq, Repr

/-- A resync in progress (R328): whether it is full, the pages still to copy as (entry, page), and how many there
were. -/
structure Resync where
  full : Bool
  todo : List (Nat × Nat)
  total : Nat
deriving DecidableEq, Repr

/-- The pair record (Table 13.1) and the pair machinery (R313 to R333). -/
structure Pair where
  enable : Bool := false
  role : Role := .offline
  sync : Sync := .unsynced
  split : Bool := false
  fullResync : Bool := false
  discMs : Nat := 50
  resyncShare : Nat := 25
  partnerEp : Nat := 0xFFFF
  mirrorJob : Nat := 0
  mirrorWindow : Nat := 0
  patrolHours : Nat := 1
  partnerId : U64 := 0
  claim : U64 := 0
  seenClaim : U64 := 0
  seenId : U64 := 0
  entries : Tab PairEntry := []
  fabric : Path := {}
  ring : Path := {}
  disagreeSince : Option Nat := none
  bothFailedAt : Option Nat := none
  isolated : Bool := false
  hbSeq : U32 := 0
  partner : Option Heartbeat := none
  ownReturn : Option Nat := none
  ringHops : Nat := 0
  ringWhole : Bool := false
  singleton : Bool := false
  brokenRaised : Bool := false
  mirrors : List MirrorWrite := []
  nextMirror : Nat := 0
  holdSince : Option Nat := none
  alone : Bool := false
  pendingPages : List (Nat × Nat) := []
  resync : Option Resync := none
  superseded : Bool := false
  returnRequest : Bool := false
  requestAt : Nat := 0
  retryAt : Option Nat := none
  handoffReady : Bool := false
  quiescing : Bool := false
  quiescedAt : Nat := 0
  prefRaised : Bool := false
  engineFail : Nat := 0
  loopbackFail : Nat := 0
  patrolCe : Nat := 0
  patrolUe : Nat := 0
  patrolPos : Nat := 0
  patrolStart : Nat := 0
  ringLock : Bool := false
deriving DecidableEq, Repr

/-- An update-journal record (R308). -/
structure FwRecord where
  number : Nat
  state : FwState
  slotB : Bool
  confirmedB : Bool
  trialBoots : Nat
  digest : BitVec 384
deriving DecidableEq, Repr

/-- Fuses of one life-cycle transition (R276). -/
structure TransFuses where
  intent : Bool := false
  data : Bool := false
  commit : Bool := false
deriving DecidableEq, Repr

/-- The flash configuration in force (R378). -/
structure FlashCfg where
  bifurcated : BitVec 4 := 0
  swEnable : U32 := 0xFFFFFFFF
  transitMode : Bool := false
  k : Nat := 8
deriving DecidableEq, Repr

/-- Boot, life cycle, pins and the always-on island (Chapters 12, 14 to 17). -/
structure Sys where
  stage : Stage := .rom
  lifeCycle : LifeCycle := .manufactured
  bootSlotB : Bool := false
  trial : Bool := false
  trialBoots : Nat := 0
  reverted : Bool := false
  warm : Bool := false
  deviceGen : U8 := 0
  modeGen : U8 := 0
  runtimeSvn : U16 := 0
  loadStatus : U8 := 0
  /-- pins: true is high; WARM_N is seen as pulses (log entry 47) -/
  vddAon : Bool := true
  powerGood : Bool := false
  resetN : Bool := false
  perstAsserted : BitVec 4 := 0xF
  perstPending : BitVec 4 := 0
  trainStarted : BitVec 4 := 0
  outputsHiZ : Bool := true
  mringByp : PinLevel := .hiZ
  therm : Bool := false
  causeHalted : Bool := false
  causeStart : Bool := false
  causeFatal : Bool := false
  causeTrip : Bool := false
  /-- the retention flag and the trip record of AON (R374, R365) -/
  retain : Bool := false
  selfRefresh : Bool := false
  /-- a memory rail left its range since POWER_GOOD was last asserted (R374) -/
  railFault : Bool := false
  /-- the memory controllers have been told to enter self-refresh, within 20 µs (R374) -/
  srPending : Bool := false
  trips : U16 := 0
  tripIsland : U16 := 0
  tripRaise : Bool := false
  islandsOff : Bool := false
  straps : Straps := {}
  inDome : Bool := false
  domeReqAt : Option Nat := none
  domeEntered : Nat := 0
  /-- flash: configuration, update journal, fuse journal, image slots as bytes -/
  cfg : FlashCfg := {}
  journal : List FwRecord := []
  downloading : Bool := false
  flash : List Host.Cell := []
  /-- the token in the fuse journal sector: its transition, and its owner-key hash and security-version floor (R276) -/
  fuseToken : Option Nat := none
  fuseOwner : BitVec 384 := 0
  fuseFloor : U16 := 0
  fuses : Tab TransFuses := []
  /-- what the boot ROM found, while a pending transition stops the start (R277) -/
  found : BootFindings := {}
  svnFloor : U16 := 0
  ownerHash : BitVec 384 := 0
  /-- the runtime load: bytes received and total (R304) -/
  loadGot : Nat := 0
  loadTotal : Nat := 0
  /-- counts of measurements taken per block (R274) -/
  measCounts : Tab Nat := []
  runtimeDigest : BitVec 384 := 0
  runtimeLoaded : Bool := false
  /-- the time from which a reset or Dome extends leases (R347, R368) -/
  outageFrom : Option Nat := none
  /-- leases take a full duration at RUNNING after a RETAINED cold start (R388) -/
  coldRetained : Bool := false
  startedAt : Nat := 0
  warmPhase : Bool := false
  undrained : Bool := false
  heartbeatAt : Nat := 0
  /-- events of a start wait until the ring exists (R391) -/
  startEvents : List Event := []
  deadAtStart : List Nat := []
deriving DecidableEq, Repr

/-- Device metadata placement (R29, R384): the slots of the two copies as (unit, slot), in metadata order; k and seq. The
lines of the two copies live in the pool. -/
structure MetaPlace where
  present : Bool := false
  copy0 : List (Nat × Nat) := []
  copy1 : List (Nat × Nat) := []
  k : Nat := 8
  seq : U64 := 0
deriving DecidableEq, Repr

/-- A rebuild of a subchannel (R167 to R171). -/
structure Rebuild where
  unit : Nat
  dead : Bool
  /-- used slots still to move, in order; metadata slots first -/
  todo : List Nat
  /-- extents affected: those to move when the rebuild was declared -/
  total : Nat := 0
  /-- the slot being moved, its destination, and its page cursor -/
  cur : Option (Nat × Nat × Nat) := none
  cursor : Nat := 0
  op : Option Nat := none
  started : Bool := false
  stayed : List Nat := []
deriving DecidableEq, Repr

/-- A long command in progress (R295): its operation number and what it works on. -/
inductive LongOp where
  | tenantChange (p : Nat) (destroy : Bool)
  | addUnit (p m : Nat)
  | regionDestroy (r : Nat)
  | migrate (r : Nat)
  | modeChange
  | rebuild (unit : Nat)
deriving DecidableEq, Repr

/-- A REGION_CREATE waiting for slots to be cleared (R265). -/
structure PendingCreate where
  hdr : CmdHdr
  region : Nat
  rec_ : Region
deriving DecidableEq, Repr

/-- A chain of one element of at most 64 KiB that Huanik has on a data mover, for the page at the cursor of a migration or a rebuild
(R139): its mover and channel, and the number of the descriptor dispatched after it. -/
structure CoreChain where
  mover : Nat
  channel : Nat
  before : Nat
  /-- the region under migration, or the subchannel under rebuild -/
  rebuild : Bool
  of_ : Nat
deriving DecidableEq, Repr

/-- The mode staged by a MODE_CHANGE (R350) and the units still to acknowledge. -/
structure StagedMode where
  mode : ModeIn
  waiting : List (UnitKind × Nat)
  since : Nat
  op : Nat
deriving DecidableEq, Repr

/-- A reset waiting for the tag rate limit (R339). -/
structure DeferredReset where
  dom : Domain
  cause : Nat
deriving DecidableEq, Repr

/-- Huanik's own state: long operations, the mode staged, the turn of the sources (R26), pacing (R262). -/
structure Huanik where
  opNo : Nat := 0
  ops : List (Nat × LongOp) := []
  waitingCreate : List PendingCreate := []
  staged : Option StagedMode := none
  turn : Nat := 32
  formats : BitVec 5 := 0x1F
  arbFixed : Bool := false
  paceUs : Nat := 0
  /-- by partition, its last slot boundary under pacing, and whether a command has started there (R262) -/
  paceAt : Tab (Nat × Bool) := []
  paced : Tab (Status × List U64 × U32 × U16) := []
  /-- the metadata line behind the last list given out; line 0 holds the header (R384) -/
  nextMetaLine : Nat := 1
deriving DecidableEq, Repr

/-- The device event ring counts (Table 12.1) and the number dropped since the last EVENTS_LOST. -/
structure Evt where
  tail : U32 := 0
  head : U32 := 0
  lost : U64 := 0
  unreported : Nat := 0
deriving DecidableEq, Repr

/-- Power, clocks and temperature (Chapter 15). Temperatures in units of 0.125 °C, power in mW. -/
structure Power where
  /-- the draw of each island in the samples of the present grant period -/
  samples : List (List Nat) := []
  islandMw : Tab Nat := []
  islandTemp : Tab Nat := []
  drawMw : Nat := 0
  tj : Nat := 0
  hist : List Nat := []
  enginePoint : Nat := 0
  lentMw : Nat := 0
  episode : Option Nat := none
  lastEnd : Option Nat := none
  unmetRun : Nat := 0
  unmetRaised : Bool := false
  belowRun : Nat := 0
  issueDiv : Nat := 1
  ceiling : Nat := 2000
  throttled : Bool := false
  thermalDiv : Nat := 1
  /-- when the issue rate was last halved for heat, and the hottest island -/
  limitAt : Nat := 0
  hottest : Nat := 0
  rowThrottleSeen : Bool := false
  endCause : Option Nat := none
  lastGrant : Nat := 0
  /-- picojoules of the draw not yet counted in PWR.ENERGY_UJ -/
  energyPj : Nat := 0
  /-- points granted to each partition's busy engines under PWR.LEND_SCOPE PARTITION (R358) -/
  points : Tab Nat := []
  /-- the frequency in MHz that the last grant gave each engine that was busy; it clock-gated every other one (R358) -/
  engineMhz : Tab Nat := []
  voltages : Tab Nat := []
  vddCoreMv : Nat := 800
deriving DecidableEq, Repr

/-- The TAP (R283, R405 to R408). -/
structure Tap where
  instr : TapInstr := .idcode
  boundary : Nat := 0
  driving : Bool := false
  /-- an instruction that takes the pins has taken effect since the last start (R408) -/
  scanned : Bool := false
deriving DecidableEq, Repr

/-- An arbitration point of the crossbar (R24, R261): the participant granted last, the round that its grants have reached, and the round
in which each participant had its last line; participant 32 is the transit traffic. -/
structure ArbPoint where
  last : Nat := 32
  round : Nat := 0
  rounds : Tab Nat := []
deriving DecidableEq, Repr

/-- What spraying knows of a port in a spray set (R215): windows in a row above and below the bounds, its exclusion, and the latency that
was last measured. -/
structure SprayRun where
  spray : U32
  port : Nat
  slow : Nat := 0
  good : Nat := 0
  excluded : Bool := false
  lat : Option Nat := none
deriving DecidableEq, Repr

/-- The routing layer (Chapter 9). -/
structure Routing where
  v0 : RtVersion := {}
  v1 : RtVersion := {}
  lastPort : Tab Nat := []
  rotate : Nat := 0
  txNext : List (FlowId × U24) := []
  txSeen : List FlowId := []
  records : List SendRec := []
  flows : List FlowRx := []
  reqs : List OutReq := []
  nextTag : Nat := 0
  sprays : List SprayRun := []
  /-- when the present latency window began (R215) -/
  windowAt : Nat := 0
deriving DecidableEq, Repr

/-- Everything of the device but the command and response counts of the mailbox. -/
structure Dev where
  now : Nat := 0
  free : Nat := 0
  out : List Output := []
  sys : Sys := {}
  evt : Evt := {}
  sram : List Host.Cell := []
  intEnable : BitVec 3 := 0
  heartbeat : U64 := 0
  ctr : List (Ctr × U64) := []
  params : Tab U64 := []
  pool : Pool := {}
  units : Tab MemUnit := []
  metaPlace : MetaPlace := {}
  parts : Tab Partition := []
  partRings : Tab PartRing := []
  partMbx : Tab PartMbx := []
  /-- the key slots in SEC, and the wrapped keys in the two copies of device metadata, by partition (R268, R270) -/
  keys : Tab KeySlot := []
  wrapped0 : Tab KeySlot := []
  wrapped1 : Tab KeySlot := []
  keyCount : Nat := 0
  groups : Tab Group := []
  queues : Tab Queue := []
  jobs : List Job := []
  nextJob : Nat := 0
  tallies : Tab Tally := []
  pairs : List TallyPair := []
  objs : Tab Obj := []
  seqPages : Tab SeqPages := []
  nearUsed : List Nat := []
  regions : Tab Region := []
  /-- regions created and promoted so far: the order of R40 -/
  serial : Nat := 0
  waitClear : List (Nat × Nat) := []
  rebuilds : List Rebuild := []
  spareUsed : List (Nat × Nat) := []
  hourStart : Nat := 0
  /-- twice the median of the previous hour's new locations, per tier (R156) -/
  peerMedian : Nat × Nat := (0, 0)
  ctxs : Tab Context := []
  wins : Tab WinRec := []
  ranks : Tab RankTable := []
  cxlTrans : Tab (List TransEntry) := []
  heads : Tab Head := []
  leases : Tab Lease := []
  dir : Tab DirEntry := []
  dirCached : List Nat := []
  winTxns : List WinTxn := []
  winWaits : List WinWait := []
  ports : Tab Port := []
  /-- the arbitration points, by quadrant -/
  arb : Tab ArbPoint := []
  rt : Routing := {}
  /-- the tag of every queue that has no record: it moves at a warm reset alone -/
  queueGen0 : U8 := 0
  engGen : Tab U8 := []
  movGen : Tab U8 := []
  unitGen : Tab U8 := []
  portGen : Tab U8 := []
  headGen : Tab U8 := []
  tagTimes : List (Domain × Nat) := []
  deferred : List DeferredReset := []
  engReset : Tab Nat := []
  engFailed : U64 := 0
  pair : Pair := {}
  hk : Huanik := {}
  pow : Power := {}
  tap : Tap := {}
  /-- chains that Huanik has on the data movers, oldest first (R139) -/
  copies : List CoreChain := []
  /-- the descriptor under way -/
  cur : Option Nat := none
  /-- the requester of the operation under way, as R175 tells streams apart -/
  stream : Stream := .other
  /-- writes of the management cores that wait at their line, oldest first -/
  coreWrites : List CoreWrite := []
  /-- lost metadata structures on which Huanik still has to act (R345) -/
  lostMeta : List MetaStruct := []
  /-- the operation under way met a line it must wait for, and is made again later (R253, R324, R328) -/
  again : Bool := false
  /-- extents that a waiting write moves to the front of their rebuild (R169): (unit, slot) -/
  wantFront : List (Nat × Nat) := []
  /-- window lines (region, line) whose finished snoops the operation under way has used -/
  winDone : List (Nat × Nat) := []
deriving DecidableEq, Repr

/-- The mailbox registers of commands, responses and ownership (Table 12.1). -/
structure Mbx where
  epoch : U16 := 0
  ownerHead : Nat := 0
  owned : Bool := false
  hostSeq : U32 := 0
  devSeq : U32 := 0
  rspHead : U32 := 0
  fenced : U64 := 0
  refused : U64 := 0
deriving DecidableEq, Repr

/-- The machine: the commands that wait, first in first out; the mailbox; the rest of the device. -/
structure State where
  pending : List Instr := []
  mbx : Mbx := {}
  dev : Dev := {}
deriving DecidableEq, Repr

/-- The ways a step can fault. -/
inductive Fault where
  /-- LINE_READ, LINE_WRITE or READ_MODIFY_WRITE named a line that no trained memory unit has (R28). Safe: the hardware has
  no such line. -/
  | absentLine
deriving DecidableEq, Repr

/-- The ways a step can refuse. -/
inductive Refusal where
  /-- an instruction whose meaning is not written yet, raised by `exec` alone. Safe: the model stops. -/
  | notModelled (mnemonic : String)
deriving DecidableEq, Repr

/-- The machine after power-up with RESET_N low (R371, R373): VDD_AON is up, RETAIN is clear, nothing is stored, every
register at the value the spec gives it and, where it gives none, at the value the log names (entry 2). -/
def State.reset : State := {}

end Sys2Proof.Machine
end

