-- ==== Sys2Proof/Machine/Ops.lean ====
section
/-! DEFINITION. Named operations over tables, memory, counters, parameters, tags and events. -/

namespace Sys2Proof.Machine

open Sys2Proof

/-! ## Sparse tables -/

/-- The entry of key `k`. -/
def tget {α : Type} (t : Tab α) (k : Nat) : Option α :=
  match t with
  | [] => none
  | (j, v) :: r => if j = k then some v else tget r k

/-- The entry of key `k`, or `dflt`. -/
def tgetD {α : Type} (t : Tab α) (k : Nat) (dflt : α) : α := (tget t k).getD dflt

/-- Set the entry of key `k`, keeping keys in rising order. -/
def tset {α : Type} (t : Tab α) (k : Nat) (v : α) : Tab α :=
  match t with
  | [] => [(k, v)]
  | (j, w) :: r => if j = k then (k, v) :: r else if k < j then (k, v) :: (j, w) :: r else (j, w) :: tset r k v

/-- Remove the entry of key `k`. -/
def terase {α : Type} (t : Tab α) (k : Nat) : Tab α := t.filter (fun p => p.1 != k)

/-- Apply `f` to the entry of key `k`, starting from `dflt` where there is none. -/
def tmod {α : Type} (t : Tab α) (k : Nat) (dflt : α) (f : α → α) : Tab α := tset t k (f (tgetD t k dflt))

/-- Element `i` of a list, or `dflt`. -/
def lgetD {α : Type} (l : List α) (i : Nat) (dflt : α) : α := (l[i]?).getD dflt

/-- Replace element `i` of a list. -/
def lset {α : Type} (l : List α) (i : Nat) (v : α) : List α := l.set i v

/-- Bit `i` of a bit vector. -/
def bit {n : Nat} (x : BitVec n) (i : Nat) : Bool := x.getLsbD i

/-- Bits of a mask, in rising order. -/
def bitsOf {n : Nat} (x : BitVec n) : List Nat := (List.range n).filter (fun i => x.getLsbD i)

/-- `x` with bit `i` set to `b`. -/
def putBit {n : Nat} (x : BitVec n) (i : Nat) (b : Bool) : BitVec n :=
  if b then x ||| (1#n <<< i) else x &&& ~~~(1#n <<< i)

/-- The field of `x` at bits [lo + w - 1 : lo], as a number. -/
def field {n : Nat} (x : BitVec n) (lo w : Nat) : Nat := (x.toNat / 2 ^ lo) % 2 ^ w

/-! ## Byte memories in canonical form

Addresses strictly rise, and no listed byte is 0, which is what an unlisted address reads as (log entry 1). -/

/-- The byte at address `a`. -/
def memRead (m : List Host.Cell) (a : Nat) : Byte :=
  match m with
  | [] => 0
  | (b, v) :: r => if b = a then v else memRead r a

/-- Write byte `v` at address `a`, keeping the canonical form. -/
def memWrite (m : List Host.Cell) (a : Nat) (v : Byte) : List Host.Cell :=
  match m with
  | [] => if v = 0 then [] else [(a, v)]
  | (b, w) :: r =>
    if b = a then (if v = 0 then r else (a, v) :: r)
    else if a < b then (if v = 0 then (b, w) :: r else (a, v) :: (b, w) :: r)
    else (b, w) :: memWrite r a v

/-- The canonical form: addresses above `lo` strictly rise, and no listed byte is 0. -/
def memWfFrom (lo : Nat) (m : List Host.Cell) : Bool :=
  match m with
  | [] => true
  | (a, v) :: r => decide (lo ≤ a) && v != 0 && memWfFrom (a + 1) r

/-- The canonical form of a byte memory. -/
def memWf (m : List Host.Cell) : Bool := memWfFrom 0 m

/-- Write a list of bytes from address `a` upwards. -/
def memWriteList (m : List Host.Cell) (a : Nat) (bs : List Byte) : List Host.Cell :=
  match bs with
  | [] => m
  | b :: r => memWriteList (memWrite m a b) (a + 1) r

/-- The `n` bytes from address `a` upwards. -/
def memReadList (m : List Host.Cell) (a n : Nat) : List Byte := (List.range n).map (fun i => memRead m (a + i))

/-- The bytes of a bit vector, least significant first (R5). -/
def bytesOf {w : Nat} (n : Nat) (x : BitVec w) : List Byte :=
  (List.range n).map (fun i => BitVec.ofNat 8 (x.toNat / 2 ^ (8 * i)))

/-- A number from bytes, least significant first (R5). -/
def natOfBytes (bs : List Byte) : Nat := bs.foldr (fun b acc => b.toNat + 256 * acc) 0

/-- Clear the `n` bytes from address `a` upwards to zero. -/
def memClear (m : List Host.Cell) (a n : Nat) : List Host.Cell := m.filter (fun c => !(decide (a ≤ c.1) && decide (c.1 < a + n)))

/-- Copy the `n` bytes at `src` over those at `dst`; every other byte stays. -/
def memCopy (m : List Host.Cell) (src dst n : Nat) : List Host.Cell :=
  (m.filter (fun c => decide (src ≤ c.1) && decide (c.1 < src + n))).foldl
    (fun acc c => memWrite acc (c.1 - src + dst) c.2) (memClear m dst n)

/-- The 64-byte line at byte address `a`. -/
def memReadLine (m : List Host.Cell) (a : Nat) : Line := BitVec.ofNat 512 (natOfBytes (memReadList m a 64))

/-- Write a 64-byte line at byte address `a`. -/
def memWriteLine (m : List Host.Cell) (a : Nat) (d : Line) : List Host.Cell := memWriteList m a (bytesOf 64 d)

/-- `old` with the bytes enabled in `en` taken from `new` (R151). -/
def mergeBytes (old new : Line) (en : U64) : Line :=
  BitVec.ofNat 512 (natOfBytes ((List.range 64).map (fun i =>
    if en.getLsbD i then BitVec.ofNat 8 (new.toNat / 2 ^ (8 * i)) else BitVec.ofNat 8 (old.toNat / 2 ^ (8 * i)))))

/-! ## Lifting to the machine -/

/-- The state with another queue of waiting commands. -/
def State.withQueue (s : State) (q : List Instr) : State := { s with pending := q }

/-- Idling: nothing is commanded, nothing is emitted, and the clock advances by one nanosecond (log entry 8). -/
def idle (s : State) : State := { s with dev := { s.dev with out := [], now := s.dev.now + 1 } }

/-- Run `f` on the device, with the outputs of earlier commands cleared. -/
def State.onDev (s : State) (f : Dev → Dev) : State := { s with dev := f { s.dev with out := [] } }

/-- The outcome of a command that changes only the device. -/
def devStep (f : Dev → Dev) (s : State) : Host.Outcome State Fault Refusal := .next (s.onDev f)

/-- Emit an output. -/
def Dev.emit (d : Dev) (o : Output) : Dev := { d with out := d.out ++ [o] }

/-- A command whose precondition does not hold has no effect (log entry 9). -/
def Dev.guard (d : Dev) (b : Bool) (f : Dev → Dev) : Dev := if b then f d else d

/-- Whether the islands run: from AWAIT_RUNTIME to a reset, a trip or Dome (R363, R365, R366, R377). -/
def Sys.live (x : Sys) : Bool :=
  x.resetN && !x.islandsOff && !x.inDome && !x.causeStart &&
  (x.stage == .awaitRuntime || x.stage == .loading || x.stage == .running || x.stage == .halted)

/-- The outcome of a command that the islands carry out: without effect while they do not run (log entry 9). -/
def liveStep (f : Dev → Dev) (s : State) : Host.Outcome State Fault Refusal := devStep (fun d => d.guard d.sys.live f) s

/-- Move the clock to a due time, if it lies ahead (log entry 8). -/
def Dev.reach (d : Dev) (t : Nat) : Dev := { d with now := max d.now t }

/-- Take the next free value (log entry 3). -/
def Dev.drawWord (d : Dev) : U64 × Dev := (Config.freeWord d.free, { d with free := d.free + 1 })

/-- Take the next free line (log entry 3). -/
def Dev.drawLine (d : Dev) : Line × Dev := (Config.freeLine d.free, { d with free := d.free + 1 })

/-! ## Counters and parameters -/

/-- The value of a counter. -/
def ctrGet (l : List (Ctr × U64)) (c : Ctr) : U64 :=
  match l with
  | [] => 0
  | (x, v) :: r => if x = c then v else ctrGet r c

/-- Add `n` to a counter. -/
def ctrAdd (l : List (Ctr × U64)) (c : Ctr) (n : Nat) : List (Ctr × U64) :=
  match l with
  | [] => [(c, BitVec.ofNat 64 n)]
  | (x, v) :: r => if x = c then (x, v + BitVec.ofNat 64 n) :: r else (x, v) :: ctrAdd r c n

/-- Set a counter; only DI.UNIT_NEW is ever set, to zero (R156). -/
def ctrPut (l : List (Ctr × U64)) (c : Ctr) (v : U64) : List (Ctr × U64) :=
  match l with
  | [] => [(c, v)]
  | (x, w) :: r => if x = c then (x, v) :: r else (x, w) :: ctrPut r c v

/-- The value of a counter of the device. -/
def Dev.count (d : Dev) (c : Ctr) : U64 := ctrGet d.ctr c

/-- Add `n` to a counter of the device. -/
def Dev.bump (d : Dev) (c : Ctr) (n : Nat := 1) : Dev := { d with ctr := ctrAdd d.ctr c n }

/-- The reset value of each parameter of Table 12.12. -/
def paramDefault (code : Nat) : U64 :=
  match code with
  | 0x0002 => 1
  | 0x0010 => 24
  | 0x0011 => 2048
  | 0x0012 => 50
  | 0x0020 => 20
  | 0x0021 => 1000
  | 0x0022 => 50
  | 0x0023 => 100
  | 0x0024 => 0x400007FF
  | 0x0030 => 16
  | 0x0031 => 16
  | 0x0032 => 10
  | 0x0040 => 1000
  | 0x0041 => 1000
  | 0x0042 => 100
  | 0x0043 => 100
  | 0x0044 => 10
  | 0x0050 => 450
  | 0x0051 => 520
  | 0x0052 => 1
  | 0x0053 => 95
  | _ => 0

/-- A parameter's present value. -/
def Dev.param (d : Dev) (code idx : Nat) : U64 := tgetD d.params (code * 65536 + idx) (paramDefault code)

/-- Set a parameter. -/
def Dev.setParam (d : Dev) (code idx : Nat) (v : U64) : Dev :=
  { d with params := tset d.params (code * 65536 + idx) v }

/-- RT.SELF_EP (R204). -/
def Dev.selfEp (d : Dev) : Nat := (d.param 0x0001 0).toNat

/-! ## Records by number -/

/-- Memory unit m. -/
def Dev.unit (d : Dev) (m : Nat) : MemUnit := tgetD d.units m {}
/-- Change memory unit m. -/
def Dev.modUnit (d : Dev) (m : Nat) (f : MemUnit → MemUnit) : Dev := { d with units := tmod d.units m {} f }
/-- Partition p. -/
def Dev.partn (d : Dev) (p : Nat) : Partition := tgetD d.parts p {}
/-- Change partition p. -/
def Dev.modPart (d : Dev) (p : Nat) (f : Partition → Partition) : Dev := { d with parts := tmod d.parts p {} f }
/-- Queue q. -/
def Dev.queue (d : Dev) (q : Nat) : Queue := tgetD d.queues q { gen := d.queueGen0 }
/-- Change queue q. -/
def Dev.modQueue (d : Dev) (q : Nat) (f : Queue → Queue) : Dev := { d with queues := tmod d.queues q { gen := d.queueGen0 } f }
/-- Port n. -/
def Dev.port (d : Dev) (n : Nat) : Port := tgetD d.ports n {}
/-- Change port n. -/
def Dev.modPort (d : Dev) (n : Nat) (f : Port → Port) : Dev := { d with ports := tmod d.ports n {} f }
/-- Head h. -/
def Dev.head (d : Dev) (h : Nat) : Head := tgetD d.heads h {}
/-- Change head h. -/
def Dev.modHead (d : Dev) (h : Nat) (f : Head → Head) : Dev := { d with heads := tmod d.heads h {} f }
/-- Context c. -/
def Dev.context (d : Dev) (c : Nat) : Context := tgetD d.ctxs c {}
/-- Object `i` of region `r`. -/
def objKey (r i : Nat) : Nat := r * 65536 + i
/-- Object record. -/
def Dev.obj (d : Dev) (r i : Nat) : Obj := tgetD d.objs (objKey r i) {}
/-- Change an object record. -/
def Dev.modObj (d : Dev) (r i : Nat) (f : Obj → Obj) : Dev := { d with objs := tmod d.objs (objKey r i) {} f }
/-- The pages of a SEQUENCE region. -/
def Dev.pages (d : Dev) (r : Nat) : SeqPages := tgetD d.seqPages r {}
/-- Change the pages of a SEQUENCE region. -/
def Dev.modPages (d : Dev) (r : Nat) (f : SeqPages → SeqPages) : Dev := { d with seqPages := tmod d.seqPages r {} f }
/-- Dispatch group g of partition p. -/
def groupKey (p g : Nat) : Nat := p * 16 + g
/-- Dispatch group record. -/
def Dev.group (d : Dev) (p g : Nat) : Group := tgetD d.groups (groupKey p g) {}
/-- Change a dispatch group. -/
def Dev.modGroup (d : Dev) (p g : Nat) (f : Group → Group) : Dev := { d with groups := tmod d.groups (groupKey p g) {} f }
/-- Tally counter t. -/
def Dev.tally (d : Dev) (t : Nat) : Tally := tgetD d.tallies t {}
/-- Set tally counter t. -/
def Dev.setTally (d : Dev) (t : Nat) (v : Tally) : Dev := { d with tallies := tset d.tallies t v }
/-- The job with number `id`. -/
def Dev.job (d : Dev) (id : Nat) : Option Job := d.jobs.find? (fun j => j.id == id)
/-- Replace the job with the same number. -/
def Dev.putJob (d : Dev) (j : Job) : Dev := { d with jobs := d.jobs.map (fun x => if x.id == j.id then j else x) }
/-- Remove a job. -/
def Dev.dropJob (d : Dev) (id : Nat) : Dev := { d with jobs := d.jobs.filter (fun x => x.id != id) }

/-! ## Measurements (R274) -/

/-- A measurement block is taken afresh. -/
def Dev.measure (d : Dev) (idx : Nat) : Dev := { d with sys := { d.sys with measCounts := tmod d.sys.measCounts idx 0 (fun n => n + 1) } }

/-- Change a partition record; its measurement block and that of the configuration are taken afresh. -/
def Dev.setPart (d : Dev) (p : Nat) (f : Partition → Partition) : Dev := ((d.modPart p f).measure 5).measure (16 + p)

/-! ## Status, stage and event codes -/

/-- Table 6.5. -/
def statusCode (s : Status) : Nat :=
  match s with
  | .ok => 0 | .part => 1 | .poison => 2 | .uncorrectable => 3 | .bounds => 4 | .rights => 5 | .genStale => 6
  | .linkDown => 7 | .timeout => 8 | .format => 9 | .leaseExpired => 10 | .fenced => 11 | .abandoned => 12
  | .versionGone => 13 | .noResource => 14 | .saturated => 15

/-- The status of a code of Table 6.5. -/
def statusOfCode (n : Nat) : Status :=
  match n with
  | 0 => .ok | 1 => .part | 2 => .poison | 3 => .uncorrectable | 4 => .bounds | 5 => .rights | 6 => .genStale
  | 7 => .linkDown | 8 => .timeout | 9 => .format | 10 => .leaseExpired | 11 => .fenced | 12 => .abandoned
  | 13 => .versionGone | 14 => .noResource | _ => .saturated

/-- A status as an event detail. -/
def statusWord (s : Status) : U64 := BitVec.ofNat 64 (statusCode s)

/-- Table 12.6 with Tables 13.6, 14.7, 15.8, 16.7. -/
def evCode (c : EvCode) : Nat :=
  match c with
  | .commandDone => 0x0001 | .eventsLost => 0x0002 | .driverAttach => 0x0003
  | .doorbellRejected => 0x0101 | .queueError => 0x0102 | .tallySaturated => 0x0103 | .moverAbort => 0x0104
  | .nearPoolFull => 0x0201 | .pagePinned => 0x0202
  | .ueReconstructed => 0x0301 | .ueDemand => 0x0302 | .ueScrub => 0x0303 | .scrubOverdue => 0x0304
  | .ntDegraded => 0x0305 | .rebuildStart => 0x0306 | .rebuildDone => 0x0307 | .spareExhausted => 0x0308
  | .metadataLost => 0x0309 | .rowThrottle => 0x030A | .poisonConsumed => 0x030B
  | .swAuthFail => 0x0401 | .swAbsent => 0x0402 | .swFlapping => 0x0403 | .swSlow => 0x0404
  | .leaseExpired => 0x0501 | .windowLinesLost => 0x0502 | .cxlAccessRefused => 0x0503 | .windowNoBi => 0x0504
  | .biTimeout => 0x0505
  | .pairPathFailed => 0x0601 | .pairPathRestored => 0x0602 | .pairSplit => 0x0603 | .pairSplitCleared => 0x0604
  | .pairTakeover => 0x0605 | .pairDemoted => 0x0606 | .pairResyncStart => 0x0607 | .pairResyncDone => 0x0608
  | .pairReturn => 0x0609 | .pairReturnAbandoned => 0x060A | .pairSingleton => 0x060B | .ringBroken => 0x060C
  | .pairIsolated => 0x060D | .pairNoTakeover => 0x060E | .pairSelftestFail => 0x060F
  | .pairPrefConflict => 0x0610 | .pairClaimSuperseded => 0x0611
  | .unitHung => 0x0701 | .unitReset => 0x0702 | .unitFailed => 0x0703 | .unitRetrain => 0x0704
  | .partResetDone => 0x0705 | .warmResetDone => 0x0706 | .modeAbandoned => 0x0707 | .unitSlow => 0x0708
  | .boostEnd => 0x0801 | .powerLimitUnmet => 0x0802 | .thermalThrottle => 0x0803
  | .thermalThrottleCleared => 0x0804 | .thermalLimit => 0x0805 | .thermalTrip => 0x0806
  | .domeEnter => 0x0807 | .domeWake => 0x0808 | .domeRefused => 0x0809
  | .startRetained => 0x0901 | .startBlank => 0x0902 | .trainFailed => 0x0903 | .metadataDisplaced => 0x0904
  | .configDefaulted => 0x0905 | .startFailed => 0x0906

/-- Unit kinds in event records (Table 12.5). -/
def unitKindCode (k : UnitKind) : Nat :=
  match k with
  | .engine => 0 | .mover => 1 | .subchannel => 2 | .pseudoChannel => 3 | .swPort => 4 | .cxlHead => 5
  | .mgmtCore => 6 | .sec => 7 | .aon => 8 | .xbar => 9

/-- The severity of an event (R409, Table 12.13): 0 INFO, 1 WARNING, 2 ERROR, 3 FATAL. -/
def severity (e : Event) : Nat :=
  match e.code with
  | .commandDone | .driverAttach | .moverAbort | .rebuildDone | .pairPathRestored | .pairSplitCleared
  | .pairResyncStart | .pairResyncDone | .pairReturn | .unitReset | .partResetDone | .warmResetDone | .boostEnd
  | .thermalThrottleCleared | .domeEnter | .domeWake | .startRetained => 0
  | .queueError | .ueDemand | .ueScrub | .spareExhausted | .metadataLost | .poisonConsumed | .swAuthFail
  | .swFlapping | .windowLinesLost | .biTimeout | .pairSplit | .pairIsolated | .pairNoTakeover
  | .pairSelftestFail | .pairClaimSuperseded | .unitFailed | .thermalLimit | .thermalTrip | .trainFailed
  | .startFailed => 2
  | .unitRetrain => if e.detail0 = some 2 then 2 else 0
  | .unitHung =>
    match e.unit with
    | some (.xbar, _) | some (.sec, _) => 3
    | _ => 2
  | .eventsLost | .doorbellRejected | .tallySaturated | .nearPoolFull | .pagePinned | .ueReconstructed
  | .scrubOverdue | .ntDegraded | .rebuildStart | .rowThrottle | .swAbsent | .swSlow | .leaseExpired
  | .cxlAccessRefused | .windowNoBi | .pairPathFailed | .pairTakeover | .pairDemoted | .pairReturnAbandoned
  | .pairSingleton | .ringBroken | .pairPrefConflict | .modeAbandoned | .unitSlow | .powerLimitUnmet
  | .thermalThrottle | .domeRefused | .startBlank | .metadataDisplaced | .configDefaulted => 1

/-! ## Where a line lives (R27, R28, R36, R37) -/

/-- The memory-unit number m of an extent's unit (R27). -/
def extM (e : Extent) : Nat := if e.near then 48 + e.unit else e.unit

/-- The key of a line of a unit in the pool's tables. -/
def lineKey (m line : Nat) : Nat := m * 4294967296 + line

/-- The byte address of a line of a unit in the pool's cells. -/
def lineAddr (m line : Nat) : Nat := 64 * lineKey m line

/-- The hash of R36. -/
def hashRow (row salt : Nat) : Nat :=
  if salt = 0 then 0
  else
    let m := if salt % 2 = 1 then salt else salt + 1
    let y := (row % 4294967296) ^^^ (row / 4294967296)
    ((y * m) % 4294967296) / 16777216

/-- The extent-list index, and the byte offset in the extent, of region offset `off` (R36). -/
def decomposeIdx (grain width salt off : Nat) : Nat × Nat :=
  let u := off / grain
  let row := u / width
  let col := u % width
  let member := (col + hashRow row salt) % width
  let rps := extentBytes / grain
  let set := row / rps
  (set * width + member, (row % rps) * grain + off % grain)

/-- The region offset of byte `eoff` of extent `idx`: the inverse of R36. -/
def composeOff (grain width salt idx eoff : Nat) : Nat :=
  let row := idx / width * (extentBytes / grain) + eoff / grain
  let col := (idx % width + width - hashRow row salt % width) % width
  (row * width + col) * grain + eoff % grain

/-- The interleave grain in bytes (Table 2.2). -/
def grainBytes (grainM8 : Nat) : Nat := 2 ^ (grainM8 + 8)

/-- DRAM coordinates of line `a` of a subchannel with `nr` rank bits: rank, bank, column, row (R37, Table 2.4). -/
def dramCoord (nr a : Nat) : EvLoc :=
  let row := a / 2 ^ (12 + nr)
  let bg := (a / 4 % 8) ^^^ (row % 8)
  let bk := (a / 32 % 4) ^^^ (row / 8 % 4)
  { rank := a / 4096 % 2 ^ nr, bank := bg * 4 + bk, column := 4 * (a / 128 % 32) + a % 4, row := row }

/-- The location reported for line `a` of unit `m` (R154). -/
def Dev.loc (d : Dev) (m a : Nat) : EvLoc :=
  if m < 48 then dramCoord (d.unit m).nr a
  else { rank := 0, bank := 0, column := a % 128, row := a / 128 }

/-- The unit of an event record for memory unit `m`. -/
def memUnitRef (m : Nat) : UnitKind × Nat := if m < 48 then (.subchannel, m) else (.pseudoChannel, m - 48)

/-- An extent-list entry as a 32-bit word (Table 2.3). -/
def extentWord (e : Extent) : U64 :=
  BitVec.ofNat 64 ((if e.near then 2147483648 else 0) + e.unit * 16777216 + e.slot)

/-- The placement of a rebuilt extent: the old slot's pages below the cursor are served from the spare slot (R169). -/
def rebuiltPlace (rb : List Rebuild) (e : Extent) (page : Nat) : Extent :=
  match rb.find? (fun r => !e.near && r.unit == e.unit) with
  | some r =>
    match r.cur with
    | some (slot, du, ds) => if slot = e.slot ∧ page < r.cursor then { near := false, unit := du, slot := ds } else e
    | none => e
  | none => e

/-- The extent and byte offset within it that serve region offset `off` in the old or new placement of a region. -/
def Region.placeIn (r : Region) (new : Bool) (off : Nat) : Option (Extent × Nat) :=
  let (idx, eoff) :=
    if new then decomposeIdx (grainBytes r.grainM8) r.newWidth r.newSalt.toNat off
    else decomposeIdx (grainBytes r.grainM8) r.width r.salt.toNat off
  ((if new then r.newExtents else r.extents)[idx]?).map (fun e => (e, eoff))

/-- The region offset of byte `eoff` of extent `idx` of the old or the new extent list. -/
def Region.offsetOf (r : Region) (new : Bool) (idx eoff : Nat) : Nat :=
  if new then composeOff (grainBytes r.grainM8) r.newWidth r.newSalt.toNat idx eoff
  else composeOff (grainBytes r.grainM8) r.width r.salt.toNat idx eoff

/-- Whether region offset `off` is served from the new placement of a migration (R45, Table 2.7). -/
def Region.useNew (r : Region) (off : Nat) : Bool := r.migrating && decide (off / pageBytes < r.cursor)

/-- The memory unit and line that serve region offset `off` (R36, R45, R169). -/
def Dev.place (d : Dev) (r : Region) (off : Nat) : Option (Nat × Nat) :=
  match r.placeIn (r.useNew off) off with
  | some (e, eoff) =>
    let e' := rebuiltPlace d.rebuilds e (eoff / pageBytes)
    some (extM e', e'.slot * slotLines + eoff / 64)
  | none => none

/-- Near page pool page `n` begins at this line of this memory unit (R30). -/
def nearPlace (n : Nat) : Nat × Nat := (48 + n / 18432, (n % 18432) * 1024)

/-! ## Writing lines of the pool -/

/-- Whether a line lies in a range lost with a dead unit. -/
def Pool.inLost (p : Pool) (k : Nat) : Bool := p.lost.any (fun r => decide (r.1 ≤ k) && decide (k < r.1 + r.2))

/-- Whether the stored word of a line is unknown. -/
def Pool.inGarbled (p : Pool) (k : Nat) : Bool := p.garbled.any (fun r => decide (r.1 ≤ k) && decide (k < r.1 + r.2))

/-- The word of a line whose contents are unknown: errors at every position, so that what a read of it gives is free (log
entries 4, 46). -/
def garbledFault (k : Nat) : LineFault := { mask := BitVec.allOnes 640 ^^^ BitVec.ofNat 640 k }

/-- The fault of a stored line: its own entry, else poison in a lost range, else an unknown word in a garbled one. -/
def Pool.fault (p : Pool) (m line : Nat) : LineFault :=
  (tget p.faults (lineKey m line)).getD
    (if p.inLost (lineKey m line) then { poison := true }
     else if p.inGarbled (lineKey m line) then garbledFault (lineKey m line) else {})

/-- Set the fault of a stored line; a line of a lost or garbled range keeps an explicit entry. -/
def Pool.setFault (p : Pool) (m line : Nat) (f : LineFault) : Pool :=
  if f = {} ∧ p.inLost (lineKey m line) = false ∧ p.inGarbled (lineKey m line) = false then { p with faults := terase p.faults (lineKey m line) }
  else { p with faults := tset p.faults (lineKey m line) f }

/-- Store a full line: a new valid word, which clears poison and error bits (R150). -/
def Pool.store (p : Pool) (m line : Nat) (data : Line) : Pool :=
  { p with cells := memWriteLine p.cells (lineAddr m line) data }.setFault m line {}

/-- Store the poison pattern (R147). -/
def Pool.poisonLine (p : Pool) (m line : Nat) : Pool :=
  p.setFault m line { poison := true }

/-- The data a line holds under its code. -/
def Pool.data (p : Pool) (m line : Nat) : Line := memReadLine p.cells (lineAddr m line)

/-- A list of ranges without the `n` numbers from `a` upwards. -/
def cutRanges (rs : List (Nat × Nat)) (a n : Nat) : List (Nat × Nat) :=
  rs.flatMap (fun r =>
    let e := r.1 + r.2
    (if r.1 < a then [(r.1, min e a - r.1)] else []) ++ (if a + n < e then [(max r.1 (a + n), e - max r.1 (a + n))] else []))

/-- The parts of a list of ranges within the `n` numbers from `a` upwards. -/
def meetRanges (rs : List (Nat × Nat)) (a n : Nat) : List (Nat × Nat) :=
  rs.filterMap (fun r =>
    let lo := max r.1 a
    let hi := min (r.1 + r.2) (a + n)
    if lo < hi then some (lo, hi - lo) else none)

/-- Clear `n` lines of a unit to zero, as Shutter does (R265). -/
def Pool.clear (p : Pool) (m line n : Nat) : Pool :=
  { p with
    cells := memClear p.cells (lineAddr m line) (64 * n)
    faults := p.faults.filter (fun x => !(decide (lineKey m line ≤ x.1) && decide (x.1 < lineKey m line + n)))
    lost := cutRanges p.lost (lineKey m line) n
    garbled := cutRanges p.garbled (lineKey m line) n
    raw := p.raw.filter (fun x => !(decide (lineKey m line ≤ x.1) && decide (x.1 < lineKey m line + n))) }

/-- The keys of all lines of a unit. -/
def unitRange (m slots : Nat) : Nat × Nat := (lineKey m 0, if m < 48 then slots * slotLines else 18432 * 1024)

/-- The contents of a unit are lost: what its lines hold is unknown. -/
def Pool.loseUnit (p : Pool) (m slots : Nat) : Pool :=
  let r := unitRange m slots
  let inside := fun (k : Nat) => decide (r.1 ≤ k) && decide (k < r.1 + r.2)
  { p with
    faults := p.faults.filter (fun (x : Nat × LineFault) => !inside x.1)
    lost := cutRanges p.lost r.1 r.2
    garbled := cutRanges p.garbled r.1 r.2 ++ [r] }

/-- The number of positions (capacity tier) or symbols (near tier) that a mask touches, and the first (R144, R146). -/
def errPositions (near : Bool) (mask : BitVec 640) : List Nat :=
  if near then (List.range 36).filter (fun i => (mask.toNat / 2 ^ (16 * i)) % 65536 != 0)
  else (List.range 10).filter (fun i => (mask.toNat / 2 ^ (64 * i)) % 18446744073709551616 != 0)

/-- What the decoder makes of a stored word (R144, R146, R147). -/
inductive WordClass where
  | valid
  | corrected (pos : Nat)
  | poison
  | uncorrectable
  /-- three or more positions, taken for a valid word: the data is wrong -/
  | wrong
  /-- three or more positions, miscorrected as an error at one position: the data is wrong -/
  | miscorrected
deriving DecidableEq, Repr

/-- Classify a stored word with error bits `mask` over it. -/
def classify (near : Bool) (f : LineFault) (extra : BitVec 640) : WordClass :=
  let mask := f.mask ^^^ extra
  match errPositions near mask, f.poison with
  | [], false => .valid
  | [p], false => .corrected p
  | [], true => .poison
  | [_], true => .poison
  | [_, _], _ => .uncorrectable
  | _, _ =>
    match Config.decoderClass mask with
    | 0 => .wrong
    | 1 => .miscorrected
    | _ => .uncorrectable

/-- Copy `n` lines between units, as a data mover copies a page (R47, R67): lines that read as poison or uncorrectable
become poison in the copy; correctable ones are corrected. -/
def Pool.copyLines (p : Pool) (m line m' line' n : Nat) : Pool :=
  let a := lineKey m line
  let a' := lineKey m' line'
  let src := p.faults.filter (fun x => decide (a ≤ x.1) && decide (x.1 < a + n))
  let lost := meetRanges p.lost a n
  let garbled := meetRanges p.garbled a n
  let put := src.filterMap (fun x =>
    match classify (decide (48 ≤ m)) x.2 0 with
    | .poison | .uncorrectable => some (x.1 - a + a', ({ poison := true } : LineFault))
    | _ => if p.inLost x.1 || p.inGarbled x.1 then some (x.1 - a + a', {}) else none)
  { p with
    cells := memCopy p.cells (lineAddr m line) (lineAddr m' line') (64 * n)
    lost := cutRanges p.lost a' n ++ lost.map (fun r => (r.1 - a + a', r.2))
    garbled := cutRanges p.garbled a' n ++ garbled.map (fun r => (r.1 - a + a', r.2))
    faults := put.foldl (fun q x => tset q x.1 x.2)
      (p.faults.filter (fun x => !(decide (a' ≤ x.1) && decide (x.1 < a' + n)))) }

/-! ## Contexts and segments (R14, R209) -/

/-- The segment of a context that holds address `a`, by its index order. -/
def segOf (c : Context) (a : Nat) : Option Segment :=
  c.segments.find? (fun s => s.kind != .invalid && decide (s.base ≤ a) && decide (a < s.base + 64 * s.lines))

/-- Whether the `n` bytes from `a` lie in segment `s`. -/
def segCovers (s : Segment) (a n : Nat) : Bool := decide (s.base ≤ a) && decide (a + n ≤ s.base + 64 * s.lines)

/-- The rights an access needs. -/
inductive Right where
  | r | w | a
deriving DecidableEq, Repr

/-- Whether a segment grants a right. -/
def segGrants (s : Segment) (x : Right) : Bool :=
  match x with
  | .r => s.r
  | .w => s.w
  | .a => s.a

/-! ## Leases that fence a holder (R243) -/

/-- Whether a lease covers an extent of a region. -/
def Lease.covers (l : Lease) (region ext : Nat) : Bool :=
  l.region == region && decide (l.first ≤ ext) && decide (ext < l.first + l.count)

/-- Whether a holder has lost its lease over an extent: a lease of the holder that is no longer HELD covers the extent,
and no HELD one does. A lease that has become FREE goes on refusing its last holder (log entry 34). -/
def Dev.fencedFor (d : Dev) (holder : Lease → Bool) (region ext : Nat) : Bool :=
  (d.leases.any (fun l => holder l.2 && l.2.covers region ext && l.2.state != .held)) &&
  !(d.leases.any (fun l => holder l.2 && l.2.covers region ext && l.2.state == .held))

end Sys2Proof.Machine
end

