-- ==== Sys2Proof/Machine/Slots.lean ====
section
/-! DEFINITION. What each slot of a memory unit serves: regions, parity groups, device metadata, rebuilds, and which
partition owns it (R21, R29, R32, R162, R169). -/

namespace Sys2Proof.Machine

open Sys2Proof

/-- A number from fields (lowest bit, width, value). -/
def packBits (fs : List (Nat × Nat × Nat)) : Nat := fs.foldl (fun acc f => acc + (f.2.2 % 2 ^ f.2.1) * 2 ^ f.1) 0

/-! ## Which region a slot serves -/

/-- Whether an extent is the slot `slot` of memory unit `m`. -/
def extIs (e : Extent) (m slot : Nat) : Bool := extM e == m && e.slot == slot

/-- The index of a slot in a list of extents. -/
def extIndex (es : List Extent) (m slot : Nat) : Option Nat := es.findIdx? (fun e => extIs e m slot)

/-- The region and extent-list index that hold a slot, in the old list (false) or the new one. -/
def Dev.slotRegion (d : Dev) (m slot : Nat) : Option (Nat × Region × Bool × Nat) :=
  d.regions.findSome? (fun x =>
    match extIndex x.2.extents m slot with
    | some i => some (x.1, x.2, false, i)
    | none => (extIndex x.2.newExtents m slot).map (fun i => (x.1, x.2, true, i)))

/-- The parity groups of a region with the list that their members index: those of its extents, and those of the new
placement of a migration. -/
def Region.groups (r : Region) : List (ParityGroup × List Extent) :=
  if r.durable then r.parity.map (fun g => (g, r.extents)) ++ r.newParity.map (fun g => (g, r.newExtents)) else []

/-- The extents of a parity group: the parity extent and its members. -/
def groupExtents (g : ParityGroup × List Extent) : List Extent := g.1.parity :: g.1.members.filterMap (fun i => g.2[i]?)

/-- The parity group that holds a slot: its region, the group's number there, the group, and its extents. -/
def Dev.slotGroup (d : Dev) (m slot : Nat) : Option (Nat × Nat × ParityGroup × List Extent) :=
  d.regions.findSome? (fun x =>
    (x.2.groups.findIdx? (fun g => (groupExtents g).any (fun e => extIs e m slot))).bind (fun i =>
      x.2.groups[i]?.map (fun g => (x.1, i, g.1, groupExtents g))))

/-- The partition that owns memory unit `m`. -/
def Dev.unitOwner (d : Dev) (m : Nat) : Option Nat :=
  (d.parts.find? (fun x =>
    if m < 48 then x.2.subchannels.getLsbD m
    else x.2.pseudoChannels.getLsbD (m - 48))).map (fun x => x.1)

/-! ## Slots under rebuild, and the lines of a parity group -/

/-- The slot that a slot stands for: the spare slot that a rebuild is filling stands for the slot that it replaces (R169). -/
def Dev.homeSlot (d : Dev) (m slot : Nat) : Nat × Nat :=
  match d.rebuilds.findSome? (fun b =>
      match b.cur with
      | some (old, v, f) => if v = m ∧ f = slot then some (b.unit, old) else none
      | none => none) with
  | some x => x
  | none => (m, slot)

/-- The parity group that serves a line, with the slot that the line stands for. -/
def Dev.lineGroup (d : Dev) (m line : Nat) : Option ((Nat × Nat) × Nat × Nat × ParityGroup × List Extent) :=
  let h := d.homeSlot m (line / slotLines)
  (d.slotGroup h.1 h.2).map (fun g => (h, g))

/-- The unit and line where line `off` of an extent of a group is kept now (R169). -/
def Dev.groupLine (d : Dev) (e : Extent) (off : Nat) : Nat × Nat :=
  let y := rebuiltPlace d.rebuilds e (off / 1024)
  (extM y, y.slot * slotLines + off)

/-! ## Slots in use -/

/-- Slots of subchannel `u` held by a region or a parity group, in ascending order. -/
def Dev.usedSlots (d : Dev) (u : Nat) : List Nat :=
  (List.range (d.unit u).slots).filter (fun e =>
    (d.slotRegion u e).isSome || (d.slotGroup u e).isSome ||
    d.regions.any (fun x => x.2.dirExtents.any (fun y => extIs y u e)))

/-- The slots of both metadata copies (R29). -/
def Dev.metaAll (d : Dev) : List (Nat × Nat) := if d.metaPlace.present then d.metaPlace.copy0 ++ d.metaPlace.copy1 else []

/-- The metadata slots that subchannel `u` holds (R29). -/
def Dev.metaSlots (d : Dev) (u : Nat) : List Nat := (d.metaAll.filter (fun x => x.1 == u)).map (fun x => x.2)

end Sys2Proof.Machine
end

