-- ==== Sys2Proof/Machine/Placement.lean ====
section
/-! DEFINITION. Which slots are free, and how Huanik chooses slots for regions, parity groups and migrations (R33, R38 to
R40, R44, R162, R166, R411). -/

namespace Sys2Proof.Machine

open Sys2Proof

/-- The lowest number in [lo, hi) that `used` does not hold. -/
def firstFree (used : List Nat) (lo hi : Nat) : Option Nat :=
  ((List.range (used.length + 1)).map (fun i => lo + i)).find? (fun p => decide (p < hi) && !used.contains p)

/-! ## Huanik's chains on the data movers (R139) -/

/-- Huanik's chains whose migration or rebuild goes on. -/
def Dev.liveCopies (d : Dev) : List CoreChain :=
  d.copies.filter (fun x =>
    if x.rebuild then d.rebuilds.any (fun b => b.unit == x.of_) else ((tget d.regions x.of_).map Region.migrating).getD false)

/-- Channels of a mover in use, by descriptors and by Huanik's copies (R139). -/
def Dev.moverChannels (d : Dev) (n : Nat) : List Nat :=
  d.jobs.filterMap (fun j =>
    match j.unit with
    | .mover m c => if m = n ∧ j.result.isNone then some c else none
    | _ => none) ++
  (d.liveCopies.filter (fun x => x.mover == n)).map (fun x => x.channel)

/-- Of some movers, the one with the fewest occupied channels, the lowest on a tie, and its lowest free channel (R138). -/
def Dev.pickChannel (d : Dev) (movers : U32) : Option (Nat × Nat) :=
  let cands := (bitsOf movers).filter (fun n => decide ((d.moverChannels n).length < 16))
  let best := cands.foldl (fun (acc : Option Nat) n =>
    match acc with
    | none => some n
    | some b => if (d.moverChannels n).length < (d.moverChannels b).length then some n else some b) none
  best.bind (fun n => (firstFree (d.moverChannels n) 0 16).map (fun c => (n, c)))

/-- Take away the chain of a migration or a rebuild. -/
def Dev.endCopy (d : Dev) (rebuild : Bool) (of_ : Nat) : Dev :=
  { d with copies := d.copies.filter (fun x => !(x.rebuild == rebuild && x.of_ == of_)) }

/-- Put the chain for the page at the cursor of a migration or a rebuild on a mover of the partition, behind what is dispatched already
(log entry 81). Without a free channel it waits outside. -/
def Dev.openCopy (d : Dev) (p : Nat) (rebuild : Bool) (of_ : Nat) : Dev :=
  match d.pickChannel (d.partn p).movers with
  | some (n, c) => { d with copies := d.copies ++ [{ mover := n, channel := c, before := d.nextJob, rebuild := rebuild, of_ := of_ }] }
  | none => d

/-- Put that chain on a mover if it is on none. -/
def Dev.haveCopy (d : Dev) (p : Nat) (rebuild : Bool) (of_ : Nat) : Dev :=
  if d.liveCopies.any (fun x => x.rebuild == rebuild && x.of_ == of_) then d else (d.endCopy rebuild of_).openCopy p rebuild of_

/-- Whether that chain runs: nothing dispatched before it is left on its mover (R138). A partition that owns no mover has its pages copied
by none (log entry 81). -/
def Dev.copyRuns (d : Dev) (p : Nat) (rebuild : Bool) (of_ : Nat) : Bool :=
  (d.partn p).movers == 0 ||
  match d.liveCopies.find? (fun x => x.rebuild == rebuild && x.of_ == of_) with
  | none => false
  | some x =>
    (d.liveCopies.takeWhile (fun y => y != x)).all (fun y => y.mover != x.mover) &&
    d.jobs.all (fun j =>
      match j.unit with
      | .mover n _ => !(n == x.mover && j.result.isNone && decide (j.id < x.before))
      | _ => true)

/-- Whether a mover of a partition is idle, or it owns none. -/
def Dev.idleMover (d : Dev) (p : Nat) : Bool :=
  (d.partn p).movers == 0 || (bitsOf (d.partn p).movers).any (fun n => d.moverChannels n == [])

/-- Whether a near-tier slot is held by a region, reserved for one under way, or in raw diagnostic mode. -/
def Dev.nearSlotHeld (d : Dev) (u e : Nat) : Bool :=
  (d.slotRegion (48 + u) e).isSome || d.pool.rawExtents.any (fun x => extIs x (48 + u) e) ||
  d.hk.waitingCreate.any (fun w => w.rec_.extents.any (fun x => extIs x (48 + u) e))

/-- The pool pages of pseudo-channel `u` in the slot `e`, or in its tail for e = 4. -/
def poolRange (u e : Nat) : Nat × Nat := (u * 18432 + 4096 * e, u * 18432 + 4096 * e + (if e = 4 then 2048 else 4096))

/-- Pool pages in use within a slot (R411). -/
def Dev.poolUse (d : Dev) (u e : Nat) : Nat :=
  (d.nearUsed.filter (fun n => decide ((poolRange u e).1 ≤ n) && decide (n < (poolRange u e).2))).length

/-- A free pool page within a slot, or a tail, that Shutter has cleared. A degraded pseudo-channel takes nothing more (R156). -/
def Dev.poolFree (d : Dev) (u e : Nat) : Option Nat :=
  if (d.unit (48 + u)).cleared.contains e && !(d.unit (48 + u)).degraded then firstFree d.nearUsed (poolRange u e).1 (poolRange u e).2 else none

/-- The slots of regions, parity groups and directories, old and new, with those of creations under way. -/
def Dev.heldExtents (d : Dev) : List Extent :=
  d.regions.flatMap (fun x => x.2.extents ++ x.2.newExtents ++ x.2.dirExtents ++ x.2.parity.map (fun g => g.parity) ++
    x.2.newParity.map (fun g => g.parity)) ++
  d.hk.waitingCreate.flatMap (fun w => w.rec_.extents ++ w.rec_.dirExtents ++ w.rec_.parity.map (fun g => g.parity))

/-- The first slot of the spare reserve of subchannel `m` of a partition (R166, log entry 13). -/
def Dev.spareFrom (d : Dev) (p m : Nat) : Nat := (d.unit m).slots - (d.partn p).spareSlots

/-- Slots of a unit: a pseudo-channel holds four (R28). -/
def Dev.unitSlots (d : Dev) (m : Nat) : Nat := if m < 48 then (d.unit m).slots else 4

/-- Whether slot `e` of unit `m` of partition `p` is not free (R33, R411), or is in raw diagnostic mode (R176). -/
def Dev.slotBusy (d : Dev) (p m e : Nat) : Bool :=
  d.pool.rawExtents.any (fun x => extIs x m e) || d.heldExtents.any (fun x => extIs x m e) || d.metaAll.contains (m, e) || d.spareUsed.contains (m, e) ||
  (if m < 48 then decide (d.spareFrom p m ≤ e) else d.poolUse (m - 48) e != 0)

/-- The free slots of a unit of partition `p` in which Huanik places something of its own choice. -/
def Dev.freeSlots (d : Dev) (p m : Nat) : List Nat :=
  if (d.unit m).dead || (d.unit m).removed || !(d.unit m).trained || (d.unit m).degraded then []
  else (List.range (d.unitSlots m)).filter (fun e => !d.slotBusy p m e)

/-- The extent that slot `e` of unit `m` is. -/
def extentOf (m e : Nat) : Extent := { near := decide (48 ≤ m), unit := if m < 48 then m else m - 48, slot := e }

/-- Insert a unit with its free slots, more free slots first, then the lower unit. -/
def insertFree (x : Nat × List Nat) : List (Nat × List Nat) → List (Nat × List Nat)
  | [] => [x]
  | y :: r => if y.2.length < x.2.length ∨ (y.2.length = x.2.length ∧ x.1 < y.1) then x :: y :: r else y :: insertFree x r

/-- Form `n` interleave sets of `w` different units (R33): each set takes the lowest free slot of the units with the most
free slots (log entry 15). -/
def formSets (w : Nat) : Nat → List (Nat × List Nat) → Option (List Extent)
  | 0, _ => some []
  | n + 1, us =>
    let sorted := us.foldl (fun acc x => insertFree x acc) []
    let now_ := sorted.take w
    if now_.length < w ∨ now_.any (fun x => x.2.isEmpty) then none
    else
      (formSets w n (now_.map (fun x => (x.1, x.2.tail)) ++ sorted.drop w)).map
        (fun rest => now_.map (fun x => extentOf x.1 (x.2.headD 0)) ++ rest)

/-- The units of a tier that a partition owns, by memory-unit number. -/
def Dev.ownedUnits (d : Dev) (p : Nat) (near : Bool) : List Nat :=
  if near then (bitsOf (d.partn p).pseudoChannels).map (fun u => 48 + u) else bitsOf (d.partn p).subchannels

/-- Slots that Huanik chooses for `count` extents of width `w` in a tier. -/
def Dev.chooseSlots (d : Dev) (p : Nat) (near : Bool) (w count : Nat) : Option (List Extent) :=
  if w = 0 then none else formSets w (count / w) ((d.ownedUnits p near).map (fun m => (m, d.freeSlots p m)))

/-- Cut a list into pieces of at most `m`. -/
def cutList {α : Type} (m : Nat) : Nat → List α → List (List α)
  | 0, _ => []
  | _, [] => []
  | n + 1, l => l.take m :: cutList m n (l.drop m)

/-! ### Parity groups (R162) -/

/-- Whether extents lie on different subchannels, or, where `channels` asks for it, on different channels. -/
def apart (channels : Bool) (units : List Nat) : Bool :=
  let ks := units.map (fun u => if channels then u / 2 else u)
  ks.dedup.length == ks.length

/-- The parity extents that a group with members on given units may have: the lowest free slot of each other subchannel of the
partition that `taken` does not hold, on another channel where `channels` asks for it. -/
def Dev.parityFor (d : Dev) (p : Nat) (channels : Bool) (members : List Nat) (taken : List Extent) : List Extent :=
  (bitsOf (d.partn p).subchannels).filterMap (fun u =>
    if !apart channels (u :: members) then none
    else ((d.freeSlots p u).find? (fun e => !taken.contains (extentOf u e))).map (fun e => extentOf u e))

/-- Parity extents for groups of (index, extent), in order; a later group that finds none makes an earlier one choose again. -/
def Dev.placeParity (d : Dev) (p : Nat) (channels : Bool) (taken : List Extent) : List (List (Nat × Extent)) → Option (List ParityGroup)
  | [] => some []
  | g :: gs =>
    (d.parityFor p channels (g.map (fun y => y.2.unit)) taken).findSome? (fun x =>
      (Dev.placeParity d p channels (x :: taken) gs).map (fun rest => { parity := x, members := g.map (fun y => y.1) } :: rest))

/-- Add an extent to group number `i`. -/
def joinGroup (gs : List (List (Nat × Extent))) (i : Nat) (x : Nat × Extent) : List (List (Nat × Extent)) :=
  gs.mapIdx (fun j g => if j = i then g ++ [x] else g)

/-- Whether a group of fewer than `m` members takes an extent. -/
def groupTakes (channels : Bool) (m : Nat) (g : List (Nat × Extent)) (x : Nat × Extent) : Bool :=
  decide (g.length < m) && apart channels (x.2.unit :: g.map (fun y => y.2.unit))

/-- Groups of at most `m` members: each extent joins the first group that takes it. -/
def groupFirst (channels : Bool) (m : Nat) : List (Nat × Extent) → List (List (Nat × Extent)) → List (List (Nat × Extent))
  | [], gs => gs
  | x :: xs, gs =>
    match gs.findIdx? (fun g => groupTakes channels m g x) with
    | some i => groupFirst channels m xs (joinGroup gs i x)
    | none => groupFirst channels m xs (gs ++ [[x]])

/-- Any grouping that can be formed: each extent joins one of the groups that take it, or begins one. -/
def Dev.groupAny (d : Dev) (p : Nat) (channels : Bool) (taken : List Extent) :
    List (Nat × Extent) → List (List (Nat × Extent)) → Option (List ParityGroup)
  | [], gs => d.placeParity p channels taken gs
  | x :: xs, gs =>
    ((List.range gs.length).filter (fun i => groupTakes channels 7 (lgetD gs i []) x)).findSome? (fun i =>
      Dev.groupAny d p channels taken xs (joinGroup gs i x)) <|> Dev.groupAny d p channels taken xs (gs ++ [[x]])

/-- The parity groups of a DURABLE region (R162): on different channels where the partition allows it, else on different subchannels
alone; among those, groups as large as possible (log entry 66); none only where no grouping at all can be formed. Every extent of a group
lies on a subchannel, so none can be formed over near-tier extents. -/
def Dev.formParity (d : Dev) (p : Nat) (exts : List Extent) : Option (List ParityGroup) :=
  let idx := exts.mapIdx (fun i e => (i, e))
  if exts.any (fun e => e.near) then none
  else [true, false].findSome? (fun channels =>
    [7, 6, 5, 4, 3, 2, 1].findSome? (fun m => d.placeParity p channels exts (groupFirst channels m idx [])) <|>
      d.groupAny p channels exts idx [])

/-- Whether the spare slots still cover the loss of any one subchannel, with `more` slots taken (R166); a partition
that reserves no spare is not held to it (log entry 31). -/
def Dev.spareCovers (d : Dev) (p : Nat) (more : List Extent) : Bool :=
  let s := (d.partn p).spareSlots
  let us := bitsOf (d.partn p).subchannels
  let left := fun (v : Nat) => s - (d.spareUsed.filter (fun x => x.1 == v)).length
  s == 0 || us.all (fun u =>
    decide ((d.usedSlots u).length + (more.filter (fun e => !e.near && e.unit == u)).length ≤ ((us.filter (fun v => v != u)).map left).sum))

/-- Lines of device metadata that an extent list with its parity list takes (R32, R163). -/
def listLines (exts groups : Nat) : Nat := (exts + 15) / 16 + (groups + 1) / 2

/-- Start a migration of region `r` (R44); none where it finds too few slots, or where afterwards the spare slots would not cover the
loss of a subchannel (R166). -/
def Dev.startMigration (d : Dev) (r width : Nat) (tier : Tier) (near : Bool) (share : Nat) (salt : U32) (op : Option Nat) : Option Dev :=
  match tget d.regions r with
  | none => none
  | some reg =>
    match d.chooseSlots reg.partition near width reg.extents.length with
    | none => none
    | some exts =>
      match (if reg.durable then d.formParity reg.partition exts else some []) with
      | none => none
      | some groups =>
        let after := { d with regions := tset d.regions r { reg with extents := exts, parity := groups, newExtents := [], newParity := [] } }
        if after.spareCovers reg.partition [] then
          some { d with
            regions := tset d.regions r { reg with
              migrating := true, newWidth := width, newSalt := salt, newTier := tier, newExtents := exts, newParity := groups
              newNear := near, newListLine := d.hk.nextMetaLine, cursor := 0, share := share, migrateOp := op }
            hk := { d.hk with nextMetaLine := d.hk.nextMetaLine + listLines exts.length groups.length } }
        else none

/-- Demote one NEAR_IF_FREE region of a partition to the capacity tier, the most recently promoted first (R40). -/
def Dev.demoteOne (d : Dev) (p : Nat) : Dev :=
  let cands := d.regions.filter (fun x => x.2.partition == p && x.2.tier == .nearIfFree && x.2.inNear && !x.2.migrating)
  let pick := cands.foldl (fun (acc : Option (Nat × Region)) x =>
    match acc with
    | none => some x
    | some y => if y.2.promoted < x.2.promoted then some x else some y) none
  match pick with
  | none => d
  | some (r, reg) => (d.startMigration r reg.width .nearIfFree false 25 reg.salt none).getD d

end Sys2Proof.Machine
end

