-- ==== Sys2Proof/Machine/Memory.lean ====
section
/-! DEFINITION. The one memory path (R11): address contexts, event records, demand reads with their log, writes with
parity and mirroring, the coherent window's touch, and byte accesses of a context. -/

namespace Sys2Proof.Machine

open Sys2Proof

/-! ## Contexts -/

/-- Whether a region is paired (R315). -/
def Dev.paired (d : Dev) (r : Nat) : Bool := d.pair.entries.any (fun e => e.2.valid && e.2.region == r)

/-- The device's key (R314). -/
def Dev.ownKey (d : Dev) : Nat := d.pair.claim.toNat * 18446744073709551616 + Config.deviceId.toNat

/-- The seen key (R314). -/
def Dev.seenKey (d : Dev) : Nat := d.pair.seenClaim.toNat * 18446744073709551616 + d.pair.seenId.toNat

/-- Whether this device refuses a paired region (R316, R320, R322, R325, R329): only an ACTIVE device that has not stopped
serving serves it; in SPLIT only while its key equals its seen key. -/
def Dev.pairFences (d : Dev) (r : Nat) : Bool :=
  d.paired r && !(d.pair.role == .active && !d.pair.isolated && !d.pair.quiescing && d.sys.stage != .halted &&
    (!d.pair.split || d.ownKey == d.seenKey))

/-- The extent-list indices that the `n` bytes at region offset `off` touch. A region places consecutive bytes over a
whole set, so they are counted grain by grain. -/
def extsTouched (r : Region) (off n : Nat) : List Nat :=
  let g := grainBytes r.grainM8
  ((List.range ((off + n - 1) / g - off / g + 1)).map (fun i =>
    (decomposeIdx g r.width r.salt.toNat ((off / g + i) * g)).1)).dedup

/-- What a region offset of a located access ends with, if its memory refuses it: a region lost with its record, a paired region that
this device does not serve, or a lease that its holder has lost (R243, R316, R345). These come after every check of the request itself
(R410, step 6). -/
def Dev.refusesAt (d : Dev) (holder : Lease → Bool) (r off n : Nat) : Option Status :=
  match tget d.regions r with
  | none => some .bounds
  | some reg =>
    if reg.failed then some .uncorrectable
    else if d.pairFences r then some .fenced
    else if d.leases != [] && (extsTouched reg off n).any (fun e => d.fencedFor holder r e) then some .leaseExpired
    else none

/-- What a segment itself refuses of an access (R14, R209, R256): a DOORBELL segment any, a REMOTE segment all but a data mover's (log
entry 12), a REGION segment one without the right, or one into a SEQUENCE region. -/
def Dev.segRefuses (d : Dev) (s : Segment) (need : Right) (mover : Bool) : Option Status :=
  match s.kind with
  | .region =>
    if !segGrants s need then some .rights
    else match tget d.regions s.targetId with
      | none => some .bounds
      | some r => if r.tier == .sequence then some .rights else none
  | .remote => if mover then (if segGrants s need then none else some .rights) else some .bounds
  | .doorbell => some .format
  | _ => some .bounds

/-- Whether a byte range falls wholly or partly in a DOORBELL segment of a context (R209). -/
def meetsDoorbell (c : Context) (addr n : Nat) : Bool :=
  c.segments.any (fun s => s.kind == .doorbell && decide (addr < s.base + 64 * s.lines) && decide (s.base < addr + n))

/-- The region and offset that a context maps `n` bytes to, all in one segment (R14, R209). -/
def Dev.mapped (d : Dev) (ctx addr n : Nat) (need : Right) : Except Status (Nat × Nat) :=
  let c := d.context ctx
  if !c.valid then .error .rights
  else if meetsDoorbell c addr n then .error .format
  else match segOf c addr with
    | none => .error .bounds
    | some s =>
      if !segCovers s addr n then .error .bounds
      else match d.segRefuses s need false with
        | some st => .error st
        | none => .ok (s.targetId, s.targetOff + (addr - s.base))

/-- The region and offset that an access of `n` bytes under a context reaches (R14, R209, R243, R256, R316), for a holder
of leases. An access to a DOORBELL segment is FORMAT (R209); to a REMOTE segment, BOUNDS (log entry 12). -/
def Dev.locateBy (d : Dev) (holder : Lease → Bool) (ctx addr n : Nat) (need : Right) : Except Status (Nat × Nat) :=
  match d.mapped ctx addr n need with
  | .error st => .error st
  | .ok (r, off) =>
    match d.refusesAt holder r off n with
    | some st => .error st
    | none => .ok (r, off)

/-- Whether a lease is a context's own. -/
def ownLease (ctx : Nat) (l : Lease) : Bool := l.head == none && l.context == ctx

/-- The pieces of the `n` bytes from `a`, each within one segment of a context (R14: every part of a request lies in some segment); none
where some byte lies in none. A context has eight segments. -/
def segParts (c : Context) : Nat → Nat → Nat → Option (List (Segment × Nat × Nat))
  | 0, _, n => if n = 0 then some [] else none
  | f + 1, a, n =>
    if n = 0 then some []
    else match segOf c a with
      | none => none
      | some s =>
        let k := min n (s.base + 64 * s.lines - a)
        (segParts c f (a + k) (n - k)).map (fun r => (s, a, k) :: r)

/-- The pieces of a descriptor's address range, or what its context refuses it with: BOUNDS where some part lies outside, then RIGHTS
(R14, R410). A data mover reaches REMOTE segments (R209). -/
def Dev.rangeParts (d : Dev) (ctx addr n : Nat) (need : Right) (mover : Bool) : Except Status (List (Segment × Nat × Nat)) :=
  let c := d.context ctx
  if !c.valid then .error .rights
  else if meetsDoorbell c addr n then .error .format
  else match segParts c 9 addr n with
    | none => .error .bounds
    | some ps =>
      let bad := ps.filterMap (fun p => d.segRefuses p.1 need mover)
      if bad.contains .bounds then .error .bounds
      else match bad with
        | st :: _ => .error st
        | [] => .ok ps

/-- The region and offset that a context's access of `n` bytes reaches. -/
def Dev.locate (d : Dev) (ctx addr n : Nat) (need : Right) : Except Status (Nat × Nat) := d.locateBy (ownLease ctx) ctx addr n need

/-! ## Parity and plain writes -/

/-- The class of a stored word at a dead or living unit, as a reconstruction finds it (R144). -/
def Dev.memberClass (d : Dev) (m line : Nat) : WordClass :=
  if (d.unit m).trained && !(d.unit m).dead then classify (decide (48 ≤ m)) (d.pool.fault m line) 0 else .uncorrectable

/-- Whether a stored line can serve a reconstruction: its unit lives and its word is not uncorrectable. -/
def Dev.readableLine (d : Dev) (m line : Nat) : Bool := d.memberClass m line != .uncorrectable

/-- Whether a group's parity line can be read: it is neither uncorrectable nor poison. -/
def Dev.parityReads (d : Dev) (g : ParityGroup) (off : Nat) : Bool :=
  let y := d.groupLine g.parity off
  d.readableLine y.1 y.2 && !(d.pool.fault y.1 y.2).poison

/-- Whether the parity group of a line reconstructs it (R162, R165): every other extent of the group is readable and
the line's 64 KiB range is not stale. -/
def Dev.canReconstruct (d : Dev) (m line : Nat) : Bool :=
  match d.lineGroup m line with
  | none => false
  | some (h, _, _, pg, exts) =>
    let off := line % slotLines
    (tget pg.stale (off / 1024)).isNone && (extIs pg.parity h.1 h.2 || d.parityReads pg off) &&
    (exts.filter (fun e => !extIs e h.1 h.2)).all (fun e =>
      let y := d.groupLine e off
      d.readableLine y.1 y.2)

/-! ### The directory as stored (R249, R252) -/

/-- The key of a window line in the directory. -/
def dirKey (r line : Nat) : Nat := r * 68719476736 + line

/-- A window line's directory entry. -/
def Dev.dirOf (d : Dev) (r line : Nat) : DirEntry := tgetD d.dir (dirKey r line) {}

/-- The bits of a directory entry (R252). -/
def dirWord (e : DirEntry) : Nat :=
  packBits [(0, 3, match e.state with | .i => 0 | .s => 1 | .f => 2 | .e => 3 | .m => 4), (3, 3, e.holder), (6, 8, e.sharers.toNat)]

/-- Line `k` of a region's directory extents: the entries of 32 window lines (R249, R252). -/
def Dev.dirLine (d : Dev) (r k : Nat) : Line := BitVec.ofNat 512 (packBits ((List.range 32).map (fun i => (16 * i, 16, dirWord (d.dirOf r (32 * k + i))))))

/-- The region and the line of its directory that a line of a unit holds. -/
def Dev.dirHeld (d : Dev) (m line : Nat) : Option (Nat × Nat) :=
  d.regions.findSome? (fun x =>
    if x.2.window then (extIndex x.2.dirExtents m (line / slotLines)).map (fun i => (x.1, i * slotLines + line % slotLines)) else none)

/-- The plaintext of a line that Feryth or a requester has written: of a line of a directory, its entries. -/
def Dev.plainData (d : Dev) (m line : Nat) : Line :=
  match d.dirHeld m line with
  | some (r, k) => d.dirLine r k
  | none => d.pool.data m line

/-! ### What is stored (R12, R143, R147, R162, R268, R269) -/

/-- The two keys derived from the fused device secret: the key-encryption key and the metadata keys. A RETIRED device has lost both
(R270, R278). -/
def Sys.derivedKeys (x : Sys) : Option (BitVec 256 × BitVec 512) :=
  if x.lifeCycle == .retired then none else some (Config.keyEncryptionKey, Config.metadataKeys)

/-- The keys under which a line is stored: the metadata keys for a metadata slot, else the unit's key register, or the destroyed keys of
a slot not cleared since (R267, R268, R270). -/
def Dev.lineKeys (d : Dev) (m line : Nat) : BitVec 512 :=
  let slot := line / slotLines
  let u := d.unit m
  if d.metaAll.contains (m, slot) then ((d.sys.derivedKeys).map (fun k => k.2)).getD 0
  else if u.cleared.contains slot then u.key.keys
  else match tget u.slotDraw slot with
    | some n => Config.xtsKeys n
    | none => u.key.keys

/-- The XTS tweak of a line (R269): its address in bits [31:0], its unit index in [38:32], the tier bit in 39. -/
def lineTweak (m line : Nat) : BitVec 128 :=
  BitVec.ofNat 128 (packBits [(0, 32, line), (32, 7, if m < 48 then m else m - 48), (39, 1, if m < 48 then 0 else 1)])

/-- A stored word: 64 data bytes and their check bytes (R143, R146). -/
def codeword (near : Bool) (data : Line) (check : BitVec 128) : BitVec 640 :=
  data.setWidth 640 ||| ((if near then check.setWidth 64 |>.setWidth 640 else check.setWidth 640) <<< 512)

/-- The stored data field of a line, without the errors laid over it: ciphertext, or the poison pattern's (R147, R162). -/
def Dev.storedField (d : Dev) (m line : Nat) : Line :=
  if (d.pool.fault m line).poison then (Config.poisonPattern (decide (48 ≤ m))).setWidth 512
  else Config.cipher (d.lineKeys m line) (lineTweak m line) (d.plainData m line)

/-- Line `off` of a group's parity extent: the XOR of the stored data fields of that line of each member (R162). A member write
moves it by the old and the new stored data (R164; Laws/Parity.lean). -/
def Dev.parityField (d : Dev) (exts : List Extent) (off : Nat) : Line :=
  (exts.drop 1).foldl (fun acc e =>
    let y := d.groupLine e off
    acc ^^^ d.storedField y.1 y.2) 0

/-- Whether a line is a parity line. -/
def Dev.holdsParity (d : Dev) (m line : Nat) : Bool :=
  match d.lineGroup m line with
  | some (h, _, _, pg, _) => extIs pg.parity h.1 h.2
  | none => false

/-- Whether a line is a parity line of a range that a reset left unprotected, whose contents nothing gives until they are recomputed
(R165). -/
def Dev.parityUnknown (d : Dev) (m line : Nat) : Bool :=
  match d.lineGroup m line with
  | some (h, _, _, pg, _) => extIs pg.parity h.1 h.2 && pg.unprotected.contains (line % slotLines / 1024)
  | none => false

/-- The data that a line holds: what was written to it, or, of a parity line, the XOR, which is not encrypted (R162). -/
def Dev.lineData (d : Dev) (m line : Nat) : Line :=
  match d.lineGroup m line with
  | some (h, _, _, pg, exts) => if extIs pg.parity h.1 h.2 then d.parityField exts (line % slotLines) else d.plainData m line
  | none => d.plainData m line

/-- The data of a line that its group reconstructs. A line whose parity counts it as poison comes out as the poison pattern, which is
never decrypted (R147). Where another line of the group is miscorrected, or wrongly taken for valid, the data is wrong (R144). -/
def Dev.reconstruct (d : Dev) (m line : Nat) : Line × Dev :=
  match d.lineGroup m line with
  | none => (d.lineData m line, d)
  | some (h, _, _, _, exts) =>
    let wrong := (exts.filter (fun e => !extIs e h.1 h.2)).any (fun e =>
      let y := d.groupLine e (line % slotLines)
      d.memberClass y.1 y.2 == .wrong || d.memberClass y.1 y.2 == .miscorrected)
    if wrong then d.drawLine
    else if (d.pool.fault m line).poison then (d.storedField m line, d)
    else (d.lineData m line, d)

/-! ### Waiting at a controller (R153, R175, R343) -/

/-- Whether a write to a line waits in its controller. -/
def MemUnit.heldWrite (u : MemUnit) (line : Nat) : Bool :=
  u.held.any (fun q => match q with
    | .read _ _ _ => false
    | .write l _ => l == line
    | .rmw l _ _ _ _ => l == line)

/-- The bank of a line, numbered over the ranks of its unit. -/
def Dev.bankOf (d : Dev) (m line : Nat) : Nat := (d.loc m line).rank * 32 + (d.loc m line).bank

/-- Whether the present requester may make no further request to a line's bank before its throttle ends (R175). -/
def Dev.rowThrottled (d : Dev) (m line : Nat) : Bool :=
  (d.unit m).throttles.any (fun t => t.bank == d.bankOf m line && t.stream == d.stream && t.left == 0)

/-- Whether an access to a line waits at its controller: during a retrain every write and read waits, but for reads of DURABLE lines,
which are reconstructed (R343); a read behind a write that waits there (R153); and a throttled stream (R175). What a reconstruction or a
parity update needs of another subchannel waits for its retrain too. -/
def Dev.mustWait (d : Dev) (m line : Nat) (write : Bool) : Bool :=
  let u := d.unit m
  d.rowThrottled m line || (!write && u.heldWrite line) ||
  (match d.lineGroup m line with
   | none => u.retrain.isSome
   | some (h, _, _, _, exts) =>
     let busy := fun (es : List Extent) => es.any (fun e => (d.unit (d.groupLine e (line % slotLines)).1).retrain.isSome)
     if write then u.retrain.isSome || busy exts
     else (u.retrain.isSome || !d.readableLine m line) && busy (exts.filter (fun e => !extIs e h.1 h.2)))

/-- The pool after every member line of a group that cannot be read has become poison, and the parity line has been made
anew from the members as stored (R164). -/
def Dev.reformParity (d : Dev) (g : ParityGroup) (exts : List Extent) (off : Nat) : Pool :=
  let p := (exts.drop 1).foldl (fun q e =>
    let y := d.groupLine e off
    if d.readableLine y.1 y.2 then q else q.poisonLine y.1 y.2) d.pool
  let y := d.groupLine g.parity off
  p.setFault y.1 y.2 {}

/-- The pool after the parity step of a write to a line (R164): the parity line of its group is written anew; where the old
line or the parity line cannot be read, the members that cannot be read become poison first. -/
def Dev.parityPool (d : Dev) (m line : Nat) : Pool :=
  if d.regions.any (fun x => x.2.durable) then
    match d.lineGroup m line with
    | none => d.pool
    | some (h, _, _, pg, exts) =>
      let off := line % slotLines
      if extIs pg.parity h.1 h.2 then d.pool
      else if (d.readableLine m line || d.canReconstruct m line) && d.parityReads pg off then
        let y := d.groupLine pg.parity off
        d.pool.setFault y.1 y.2 {}
      else d.reformParity pg exts off
  else d.pool

/-- The first write to a clean 64 KiB range of a group marks it stale; each write renews its time (R165). -/
def Dev.markStale (d : Dev) (m line : Nat) : Dev :=
  if d.regions.any (fun x => x.2.durable) then
    match d.lineGroup m line with
    | some (_, r, g, _, _) =>
      let range := line % slotLines / 1024
      { d with regions := d.regions.map (fun x =>
          if x.1 = r then
            let mark := fun (base i : Nat) (pg : ParityGroup) =>
              if base + i = g then { pg with stale := tset pg.stale range d.now } else pg
            (x.1, { x.2 with
              parity := x.2.parity.mapIdx (mark 0)
              newParity := x.2.newParity.mapIdx (mark x.2.parity.length) })
          else x) }
    | none => d
  else d

/-- A full-line write at a memory controller (R150, R153, R164): a new valid word, and the parity of its group in the same step. -/
def Dev.putLine (d : Dev) (m line : Nat) (data : Line) : Dev :=
  { d with pool := (d.parityPool m line).store m line data }.markStale m line

/-- A line written as poison at a memory controller (R147, R164). -/
def Dev.putPoison (d : Dev) (m line : Nat) : Dev :=
  { d with pool := (d.parityPool m line).poisonLine m line }.markStale m line

/-! ## Events (R296, R297, R300) -/

/-- An event record (Table 12.5). -/
def eventLine (e : Event) (phase ts : Nat) : Line :=
  let opt := fun (o : Option Nat) (w : Nat) => o.getD (2 ^ w - 1)
  BitVec.ofNat 512 (packBits
    [ (0, 16, evCode e.code), (16, 1, phase), (17, 2, severity e), (24, 5, opt e.part 5),
      (29, 1, if e.part.isSome then 1 else 0), (64, 64, ts), (128, 16, opt e.context 16), (144, 18, opt e.queue 18),
      (162, 16, opt (e.tag.map BitVec.toNat) 16), (178, 8, opt (e.unit.map (fun u => unitKindCode u.1)) 8),
      (186, 7, opt (e.unit.map (fun u => u.2)) 7), (194, 2, opt (e.loc.map EvLoc.rank) 2),
      (196, 5, opt (e.loc.map EvLoc.bank) 5), (201, 7, opt (e.loc.map EvLoc.column) 7),
      (208, 20, opt (e.loc.map EvLoc.row) 20), (256, 64, opt (e.detail0.map BitVec.toNat) 64),
      (320, 64, opt (e.detail1.map BitVec.toNat) 64) ])

/-- The phase bit of entry `count` of a ring of `size` entries (R293). -/
def phaseOf (count size : Nat) : Nat := 1 - count / size % 2

/-- BAR4 offsets of the response ring, the event ring and the staging window (R287). -/
def rspRing : Nat := 0x120000
/-- The device event ring. -/
def evtRing : Nat := 0x140000
/-- The staging window. -/
def staging : Nat := 0x200000

/-- Write one event into the device event ring, or count it lost (R297). -/
def Dev.putDevEvent (d : Dev) (e : Event) : Dev :=
  if d.evt.tail - d.evt.head = 4096 then
    { d with evt := { d.evt with lost := d.evt.lost + 1, unreported := d.evt.unreported + 1 } }
  else
    let k := d.evt.tail.toNat
    let d1 := { d with
      sram := memWriteLine d.sram (evtRing + 64 * (k % 4096)) (eventLine e (phaseOf k 4096) d.now)
      evt := { d.evt with tail := d.evt.tail + 1 } }
    if bit d1.intEnable 1 then d1.emit (.msix 1) else d1

/-- The snoops that an access by an engine, mover, core or Swearis requester needs (Table 10.8, "other"). -/
def otherSnoops (e : DirEntry) (write : Bool) : List (Nat × Snoop) :=
  match e.state with
  | .i => []
  | .s | .f => if write then (bitsOf e.sharers).map (fun h => (h, .inv)) else []
  | .e | .m => [(e.holder, if write then .inv else .cur)]

/-- Set a window line's directory entry. -/
def Dev.setDir (d : Dev) (r line : Nat) (e : DirEntry) : Dev :=
  { d with dir := if e = {} then terase d.dir (dirKey r line) else tset d.dir (dirKey r line) e }

/-- Whether a window line is in a transaction, or reserved for another request than the waiting one given (R253). -/
def Dev.winBusy (d : Dev) (r line : Nat) (mine : Option WinWait) : Bool :=
  d.winTxns.any (fun t => t.region == r && t.line == line) ||
  d.winWaits.any (fun w => w.region == r && w.line == line && w.reserved && some w != mine)

/-- Whether a write to a region offset is held: an active that holds its writes (R324), or a page under resync (R328). -/
def Dev.writeHeld (d : Dev) (r off : Nat) : Bool :=
  d.pair.role == .active && d.paired r &&
  (d.pair.holdSince.isSome || d.pair.sync == .resync &&
   (match d.pair.resync with
    | some rs =>
      match rs.todo with
      | (e, pg) :: _ => (tgetD d.pair.entries e {}).region == r && pg == off / pageBytes
      | [] => false
    | none => false))

/-- Whether a write to a region offset waits for a page copy: the page at the cursor of a migration (Table 2.7) or of a
rebuild, or a page of an unprotected extent of a dead subchannel that is still to be rewritten (Table 7.9). The second
part names an extent whose rebuild has not started. -/
def Dev.pageHeld (d : Dev) (reg : Region) (off : Nat) : Bool × Option (Nat × Nat) :=
  if reg.migrating && off / pageBytes == reg.cursor then (true, none)
  else if d.rebuilds = [] then (false, none)
  else match reg.placeIn (reg.useNew off) off with
    | none => (false, none)
    | some (e, eoff) =>
      match d.rebuilds.find? (fun b => !e.near && b.unit == e.unit) with
      | none => (false, none)
      | some b =>
        let lone := b.dead && (d.slotGroup e.unit e.slot).isNone
        match b.cur with
        | some (slot, _, _) =>
          if slot = e.slot then (eoff / pageBytes == b.cursor || (lone && decide (b.cursor < eoff / pageBytes)), none)
          else if lone && b.todo.contains e.slot then (true, some (e.unit, e.slot)) else (false, none)
        | none => if lone && b.todo.contains e.slot then (true, some (e.unit, e.slot)) else (false, none)

/-- Where a management core's write of a line at a context's address goes: nowhere (none), to a line at once, or to a line at which it
must wait, for a page copy, a controller, a snoop or a pair (R45, R169, R253, R324, R343). -/
def Dev.coreTarget (d : Dev) (ctx addr : Nat) : Option (Nat × Nat × Bool) :=
  match d.locate ctx addr 64 .w with
  | .error _ => none
  | .ok (r, off) =>
    (tget d.regions r).bind (fun reg => (d.place reg off).map (fun x => (x.1, x.2,
      (d.pageHeld reg off).1 || d.mustWait x.1 x.2 true || d.writeHeld r off ||
      (d.paired r || reg.window && (d.winBusy r (off / 64) none || otherSnoops (d.dirOf r (off / 64)) true != [])))))

/-- Store a line at a context's address without raising anything. A write that must wait, or that comes behind one that waits, is kept
and made by Huanik's next round (MBX_HEARTBEAT_TICK). -/
def Dev.quietStore (d : Dev) (ctx addr : Nat) (data : Line) : Dev :=
  match d.coreTarget ctx addr with
  | none => d
  | some (m, line, wait) =>
    if wait || d.coreWrites != [] then { d with coreWrites := d.coreWrites ++ [{ ctx := ctx, addr := addr, data := data }] }
    else d.putLine m line data

/-- Write the control line of a partition event ring (R300). -/
def Dev.putRingControl (d : Dev) (p : Nat) : Dev :=
  match tget d.partRings p with
  | some g => d.quietStore g.ctx g.addr (BitVec.ofNat 512 (g.tail.toNat + 4294967296 * g.lost.toNat))
  | none => d

/-- Write one event into a partition's event ring, or count it lost (R297, R300). -/
def Dev.putPartEvent (d : Dev) (p : Nat) (e : Event) : Dev :=
  match tget d.partRings p with
  | none => d
  | some g =>
    if (g.tail - g.head).toNat = 2 ^ g.log2 then
      { d with partRings := tset d.partRings p { g with lost := g.lost + 1, unreported := g.unreported + 1 } }.putRingControl p
    else
      let k := g.tail.toNat
      let d1 := d.quietStore g.ctx (g.addr + 64 + 64 * (k % 2 ^ g.log2)) (eventLine e (phaseOf k (2 ^ g.log2)) d.now)
      { d1 with partRings := tset d1.partRings p { g with tail := g.tail + 1 } }.putRingControl p

/-- Raise an event: into the device ring and, where it names a partition with a ring, into that ring (R297). A FATAL
event asserts ALERT_N (R400). -/
def Dev.raise (d : Dev) (e : Event) : Dev :=
  let d1 := (d.emit (.event e)).putDevEvent e
  let d2 := match e.part with
    | some p => d1.putPartEvent p e
    | none => d1
  if severity e = 3 then { d2 with sys := { d2.sys with causeFatal := true } } else d2

/-- Change MBX.STATUS fields; vector 2 tells of it (Table 12.1). -/
def Dev.setSys (d : Dev) (f : Sys → Sys) : Dev :=
  let d1 := { d with sys := f d.sys }
  if bit d.intEnable 2 then d1.emit (.msix 2) else d1

/-! ## Rebuild start (R167, R168) -/

/-- Spare slots of subchannel `u` of partition `p` still free: the partition reserves its last slots (log entry 13). -/
def Dev.freeSpare (d : Dev) (p u : Nat) : List Nat :=
  let s := (d.partn p).spareSlots
  let n := (d.unit u).slots
  ((List.range n).drop (n - s)).filter (fun e => !d.spareUsed.contains (u, e))

/-- The units that hold a member of a slot's parity group, and those of its interleave set (R168). -/
def Dev.groupUnits (d : Dev) (u slot : Nat) : List Nat × List Nat :=
  let grp := match d.slotGroup u slot with
    | some (_, _, _, es) => es.map extM
    | none => []
  let set := match d.slotRegion u slot with
    | some (_, reg, new, i) =>
      let w := if new then reg.newWidth else reg.width
      (((if new then reg.newExtents else reg.extents).drop (i / w * w)).take w).map extM
    | none => []
  (grp, set)

/-- The better of two destinations: outside the interleave set, then more free spare, then the lower unit (R168). -/
def betterSpare (a b : Nat × Bool × Nat × Nat) : Nat × Bool × Nat × Nat :=
  if a.2.1 != b.2.1 then (if a.2.1 then b else a)
  else if b.2.2.1 > a.2.2.1 then b else a

/-- The destination of a rebuilt slot (R168): (unit, slot). -/
def Dev.spareFor (d : Dev) (u slot : Nat) : Option (Nat × Nat) :=
  match d.unitOwner u with
  | none => none
  | some p =>
    let (grp, set) := d.groupUnits u slot
    let cands := (bitsOf (d.partn p).subchannels).filterMap (fun v =>
      if v = u ∨ grp.contains v ∨ (d.unit v).dead ∨ !(d.unit v).trained then none
      else match d.freeSpare p v with
        | [] => none
        | e :: r => some (v, set.contains v, r.length + 1, e))
    match cands with
    | [] => none
    | x :: xs =>
      let b := xs.foldl betterSpare x
      some (b.1, b.2.2.2)

/-- Take up the next extent of a rebuild, skipping those that find no spare slot (R168). Metadata slots are rebuilt
from the mirror in place of their own mapping. -/
def Dev.nextRebuildExtent (d : Dev) (rb : Rebuild) : List Nat → Dev × Rebuild
  | [] => (d, { rb with todo := [], cur := none, cursor := 0 })
  | e :: rest =>
    match d.spareFor rb.unit e with
    | some (v, f) =>
      ({ d with spareUsed := d.spareUsed ++ [(v, f)] }, { rb with todo := rest, cur := some (e, v, f), cursor := 0 })
    | none =>
      Dev.nextRebuildExtent
        (d.raise { code := .spareExhausted, part := d.unitOwner rb.unit, unit := some (memUnitRef rb.unit), detail0 := some 1 })
        { rb with stayed := rb.stayed ++ [e] } rest

/-- Every slot of a dead subchannel that no parity protects reads as poison (Table 7.8). -/
def Dev.loseSlots (d : Dev) (u : Nat) (slots : List Nat) : Dev :=
  let gone := slots.filter (fun e => (d.slotGroup u e).isNone && !(d.metaSlots u).contains e)
  let pool := { d.pool with lost := d.pool.lost ++ gone.map (fun e => (lineKey u (e * slotLines), slotLines)) }
  { d with pool := pool }

/-- Start a rebuild, or queue it behind one that runs on the same partition (R167, R171). -/
def Dev.startRebuild (d : Dev) (u : Nat) (dead : Bool) (op : Option Nat) : Dev :=
  if d.rebuilds.any (fun r => r.unit == u) then
    if dead then { d with rebuilds := d.rebuilds.map (fun r => if r.unit == u then { r with dead := true } else r) } else d
  else
    let slots := (d.metaSlots u) ++ (d.usedSlots u).filter (fun e => !(d.metaSlots u).contains e)
    let d1 := d.raise { code := .rebuildStart, part := d.unitOwner u, unit := some (memUnitRef u),
                        detail0 := some (BitVec.ofNat 64 slots.length) }
    let d2 := if dead then d1.loseSlots u slots else d1
    let rb : Rebuild := { unit := u, dead := dead, todo := slots, total := slots.length, cur := none, op := op }
    if d2.rebuilds.any (fun r => d2.unitOwner r.unit == d2.unitOwner u) then { d2 with rebuilds := d2.rebuilds ++ [rb] }
    else
      let (d3, rb') := d2.nextRebuildExtent { rb with started := true } slots
      { d3 with rebuilds := d3.rebuilds ++ [rb'] }

/-! ## The correction log and its alarms (R154 to R156) -/

/-- The number of log entries of a unit (R154). -/
def logSize (m : Nat) : Nat := if m < 48 then 32 else 16

/-- Add a correction to a log: (the log, whether the location was new). `persist` marks a Transit repeat (R159). -/
def logAdd (log : List LogEntry) (size : Nat) (loc : EvLoc) (pos src now pass : Nat) : List LogEntry × Bool :=
  let same := fun (x : LogEntry) =>
    x.rank == loc.rank && x.bank == loc.bank && x.column == loc.column && x.row == loc.row && x.position == pos
  if log.any same then
    (log.map (fun x =>
      if same x then
        { x with
          hits := if x.hits = 0xFFFF then x.hits else x.hits + 1
          lastSeen := now
          source := src
          persistent := x.persistent || (src == 1 && decide (x.pass < pass)) }
      else x), false)
  else
    let e : LogEntry := { rank := loc.rank, bank := loc.bank, column := loc.column, row := loc.row, position := pos,
                          source := src, persistent := false, pass := pass, hits := 1, firstSeen := now, lastSeen := now }
    if log.length < size then (log ++ [e], true)
    else
      let oldest := log.foldl (fun a x => min a x.lastSeen) now
      match log.findIdx? (fun x => x.lastSeen == oldest) with
      | some i => (log.set i e, true)
      | none => (log ++ [e], true)

/-- Huanik moves the NEAR_IF_FREE regions that lie on a degraded pseudo-channel to the capacity tier by migration; one that finds too
few slots there stays. It places nothing more on that pseudo-channel (R156). -/
def Dev.leaveNear (d : Dev) (m : Nat) : Dev :=
  (d.regions.filter (fun x => x.2.tier == .nearIfFree && x.2.inNear && !x.2.migrating &&
      x.2.extents.any (fun e => extM e == m))).foldl
    (fun e x => (e.startMigration x.1 x.2.width .nearIfFree false 25 x.2.salt none).getD e) d

/-- A rate alarm or a device loss on unit `m`: a subchannel is rebuilt; a pseudo-channel raises NT_DEGRADED, and Huanik empties it
(R156; its summary pages by SUMMARY_PAGE_MOVE). -/
def Dev.alarm (d : Dev) (m : Nat) : Dev :=
  if m < 48 then d.startRebuild m false none
  else ((d.modUnit m (fun u => { u with degraded := true })).raise
    { code := .ntDegraded, part := d.unitOwner m, unit := some (memUnitRef m) }).leaveNear m

/-- The threshold of the correction-rate alarm (R156). -/
def Dev.rateLimit (d : Dev) (m : Nat) : Nat :=
  max (d.param 0x0011 0).toNat (4 * (if m < 48 then d.peerMedian.1 else d.peerMedian.2))

/-- Count a correction at a location and raise the alarms it causes (R155, R156). -/
def Dev.countCorrection (d : Dev) (m : Nat) (loc : EvLoc) (pos : Nat) (isNew : Bool) : Dev :=
  let d1 := (d.bump .diCeTotal).bump (.diUnitCe m)
  let d2 := if isNew then d1.bump (.diUnitNew m) else d1
  let recent := (loc.rank, pos, loc.row, d.now) :: (d2.unit m).recent.filter (fun x => decide (d.now ≤ x.2.2.2 + 1000000000))
  let rows := ((recent.filter (fun x => x.1 == loc.rank && x.2.1 == pos)).map (fun x => x.2.2.1)).dedup
  let rate := decide (d2.rateLimit m < (d2.count (.diUnitNew m)).toNat) && !(d2.unit m).rateAlarm
  let loss := decide (64 ≤ rows.length)
  let d3 := d2.modUnit m (fun u => { u with
    recent := if loss then [] else recent
    rateAlarm := u.rateAlarm || rate })
  if rate || loss then d3.alarm m else d3

/-- Log a correction of line `line` of unit `m` at a position (R154). -/
def Dev.logCorrection (d : Dev) (m line pos src : Nat) : Dev :=
  let loc := d.loc m line
  let (lg, isNew) := logAdd (d.unit m).log (logSize m) loc pos src d.now (d.unit m).transitPass
  (d.modUnit m (fun u => { u with log := lg })).countCorrection m loc pos isNew

/-- Log a TRANSIENT read whose second read was valid: position 63, no correction counter (R148). -/
def Dev.logTransient (d : Dev) (m line : Nat) : Dev :=
  let (lg, _) := logAdd (d.unit m).log (logSize m) (d.loc m line) 63 2 d.now (d.unit m).transitPass
  d.modUnit m (fun u => { u with log := lg })

/-! ## Demand reads (R148) -/

/-- The extent-list entry of a line of a unit, for events. -/
def lineExtent (m line : Nat) : Extent :=
  { near := decide (48 ≤ m), unit := if m < 48 then m else m - 48, slot := line / slotLines }

/-- An event about a line: its location, its line address and its extent-list entry (Table 12.6). -/
def Dev.lineEvent (d : Dev) (c : EvCode) (part : Option Nat) (m line : Nat) : Event :=
  { code := c, part := part, unit := some (memUnitRef m), loc := some (d.loc m line),
    detail0 := some (BitVec.ofNat 64 line), detail1 := some (extentWord (lineExtent m line)) }

/-- A line that nothing reconstructs is rewritten as poison, and the parity of its group is made anew (R164, Table 7.2). -/
def Dev.giveUpLine (d : Dev) (m line : Nat) : Dev :=
  let d1 := { d with pool := d.pool.poisonLine m line }
  match (if d.regions.any (fun x => x.2.durable) then d1.lineGroup m line else none) with
  | some (_, _, _, pg, exts) => { d1 with pool := d1.reformParity pg exts (line % slotLines) }
  | none => d1

/-- A line uncorrectable twice (last three rows of Table 7.2). A damaged poison pattern that is reconstructed is rewritten as the
pattern and answers Data, OK, as R147 puts it under this row; the data is the pattern as stored, for it is never decrypted (log entry
74). -/
def Dev.uncorrectableTwice (d : Dev) (m line : Nat) : Status × Line × Dev :=
  let d1 := d.bump .diUeTotal
  if d1.canReconstruct m line then
    let (w, d2) := d1.reconstruct m line
    let f := d2.pool.fault m line
    let d3 := { d2 with pool := if f.poison then d2.pool.poisonLine m line else d2.pool.store m line w }
    let d4 := (d3.bump .diUeRecon).raise (d3.lineEvent .ueReconstructed (d3.unitOwner m) m line)
    (.ok, w, d4)
  else
    let d2 := d1.giveUpLine m line
    (.uncorrectable, 0, d2.raise (d2.lineEvent .ueDemand (d2.unitOwner m) m line))

/-- A miscorrected word (R144): wrong data, and a correction logged at a position that the decoder chose (log entry 4). -/
def Dev.miscorrect (d : Dev) (m line src : Nat) : Line × Dev :=
  let (w, d1) := d.drawLine
  let (p, d2) := d1.drawWord
  (w, d2.logCorrection m line (p.toNat % (if m < 48 then 10 else 36)) src)

/-- A demand read of line `line` of unit `m`; `d1` and `d2` are disturbances of the word on the first and the second
read (R148, Table 7.2). On a dead unit a line is poison, is reconstructed, or cannot be read (R171, Table 7.9); on one in a retrain a
DURABLE line is reconstructed (R343). -/
def Dev.demandRead (d : Dev) (m line : Nat) (x1 x2 : BitVec 640) : Status × Line × Dev :=
  let near := decide (48 ≤ m)
  let f := d.pool.fault m line
  if (d.unit m).dead || ((d.unit m).retrain.isSome && (d.lineGroup m line).isSome) then
    if (d.lineGroup m line).isNone then (.poison, 0, d.bump .diPoisonReads)
    else if !d.canReconstruct m line then (.uncorrectable, 0, d)
    else if f.poison then (.poison, 0, d.bump .diPoisonReads)
    else let (w, e) := d.reconstruct m line; (.ok, w, e)
  else match classify near f x1 with
    | .valid => (.ok, d.lineData m line, d)
    | .corrected p => (.ok, d.lineData m line, d.logCorrection m line p 0)
    | .poison => (.poison, 0, d.bump .diPoisonReads)
    | .wrong => let (w, e) := d.drawLine; (.ok, w, e)
    | .miscorrected => let (w, e) := d.miscorrect m line 0; (.ok, w, e)
    | .uncorrectable =>
      match classify near f x2 with
      | .valid => (.ok, d.lineData m line, (d.bump .diTransient).logTransient m line)
      | .corrected p => (.ok, d.lineData m line, (d.bump .diTransient).logCorrection m line p 2)
      | .poison => (.poison, 0, d.bump .diPoisonReads)
      | .wrong => let (w, e) := (d.bump .diTransient).drawLine; (.ok, w, e)
      | .miscorrected => let (w, e) := (d.bump .diTransient).miscorrect m line 2; (.ok, w, e)
      | .uncorrectable => d.uncorrectableTwice m line

/-! ## Rows activated (R174, R175) -/

/-- The activation count at which Feryth issues an RFM command: RAAIMT, halved above 85 °C (R174). -/
def rfmTrigger (u : MemUnit) : Nat := if u.hot then u.raaimt / 2 else u.raaimt

/-- The activations of a stream of a bank since its last RFM. -/
def streamCount (u : MemUnit) (bank : Nat) (x : Stream) : Nat :=
  ((u.streams.find? (fun y => y.1 == bank && y.2.1 == x)).map (fun y => y.2.2)).getD 0

/-- The stream with the most activations of a bank since its last RFM; the first counted on a tie (log entry 75). -/
def topStream (u : MemUnit) (bank : Nat) : Option Stream :=
  ((u.streams.filter (fun x => x.1 == bank)).foldl (fun (acc : Option (Stream × Nat)) x =>
    match acc with
    | some y => if y.2 < x.2.2 then some x.2 else some y
    | none => some x.2) none).map (fun x => x.1)

/-- The activations of a bank by a stream in the 64 µs before `now`. -/
def streamRate (u : MemUnit) (bank : Nat) (x : Stream) (now : Nat) : Nat :=
  (u.acts.filter (fun a => a.1 == bank && a.2.1 == x && decide (now < a.2.2 + 64000))).length

/-- Throttle the stream with the most activations of a bank for the next 64 µs, at half its rate of the last 64 µs; ROW_THROTTLE is
raised once per episode (R175). -/
def Dev.throttleBank (d : Dev) (m bank line : Nat) : Dev :=
  let u := d.unit m
  match (if u.throttles.any (fun t => t.bank == bank) then none else topStream u bank) with
  | none => d
  | some x =>
    let d1 := d.modUnit m (fun v => { v with
      throttles := v.throttles ++ [{ bank := bank, stream := x, left := streamRate u bank x d.now / 2, until_ := d.now + 64000 }] })
    if u.throttleEpisode.contains bank then d1
    else
      ({ d1.modUnit m (fun v => { v with throttleEpisode := bank :: v.throttleEpisode }) with
         pow := { d1.pow with rowThrottleSeen := true } }).raise
        { code := .rowThrottle, part := d1.unitOwner m, unit := some (memUnitRef m), loc := some (d1.loc m line),
          detail0 := some (BitVec.ofNat 64 line) }

/-- Issue an RFM command to a bank, which lowers its count by RAAIMT. -/
def Dev.issueRfm (d : Dev) (m bank : Nat) : Dev :=
  (d.modUnit m (fun v => { v with
    raa := tset v.raa bank (tgetD v.raa bank 0 - v.raaimt)
    streams := v.streams.filter (fun x => x.1 != bank) })).emit (.rfm m bank)

/-- Issue an RFM command to every bank whose count stands at the trigger or above it, as after a change of the trigger (R174). -/
def Dev.rfmSweep (d : Dev) (m : Nat) : Dev :=
  let u := d.unit m
  if u.raaimt = 0 then d
  else (u.raa.filter (fun x => decide (rfmTrigger u ≤ x.2))).foldl (fun e x => e.issueRfm m x.1) d

/-- Count one activation of a line's bank by the present requester: a count that reaches RAAMMT throttles a stream, and one that reaches
the trigger issues an RFM command. A DRAM that gives no RAAIMT needs neither. -/
def Dev.activate (d : Dev) (m line : Nat) : Dev :=
  if m < 48 then
    let bank := d.bankOf m line
    let n := tgetD (d.unit m).raa bank 0 + 1
    let d1 := d.modUnit m (fun u => { u with
      raa := tset u.raa bank n
      streams := (bank, d.stream, streamCount u bank d.stream + 1) :: u.streams.filter (fun x => !(x.1 == bank && x.2.1 == d.stream))
      acts := (bank, d.stream, d.now) :: u.acts.filter (fun a => decide (d.now < a.2.2 + 64000))
      throttles := u.throttles.map (fun t => if t.bank == bank && t.stream == d.stream then { t with left := t.left - 1 } else t) })
    let u := d1.unit m
    if u.raaimt = 0 then d1
    else
      let d2 := if u.raammt ≤ n ∧ u.raammt ≠ 0 then d1.throttleBank m bank line else d1
      if rfmTrigger u ≤ n then d2.issueRfm m bank else d2
  else d

/-- A demand read of a line as a requester makes it: its row is activated, and it is read. -/
def Dev.readLine (d : Dev) (m line : Nat) : Status × Line × Dev := (d.activate m line).demandRead m line 0 0

/-- A full-line write of a line as a requester makes it. -/
def Dev.writeLine (d : Dev) (m line : Nat) (data : Line) : Dev := (d.activate m line).putLine m line data

/-- Copy one line between units: a demand read, and one that does not read OK is written as poison. -/
def Dev.copyLine (d : Dev) (m line m' line' : Nat) : Dev :=
  let (st, x, e) := d.demandRead m line 0 0
  if st = .ok then e.putLine m' line' x else e.putPoison m' line'

/-- Copy `n` lines between units, as a data mover does: each line is a demand read, and one that does not read OK is
written as poison (R47, R67); lines of a parity group take their parity along (R164). The row of the run's first line is activated
on both sides (log entry 65). -/
def Dev.copyRun (d0 : Dev) (m line m' line' n : Nat) : Dev :=
  let d := (d0.activate m line).activate m' line'
  if d.regions.any (fun x => x.2.durable) && ((d.lineGroup m' line').isSome || (d.lineGroup m line).isSome) then
    (List.range n).foldl (fun e i => e.copyLine m (line + i) m' (line' + i)) d
  else
  let d1 := { d with pool := d.pool.copyLines m line m' line' n }
  let odd := if (d.unit m).dead then List.range n
    else (d.pool.faults.filter (fun x => decide (lineKey m line ≤ x.1) && decide (x.1 < lineKey m line + n))).map
      (fun x => x.1 - lineKey m line)
  odd.foldl (fun e i =>
    let (st, x, e1) := e.demandRead m (line + i) 0 0
    { e1 with pool := if st = .ok then e1.pool.store m' (line' + i) x else e1.pool.poisonLine m' (line' + i) }) d1

/-! ## The coherent window as other requesters meet it (R253, Table 10.8) -/

/-- Start a window transaction that waits on snoops (R253). -/
def Dev.startTxn (d : Dev) (r line : Nat) (req : WinReq) (sn : List (Nat × Snoop)) : Dev :=
  sn.foldl (fun e x => e.emit (.biSnoop x.1 x.2 r line))
    { d with winTxns := d.winTxns ++
        [{ region := r, line := line, req := req, waiting := sn.map (fun x => x.1), started := d.now, who := (d.cur, d.stream) }] }

/-- The access under way of a descriptor or a Swearis request, where it waits for a line. -/
def Dev.winMine (d : Dev) (r line : Nat) (req : WinReq) : Option WinWait :=
  d.winWaits.find? (fun w => w.region == r && w.line == line && w.req == req && w.who == (d.cur, d.stream))

/-- Make a request wait for a busy line (R253). An access that is made again waits once. -/
def Dev.winWait (d : Dev) (r line : Nat) (req : WinReq) : Dev :=
  if (match req with | .deferred _ => (d.winMine r line req).isSome | _ => false) then d
  else { d with winWaits := d.winWaits ++ [{ region := r, line := line, req := req, who := (d.cur, d.stream) }] }

/-- An access that goes ahead waits no longer. -/
def Dev.winGo (d : Dev) (r line : Nat) (req : WinReq) : Dev :=
  { d with winWaits := d.winWaits.filter (fun w => some w != d.winMine r line req) }

/-- The operation under way is to be made again: something that it needs must be waited for. -/
def Dev.defer (d : Dev) : Dev := { d with again := true }

/-- What a descriptor's or Swearis request's access does at a window line first: it goes ahead (OK), or it ends with a
status, or it waits (none), on snoops that it starts or on the transaction under way. An access whose snoops have been
answered finds its transaction finished. -/
def Dev.winTouch (d : Dev) (reg : Region) (r off : Nat) (write : Bool) : Option Status × Dev :=
  if write && d.writeHeld r off then (none, d.defer)
  else if write && (d.pageHeld reg off).1 then
    (none, { d with wantFront := d.wantFront ++ (d.pageHeld reg off).2.toList }.defer)
  else if reg.window then
    let line := off / 64
    let req : WinReq := .deferred write
    let start := fun (e : Dev) =>
      match otherSnoops (e.dirOf r line) write with
      | [] => (some Status.ok, if e.winWaits = [] then e else e.winGo r line req)
      | sn => (none, ((e.winGo r line req).startTxn r line req sn).defer)
    match d.winTxns.find? (fun t => t.region == r && t.line == line && t.waiting == [] && t.who == (d.cur, d.stream) &&
        (t.req == .deferred true || t.req == .deferred false)) with
    | some t =>
      let done : Dev := { d with winDone := (r, line) :: d.winDone }
      if t.failed then (some .timeout, done)
      else if t.req = .deferred true || !write then (some .ok, done)
      else start { d with winTxns := d.winTxns.filter (fun x => x != t) }
    | none => if d.winBusy r line (d.winMine r line req) then (none, (d.winWait r line req).defer) else start d
  else (some .ok, d)

/-- No descriptor or requester is under way. -/
def Dev.atRest (d : Dev) : Dev := { d with cur := none, stream := .other }

/-- Move an extent to the front of its rebuild's order (R169). -/
def toFront (rs : List Rebuild) (x : Nat × Nat) : List Rebuild :=
  rs.map (fun r => if r.unit == x.1 && r.todo.contains x.2 then { r with todo := x.2 :: r.todo.erase x.2 } else r)

/-- The device as an operation that may meet window lines finds it: nothing to be made again. -/
def Dev.settle (d : Dev) : Dev := { d with again := false, wantFront := [], winDone := [], cur := none, stream := .other }

/-- Run an operation whose accesses may meet window lines that need snoops, or writes that are held: if any does, the
operation has no effect yet but the snoops it starts and the order of a rebuild, and it is made again later (R253, R324,
R328, R45, R169). -/
def Dev.windowed (d : Dev) (op : Dev → Dev) : Dev :=
  let e := op d.settle
  if e.again = false then
    if e.winDone = [] then e
    else
      { e with
        winTxns := e.winTxns.filter (fun t => !(t.waiting == [] && e.winDone.contains (t.region, t.line)))
        winDone := [] }
  else { d.settle with rebuilds := e.wantFront.foldl toFront d.rebuilds, winTxns := e.winTxns, winWaits := e.winWaits, out := e.out.filter (fun o =>
    match o with
    | .biSnoop _ _ _ _ => true
    | _ => false) }

/-! ## Line accesses by region offset -/

/-- The pages of a paired region changed while the active serves alone are marked (R324); otherwise the line is
mirrored: the client's write completes once it is acknowledged (R317). -/
def Dev.mirror (d : Dev) (r off : Nat) (data : Line) : Dev :=
  if d.paired r && d.pair.role == .active then
    if d.pair.alone then
      { d with pair := { d.pair with pendingPages :=
          if d.pair.pendingPages.contains (r, off / pageBytes) then d.pair.pendingPages
          else d.pair.pendingPages ++ [(r, off / pageBytes)] } }
    else
      { d with pair := { d.pair with
          mirrors := d.pair.mirrors ++
            [{ id := d.pair.nextMirror, region := r, offset := off / 64 * 64, lines := [data], client := .deferred true }]
          nextMirror := d.pair.nextMirror + 1 } }
  else d

/-- Read the line at a region offset (R11). -/
def Dev.load (d : Dev) (r off : Nat) : Status × Line × Dev :=
  match tget d.regions r with
  | none => (.bounds, 0, d)
  | some reg =>
    match d.winTouch reg r off false with
    | (none, d1) => (.ok, 0, d1)
    | (some .ok, d1) =>
      match d1.place reg off with
      | some (m, line) => if d1.mustWait m line false then (.ok, 0, d1.defer) else d1.readLine m line
      | none => (.bounds, 0, d1)
    | (some st, d1) => (st, 0, d1)

/-- Write the whole line at a region offset (R11, R150, R164, R317). -/
def Dev.save (d : Dev) (r off : Nat) (data : Line) : Status × Dev :=
  match tget d.regions r with
  | none => (.bounds, d)
  | some reg =>
    match d.winTouch reg r off true with
    | (none, d1) => (.ok, d1)
    | (some .ok, d1) =>
      match d1.place reg off with
      | some (m, line) =>
        if d1.mustWait m line true then (.ok, d1.defer)
        else ((.ok : Status), ((if reg.window then d1.setDir r (off / 64) {} else d1).writeLine m line data).mirror r off data)
      | none => (.bounds, d1)
    | (some st, d1) => (st, d1)

/-- Write the enabled bytes of the line at a region offset: a read-modify-write (R151). -/
def Dev.merge (d : Dev) (r off : Nat) (data : Line) (en : U64) : Status × Dev :=
  match tget d.regions r with
  | none => (.bounds, d)
  | some reg =>
    match d.winTouch reg r off true with
    | (none, d1) => (.ok, d1)
    | (some .ok, d1) =>
      match d1.place reg off with
      | some (m, line) =>
        if d1.mustWait m line true then (.ok, d1.defer)
        else
        let (st, old, d2) := d1.readLine m line
        if st = .ok then
          let new := mergeBytes old data en
          (.ok, ((if reg.window then d2.setDir r (off / 64) {} else d2).putLine m line new).mirror r off new)
        else (st, d2)
      | none => (.bounds, d1)
    | (some st, d1) => (st, d1)

/-- Write the line at a region offset as poison (Table 6.12), once it may be written (R11). The pair's other device is sent no such
line (log entry 22). -/
def Dev.savePoison (d : Dev) (r off : Nat) : Status × Dev :=
  match tget d.regions r with
  | none => (.bounds, d)
  | some reg =>
    match d.winTouch reg r off true with
    | (none, d1) => (.ok, d1)
    | (some .ok, d1) =>
      match d1.place reg off with
      | some (m, line) =>
        if d1.mustWait m line true then (.ok, d1.defer)
        else ((.ok : Status), ((if reg.window then d1.setDir r (off / 64) {} else d1).activate m line).putPoison m line)
      | none => (.bounds, d1)
    | (some st, d1) => (st, d1)

/-! ## Byte accesses of a context -/

/-- Read lines of a region in order, up to the first that does not read OK. -/
def Dev.loadLines (d : Dev) (r : Nat) (ls : List Nat) : Status × List Line × Dev :=
  match ls with
  | [] => (.ok, [], d)
  | l :: rest =>
    let (st, x, d1) := d.load r (64 * l)
    if st = .ok then
      let (st', xs, d2) := Dev.loadLines d1 r rest
      (st', x :: xs, d2)
    else (st, [], d1)

/-- The line numbers that `n` bytes from byte `a` touch. -/
def linesOf (a n : Nat) : List Nat := if n = 0 then [] else (List.range ((a + n - 1) / 64 - a / 64 + 1)).map (fun i => a / 64 + i)

/-- Read the pieces of a range over several segments, up to the first that does not read OK. -/
def Dev.readParts (d : Dev) (ctx : Nat) : List (Segment × Nat × Nat) → Status × List Byte × Dev
  | [] => (.ok, [], d)
  | (s, a, n) :: rest =>
    let off := s.targetOff + (a - s.base)
    match d.refusesAt (ownLease ctx) s.targetId off n with
    | some st => (st, [], d)
    | none =>
      let (st, ls, d1) := d.loadLines s.targetId (linesOf off n)
      if st = .ok then
        let (st', bs, d2) := Dev.readParts d1 ctx rest
        (st', ((ls.flatMap (bytesOf 64)).drop (off % 64)).take n ++ bs, d2)
      else (st, [], d1)

/-- Read `n` bytes at a context's address. -/
def Dev.readBytes (d : Dev) (ctx addr n : Nat) : Status × List Byte × Dev :=
  if n = 0 then (.ok, [], d)
  else match d.locate ctx addr n .r with
    | .error .bounds =>
      match d.rangeParts ctx addr n .r false with
      | .error st => (st, [], d)
      | .ok ps => d.readParts ctx ps
    | .error st => (st, [], d)
    | .ok (r, off) =>
      let (st, ls, d1) := d.loadLines r (linesOf off n)
      if st = .ok then (.ok, ((ls.flatMap (bytesOf 64)).drop (off % 64)).take n, d1) else (st, [], d1)

/-- Write bytes at a region offset, line by line, up to the first line that fails. -/
def Dev.saveBytes (d : Dev) (r off : Nat) (bs : List Byte) (ls : List Nat) : Status × Dev :=
  match ls with
  | [] => (.ok, d)
  | l :: rest =>
    let lo := max off (64 * l)
    let hi := min (off + bs.length) (64 * l + 64)
    let part := (bs.drop (lo - off)).take (hi - lo)
    let data : Line := BitVec.ofNat 512 (natOfBytes part * 2 ^ (8 * (lo - 64 * l)))
    let (st, d1) :=
      if hi - lo = 64 then d.save r (64 * l) data
      else d.merge r (64 * l) data (BitVec.ofNat 64 ((2 ^ (hi - lo) - 1) * 2 ^ (lo - 64 * l)))
    if st = .ok then Dev.saveBytes d1 r off bs rest else (st, d1)

/-- Write bytes over the pieces of a range, up to the first line that fails. -/
def Dev.writeParts (d : Dev) (ctx : Nat) (bs : List Byte) : List (Segment × Nat × Nat) → Status × Dev
  | [] => (.ok, d)
  | (s, a, n) :: rest =>
    let off := s.targetOff + (a - s.base)
    match d.refusesAt (ownLease ctx) s.targetId off n with
    | some st => (st, d)
    | none =>
      let (st, d1) := d.saveBytes s.targetId off (bs.take n) (linesOf off n)
      if st = .ok then Dev.writeParts d1 ctx (bs.drop n) rest else (st, d1)

/-- Write bytes at a context's address. -/
def Dev.writeBytes (d : Dev) (ctx addr : Nat) (bs : List Byte) : Status × Dev :=
  if bs = [] then (.ok, d)
  else match d.locate ctx addr bs.length .w with
    | .error .bounds =>
      match d.rangeParts ctx addr bs.length .w false with
      | .error st => (st, d)
      | .ok ps => d.writeParts ctx bs ps
    | .error st => (st, d)
    | .ok (r, off) => d.saveBytes r off bs (linesOf off bs.length)

/-- The memory units and lines under a context's range. -/
def Dev.rangeLines (d : Dev) (ctx addr n : Nat) (need : Right) : List (Nat × Nat) :=
  match d.rangeParts ctx addr n need false with
  | .error _ => []
  | .ok ps => ps.flatMap (fun p =>
      (linesOf (p.1.targetOff + (p.2.1 - p.1.base)) p.2.2).filterMap (fun l =>
        (tget d.regions p.1.targetId).bind (fun reg => d.place reg (64 * l))))

/-- Read the line at a context's address. -/
def Dev.readCtxLine (d : Dev) (ctx addr : Nat) : Status × Line × Dev :=
  match d.locate ctx addr 64 .r with
  | .error st => (st, 0, d)
  | .ok (r, off) => d.load r off

/-! ## Pages of a near pool or a region, as lines of a unit -/

/-- The unit and first line of a page: a page of a region, or a page of the near page pool (R30, R55). -/
def Dev.pagePlace (d : Dev) (r : Nat) (pg : Bool × Nat) : Option (Nat × Nat) :=
  if pg.1 then some (nearPlace pg.2)
  else (tget d.regions r).bind (fun reg => d.place reg (pg.2 * pageBytes))

/-- The unit and line of line `i` of a page. -/
def Dev.pageLine (d : Dev) (r : Nat) (pg : Bool × Nat) (i : Nat) : Option (Nat × Nat) :=
  if pg.1 then some ((nearPlace pg.2).1, (nearPlace pg.2).2 + i)
  else (tget d.regions r).bind (fun reg => d.place reg (pg.2 * pageBytes + 64 * i))

end Sys2Proof.Machine
end

