-- ==== Sys2Proof/Machine/Wire.lean ====
section
/-! DEFINITION. Packets and frames as they stand on a link: the header unit, the frame header and its slots, the credit returns of a CONTROL
frame, the PARAM body, and the sealing (R5, R180, R182, R195, R200, R201, R205, R206). -/

namespace Sys2Proof.Machine

open Sys2Proof

/-! ## Packets (Tables 9.2 and 9.3) -/

/-- `kind` of a packet (Table 9.3); a reserved kind is shown as 31. -/
def kindCode (k : PktKind) : Nat :=
  match k with
  | .read => 1 | .write => 2 | .writePartial => 3 | .atomic => 4 | .mirrorWrite => 5
  | .readReply => 8 | .writeAck => 9 | .atomicReply => 10
  | .lost => 12 | .replyLost => 13 | .skip => 14 | .heartbeat => 16
  | .reserved => 31

/-- The header unit of a packet (Table 9.2). -/
def headerUnit (p : Packet) : Line :=
  BitVec.ofNat 512 (packBits [(0, 3, p.tc), (3, 6, p.units), (9, 1, p.epoch.toNat), (10, 1, p.escaped.toNat), (11, 3, p.flowTc),
    (14, 5, kindCode p.kind), (19, 1, p.retry.toNat), (20, 1, p.posted.toNat), (21, 1, p.sync.toNat), (24, 4, p.hops), (32, 8, p.status),
    (40, 16, p.dstEp), (56, 16, p.srcEp), (72, 16, p.job), (88, 16, p.srcRank), (104, 12, p.window), (120, 24, p.flowSeq.toNat),
    (144, 16, p.reqTag), (160, 8, p.gen.toNat), (168, 6, p.lines), (192, 64, p.addr.toNat), (256, 64, p.byteEn.toNat),
    (320, 8, p.atomicOp.toNat), (384, 128, p.claim.toNat)])

/-! ## Frames (R180, R182, Table 8.2) -/

/-- The code of a slot in `slot_map`, and its 64 bytes. -/
def slotUnit (s : Slot) : Nat × Line :=
  match s with
  | .empty => (0, 0)
  | .head p => (1, headerUnit p)
  | .body w => (2, w)
  | .reserved w => (3, w)

/-- The 19 slots of a frame, slot 0 first. -/
def Frame.units (f : Frame) : List (Nat × Line) :=
  (List.range 19).map (fun k =>
    if f.ftype = 2 ∧ k = 0 then (0, f.control) else ((f.slots[k]?).map slotUnit).getD (0, 0))

/-- The frame header (Table 8.2). -/
def Frame.header (f : Frame) : BitVec 384 :=
  let units := Frame.units f
  BitVec.ofNat 384 (packBits ([(0, 4, f.ftype), (4, 1, f.nak.toNat), (5, 1, f.keyPhase.toNat), (6, 1, f.ackValid.toNat), (8, 12, f.seq.toNat),
    (20, 12, f.ackSeq.toNat), (32, 3, f.crA.tc), (36, 16, f.crA.hdr.toNat), (52, 20, f.crA.data.toNat), (72, 3, f.crB.tc),
    (76, 16, f.crB.hdr.toNat), (92, 20, f.crB.data.toNat)] ++ units.mapIdx (fun k u => (112 + 2 * k, 2, u.1)) ++ [(160, 64, f.nonce.toNat)]))

/-- What slot 0 of a CONTROL frame holds for eight header and data counts, class 0 first (R182). -/
def creditSlot (cs : List (Nat × Nat)) : Line :=
  BitVec.ofNat 512 (packBits ((cs.take 8).mapIdx (fun t c => (36 * t, 16, c.1)) ++ (cs.take 8).mapIdx (fun t c => (36 * t + 16, 20, c.2))))

/-- The eight header and data counts of such a slot. -/
def slotCredits (x : Line) : List (Nat × Nat) := (List.range 8).map (fun t => (field x (36 * t) 16, field x (36 * t + 16) 20))

/-! ## Sealing (R200, R201) -/

/-- The nonce of a frame: the sender's direction value and the frame counter. -/
def frameNonce (device : U64) (port : Nat) (ctr : U64) : BitVec 96 :=
  BitVec.ofNat 96 (packBits [(0, 32, (device.setWidth 32 ^^^ BitVec.ofNat 32 port).toNat), (32, 64, ctr.toNat)])

/-- A frame's 1,280 bytes: 48 bytes of header, 19 slots of 64 bytes sealed, and the tag. -/
def sealBytes (key : BitVec 256) (nonce : BitVec 96) (header : BitVec 384) (slots : List Byte) : List Byte :=
  let sealed := Config.gcm key nonce (bytesOf 48 header) slots
  bytesOf 48 header ++ sealed.1 ++ bytesOf 16 sealed.2

/-- A DATA or CONTROL frame as port `n` of this device sends it under a key. -/
def wireFrame (n : Nat) (key : BitVec 256) (f : Frame) : List Byte :=
  sealBytes key (frameNonce Config.deviceId n f.nonce) (Frame.header f) ((Frame.units f).flatMap (fun u => bytesOf 64 u.2))

/-- A directional key: that of frames which `sender` sends in a key epoch. -/
def linkKey (secret : BitVec 384) (salt : BitVec 512) (sender epoch : U64) : BitVec 256 := Config.hkdf secret salt (epoch ++ sender)

/-! ## PARAM bodies (Table 8.5) -/

/-- The phase of a PARAM content. -/
def phaseNo (c : ParamContent) : Nat :=
  match c with
  | .hello _ => 0 | .cert _ _ _ _ _ => 1 | .keys _ _ _ => 2 | .credits _ => 3 | .audit _ _ _ => 4 | .ready => 5

/-- The bytes of a content, from offset 64 of the body. -/
def contentBytes (c : ParamContent) : List Byte :=
  match c with
  | .hello nonce => bytesOf 32 nonce
  | .cert len off part _ _ => bytesOf 4 len ++ bytesOf 4 off ++ part
  | .keys pub sig _ => bytesOf 97 pub ++ bytesOf 96 sig
  | .credits adv => bytesOf 64 adv
  | .audit freed occ e => bytesOf 64 freed ++ bytesOf 64 occ ++ bytesOf 2 (e.setWidth 16)
  | .ready => []

/-- The body of a PARAM frame: 64 fixed bytes and its content. -/
def bodyBytes (b : ParamBody) : List Byte :=
  bytesOf 64 (BitVec.ofNat 512 (packBits [(0, 8, b.version), (8, 8, phaseNo b.content), (16, 8, b.port), (24, 1, b.retrain.toNat),
    (32, 64, b.deviceId.toNat)])) ++ contentBytes b.content

/-- A PARAM frame as port `n` of this device sends it under a key: the body fills the slots from byte 48 on. -/
def wireParam (n : Nat) (key : BitVec 256) (b : ParamBody) : List Byte :=
  let body := bodyBytes b
  sealBytes key (frameNonce Config.deviceId n b.nonce) (Frame.header { ftype := 3, nonce := b.nonce })
    (body ++ List.replicate (1216 - body.length) 0)

end Sys2Proof.Machine
end

