-- ==== Sys2Proof/Machine/Fabric.lean ====
section
/-! DEFINITION. Sending packets: ports, routes, numbering, outstanding requests, replies and notices (Chapter 9), and
the mirror writes of a pair (R317). -/

namespace Sys2Proof.Machine

open Sys2Proof

/-! ## Generation tags (R336, R337) -/

/-- The present generation of a reset-domain member (Table 14.1). -/
def Dev.domGen (d : Dev) (x : Domain) : U8 :=
  match x with
  | .device => d.sys.deviceGen
  | .partition p => (d.partn p).gen
  | .engine n => tgetD d.engGen n 0
  | .mover n => tgetD d.movGen n 0
  | .memUnit m => tgetD d.unitGen m 0
  | .port n => tgetD d.portGen n 0
  | .head h => tgetD d.headGen h 0
  | .queue q => (d.queue q).gen

/-- The index k of RST.STALE_REPLIES[k]: the rows of Table 14.1 in order. -/
def domKind (x : Domain) : Nat :=
  match x with
  | .device => 0 | .partition _ => 1 | .engine _ => 2 | .mover _ => 3 | .memUnit _ => 4 | .port _ => 5 | .head _ => 5 | .queue _ => 6

/-! ## Credits and gates (R190, R202, R228 to R230) -/

/-- Credit count of a class. -/
def creditOf (l : List CreditCount) (t : Nat) : CreditCount := lgetD l t {}

/-- Add to the credit count of a class: one header, and `n` data units. -/
def addCredit (l : List CreditCount) (t n : Nat) : List CreditCount :=
  lset l t { hdr := (creditOf l t).hdr + 1, data := (creditOf l t).data + BitVec.ofNat 20 n }

/-- Credit that a class has left towards the partner (R190): headers and data units. -/
def Port.available (p : Port) (t : Nat) : Nat × Nat :=
  let adv := lgetD p.partnerAdv t (0, 0)
  let c := creditOf p.consumed t
  let f := creditOf p.partnerFreed t
  let back := lgetD p.restored t (0, 0)
  (adv.1 + back.1 - (c.hdr - f.hdr).toNat, adv.2 + back.2 - (c.data - f.data).toNat)

/-- Whether a packet has the credit it needs. -/
def Port.hasCredit (p : Port) (x : Packet) : Bool :=
  decide (1 ≤ (p.available x.tc).1) && decide (x.units ≤ (p.available x.tc).2)

/-- The entries of a port's schedule up to its end, as (duration, open classes). -/
def Dev.schedule (d : Dev) (n : Nat) (b : Bool) : List (Nat × Nat) :=
  (((List.range 64).map (fun i => d.param 0x0027 (128 * n + (if b then 64 else 0) + i))).map
    (fun v => (field v 0 20, field v 20 8))).takeWhile (fun e => e.1 != 0)

/-- The cycle of a schedule. -/
def cycleOf (es : List (Nat × Nat)) : Nat := (es.map (fun e => e.1)).sum

/-- The phase of a cycle with an offset at a time. -/
def phaseAt (now offset cycle : Nat) : Nat := if cycle = 0 then 0 else (now + cycle * (offset / cycle + 1) - offset) % cycle

/-- The entry in force at a phase, and the phase at which it ends. -/
def entryAt (es : List (Nat × Nat)) (start ph : Nat) : Option ((Nat × Nat) × Nat) :=
  match es with
  | [] => none
  | e :: r => if ph < start + e.1 then some (e, start + e.1) else entryAt r (start + e.1) ph

/-- How many ns a class stays open from phase `ph` on: none where no closing lies ahead (R230). -/
def openFor (es : List (Nat × Nat)) (t ph : Nat) : Option Nat :=
  let rec go (rest : List (Nat × Nat)) (at_ : Nat) : Option Nat :=
    match rest with
    | [] => none
    | e :: r => if ph < at_ + e.1 ∧ e.2.testBit t = false then some (at_ - ph) else go r (at_ + e.1)
  go (es ++ es) 0

/-- Frames that a packet may span, wherever its HEAD slot stands in its first frame (R181, R230). -/
def spanFrames (p : Packet) : Nat := (p.units + 18) / 19 + 1

/-- Whether a schedule lets a packet of `frames` frames of class `t` start at a phase (R230). -/
def gatePasses (es : List (Nat × Nat)) (t frames ph : Nat) : Bool :=
  match openFor es t ph with
  | none => true
  | some ns => decide (128 * frames + 128 ≤ 10 * ns)

/-- How many ns after a phase a schedule next lets such a packet start: the phases at which an entry begins are those to try. -/
def opensIn (es : List (Nat × Nat)) (t frames ph : Nat) : Option Nat :=
  let starts := (List.range (2 * es.length)).map (fun i => cycleOf ((es ++ es).take i))
  ((starts.filter (fun s => decide (ph < s))).find? (fun s => gatePasses es t frames (s % cycleOf es))).map (fun s => s - ph)

/-- Whether the gate of a class lets a packet of `frames` frames start at a time (R230); TC7 is never gated. -/
def Dev.gateOpenAt (d : Dev) (n t frames at_ : Nat) : Bool :=
  let p := d.port n
  let es := d.schedule n p.gateB
  !p.gateOn || t == 7 || es.isEmpty || gatePasses es t frames (phaseAt at_ p.gateOffset (cycleOf es))

/-- Whether it does now. -/
def Dev.gateOpen (d : Dev) (n t frames : Nat) : Bool := d.gateOpenAt n t frames d.now

/-- Until when the gate of a class has held a packet that it held at time `at_`, at most until now. -/
def Dev.gateHeldTo (d : Dev) (n t frames at_ : Nat) : Nat :=
  let p := d.port n
  let es := d.schedule n p.gateB
  if d.gateOpenAt n t frames at_ then at_
  else match opensIn es t frames (phaseAt at_ p.gateOffset (cycleOf es)) with
    | none => d.now
    | some k => min d.now (at_ + k)

/-- Add nanoseconds to a counter of waiting time. -/
def Dev.accrue (d : Dev) (c : Ctr) (ns : Nat) : Dev := if ns = 0 then d else d.bump c ns

/-- Count the waits of a class at a port up to now, end those that are over and begin those that are due: the head packet waits for
credit while its class lacks it (R202), and for its gate while it has the credit and its gate holds it (R230). -/
def Dev.settleWait (d : Dev) (n t : Nat) : Dev :=
  let p := d.port n
  let hd := (p.egress.find? (fun e => e.p.tc == t)).map EgressPkt.p
  let dry := hd.any (fun x => !p.hasCredit x)
  let shut := hd.any (fun x => p.hasCredit x && !d.gateOpen n t (spanFrames x))
  if !dry && !shut && (tget p.stallSince t).isNone && (tget p.gateSince t).isNone then d
  else
    let d1 := match tget p.stallSince t with
      | some x => d.accrue (.swCreditStall n t) (d.now - x.2)
      | none => d
    let d2 := match tget p.gateSince t with
      | some u => d1.accrue (.swGateHold n t) (d.gateHeldTo n t ((hd.map spanFrames).getD 1) u - u)
      | none => d1
    d2.modPort n (fun x => { x with
      stallSince := if dry then tset x.stallSince t (((tget p.stallSince t).map (fun y => y.1)).getD d.now, d.now) else terase x.stallSince t
      gateSince := if shut then tset x.gateSince t d.now else terase x.gateSince t })

/-- Do so for every class. -/
def Dev.settleWaits (d : Dev) (n : Nat) : Dev := (List.range 8).foldl (fun e t => e.settleWait n t) d

/-! ## Routes and ports (R214, R215, R222 to R225) -/

/-- Insert a port by latency, the lower port first on a tie. -/
def insertLat (x : Nat × Nat) : List (Nat × Nat) → List (Nat × Nat)
  | [] => [x]
  | y :: r => if x.2 < y.2 ∨ (x.2 = y.2 ∧ x.1 ≤ y.1) then x :: y :: r else y :: insertLat x r

/-- Whether a port carries frames. -/
def Dev.portActive (d : Dev) (n : Nat) : Bool := (d.port n).state == .active

/-- A routing-table version. -/
def Routing.version (r : Routing) (v : Bool) : RtVersion := if v then r.v1 else r.v0

/-- The ACTIVE version, if there is one (R224). -/
def Routing.activeVersion (r : Routing) : Option Bool :=
  if r.v0.state = .active then some false else if r.v1.state = .active then some true else none

/-- Data units queued on a port in a class. -/
def Port.queuedUnits (p : Port) (tc : Nat) : Nat :=
  ((p.egress.filter (fun e => e.p.tc == tc)).map (fun e => e.p.units)).sum

/-- The port with the fewest queued units, the first in the given order on a tie. -/
def leastPort (load : Nat → Nat) : List Nat → Option Nat
  | [] => none
  | n :: ns =>
    match leastPort load ns with
    | none => some n
    | some b => if load b < load n then some b else some n

/-- The eligible ports of a spray set: its ACTIVE ports that are not excluded, and never fewer than a quarter of its ACTIVE ports: those of
lowest latency stay, the lower port where the last latencies are equal (R214, R215; the tie is a DESIGN CHOICE, log entry 28). -/
def Dev.eligible (d : Dev) (spray : U32) : List Nat :=
  let act := (bitsOf spray).filter (fun n => d.portActive n)
  let out := d.rt.sprays.filter (fun x => x.spray == spray && x.excluded && act.contains x.port)
  let byLat := (out.foldl (fun acc x => insertLat (x.port, x.lat.getD 0) acc) []).map (fun x => x.1)
  let need := (act.length + 3) / 4
  let back := byLat.take (need - (act.length - out.length))
  act.filter (fun n => !out.any (fun x => x.port == n) || back.contains n)

/-- The port of a spray set that takes a packet of class `tc`; ties go on in rotating order (R214). -/
def Dev.sprayPort (d : Dev) (spray : U32) (tc : Nat) : Option Nat :=
  let cs := d.eligible spray
  leastPort (fun n => (d.port n).queuedUnits tc)
    (cs.filter (fun n => decide (d.rt.rotate ≤ n)) ++ cs.filter (fun n => decide (n < d.rt.rotate)))

/-- The port of a routing entry for a packet of class `tc`: TC7 follows the escape port alone (R225). -/
def Dev.routePort (d : Dev) (r : Route) (tc : Nat) : Option Nat :=
  if tc = 7 then (if d.portActive r.escapePort then some r.escapePort else none) else d.sprayPort r.spray tc

/-- The distinct spray sets of the tables in force. -/
def Routing.spraySets (r : Routing) : List U32 :=
  (((if r.v0.state = .active ∨ r.v0.state = .draining then r.v0.routes else []) ++
    (if r.v1.state = .active ∨ r.v1.state = .draining then r.v1.routes else [])).map (fun x => x.2.spray)).dedup

/-- Count the time for which ports have been excluded from some spray set in force, up to now (R231). -/
def Dev.settleExcluded (d : Dev) : Dev :=
  d.ports.foldl (fun e x =>
    let n := x.1
    let on := e.portActive n && e.rt.sprays.any (fun y => y.port == n && y.excluded && e.rt.spraySets.contains y.spray)
    match (e.port n).exclSince with
    | some t => (e.accrue (.swExcluded n) (e.now - t)).modPort n (fun y => { y with exclSince := if on then some e.now else none })
    | none => if on then e.modPort n (fun y => { y with exclSince := some e.now }) else e) d

/-- Queue a packet for egress on a port. -/
def Dev.enqueue (d : Dev) (n : Nat) (p : Packet) : Dev :=
  let d1 := (d.modPort n (fun x => { x with egress := x.egress ++ [{ p := p, at_ := d.now }] })).settleWait n p.tc
  let d2 := if p.tc = 7 then d1 else { d1 with rt := { d1.rt with rotate := (n + 1) % 32 } }
  d2.emit (.packet n p)

/-- Number a packet that this device originates (R213, R221). -/
def Dev.stamp (d : Dev) (p : Packet) : Packet × Dev :=
  if p.tc = 7 then ({ p with flowTc := p.flowTc, flowSeq := 0, sync := false }, d)
  else
    let fl : FlowId := { src := d.selfEp, dst := p.dstEp, tc := p.flowTc }
    let seq := ((d.rt.txNext.find? (fun x => x.1 == fl)).map (fun x => x.2)).getD 0
    ({ p with flowSeq := seq, sync := !d.rt.txSeen.contains fl },
     { d with rt := { d.rt with
        txNext := (fl, seq + 1) :: d.rt.txNext.filter (fun x => x.1 != fl)
        txSeen := if d.rt.txSeen.contains fl then d.rt.txSeen else fl :: d.rt.txSeen } })

/-- Originate a packet: the port that takes it (none where it cannot leave), the packet as numbered, and the device. A
reply, notice or heartbeat without a route is dropped and counted (R223, R224); one whose route has no ACTIVE port is dropped, which no
counter of the spec counts (log entry 87). -/
def Dev.originate (d : Dev) (p : Packet) (request : Bool) : Option (Nat × Packet) × Dev :=
  let go := fun (n : Nat) (epoch : Bool) =>
    let (q, d1) := d.stamp { p with srcEp := d.selfEp, hops := 15, epoch := epoch, escaped := false, units := p.data.length }
    (some (n, q), d1.enqueue n q)
  match d.rt.activeVersion with
  | some v =>
    match tget (d.rt.version v).routes p.dstEp with
    | none => (none, if request then d else d.bump .rtEpochDrop)
    | some r =>
      match d.routePort r p.tc with
      | some n => go n v
      | none => (none, d)
  | none =>
    if request then (none, d)
    else match tget d.rt.lastPort p.dstEp with
      | none => (none, d.bump .rtEpochDrop)
      | some n => if d.portActive n then go n false else (none, d)

/-- Send a reply, a notice or a heartbeat. -/
def Dev.sendBack (d : Dev) (p : Packet) : Dev := (d.originate p false).2

/-! ## Requests of this device (R209, R212, R220) -/

/-- The endpoint of a rank of a job (Table 9.1); 0xFFFF names none (R204). -/
def Dev.rankEp (d : Dev) (job rank : Nat) : Option Nat :=
  ((tget d.ranks job).bind (fun t => tget t.entries rank)).filter (fun ep => ep != 0xFFFF)

/-- This device's own rank of a job: the lowest rank that names RT.SELF_EP; 0 where none does (log entry 20). -/
def Dev.selfRank (d : Dev) (job : Nat) : Nat :=
  match tget d.ranks job with
  | some t => ((t.entries.find? (fun e => e.2 == d.selfEp)).map (fun e => e.1)).getD 0
  | none => 0

/-- A request tag that no outstanding request holds. -/
def Dev.freeTag (d : Dev) : Option Nat :=
  if 65536 ≤ d.rt.reqs.length then none
  else ((List.range (d.rt.reqs.length + 1)).map (fun i => (d.rt.nextTag + i) % 65536)).find?
    (fun t => !d.rt.reqs.any (fun r => r.tag == t))

/-- Issue a request: its tag, or none where it ends with LINK_DOWN at once. -/
def Dev.request (d : Dev) (unit : Domain) (why : Purpose) (p : Packet) : Option Nat × Dev :=
  match d.freeTag with
  | none => (none, d)
  | some t =>
    let q := { p with reqTag := t, gen := d.domGen unit, flowTc := p.tc }
    match d.originate q true with
    | (some (n, x), d1) =>
      (some t, { d1 with rt := { d1.rt with
        nextTag := (t + 1) % 65536
        reqs := d1.rt.reqs ++ [{ tag := t, pkt := x, unit := unit, sentAt := d.now, port := n, purpose := why }] } })
    | (none, d1) => (none, d1)

/-- Resend an outstanding request with a new number and a fresh timer (R213, R218, R220); false where it cannot leave. -/
def Dev.resend (d : Dev) (r : OutReq) : Bool × Dev :=
  match d.originate { r.pkt with retry := true } true with
  | (some (n, x), d1) =>
    (true, { (d1.bump .rtResent) with rt := { d1.rt with
      reqs := d1.rt.reqs.map (fun y => if y.tag == r.tag then { y with pkt := x, sentAt := d.now, resent := true, port := n } else y) } })
  | (none, d1) => (false, d1)

/-- Remove an outstanding request. -/
def Dev.dropReq (d : Dev) (tag : Nat) : Dev := { d with rt := { d.rt with reqs := d.rt.reqs.filter (fun r => r.tag != tag) } }

/-- The reply to a request (Table 9.3), in the class of the request's flow (log entry 21). -/
def replyTo (rank : Nat) (p : Packet) (st : Status) (data : List Line) : Packet :=
  { tc := p.flowTc, flowTc := p.flowTc,
    kind := (match p.kind with
      | .read => .readReply
      | .atomic => .atomicReply
      | _ => .writeAck),
    status := statusCode st, dstEp := p.srcEp, job := p.job, srcRank := rank, reqTag := p.reqTag, gen := p.gen, data := data }

/-- Answer a request. -/
def Dev.reply (d : Dev) (p : Packet) (st : Status) (data : List Line) : Dev :=
  if p.posted then d else d.sendBack (replyTo (d.selfRank p.job) p st data)

/-- A LOST or SKIP notice: first number, class and count (Table 9.3), on TC7 (R206). -/
def numberNotice (k : PktKind) (dst tc : Nat) (first : U24) (count : Nat) : Packet :=
  { tc := 7, flowTc := 7, kind := k, dstEp := dst,
    addr := BitVec.ofNat 64 (packBits [(0, 24, first.toNat), (24, 3, tc), (32, 16, count)]) }

/-! ## Mirror writes (R314, R317) -/

/-- The partner's address of a paired region's offset (Table 13.2). -/
def Dev.partnerAddr (d : Dev) (r off : Nat) : Option Nat :=
  (d.pair.entries.find? (fun e => e.2.valid && e.2.region == r)).map (fun e => e.2.partnerAddr + off)

/-- A MIRROR_WRITE of lines of a region, on TC6 with the device's key (R317). -/
def Dev.mirrorPacket (d : Dev) (r off : Nat) (lines : List Line) : Packet :=
  { tc := 6, kind := .mirrorWrite, dstEp := d.pair.partnerEp, job := d.pair.mirrorJob, srcRank := d.selfRank d.pair.mirrorJob,
    window := d.pair.mirrorWindow, addr := BitVec.ofNat 64 ((d.partnerAddr r off).getD 0), claim := BitVec.ofNat 128 d.ownKey,
    data := lines }

/-- A mirror write that did not end OK: the active holds later writes to paired regions (R324). -/
def Dev.mirrorFailed (d : Dev) (id : Nat) : Dev :=
  { d with pair := { d.pair with
      holdSince := if d.pair.holdSince.isSome then d.pair.holdSince else some d.now
      mirrors := d.pair.mirrors.map (fun m => if m.id == id then { m with failed := true } else m) } }

/-- Send one mirror write. -/
def Dev.sendMirror (d : Dev) (m : MirrorWrite) : Dev :=
  match d.request .device (.mirror m.id) (d.mirrorPacket m.region m.offset m.lines) with
  | (some _, d1) => d1
  | (none, d1) => d1.mirrorFailed m.id

/-- Send every mirror write from number `from_` on. -/
def Dev.flushMirrors (d : Dev) (from_ : Nat) : Dev :=
  (d.pair.mirrors.filter (fun m => decide (from_ ≤ m.id))).foldl (fun e m => e.sendMirror m) d

/-- The mirror writes from number `from_` on serve client `c` (R317). -/
def Dev.claimMirrors (d : Dev) (from_ : Nat) (c : WinReq) : Dev :=
  { d with pair := { d.pair with mirrors := d.pair.mirrors.map (fun m => if from_ ≤ m.id then { m with client := c } else m) } }

/-- Run an operation for a client: where a line must be waited for it is made again later, and the lines it writes to
paired regions are mirrored in the client's name (R317). -/
def Dev.mirrored (d : Dev) (c : WinReq) (op : Dev → Dev) : Dev :=
  d.windowed (fun e =>
    let e1 := op e
    if e1.pair.nextMirror = e.pair.nextMirror then e1
    else (e1.claimMirrors e.pair.nextMirror c).flushMirrors e.pair.nextMirror)

/-! ## Refused CXL accesses (R244) -/

/-- A CXL.mem request of a head that does not end in OK: it is counted, CXL_ACCESS_REFUSED is raised at most once per
millisecond per head and status, and it is answered by Table 10.5. -/
def Dev.cxlRefuse (d : Dev) (h : Nat) (st : Status) (read : Bool) (line : Nat) (part : Option Nat) : Dev :=
  let d1 := d.bump (.cxRefused h (statusCode st))
  let due := match tget (d1.head h).lastRefused (statusCode st) with
    | some t => decide (t + 1000000 ≤ d1.now)
    | none => true
  let d2 := if due then
      (d1.modHead h (fun x => { x with lastRefused := tset x.lastRefused (statusCode st) d1.now })).raise
        { code := .cxlAccessRefused, part := part, unit := some (.cxlHead, h), detail0 := some (BitVec.ofNat 64 line),
          detail1 := some (statusWord st) }
    else d1
  if read then d2.emit (.cxlData h 0 true) else d2.emit (.cxlDone h)

/-! ## Tenant changes (R263) -/

/-- Whether a tenant change of a partition runs, from its acceptance to its end (R263). -/
def Dev.tenantChanging (d : Dev) (p : Nat) : Bool :=
  d.hk.ops.any (fun o => match o.2 with | .tenantChange q _ => q == p | _ => false)

end Sys2Proof.Machine
end

