-- ==== Sys2Proof/Machine/Numerics.lean ====
section
/-! DEFINITION. The arithmetic of the engines (Chapter 5): exact dyadic numbers with signed zero, infinities and NaN,
rounded once where the manual rounds. -/

namespace Sys2Proof.Machine

open Sys2Proof

/-- A number: NaN, an infinity, or ± n × 2^e with a sign that a zero keeps (R100). -/
inductive Fp where
  | nan
  | inf (neg : Bool)
  | fin (neg : Bool) (n : Nat) (e : Int)
deriving DecidableEq, Repr

/-- An FP32 value as its bits. -/
abbrev F32 := BitVec 32

/-- The quiet NaN of FP32 (R100). -/
def nan32 : F32 := 0x7FC00000
/-- FP32 minus infinity. -/
def negInf32 : F32 := 0xFF800000

/-- The number of significant bits of `n`. -/
def bitLen (n : Nat) : Nat := if n = 0 then 0 else Nat.log2 n + 1

/-- 2^k for a whole k of either sign, as a numerator where k ≥ 0 (else 1). -/
def powUp (k : Int) : Nat := 2 ^ k.toNat

/-! ## Rounding -/

/-- Round n × 2^e to a mantissa of `p` bits and an exponent of at least `emin`: to nearest, ties to even, or upwards
where `up`: (q, t) with value q × 2^t. -/
def roundMag (p : Nat) (emin : Int) (up : Bool) (n : Nat) (e : Int) : Nat × Int :=
  let t := max emin (e + bitLen n - p)
  if t ≤ e then (n * powUp (e - t), t)
  else
    let s := powUp (t - e)
    let q := n / s
    let r := n % s
    let inc := if up then decide (0 < r) else decide (s < 2 * r) || (decide (2 * r = s) && q % 2 == 1)
    (if inc then q + 1 else q, t)

/-- The encoding of a magnitude in a format of `man` mantissa bits whose smallest subnormal is 2^emin. -/
def encodeMag (man : Nat) (emin : Int) (up : Bool) (n : Nat) (e : Int) : Nat :=
  if n = 0 then 0
  else
    let (q, t) := roundMag (man + 1) emin up n e
    (t - emin).toNat * 2 ^ man + q

/-- fp32(x) (R100). -/
def fp32 (x : Fp) : F32 :=
  match x with
  | .nan => nan32
  | .inf neg => if neg then negInf32 else 0x7F800000
  | .fin neg n e => BitVec.ofNat 32 (min (encodeMag 23 (-149) false n e) 0x7F800000 + (if neg then 0x80000000 else 0))

/-- bf16(x) (R100). -/
def bf16 (x : Fp) : BitVec 16 :=
  match x with
  | .nan => 0x7FC0
  | .inf neg => if neg then 0xFF80 else 0x7F80
  | .fin neg n e => BitVec.ofNat 16 (min (encodeMag 7 (-133) false n e) 0x7F80 + (if neg then 0x8000 else 0))

/-- The value of FP32 bits (Table 5.1). -/
def ofF32 (x : F32) : Fp :=
  let neg := x.getLsbD 31
  let ex := field x 23 8
  let man := field x 0 23
  if ex = 255 then (if man = 0 then .inf neg else .nan)
  else if ex = 0 then .fin neg man (-149)
  else .fin neg (man + 8388608) (ex - 150)

/-- The value of BF16 bits (R99). -/
def ofBf16 (x : BitVec 16) : Fp := ofF32 (x.zeroExtend 32 <<< 16)

/-- Whether a number is NaN. -/
def Fp.isNan (x : Fp) : Bool :=
  match x with
  | .nan => true
  | _ => false

/-- Whether a number is neither NaN nor infinite. -/
def Fp.finite (x : Fp) : Bool :=
  match x with
  | .fin _ _ _ => true
  | _ => false

/-! ## Exact operations -/

/-- The sign bit of a number. -/
def Fp.neg (x : Fp) : Bool :=
  match x with
  | .nan => false
  | .inf s => s
  | .fin s _ _ => s

/-- − x. -/
def Fp.opp (x : Fp) : Fp :=
  match x with
  | .nan => .nan
  | .inf s => .inf (!s)
  | .fin s n e => .fin (!s) n e

/-- The exact product. -/
def fpMul (a b : Fp) : Fp :=
  match a, b with
  | .nan, _ => .nan
  | _, .nan => .nan
  | .inf s, .inf t => .inf (s != t)
  | .inf s, .fin t n _ => if n = 0 then .nan else .inf (s != t)
  | .fin s n _, .inf t => if n = 0 then .nan else .inf (s != t)
  | .fin s n e, .fin t m f => .fin (s != t) (n * m) (e + f)

/-- The signed mantissa of a finite number at the exponent `e0`. -/
def scaledAt (e0 : Int) (x : Fp) : Int :=
  match x with
  | .fin s n e => (if s then -1 else 1) * ((n * powUp (e - e0) : Nat) : Int)
  | _ => 0

/-- The least exponent of the finite terms. -/
def minExp (xs : List Fp) : Int :=
  xs.foldl (fun a x =>
    match x with
    | .fin _ _ e => min a e
    | _ => a) 0

/-- The exact sum: zero is +0 unless every term is −0 (R100). -/
def fpSum (xs : List Fp) : Fp :=
  if xs.any Fp.isNan then .nan
  else
    let infs := xs.filter (fun x => !x.finite)
    if infs.any Fp.neg && infs.any (fun x => !x.neg) then .nan
    else match infs with
      | x :: _ => x
      | [] =>
        let e0 := minExp xs
        let t := xs.foldl (fun a x => a + scaledAt e0 x) 0
        if t = 0 then .fin (xs != [] && xs.all Fp.neg) 0 0 else .fin (decide (t < 0)) t.natAbs e0

/-- a < b as numbers; false where either is NaN. +0 equals −0. -/
def fpLt (a b : Fp) : Bool :=
  match a, b with
  | .nan, _ => false
  | _, .nan => false
  | .inf s, .inf t => s && !t
  | .inf s, .fin _ _ _ => s
  | .fin _ _ _, .inf t => !t
  | .fin _ _ _, .fin _ _ _ => let e0 := minExp [a, b]; decide (scaledAt e0 a < scaledAt e0 b)

/-- FP32 addition, multiplication and fused multiply-add (R100). -/
def add32 (a b : F32) : F32 := fp32 (fpSum [ofF32 a, ofF32 b])
/-- FP32 subtraction. -/
def sub32 (a b : F32) : F32 := fp32 (fpSum [ofF32 a, (ofF32 b).opp])
/-- FP32 multiplication. -/
def mul32 (a b : F32) : F32 := fp32 (fpMul (ofF32 a) (ofF32 b))
/-- fma(a, b, c). -/
def fma32 (a b c : F32) : F32 := fp32 (fpSum [fpMul (ofF32 a) (ofF32 b), ofF32 c])
/-- a < b in FP32. -/
def lt32 (a b : F32) : Bool := fpLt (ofF32 a) (ofF32 b)
/-- Whether FP32 bits are a NaN. -/
def isNan32 (a : F32) : Bool := (ofF32 a).isNan
/-- The maximum in FP32; NaN where an operand is NaN (R105). -/
def max32 (a b : F32) : F32 := if isNan32 a || isNan32 b then nan32 else if lt32 a b then b else a

/-- Correctly rounded division. -/
def div32 (a b : F32) : F32 :=
  match ofF32 a, ofF32 b with
  | .nan, _ => nan32
  | _, .nan => nan32
  | .inf _, .inf _ => nan32
  | .inf s, .fin t _ _ => fp32 (.inf (s != t))
  | .fin s _ _, .inf t => fp32 (.fin (s != t) 0 0)
  | .fin s n e, .fin t m f =>
    if m = 0 then (if n = 0 then nan32 else fp32 (.inf (s != t)))
    else
      let k := 40 + bitLen m
      let q := n * 2 ^ k / m
      fp32 (.fin (s != t) (2 * q + (if n * 2 ^ k % m = 0 then 0 else 1)) (e - f - k - 1))

/-- The whole square root, bit by bit from bit `b` downwards. -/
def sqrtLoop (n : Nat) : Nat → Nat → Nat
  | 0, r => r
  | b + 1, r => sqrtLoop n b (if (r + 2 ^ b) * (r + 2 ^ b) ≤ n then r + 2 ^ b else r)

/-- The whole square root. -/
def isqrt (n : Nat) : Nat := sqrtLoop n (bitLen n / 2 + 1) 0

/-- The square root of n × 2^e with one sticky bit: (mantissa, exponent). -/
def sqrtMag (n : Nat) (e : Int) : Nat × Int :=
  let (n', e') := if e % 2 = 0 then (n, e) else (2 * n, e - 1)
  let big := n' * 2 ^ 80
  let q := isqrt big
  (2 * q + (if q * q = big then 0 else 1), e' / 2 - 41)

/-- Correctly rounded square root; `up` rounds upwards (R107). -/
def sqrt32 (up : Bool) (x : Fp) : F32 :=
  match x with
  | .nan => nan32
  | .inf s => if s then nan32 else 0x7F800000
  | .fin s n e =>
    if n = 0 then fp32 x
    else if s then nan32
    else
      let (q, f) := sqrtMag n e
      BitVec.ofNat 32 (min (encodeMag 23 (-149) up q f) 0x7F800000)

/-- The binary digits of log2 of m / 2^256 in [1, 2), most significant first. -/
def log2Loop : Nat → Nat → Nat → Nat
  | 0, _, acc => acc
  | k + 1, m, acc =>
    let sq := m * m / 2 ^ 256
    if 2 ^ 257 ≤ sq then log2Loop k (sq / 2) (2 * acc + 1) else log2Loop k sq (2 * acc)

/-- log2(x) rounded once to FP32 (R100), for positive finite x; 100 binary places and a sticky bit decide it (log
entry 14). -/
def log2F32 (x : F32) : F32 :=
  match ofF32 x with
  | .nan => nan32
  | .inf s => if s then nan32 else 0x7F800000
  | .fin s n e =>
    if n = 0 then negInf32
    else if s then nan32
    else
      let bl := bitLen n
      let k : Int := bl - 1 + e
      if n = 2 ^ (bl - 1) then fp32 (.fin (decide (k < 0)) k.natAbs 0)
      else
        let f := log2Loop 100 (n * 2 ^ 256 / 2 ^ (bl - 1)) 0
        let v : Int := k * ((2 ^ 101 : Nat) : Int) + ((2 * f + 1 : Nat) : Int)
        fp32 (.fin (decide (v < 0)) v.natAbs (-101))

/-- Entries 0 to 15 of tab (R108). -/
def expTab0 : List Nat :=
  [0x3F800000, 0x3F8164D2, 0x3F82CD87, 0x3F843A29, 0x3F85AAC3, 0x3F871F62, 0x3F88980F, 0x3F8A14D5, 0x3F8B95C2, 0x3F8D1ADF, 0x3F8EA43A, 0x3F9031DC, 0x3F91C3D3, 0x3F935A2B, 0x3F94F4F0, 0x3F96942D]

/-- Entries 16 to 31 of tab (R108). -/
def expTab1 : List Nat :=
  [0x3F9837F0, 0x3F99E046, 0x3F9B8D3A, 0x3F9D3EDA, 0x3F9EF532, 0x3FA0B051, 0x3FA27043, 0x3FA43516, 0x3FA5FED7, 0x3FA7CD94, 0x3FA9A15B, 0x3FAB7A3A, 0x3FAD583F, 0x3FAF3B79, 0x3FB123F6, 0x3FB311C4]

/-- Entries 32 to 47 of tab (R108). -/
def expTab2 : List Nat :=
  [0x3FB504F3, 0x3FB6FD92, 0x3FB8FBAF, 0x3FBAFF5B, 0x3FBD08A4, 0x3FBF179A, 0x3FC12C4D, 0x3FC346CD, 0x3FC5672A, 0x3FC78D75, 0x3FC9B9BE, 0x3FCBEC15, 0x3FCE248C, 0x3FD06334, 0x3FD2A81E, 0x3FD4F35B]

/-- Entries 48 to 63 of tab (R108). -/
def expTab3 : List Nat :=
  [0x3FD744FD, 0x3FD99D16, 0x3FDBFBB8, 0x3FDE60F5, 0x3FE0CCDF, 0x3FE33F89, 0x3FE5B907, 0x3FE8396A, 0x3FEAC0C7, 0x3FED4F30, 0x3FEFE4BA, 0x3FF28177, 0x3FF5257D, 0x3FF7D0DF, 0x3FFA83B3, 0x3FFD3E0C]

/-- tab[j] = 2^(j ÷ 64) rounded to nearest FP32 (R108). -/
def expTab (j : Nat) : F32 := BitVec.ofNat 32 (lgetD (expTab0 ++ expTab1 ++ expTab2 ++ expTab3) j 0)

/-- exp2(z) of R108, for z ≤ 0. -/
def exp2F32 (z : F32) : F32 :=
  match ofF32 z with
  | .nan => nan32
  | .inf _ => 0
  | .fin s n e =>
    let v : Int := if s then -(n : Int) else n
    if lt32 z 0xC3160000 then 0
    else
      -- z × 64 = v × 2^(e + 6)
      let sh := (-(e + 6)).toNat
      let i : Int := if 0 ≤ e + 6 then v * (powUp (e + 6) : Nat) else Int.fdiv v ((2 ^ sh : Nat) : Int)
      let rem : Int := if 0 ≤ e + 6 then 0 else v - i * ((2 ^ sh : Nat) : Int)
      let f := fp32 (.fin false rem.natAbs (-(sh : Int) - 6))
      let k := Int.fdiv i 64
      let j := (i - 64 * k).toNat
      let p1 := fma32 0x3D635847 f 0x3E75FDF0
      let p2 := fma32 p1 f 0x3F317218
      let p3 := fma32 p2 f 0x3F800000
      let y := mul32 (expTab j) p3
      match ofF32 y with
      | .fin t m g => fp32 (.fin t m (g + k))
      | w => fp32 w

/-! ## Element formats (Table 4.1, Table 5.1) -/

/-- A stored element format: bits, mantissa bits, bias, exponent of the largest normal, code of the largest finite. -/
structure Fmt where
  bits : Nat
  man : Nat
  bias : Nat
  emax : Int
  maxCode : Nat
deriving DecidableEq, Repr

/-- The format of a `kv_format` value (Table 4.1); a reserved value is not used by any object. -/
def fmtOf (k : Nat) : Fmt :=
  match k with
  | 0 => { bits := 8, man := 3, bias := 7, emax := 8, maxCode := 0x7E }
  | 1 => { bits := 8, man := 2, bias := 15, emax := 15, maxCode := 0x7B }
  | 2 => { bits := 6, man := 3, bias := 1, emax := 2, maxCode := 0x1F }
  | 3 => { bits := 6, man := 2, bias := 3, emax := 4, maxCode := 0x1F }
  | _ => { bits := 4, man := 1, bias := 1, emax := 2, maxCode := 0x7 }

/-- The value of an element (Table 5.1, R103). -/
def elemValue (k : Nat) (code : Nat) : Fp :=
  let f := fmtOf k
  let neg := code / 2 ^ (f.bits - 1) % 2 == 1
  let mag := code % 2 ^ (f.bits - 1)
  let ex := mag / 2 ^ f.man
  let man := mag % 2 ^ f.man
  if k = 0 ∧ mag = 0x7F then .nan
  else if k = 1 ∧ ex = 31 then (if man = 0 then .inf neg else .nan)
  else if ex = 0 then .fin neg man (1 - (f.bias : Int) - f.man)
  else .fin neg (man + 2 ^ f.man) ((ex : Int) - f.bias - f.man)

/-- A dequantised element (R102, R103). The product is exact in FP32; one at or above 2^128, which no KV_APPEND writes, overflows there
(R100, R104). -/
def dequant (k code scale : Nat) : Fp :=
  if scale = 255 then .nan
  else match elemValue k code with
    | .fin s n e => if 128 < e + scale - 127 + bitLen n then .inf s else .fin s n (e + scale - 127)
    | x => x

/-- The larger magnitude of two finite numbers. -/
def maxMag (a b : Fp) : Fp :=
  let abs := fun (x : Fp) =>
    match x with
    | .fin _ n e => Fp.fin false n e
    | y => y
  if fpLt (abs a) (abs b) then abs b else abs a

/-- quantise (R101): the scale byte and the element codes of one group. -/
def quantise (k : Nat) (vs : List Fp) : Nat × List Nat :=
  let f := fmtOf k
  let x : Int :=
    match vs.foldl maxMag (.fin false 0 0) with
    | .fin _ n e => if n = 0 then -127 else min 127 (max (-127) ((bitLen n : Int) - 1 + e - f.emax))
    | _ => -127
  let code := fun (v : Fp) =>
    match v with
    | .fin s n e =>
      min (encodeMag f.man (1 - (f.bias : Int) - f.man) false n (e - x)) f.maxCode + (if s then 2 ^ (f.bits - 1) else 0)
    | _ => 0
  ((x + 127).toNat, vs.map code)

/-! ## Dot products, bounds, summaries (R104 to R107) -/

/-- Cut a list into runs of `n`, with `fuel` runs at most. -/
def chunksOf {α : Type} (n : Nat) : Nat → List α → List (List α)
  | 0, _ => []
  | fuel + 1, l => if l.isEmpty then [] else l.take n :: chunksOf n fuel (l.drop n)

/-- A sum in FP32: each group rounded once, then accumulated in order; no group gives +0 (R104). -/
def groupAcc (gs : List (List Fp)) : F32 :=
  match gs.map (fun g => fp32 (fpSum g)) with
  | [] => 0
  | g :: rest => rest.foldl add32 g

/-- The dot product of R104. -/
def dot32 (a b : List Fp) : F32 :=
  groupAcc (chunksOf 32 (a.length / 32 + 1) (List.zipWith fpMul a b))

/-- The bound of one query row for one block (R105). -/
def bound32 (q mu : List Fp) (rad : F32) : F32 := add32 (dot32 q mu) (mul32 (sqrt32 false (ofF32 (dot32 q q))) rad)

/-- A head's summary from its 64 dequantised keys (R107): the mean and the radius. -/
def summaryOf (dim : Nat) (keys : List (List Fp)) : List (BitVec 16) × F32 :=
  if keys.any (fun k => k.any (fun x => !x.finite)) then (List.replicate dim 0x7FC0, 0x7F800000)
  else
    let mu := (List.range dim).map (fun j =>
      match fpSum (keys.map (fun k => lgetD k j (.fin false 0 0))) with
      | .fin s n e => bf16 (.fin s n (e - 6))
      | x => bf16 x)
    let dist := fun (k : List Fp) =>
      fpSum (List.zipWith (fun x m => let y := fpSum [x, (ofBf16 m).opp]; fpMul y y) k mu)
    let far := keys.foldl (fun a k => let y := dist k; if fpLt a y then y else a) (.fin false 0 0)
    (mu, sqrt32 true far)

/-! ## Attention of one row (R109) -/

/-- The state of a row: running maximum, weight sum, accumulators. -/
structure RowState where
  m : F32
  l : F32
  acc : List F32
deriving DecidableEq, Repr

/-- gsum over the visible tokens of one block, given as (slot, value): two groups of 32 slots (R109). -/
def gsum (xs : List (Nat × Fp)) : F32 :=
  let g0 := (xs.filter (fun x => decide (x.1 < 32))).map (fun x => x.2)
  let g1 := (xs.filter (fun x => !decide (x.1 < 32))).map (fun x => x.2)
  groupAcc ([g0, g1].filter (fun g => !g.isEmpty))

/-- One block's step of row_attend; the block's visible tokens are (slot, logit, value row). -/
def attendBlock (dim : Nat) (st : RowState) (vis : List (Nat × F32 × List Fp)) : RowState :=
  match vis.map (fun t => t.2.1) with
  | [] => st
  | z :: zs =>
    let bm := zs.foldl max32 z
    if bm = negInf32 then st
    else
      let mn := max32 st.m bm
      let a := exp2F32 (sub32 st.m mn)
      let ps := vis.map (fun t => (t.1, exp2F32 (sub32 t.2.1 mn), t.2.2))
      { m := mn
        l := add32 (mul32 st.l a) (gsum (ps.map (fun p => (p.1, ofF32 p.2.1))))
        acc := (List.range dim).map (fun j =>
          add32 (mul32 (lgetD st.acc j 0) a)
            (gsum (ps.map (fun p => (p.1, fpMul (ofF32 p.2.1) (lgetD p.2.2 j (.fin false 0 0))))))) }

/-- row_attend (R109): the output row in FP32 and the log-sum-exp. -/
def rowAttend (dim : Nat) (blocks : List (List (Nat × F32 × List Fp))) : List F32 × F32 :=
  if blocks.any (fun b => b.any (fun t => isNan32 t.2.1 || t.2.1 == 0x7F800000)) then (List.replicate dim nan32, nan32)
  else
    let st := blocks.foldl (attendBlock dim) { m := negInf32, l := 0, acc := List.replicate dim 0 }
    if st.l = 0 then (List.replicate dim 0, negInf32)
    else (st.acc.map (fun x => div32 x st.l), add32 st.m (log2F32 st.l))

/-! ## REDUCE_WRITE elements (R97) -/

/-- MAX or MIN of R97: a NaN operand is missing; MAX prefers +0 and MIN −0. -/
def pickFp (isMax : Bool) (a b : Fp) : Fp :=
  if a.isNan then b
  else if b.isNan then a
  else if isMax then (if fpLt a b then b else if fpLt b a then a else if a.neg then b else a)
  else (if fpLt b a then b else if fpLt a b then a else if a.neg then a else b)

/-- One 32-bit element of a REDUCE_WRITE: op 0 to 3. -/
def reduceElem (op : Nat) (dst src : BitVec 32) : BitVec 32 :=
  match op with
  | 0 => add32 dst src
  | 1 => fp32 (pickFp true (ofF32 dst) (ofF32 src))
  | 2 => fp32 (pickFp false (ofF32 dst) (ofF32 src))
  | _ =>
    let half := fun (k : Nat) =>
      (bf16 (fpSum [ofBf16 (BitVec.ofNat 16 (field dst (16 * k) 16)), ofBf16 (BitVec.ofNat 16 (field src (16 * k) 16))])).toNat
    BitVec.ofNat 32 (half 0 + 65536 * half 1)

/-- A whole line of a REDUCE_WRITE. -/
def reduceLine (op : Nat) (dst src : Line) : Line :=
  BitVec.ofNat 512 (((List.range 16).map (fun i =>
    (reduceElem op (BitVec.ofNat 32 (field dst (32 * i) 32)) (BitVec.ofNat 32 (field src (32 * i) 32))).toNat * 2 ^ (32 * i))).foldl
    (fun a x => a + x) 0)

end Sys2Proof.Machine
end

