-- ==== Sys2Proof/Machine/Operands.lean ====
section
/-! DEFINITION. The operand forms of descriptors: header and body fields, Plate handles, and the checks of R410. -/

namespace Sys2Proof.Machine

open Sys2Proof

/-! ## Descriptor fields (Table 6.3) -/

/-- `opcode`. -/
def dOpcode (x : Line) : Nat := field x 0 8
/-- `fence`. -/
def dFence (x : Line) : Bool := bit x 12
/-- `tally_en`. -/
def dTallyEn (x : Line) : Bool := bit x 13
/-- `tag`. -/
def dTag (x : Line) : Nat := field x 24 16
/-- `context_id`. -/
def dCtx (x : Line) : Nat := field x 40 16
/-- `tally_id`. -/
def dTally (x : Line) : Nat := field x 56 20
/-- `priority`. -/
def dPrio (x : Line) : Nat := field x 76 2
/-- The first 64-bit word of the body. -/
def dW0 (x : Line) : Nat := field x 128 64
/-- The second 64-bit word of the body. -/
def dW1 (x : Line) : Nat := field x 192 64

/-- The units of Table 6.6. -/
inductive OpKind where
  | engine | mover | memory | dispatcher
deriving DecidableEq, Repr

/-- The executing unit of an opcode; none for a reserved value (R123). -/
def opKind (op : Nat) : Option OpKind :=
  match op with
  | 0x01 | 0x02 | 0x30 => some .mover
  | 0x10 | 0x11 | 0x12 | 0x13 | 0x20 | 0x21 | 0x22 | 0x23 => some .engine
  | 0x31 | 0x32 | 0x33 => some .memory
  | 0x40 | 0x41 | 0x7F => some .dispatcher
  | _ => none

/-! ## Plate handles (Table 3.4) -/

/-- `region_id`. -/
def hRegion (h : Nat) : Nat := h % 65536
/-- `object_index`. -/
def hIndex (h : Nat) : Nat := h / 65536 % 65536
/-- `slot`. -/
def hSlot (h : Nat) : Nat := h / 4294967296 % 16
/-- `slot_gen`. -/
def hSlotGen (h : Nat) : Nat := h / 68719476736 % 256
/-- `object_gen`. -/
def hObjGen (h : Nat) : Nat := h / 17592186044416 % 256
/-- Bits [63:52]. -/
def hRsv (h : Nat) : Nat := h / 4503599627370496

/-- The handle of a slot of an object (R59). -/
def makeHandle (r i slot : Nat) (slotGen objGen : U8) : U64 :=
  BitVec.ofNat 64 (packBits [(0, 16, r), (16, 16, i), (32, 4, slot), (36, 8, slotGen.toNat), (44, 8, objGen.toNat)])

/-- Slot `s` of an object. -/
def Obj.slot (o : Obj) (s : Nat) : PlateSlot := tgetD o.slots s {}

/-- Whether a handle is valid (R60); `reader` allows a published handle of a DESTROYING object. -/
def Dev.handleOk (d : Dev) (h : Nat) (reader : Bool) : Bool :=
  let o := d.obj (hRegion h) (hIndex h)
  let s := o.slot (hSlot h)
  o.gen.toNat == hObjGen h &&
  (if hSlot h = 0 then o.state == .live && hSlotGen h == 0
   else (o.state == .live || (reader && o.state == .destroying)) && s.state == .published && s.gen.toNat == hSlotGen h)

/-- The check of a handle's region against a context (R60). -/
def Dev.handleRegion (d : Dev) (ctx h : Nat) (need : Right) : Option Status :=
  let c := d.context ctx
  let segs := c.segments.filter (fun s => s.kind == .region && s.targetId == hRegion h)
  if !c.valid then some .rights
  else if segs = [] then some .bounds
  else if segs.any (fun s => segGrants s need) then none
  else some .rights

/-! ## Shapes of sequence objects (R77, R79, R52) -/

/-- KV heads. -/
def Obj.heads (o : Obj) : Nat := o.kvHeadsM1 + 1
/-- Head dimension in elements (Table 3.1). -/
def Obj.dim (o : Obj) : Nat := 64 * (o.headDim + 1)
/-- Layers. -/
def Obj.layers (o : Obj) : Nat := o.layersM1 + 1
/-- Bytes of one row of one head (R77). -/
def Obj.rowBytes (o : Obj) : Nat := o.dim * (fmtOf o.kvFormat).bits / 8
/-- Bytes of a head segment (R77). -/
def Obj.headBytes (o : Obj) : Nat := 128 * o.rowBytes + 4 * o.dim
/-- Pages of a chunk (R52). -/
def Obj.chunkPages (o : Obj) : Nat := o.kvChunkPages + o.sumChunkPages

/-- The first byte of the KV block of a layer, as a byte offset in the object's page space (R52). -/
def Obj.kvLocate (o : Obj) (layer block : Nat) : Nat :=
  (block / 64) * o.chunkPages * pageBytes + (layer * 64 + block % 64) * o.kvBlockBytes

/-- The first byte of a block's summary (R52). -/
def Obj.sumLocate (o : Obj) (layer block : Nat) : Nat :=
  ((block / 64) * o.chunkPages + o.kvChunkPages) * pageBytes + (layer * 64 + block % 64) * o.summaryBlockBytes

/-- Round up to a multiple of 64. -/
def up64 (n : Nat) : Nat := (n + 63) / 64 * 64

/-- Query heads of an ATTEND on an object. -/
def attendHeads (o : Obj) : Nat := o.heads * (o.gqM1 + 1)

/-- Bytes of the query buffer (R86). -/
def queryBytes (o : Obj) (x : Line) : Nat := attendHeads o * (field x 200 4 + 1) * 2 * o.dim

/-- Bytes of the outputs before the log-sum-exp values (R91). -/
def outBytes (o : Obj) (x : Line) : Nat :=
  up64 (attendHeads o * (field x 200 4 + 1) * o.dim * (if bit x 211 then 2 else 4))

/-- Bytes of the whole output buffer, in whole lines (R91). -/
def outTotal (o : Obj) (x : Line) : Nat := outBytes o x + up64 (attendHeads o * (field x 200 4 + 1) * 4)

/-- Bytes of a KV_APPEND's source (R82). -/
def appendBytes (o : Obj) (x : Line) : Nat := (field x 240 8 + 1) * field x 216 16 * 4 * o.heads * o.dim

/-- Bytes a KV_GATHER writes (R93). -/
def gatherBytes (o : Obj) (x : Line) : Nat :=
  if bit x 215 then (field x 240 8 + 1) * (field x 216 16 / 64) * o.kvBlockBytes
  else (field x 240 8 + 1) * field x 216 16 * 4 * o.heads * o.dim

/-! ## Checks of a COPY or FILL element (R136, R137) -/

/-- Whether two byte ranges of one length overlap. -/
def overlap (a b n : Nat) : Bool := decide (a < b + n) && decide (b < a + n)

/-- Item 1 of R137: the element's own format. -/
def Dev.elemFormat (d : Dev) (x : Line) : Bool :=
  let copy := dOpcode x == 1
  let len := field x 256 32
  let srcObj := bit x 480
  let dstObj := bit x 481
  let sh := field x 352 64
  let dh := field x 416 64
  (copy && dW0 x % 64 != 0) || dW1 x % 64 != 0 || len % 64 != 0 || len == 0 || field x 288 64 % 64 != 0 ||
  field x 482 30 != 0 || (!copy && srcObj) || (srcObj && hRsv sh != 0) || (dstObj && hRsv dh != 0) ||
  (srcObj && !(d.obj (hRegion sh) (hIndex sh)).flat && d.handleOk sh true) ||
  (dstObj && !(d.obj (hRegion dh) (hIndex dh)).flat && d.handleOk dh true) ||
  (dstObj && hSlot dh != 0) ||
  (copy && overlap (dW0 x) (dW1 x) len &&
    ((!srcObj && !dstObj) || (srcObj && dstObj && hRegion sh == hRegion dh && hIndex sh == hIndex dh)))

/-- Item 2 of R137: its handles, source first. -/
def Dev.elemHandles (d : Dev) (x : Line) : Option Status :=
  if bit x 480 && !d.handleOk (field x 352 64) true then some .versionGone
  else if bit x 481 && !d.handleOk (field x 416 64) false then some .versionGone
  else none

/-- A range of an element: an address range, or an offset range of a flat object (R137). -/
def Dev.elemRange (d : Dev) (ctx : Nat) (isObj : Bool) (h a n : Nat) (need : Right) : Option Status :=
  if isObj then
    match d.handleRegion ctx h need with
    | some .bounds => some .bounds
    | r =>
      if a + n > (d.obj (hRegion h) (hIndex h)).flatPages * pageBytes then some .bounds else r
  else match d.rangeParts ctx a n need true with
    | .error st => some st
    | .ok _ => none

/-- Items 3 and 4 of R137: the source range, then the destination range. -/
def Dev.elemRanges (d : Dev) (ctx : Nat) (x : Line) : Option Status :=
  let len := field x 256 32
  let src := if dOpcode x == 1 then d.elemRange ctx (bit x 480) (field x 352 64) (dW0 x) len .r else none
  match src with
  | some st => some st
  | none => d.elemRange ctx (bit x 481) (field x 416 64) (dW1 x) len .w

/-- The whole check of an element, in the order of R137. -/
def Dev.elemCheck (d : Dev) (ctx : Nat) (x : Line) : Option Status :=
  if d.elemFormat x then some .format
  else match d.elemHandles x with
    | some st => some st
    | none => d.elemRanges ctx x

/-! ## Step 2 of R410: body checks that depend on no other state -/

/-- Whether an atomic operation code and its operands are malformed (R246 to R248). -/
def atomicBad (op operand compare : Nat) : Bool :=
  decide (9 < op % 16) || decide (op / 32 != 0) || (op / 16 % 2 == 0 && operand / 4294967296 != 0) ||
  (op % 16 != 2 && compare != 0)

/-- Whether an FP32 scale is not positive and finite (Table 4.5). -/
def scaleBad (x : F32) : Bool :=
  match ofF32 x with
  | .fin s n _ => s || n == 0
  | _ => true

/-- Step 2 of R410 for every opcode but COPY and FILL, whose elements R137 checks. -/
def bodyFormat (x : Line) : Bool :=
  match dOpcode x with
  | 0x10 => hRsv (dW0 x) != 0 || field x 248 8 != 0 || field x 320 192 != 0 || field x 256 64 % 64 != 0 ||
      (field x 216 16 == 0 && !bit x 215)
  | 0x11 =>
    hRsv (dW0 x) != 0 || field x 220 4 != 0 || field x 247 9 != 0 || field x 279 9 != 0 || field x 480 32 != 0 ||
    decide (2 ≤ field x 208 2) || decide (field x 212 4 < field x 216 4) || (field x 224 23 == 0 && field x 212 4 != 0) ||
    (field x 208 2 == 0 && field x 256 23 != 0) ||
    (!bit x 210 && (field x 288 16 != 0 || field x 304 8 != 0 || field x 312 8 != 0)) ||
    field x 320 64 % 64 != 0 || field x 384 64 % 64 != 0 || scaleBad (BitVec.ofNat 32 (field x 448 32))
  | 0x12 =>
    hRsv (dW0 x) != 0 || field x 248 8 != 0 || field x 320 192 != 0 || field x 256 64 % 64 != 0 || field x 216 16 == 0 ||
    (bit x 215 && (field x 192 23 % 64 != 0 || field x 216 16 % 64 != 0))
  | 0x13 => hRsv (dW0 x) != 0 || field x 240 272 != 0 || field x 208 16 == 0
  | 0x20 => hRsv (dW0 x) != 0 || field x 226 286 != 0 || bit x 224 || bit x 225
  | 0x21 => hRsv (dW0 x) != 0 || field x 226 286 != 0 || field x 192 32 != 0 || bit x 225
  | 0x22 => hRsv (dW0 x) != 0 || field x 226 286 != 0 || field x 192 32 != 0 || bit x 224
  | 0x23 => hRsv (dW0 x) != 0 || field x 226 286 != 0 || field x 192 32 != 0 || bit x 224 || bit x 225
  | 0x30 => field x 283 229 != 0 || decide (4 ≤ field x 280 3) || field x 256 24 == 0 || dW0 x % 64 != 0 || dW1 x % 64 != 0
  | 0x31 => field x 200 56 != 0 || field x 384 128 != 0 || atomicBad (field x 192 8) (field x 256 64) (field x 320 64) ||
      dW0 x % (if bit x 196 then 8 else 4) != 0
  | 0x32 => field x 224 288 != 0 || dW0 x % 64 != 0
  | 0x33 => field x 192 320 != 0 || dW0 x % 64 != 0
  | 0x40 => field x 149 43 != 0 || field x 256 256 != 0
  | 0x41 => field x 148 44 != 0 || field x 288 224 != 0
  | 0x7F => field x 128 384 != 0
  | _ => false

/-! ## Steps 3 and 4 of R410: handles, then address ranges and handles' regions, in ascending bit order -/

/-- What step 4 checks: a handle's region, or an address range. -/
inductive Arg where
  | handle (h : Nat) (need : Right)
  | range (a n : Nat) (need : Right)
deriving DecidableEq, Repr

/-- The handle of a body and whether it serves a reader (R60). -/
def bodyHandle (x : Line) : Option (Nat × Bool) :=
  match dOpcode x with
  | 0x11 | 0x12 => some (dW0 x, true)
  | 0x21 => some (dW0 x, true)
  | 0x10 | 0x13 | 0x20 | 0x22 | 0x23 => some (dW0 x, false)
  | _ => none

/-- The checks of step 4. Two cases are the model's choice (DESIGN CHOICE, log entry 78): PLATE_CLOSE with `destroy` on a published handle,
which R60 lists under both rights, asks for R; and the source of a KV_APPEND of no rows, an empty range, is not checked. -/
def Dev.bodyArgs (d : Dev) (x : Line) : List Arg :=
  let o := d.obj (hRegion (dW0 x)) (hIndex (dW0 x))
  match dOpcode x with
  | 0x10 => .handle (dW0 x) .w :: (if appendBytes o x = 0 then [] else [.range (field x 256 64) (appendBytes o x) .r])
  | 0x11 => [.handle (dW0 x) .r, .range (field x 320 64) (queryBytes o x) .r, .range (field x 384 64) (outTotal o x) .w]
  | 0x12 => [.handle (dW0 x) .r, .range (field x 256 64) (gatherBytes o x) .w]
  | 0x13 | 0x22 | 0x23 => [.handle (dW0 x) .w]
  | 0x20 => [.handle (dW0 x) .r]
  | 0x21 => [.handle (dW0 x) (if hSlot (dW0 x) = 0 then .w else .r)]
  | 0x30 => [.range (dW0 x) (64 * field x 256 24) .r, .range (dW1 x) (64 * field x 256 24) .w]
  | 0x31 => [.range (dW0 x) (if bit x 196 then 8 else 4) .a]
  | 0x32 | 0x33 => [.range (dW0 x) 64 .a]
  | _ => []

/-- The first failing check of step 4. What the memory behind a range answers comes with the operation (step 6). -/
def Dev.checkArgs (d : Dev) (ctx : Nat) (mover : Bool) : List Arg → Option Status
  | [] => none
  | .handle h need :: rest =>
    match d.handleRegion ctx h need with
    | some st => some st
    | none => Dev.checkArgs d ctx mover rest
  | .range a n need :: rest =>
    match d.rangeParts ctx a n need mover with
    | .error st => some st
    | .ok _ => Dev.checkArgs d ctx mover rest

/-! ## Step 1 of R410: the header -/

/-- Whether a queue lets a descriptor or a doorbell use a context (R118). -/
def Dev.ctxAllowed (d : Dev) (q : Queue) (ctx : Nat) : Bool :=
  ctx == q.context || (q.anyContext && (d.context ctx).partition == q.partition)

/-- Whether a group holds a unit of a kind that has not FAILED (R120, R341). -/
def groupHas (g : Group) (failed : U64) (k : OpKind) : Bool :=
  match k with
  | .engine => g.engines &&& ~~~failed != 0
  | .mover => g.movers != 0
  | _ => true

/-- The header checks (R8, R9, R120). -/
def Dev.headerCheck (d : Dev) (q : Queue) (x : Line) : Option Status :=
  let p := d.partn q.partition
  if field x 8 4 != 1 then some .format
  else if field x 14 10 != 0 || field x 78 50 != 0 then some .format
  else if !d.ctxAllowed q (dCtx x) || !(d.context (dCtx x)).valid then some .rights
  else match opKind (dOpcode x) with
    | none => some .format
    | some k =>
      if !dTallyEn x && dTally x != 0 then some .format
      else if dTallyEn x && !(decide (p.tallyBase ≤ dTally x) && decide (dTally x < p.tallyBase + p.tallyCount)) then some .bounds
      else if !groupHas (d.group q.partition q.group) d.engFailed k then some .noResource
      else none

/-- Steps 1 to 4 of R410. -/
def Dev.descCheck (d : Dev) (q : Queue) (x : Line) : Option Status :=
  match d.headerCheck q x with
  | some st => some st
  | none =>
    if dOpcode x = 1 ∨ dOpcode x = 2 then d.elemCheck (dCtx x) x
    else if bodyFormat x then some .format
    else match bodyHandle x with
      | some (h, reader) =>
        if d.handleOk h reader then d.checkArgs (dCtx x) false (d.bodyArgs x) else some .versionGone
      | none => d.checkArgs (dCtx x) (dOpcode x == 0x30) (d.bodyArgs x)

/-- The holds a descriptor takes at dispatch (R61). -/
def descHolds (x : Line) : List Hold :=
  let hold := fun (h : Nat) => ({ region := hRegion h, object := hIndex h, slot := hSlot h } : Hold)
  match dOpcode x with
  | 0x01 => (if bit x 480 then [hold (field x 352 64)] else []) ++ (if bit x 481 then [hold (field x 416 64)] else [])
  | 0x02 => if bit x 481 then [hold (field x 416 64)] else []
  | _ =>
    match bodyHandle x with
    | some (h, _) => [hold h]
    | none => []

/-! ## The job rows -/

/-- Finish a job: its result waits for COMPLETION_WRITE. -/
def Dev.finish (d : Dev) (j : Job) (st : Status) (result : U64 := 0) (residue : U32 := 0) : Dev :=
  d.putJob { j with result := some { status := st, result := result, residue := residue }, waiting := false }

/-- Run `f` on a job with one of the opcodes `ops` that has no result yet. -/
def Dev.onJob (d : Dev) (id : Nat) (ops : List Nat) (f : Job → Dev → Dev) : Dev :=
  match d.job id with
  | some j => if j.result.isNone && ops.contains (dOpcode j.desc) then f j d else d
  | none => d

/-- The object whose working version a descriptor changes or copies, and which therefore takes its turn (R72): of a data-mover chain, the
destination object of its present element. -/
def Job.changes (j : Job) : Option (Nat × Nat) :=
  let h := dW0 j.desc
  match dOpcode j.desc with
  | 0x10 | 0x13 | 0x22 => some (hRegion h, hIndex h)
  | 0x23 => if hSlot h = 0 then some (hRegion h, hIndex h) else none
  | 0x21 => if bit j.desc 224 then some (hRegion h, hIndex h) else none
  | 0x01 | 0x02 =>
    let x := match j.chain with
      | some c => if c.started then c.elem else j.desc
      | none => j.desc
    let between := match j.chain with
      | some c => c.started && c.needFetch
      | none => false
    if bit x 481 && !between then some (hRegion (field x 416 64), hIndex (field x 416 64)) else none
  | _ => none

/-- Whether a chain's turn on its element's destination object has come. -/
def Job.hasTurn (j : Job) : Bool :=
  match j.chain with
  | some c => c.started && c.turn
  | none => false

/-- Whether a descriptor may take effect on its object now (R72): one at a time, in dispatch order. A flat-object write under way goes on
before any other; a chain element that comes after others have gone ahead waits only for those (log entry 79). -/
def Dev.inTurn (d : Dev) (j : Job) : Bool :=
  match j.changes with
  | none => true
  | some x => j.hasTurn || d.jobs.all (fun k =>
      k.id == j.id || k.result.isSome || k.changes != some x || (!k.hasTurn && decide (j.id < k.id)))

/-- The requester stream of a descriptor (R175). -/
def Job.stream (j : Job) : Stream :=
  match j.unit with
  | .engines (n :: _) => .engine n
  | .mover n c => .channel n c
  | _ => .other

/-- Run a job's operation: its window accesses may defer it (R253), and its mirrored writes name it. -/
def Dev.runJob (d : Dev) (id : Nat) (ops : List Nat) (f : Job → Dev → Dev) : Dev :=
  let who := ((d.job id).map Job.stream).getD .other
  d.mirrored (.job id) (fun e => ({ e with cur := some id, stream := who }.onJob id ops f).atRest)

/-- Run an operation of a descriptor that changes or copies a working version, when its turn on the object has come (R72). -/
def Dev.runInTurn (d : Dev) (id : Nat) (ops : List Nat) (f : Job → Dev → Dev) : Dev :=
  d.runJob id ops (fun j e => if e.inTurn j then f j e else e)

end Sys2Proof.Machine
end

