-- ==== Sys2Proof/Machine/Flags.lean ====
section
/-! DEFINITION. Tally counters with their sticky flags OVF, UNF and MISUSE (R131 to R133, Table 6.8), and the results of
atomic operations (R248). -/

namespace Sys2Proof.Machine

open Sys2Proof

/-- TOP of R131. -/
def tallyTop : Nat := 18446744073709551615

/-- The pair that a counter belongs to. -/
def pairOf (ps : List TallyPair) (t : Nat) : Option TallyPair := ps.find? (fun p => p.producer == t || p.consumer == t)

/-- The value an add may reach (Table 6.8): TOP alone, min(C + K, TOP) for a producer, P for a consumer. -/
def Dev.tallyLimit (d : Dev) (t : Nat) : Nat :=
  match pairOf d.pairs t with
  | none => tallyTop
  | some p => if p.producer = t then min ((d.tally p.consumer).value.toNat + p.k) tallyTop else (d.tally p.producer).value.toNat

/-- Whether counter `t` is the consumer of a pair. -/
def Dev.isConsumer (d : Dev) (t : Nat) : Bool :=
  match pairOf d.pairs t with
  | none => false
  | some p => p.producer != t

/-- An add of n to a counter (Table 6.8): the counter after, and the status. -/
def Dev.tallyAfter (d : Dev) (t : Nat) (n : Int) : Tally × Status :=
  let v := d.tally t
  if n < 0 then ({ v with misuse := true }, .format)
  else if v.value.toNat + n.toNat ≤ d.tallyLimit t then ({ v with value := BitVec.ofNat 64 (v.value.toNat + n.toNat) }, .ok)
  else if d.isConsumer t then ({ v with value := BitVec.ofNat 64 (d.tallyLimit t), unf := true }, .saturated)
  else ({ v with value := BitVec.ofNat 64 (d.tallyLimit t), ovf := true }, .saturated)

/-- Perform an add. -/
def Dev.tallyAdd (d : Dev) (t : Nat) (n : Int) : Dev × Status :=
  let (v, st) := d.tallyAfter t n
  (d.setTally t v, st)

/-- The flags as `residue` carries them (R133). -/
def tallyFlags (v : Tally) : U32 :=
  BitVec.ofNat 32 ((if v.ovf then 1 else 0) + (if v.unf then 2 else 0) + (if v.misuse then 4 else 0))

/-- Whether a counter lies in a partition's range. -/
def tallyIn (p : Partition) (t : Nat) : Bool := decide (p.tallyBase ≤ t) && decide (t < p.tallyBase + p.tallyCount)

/-- The value of `x` read as a signed number of `w` bits. -/
def signedOf (w x : Nat) : Int := if x < 2 ^ (w - 1) then (x : Int) else (x : Int) - ((2 ^ w : Nat) : Int)

/-- The new value of an atomic operation on `w`-bit values (Table 10.6, R248). -/
def atomicNew (w op old operand compare : Nat) : Nat :=
  match op with
  | 0 => (old + operand) % 2 ^ w
  | 1 => operand
  | 2 => if old = compare then operand else old
  | 3 => old &&& operand
  | 4 => old ||| operand
  | 5 => old ^^^ operand
  | 6 => if signedOf w old < signedOf w operand then operand else old
  | 7 => if signedOf w operand < signedOf w old then operand else old
  | 8 => max old operand
  | _ => min old operand

end Sys2Proof.Machine
end

