-- ==== Sys2Proof/Machine/Pages.lean ====
section
/-! DEFINITION. The pages of a SEQUENCE region as stored: roots, map pages, page counts and the free-page bitmap (R54 to R57), and the
copying of pages (R67). -/

namespace Sys2Proof.Machine

open Sys2Proof

/-! ## Page maps (R54, Table 3.2) -/

/-- The entries of a root. -/
def SeqPages.rootOf (s : SeqPages) (root : Nat) : Tab Nat := tgetD s.roots root []

/-- A page-map entry (Table 3.2): its kind and page; 0 is ABSENT. -/
def entryWord (e : Option (Bool × Nat)) : Nat :=
  match e with
  | none => 0
  | some (near, p) => packBits [(0, 26, p), (30, 2, if near then 2 else 1)]

/-- Line `k` of a page of 32-bit entries. -/
def entryLine (f : Nat → Option (Bool × Nat)) (k : Nat) : Line :=
  BitVec.ofNat 512 (packBits ((List.range 16).map (fun i => (32 * i, 32, entryWord (f (16 * k + i))))))

/-- Line `k` of a root page. -/
def SeqPages.rootLine (s : SeqPages) (root k : Nat) : Line := entryLine (fun n => (tget (s.rootOf root) n).map (fun m => (false, m))) k

/-- Line `k` of a map page. -/
def SeqPages.mapLine (s : SeqPages) (m k : Nat) : Line := entryLine (fun n => tget (tgetD s.maps m []) n) k

/-- The present pages of a root. -/
def Dev.viewOf (d : Dev) (r root : Nat) : View := { root := root, entries := (d.pages r).rootOf root, maps := (d.pages r).maps }

/-- The page behind object page `p` of a view. -/
def viewPage (v : View) (p : Nat) : Option (Bool × Nat) :=
  (tget v.entries (p / 16384)).bind (fun m => tget (tgetD v.maps m []) (p % 16384))

/-! ## Page counts and the bitmap (R56, log entry 80) -/

/-- The pages at the head of a SEQUENCE region that hold its count array and bitmap (R56). -/
def headPages (p : Nat) : Nat := (p + 32767) / 32768 + (p + 524287) / 524288

/-- The pages of the count array, which comes first. -/
def countPages (p : Nat) : Nat := (p + 32767) / 32768

/-- The pages of a region. -/
def Region.pages (r : Region) : Nat := r.extents.length * extentPages

/-- The count of a page. -/
def SeqPages.count (s : SeqPages) (pg : Bool × Nat) : Nat := if pg.1 then tgetD s.nearCounts pg.2 0 else tgetD s.counts pg.2 0

/-- Set the count of a page. -/
def SeqPages.setCount (s : SeqPages) (pg : Bool × Nat) (n : Nat) : SeqPages :=
  if pg.1 then { s with nearCounts := if n = 0 then terase s.nearCounts pg.2 else tset s.nearCounts pg.2 n }
  else { s with counts := if n = 0 then terase s.counts pg.2 else tset s.counts pg.2 n }

/-- Line `k` of the count array: 32 counts of 16 bits. -/
def SeqPages.countLine (s : SeqPages) (k : Nat) : Line :=
  BitVec.ofNat 512 (packBits ((List.range 32).map (fun i => (16 * i, 16, tgetD s.counts (32 * k + i) 0))))

/-- Line `k` of the bitmap of a region of `total` pages: the bit of a free page is set (R69). -/
def SeqPages.bitmapLine (s : SeqPages) (total k : Nat) : Line :=
  BitVec.ofNat 512 (packBits ((List.range 512).map (fun i =>
    let p := 512 * k + i
    (i, 1, if headPages total ≤ p ∧ p < total ∧ s.used.contains p = false then 1 else 0))))

/-! ## Reading and writing lines of these pages -/

/-- Whether a write to a region offset must wait for a page copy or at its controller; the operation under way then waits, and is made
again (R45, R169, R343). -/
def Dev.waitToWrite (d : Dev) (r off m line : Nat) : Dev :=
  match tget d.regions r with
  | none => d
  | some reg =>
    let (held, front) := d.pageHeld reg off
    if held then { d with wantFront := d.wantFront ++ front.toList }.defer
    else if d.mustWait m line true then d.defer
    else d

/-- Write line `k` of a region page that Feryth keeps for itself. -/
def Dev.putPageLine (d : Dev) (r pg k : Nat) (x : Line) : Dev :=
  match d.pageLine r (false, pg) k with
  | some (m, line) => (d.waitToWrite r (pg * pageBytes + 64 * k) m line).putLine m line x
  | none => d

/-- Read line `k` of such a page: its status. -/
def Dev.readPageLine (d : Dev) (r pg k : Nat) : Status × Dev :=
  match d.pageLine r (false, pg) k with
  | some (m, line) =>
    if d.mustWait m line false then (.ok, d.defer)
    else let (st, _, e) := d.demandRead m line 0 0; (st, e)
  | none => (.ok, d)

/-- Find an object page of a view (R54): a root or map line that reads as POISON or UNCORRECTABLE ends the search with its status. -/
def Dev.lookup (d : Dev) (r : Nat) (v : View) (p : Nat) : Status × Option (Bool × Nat) × Dev :=
  let (s1, d1) := d.readPageLine r v.root (p / 16384 / 16)
  if s1 ≠ .ok then (s1, none, d1)
  else match tget v.entries (p / 16384) with
    | none => (.ok, none, d1)
    | some m =>
      let (s2, d2) := d1.readPageLine r m (p % 16384 / 16)
      (s2, if s2 = .ok then tget (tgetD v.maps m []) (p % 16384) else none, d2)

/-- An operation of Huanik that does not wait: its writes are made at once (log entry 80). -/
def Dev.atOnce (d : Dev) (f : Dev → Dev) : Dev := { f d with again := d.again, wantFront := d.wantFront }

/-- Change a root's entry. -/
def Dev.setRoot (d : Dev) (r root n m : Nat) : Dev :=
  let d1 := d.modPages r (fun s => { s with roots := tset s.roots root (tset (s.rootOf root) n m) })
  d1.putPageLine r root (n / 16) ((d1.pages r).rootLine root (n / 16))

/-- Put an entry into a map page. -/
def Dev.setEntry (d : Dev) (r m n : Nat) (pg : Bool × Nat) : Dev :=
  let d1 := d.modPages r (fun s => { s with maps := tset s.maps m (tset (tgetD s.maps m []) n pg) })
  d1.putPageLine r m (n / 16) ((d1.pages r).mapLine m (n / 16))

/-- Set the count of a page: that of a region page in the array, that of a near page in metadata. -/
def Dev.setCount (d : Dev) (r : Nat) (pg : Bool × Nat) (n : Nat) : Dev :=
  let d1 := d.modPages r (fun s => s.setCount pg n)
  if pg.1 then d1 else d1.putPageLine r (pg.2 / 32768) (pg.2 % 32768 / 32) ((d1.pages r).countLine (pg.2 / 32))

/-- Mark a region page used or free, in the bitmap too. -/
def Dev.setUsed (d : Dev) (r p : Nat) (used : Bool) : Dev :=
  let total := ((tget d.regions r).map Region.pages).getD 0
  let d1 := d.modPages r (fun s => { s with used := if used then (if s.used.contains p then s.used else p :: s.used) else s.used.filter (fun x => x != p) })
  d1.putPageLine r (countPages total + p / 524288) (p % 524288 / 512) ((d1.pages r).bitmapLine total (p / 512))

/-- The bitmap of a new SEQUENCE region, over pages that Shutter has cleared: every page behind the head is free. -/
def Dev.initPages (d : Dev) (r : Nat) : Dev :=
  match tget d.regions r with
  | none => d
  | some reg =>
    if reg.tier == .sequence then
      (List.range ((reg.pages + 511) / 512)).foldr (fun k e =>
        e.putPageLine r (countPages reg.pages + k / 1024) (k % 1024) ((e.pages r).bitmapLine reg.pages k)) d
    else d

/-! ## Whole pages -/

/-- The runs of consecutive lines of a unit that make up a page: one grain each. -/
def Dev.pageRuns (d : Dev) (r : Nat) : Nat × List Nat :=
  let n := min 1024 (((tget d.regions r).map (fun reg => grainBytes reg.grainM8 / 64)).getD 1024)
  (n, (List.range (1024 / n)).map (fun i => i * n))

/-- Copy a page of a region or of the pool, in runs of one grain; bad lines become poison (R67). -/
def Dev.copyPage (d : Dev) (r : Nat) (src dst : Bool × Nat) : Dev :=
  let (n, runs) := d.pageRuns r
  runs.foldl (fun e i =>
    match e.pageLine r src i, e.pageLine r dst i with
    | some (m, line), some (m', line') =>
      let e1 := if e.mustWait m line false then e.defer else e
      (if dst.1 then (if e1.mustWait m' line' true then e1.defer else e1)
       else e1.waitToWrite r (dst.2 * pageBytes + 64 * i) m' line').copyRun m line m' line' n
    | _, _ => e) d

/-- Write a region page with zeros: the ABSENT entries of a new root or map page. -/
def Dev.blankPage (d : Dev) (r pg : Nat) : Dev :=
  let (n, runs) := d.pageRuns r
  runs.foldl (fun e i =>
    match e.pageLine r (false, pg) i with
    | some (m, line) =>
      let e1 := e.waitToWrite r (pg * pageBytes + 64 * i) m line
      if e1.regions.any (fun x => x.2.durable) then (List.range n).foldl (fun f k => f.putLine m (line + k) 0) e1
      else { e1 with pool := e1.pool.clear m line n }
    | none => e) d

end Sys2Proof.Machine
end

