-- ==== Sys2Proof/Machine/Plates.lean ====
section
/-! DEFINITION. Plates: page counts, copy-on-write, versions and their slots (Chapter 3), near page pool pages and
window copies (R39 to R41, R411), and the Plate descriptors. -/

namespace Sys2Proof.Machine

open Sys2Proof

/-! ## Free pages -/

/-- Take a free page of a SEQUENCE region: the lowest (log entry 15). -/
def Dev.takePage (d : Dev) (r : Nat) : Option (Nat × Dev) :=
  match tget d.regions r with
  | none => none
  | some reg => (firstFree (d.pages r).used (headPages reg.pages) reg.pages).map (fun p => (p, d.setUsed r p true))

/-- Take a page of a partition's near page pool: tails first, then the slot with the most pages in use (R411). -/
def Dev.takeNear (d : Dev) (p : Nat) : Option (Nat × Dev) :=
  let us := bitsOf (d.partn p).pseudoChannels
  let slots := (us.flatMap (fun u => (List.range 4).map (fun e => (u, e)))).filter (fun x => !d.nearSlotHeld x.1 x.2)
  let best := slots.foldl (fun (acc : Option (Nat × Nat × Nat)) x =>
    match d.poolFree x.1 x.2, acc with
    | none, a => a
    | some n, none => some (d.poolUse x.1 x.2, n, 0)
    | some n, some (c, m, _) => if c < d.poolUse x.1 x.2 then some (d.poolUse x.1 x.2, n, 0) else some (c, m, 0)) none
  let pick := match us.findSome? (fun u => d.poolFree u 4) with
    | some n => some n
    | none => best.map (fun (b : Nat × Nat × Nat) => b.2.1)
  pick.map (fun n => (n, { d with nearUsed := n :: d.nearUsed }))

/-- Return a pool page. -/
def Dev.freeNear (d : Dev) (n : Nat) : Dev := { d with nearUsed := d.nearUsed.filter (fun x => x != n) }

/-! ## Counts (R57, R69, R70) -/

/-- The working handle of an object, as events name it. -/
def Dev.workHandle (d : Dev) (r i : Nat) : U64 := makeHandle r i 0 0 (d.obj r i).gen

/-- Add 1 to the count of a page under object `i`: at 65,535 it saturates, the object is pinned and PAGE_PINNED is
raised once for it (R70). -/
def Dev.incPage (d : Dev) (r i : Nat) (pg : Bool × Nat) : Dev :=
  let c := (d.pages r).count pg
  if 65535 ≤ c then d
  else
    let d1 := d.setCount r pg (c + 1)
    if c + 1 = 65535 ∧ (d.obj r i).pinned = false then
      (d1.modObj r i (fun o => { o with pinned := true })).raise
        { code := .pagePinned, part := (tget d.regions r).map Region.partition, detail0 := some (d.workHandle r i),
          detail1 := some (BitVec.ofNat 64 pg.2) }
    else d1

/-- Pages whose counts have reached zero: they are freed in the background, after the descriptor that started it has completed (R69). -/
def Dev.freeLater (d : Dev) (r : Nat) (pgs : List (Bool × Nat)) : Dev :=
  d.modPages r (fun s => { s with freeing := s.freeing ++ pgs.map (fun p => (p, d.cur)) })

/-- Take 1 from the count of a page; at zero it is freed in the background (R69). -/
def Dev.decPage (d : Dev) (r : Nat) (pg : Bool × Nat) : Dev :=
  let c := (d.pages r).count pg
  if c = 0 ∨ 65535 ≤ c then d
  else if c = 1 then (d.setCount r pg 0).freeLater r [pg]
  else d.setCount r pg (c - 1)

/-! ## Roots -/

/-- Free a version's root: each map page it names loses 1, and the root page is freed (R57). -/
def Dev.freeRoot (d : Dev) (r root : Nat) : Dev :=
  let d1 := ((d.pages r).rootOf root).foldl (fun e x => e.decPage r (false, x.2)) d
  (d1.modPages r (fun s => { s with roots := terase s.roots root })).freeLater r [(false, root)]

/-- Copy a root to a fresh page, bad lines as poison (R67); each map page gains 1. -/
def Dev.copyRoot (d : Dev) (r i root : Nat) : Option (Nat × Dev) :=
  match d.takePage r with
  | none => none
  | some (p, d1) =>
    let es := (d1.pages r).rootOf root
    let d2 := (d1.copyPage r (false, root) (false, p)).modPages r (fun s => { s with roots := tset s.roots p es })
    some (p, es.foldl (fun e x => e.incPage r i (false, x.2)) d2)

/-- A fresh root whose entries are all ABSENT. -/
def Dev.newRoot (d : Dev) (r : Nat) : Option (Nat × Dev) :=
  (d.takePage r).map (fun x => (x.1, (x.2.blankPage r x.1).modPages r (fun s => { s with roots := tset s.roots x.1 [] })))

/-! ## The recent window (R39, R56) -/

/-- The tokens of the recent window (log entry 16). -/
def recentTokens : Nat := 4096

/-- The object pages that hold the recent window of a length, over every layer. -/
def Obj.recentPages (o : Obj) (length : Nat) : List Nat :=
  if length = 0 then []
  else
    let lo := (length - recentTokens) / 64
    let hi := (length - 1) / 64
    ((List.range o.layers).flatMap (fun layer =>
      (List.range (hi - lo + 1)).flatMap (fun k =>
        let b := o.kvLocate layer (lo + k)
        (List.range ((b + o.kvBlockBytes - 1) / pageBytes - b / pageBytes + 1)).map (fun j => b / pageBytes + j)))).dedup

/-- The home pages of object pages, in a view. -/
def homePages (v : View) (ps : List Nat) : List Nat :=
  ps.filterMap (fun p =>
    match viewPage v p with
    | some (false, h) => some h
    | _ => none)

/-- The home pages of the recent window of a version of an object. -/
def Dev.windowHomes (d : Dev) (r root : Nat) (o : Obj) (length : Nat) : List Nat :=
  if o.flat then [] else homePages (d.viewOf r root) (o.recentPages length)

/-- The home pages of the recent windows of every version of a region. -/
def Dev.allWindows (d : Dev) (r : Nat) : List Nat :=
  (d.objs.filter (fun x => decide (x.1 / 65536 = r) && x.2.state != .free)).flatMap (fun x =>
    (if x.2.workingFreed then [] else d.windowHomes r x.2.workingRoot x.2 x.2.length) ++
    (x.2.slots.filter (fun s => s.2.state != .free)).flatMap (fun s => d.windowHomes r s.2.root x.2 s.2.length))

/-- Home pages that have left a version's recent window lose their copy, unless another version that names them, which shares it, still
has them in its own (R39, R56; when a shared copy goes is a DESIGN CHOICE, log entry 16). -/
def Dev.leaveWindow (d : Dev) (r : Nat) (left : List Nat) : Dev :=
  let kept := if left = [] then [] else d.allWindows r
  (left.filter (fun h => !kept.contains h)).foldl (fun e h =>
    match tget (e.pages r).windows h with
    | some n => (e.freeNear n).modPages r (fun s => { s with windows := terase s.windows h })
    | none => e) d

/-! ## Freeing slots and objects (Table 3.5, R65, R70) -/

/-- Whether a version is held by a job in flight (R61), the job `but` excepted. -/
def Dev.held (d : Dev) (r i s : Nat) (but : Option Nat) : Bool :=
  d.jobs.any (fun j => some j.id != but && j.holds.any (fun h => h.region == r && h.object == i && h.slot == s))

/-- Free a published slot. -/
def Dev.freeSlot (d : Dev) (r i s : Nat) : Dev :=
  let o := d.obj r i
  let gone := d.windowHomes r (o.slot s).root o (o.slot s).length
  ((d.freeRoot r (o.slot s).root).modObj r i (fun o => { o with slots := tset o.slots s { gen := (o.slot s).gen + 1 } })).leaveWindow r gone

/-- When no object of a region is LIVE or DESTROYING, every saturated page is freed (R70). -/
def Dev.freeSaturated (d : Dev) (r : Nat) : Dev :=
  if d.objs.any (fun x => decide (x.1 / 65536 = r) && (x.2.state == .live || x.2.state == .destroying)) then d
  else
    let sp := d.pages r
    let full := (sp.counts.filter (fun c => decide (65535 ≤ c.2))).map (fun c => (false, c.1)) ++
      (sp.nearCounts.filter (fun c => decide (65535 ≤ c.2))).map (fun c => (true, c.1))
    (full.foldl (fun e pg => e.setCount r pg 0) d).freeLater r full

/-- When the working version and every published version of a DESTROYING object are freed, it becomes FREE (R65). -/
def Dev.freeObject (d : Dev) (r i : Nat) : Dev :=
  let o := d.obj r i
  if o.state == .destroying && o.workingFreed && o.slots.all (fun s => s.2.state == .free) then
    (d.modObj r i (fun o => { gen := o.gen + 1, slots := o.slots.map (fun s => (s.1, { gen := s.2.gen })) })).freeSaturated r
  else d

/-- Free the working version of a DESTROYING object once no hold remains (Table 3.7). -/
def Dev.freeWorking (d : Dev) (r i : Nat) (but : Option Nat) : Dev :=
  let o := d.obj r i
  if o.state == .destroying && !o.workingFreed && !d.held r i 0 but then
    let gone := d.windowHomes r o.workingRoot o o.length
    (((d.freeRoot r o.workingRoot).modObj r i (fun o => { o with workingFreed := true })).leaveWindow r gone).freeObject r i
  else d

/-- Whether slot `s` is the latest version of an object that keeps it (Table 3.5, R65). -/
def Obj.isLatest (o : Obj) (s : Nat) : Bool := o.state == .live && (o.slot s).version == o.latestVersion

/-- A PUBLISHED slot whose opens have ended and that is not the latest is freed, or DISCARDING while held (Table 3.5). -/
def Dev.settleSlot (d : Dev) (r i s : Nat) (but : Option Nat) : Dev :=
  let o := d.obj r i
  let sl := o.slot s
  if sl.state == .published && sl.openCount == 0 && !o.isLatest s then
    if d.held r i s but then d.modObj r i (fun o => { o with slots := tset o.slots s { sl with state := .discarding } })
    else (d.freeSlot r i s).freeObject r i
  else if sl.state == .discarding && !d.held r i s but then (d.freeSlot r i s).freeObject r i
  else d

/-- What a hold that has ended lets go: the working version of a DESTROYING object, or a DISCARDING slot (R61). -/
def Dev.holdEnded (d : Dev) (h : Hold) (but : Option Nat) : Dev :=
  if h.slot = 0 then d.freeWorking h.region h.object but
  else if ((d.obj h.region h.object).slot h.slot).state == .discarding then d.settleSlot h.region h.object h.slot but
  else d

/-- Release a job's holds (R61). -/
def Dev.releaseHolds (d : Dev) (j : Job) : Dev := j.holds.foldl (fun e h => e.holdEnded h (some j.id)) d

/-! ## Background freeing (R69) -/

/-- Whether a snapshot names a page of region `r`. -/
def Snapshot.names (s : Snapshot) (r : Nat) (pg : Bool × Nat) : Bool :=
  s.region == r && (pg == (false, s.view.root) || s.view.entries.any (fun x => pg == (false, x.2)) ||
    s.view.maps.any (fun m => m.2.any (fun x => x.2 == pg)))

/-- Whether a descriptor in flight may still read a page: its snapshot names it (R73), or a snapshot that a later reader may take. -/
def Dev.pageRead (d : Dev) (r : Nat) (pg : Bool × Nat) : Bool :=
  d.jobs.any (fun j => j.snap.any (fun s => s.names r pg) || j.before.any (fun s => s.names r pg))

/-- Free one page: a map page releases the pages it names; a data page takes its window copy with it. -/
def Dev.freePage (d : Dev) (r : Nat) (pg : Bool × Nat) : Dev :=
  if pg.1 then d.freeNear pg.2
  else
    let sp := d.pages r
    let d1 := (tgetD sp.maps pg.2 []).foldl (fun e x => e.decPage r x.2) d
    let d2 := match tget sp.windows pg.2 with
      | some n => d1.freeNear n
      | none => d1
    (d2.modPages r (fun s => { s with maps := terase s.maps pg.2, windows := terase s.windows pg.2 })).setUsed r pg.2 false

/-- PAGE_FREE_BACKGROUND: every page whose count reached zero is freed, once the descriptor that started it has completed; pages that
these release follow at the next turn. Pages that a descriptor in flight still reads wait. -/
def Dev.pageFree (d : Dev) (r : Nat) : Dev :=
  let (wait, go) := (d.pages r).freeing.partition (fun x => d.pageRead r x.1 || x.2.any (fun id => (d.job id).isSome))
  go.foldl (fun e x => e.freePage r x.1) (d.modPages r (fun s => { s with freeing := wait }))

/-- PAGE_FREE_BACKGROUND (R69). -/
def execPageFreeBackground (region : Nat) (s : State) : Host.Outcome State Fault Refusal :=
  liveStep (fun d => d.windowed (fun e => e.pageFree region)) s

/-! ## Pages and copy-on-write (R55, R66 to R68) -/

/-- The map page and the entry of object page `p` under a root (R54). -/
def SeqPages.entry (s : SeqPages) (root p : Nat) : Option (Nat × Option (Bool × Nat)) :=
  (tget (s.rootOf root) (p / 16384)).map (fun m => (m, tget (tgetD s.maps m []) (p % 16384)))

/-- A fresh page for an object page: a summary page from the near page pool where the partition has one and a page is
free, else a region page; NEAR_POOL_FULL is raised once per object (R39, R40). -/
def Dev.freshPage (d : Dev) (r i : Nat) (summary : Bool) : Option ((Bool × Nat) × Dev) :=
  match tget d.regions r with
  | none => none
  | some reg =>
    let near := summary && (d.partn reg.partition).pseudoChannels != 0
    match if near then d.takeNear reg.partition else none with
    | some (n, d1) => some ((true, n), d1)
    | none =>
      let d1 :=
        if near && !(d.obj r i).nearFullRaised then
          ((d.modObj r i (fun o => { o with nearFullRaised := true })).raise
            { code := .nearPoolFull, part := some reg.partition, detail0 := some (d.workHandle r i) }).demoteOne reg.partition
        else d
      match d1.takePage r with
      | some (p, d2) => some ((false, p), d2)
      | none => none

/-- A map page of its own under the working root's entry `n`: a fresh one where the entry is ABSENT, a copy of a shared one, whose pages
then gain 1 (R66, step 1). None where no page is free. -/
def Dev.ownMap (d : Dev) (r i root n : Nat) : Option (Nat × Dev) :=
  match tget ((d.pages r).rootOf root) n with
  | none =>
    (d.takePage r).map (fun x =>
      (x.1, (((x.2.blankPage r x.1).modPages r (fun s => { s with maps := tset s.maps x.1 [] })).setCount r (false, x.1) 1).setRoot r root n x.1))
  | some m =>
    if (d.pages r).count (false, m) ≤ 1 then some (m, d)
    else
      (d.takePage r).map (fun x =>
        let es := tgetD (x.2.pages r).maps m []
        let e1 := ((x.2.copyPage r (false, m) (false, x.1)).modPages r (fun s => { s with maps := tset s.maps x.1 es })).setCount r (false, x.1) 1
        let e2 := es.foldl (fun f y => f.incPage r i y.2) e1
        (x.1, (e2.setRoot r root n x.1).decPage r (false, m)))

/-- Make object page `p` of the working version exclusive (R66). The status is OK, NO_RESOURCE where no page is free (R68), or that of a
bad line of the page maps; steps taken stay. -/
def Dev.exclusive (d : Dev) (r i : Nat) (p : Nat) (summary : Bool) : Status × Dev :=
  let root := (d.obj r i).workingRoot
  let (st, _, d0) := d.lookup r (d.viewOf r root) p
  if st ≠ .ok then (st, d0)
  else match d0.ownMap r i root (p / 16384) with
    | none => (.noResource, d0)
    | some (m, d1) =>
      match tget (tgetD (d1.pages r).maps m []) (p % 16384) with
      | some pg =>
        if (d1.pages r).count pg ≤ 1 then (.ok, d1)
        else
          match d1.freshPage r i (summary && pg.1) with
          | none => (.noResource, d1)
          | some (pg', e) => (.ok, (((e.copyPage r pg pg').setCount r pg' 1).setEntry r m (p % 16384) pg').decPage r pg)
      | none =>
        match d1.freshPage r i summary with
        | none => (.noResource, d1)
        | some (pg', e) => (.ok, (e.setCount r pg' 1).setEntry r m (p % 16384) pg')

/-- Make several object pages exclusive, in order, up to the first failure; with the page that failed. -/
def Dev.exclusiveAll (d : Dev) (r i : Nat) (ps : List (Nat × Bool)) : (Status × Nat) × Dev :=
  match ps with
  | [] => ((.ok, 0), d)
  | (p, s) :: rest =>
    let (st, d1) := d.exclusive r i p s
    if st = .ok then Dev.exclusiveAll d1 r i rest else ((st, p), d1)

/-! ## Lines of an object -/

/-- Read line `l` of an object, numbered over its page space: zero where the page is ABSENT (R55). A window copy is
read in place of its home; a bad line of it is read from the home and rewritten (R149). A line written in place since a reader's dispatch
reads as before (R73). -/
def Dev.viewLine (d : Dev) (r : Nat) (v : View) (l : Nat) : Status × Line × Dev :=
  let (st, pg?, d0) := d.lookup r v (l / 1024)
  if st ≠ .ok then (st, 0, d0)
  else match tget v.old l, pg? with
  | some (st, x), _ => (st, x, d0)
  | none, none => (.ok, 0, d0)
  | none, some pg =>
    match d0.pageLine r pg (l % 1024) with
    | none => (.bounds, 0, d0)
    | some (m, line) =>
      match (if pg.1 then none else tget (d0.pages r).windows pg.2) with
      | none => if d0.mustWait m line false then (.ok, 0, d0.defer) else d0.readLine m line
      | some n =>
        let w := nearPlace n
        if d0.mustWait w.1 (w.2 + l % 1024) false then (.ok, 0, d0.defer)
        else
        let (st, x, d1) := d0.readLine w.1 (w.2 + l % 1024)
        if st = .poison ∨ st = .uncorrectable then
          if d1.mustWait m line false then (.ok, 0, d1.defer)
          else
          let (st', y, d2) := d1.readLine m line
          (st', y, if st' = .ok then d2.putLine w.1 (w.2 + l % 1024) y
                   else { d2 with pool := d2.pool.poisonLine w.1 (w.2 + l % 1024) })
        else (st, x, d1)

/-- Where line `l` of an object lives. -/
def Dev.viewPlace (d : Dev) (r : Nat) (v : View) (l : Nat) : Option (Nat × Nat) :=
  (viewPage v (l / 1024)).bind (fun pg => d.pageLine r pg (l % 1024))

/-- The bad line that a read of line `l` of an object met, for events: of its root or map page, or the line itself. -/
def Dev.viewFault (d : Dev) (r : Nat) (v : View) (l : Nat) : Option (Nat × Nat) :=
  let p := l / 1024
  let table := (d.pageLine r (false, v.root) (p / 16384 / 16)).toList ++
    ((tget v.entries (p / 16384)).bind (fun m => d.pageLine r (false, m) (p % 16384 / 16))).toList
  match table.find? (fun x => (d.demandRead x.1 x.2 0 0).1 != .ok) with
  | some x => some x
  | none => d.viewPlace r v l

/-- A snapshot that keeps what line `l` read as before a write in place. -/
def Snapshot.keep (s : Snapshot) (r l : Nat) (pg : Bool × Nat) (was : Status × Line) : Snapshot :=
  if s.region = r ∧ viewPage s.view (l / 1024) = some pg ∧ (tget s.view.old l).isNone
  then { s with view := { s.view with old := tset s.view.old l was } } else s

/-- Before a line of a page is written in place, every descriptor in flight whose dispatch came before keeps it as it read (R73). -/
def Dev.keepOld (d : Dev) (r l : Nat) (pg : Bool × Nat) : Dev :=
  if d.jobs.any (fun j => j.snap.isSome || j.before.isSome) then
    match d.pageLine r pg (l % 1024) with
    | none => d
    | some (m, line) =>
      let (st, x, _) := d.demandRead m line 0 0
      { d with jobs := d.jobs.map (fun j => { j with
          snap := j.snap.map (fun s => s.keep r l pg (st, x)), before := j.before.map (fun s => s.keep r l pg (st, x)) }) }
  else d

/-- Store line `l` of the working version, at its home and in its window copy (R39); none stands for a poisoned line (R67, R140). -/
def Dev.putViewLine (d : Dev) (r : Nat) (v : View) (l : Nat) (x : Option Line) : Dev :=
  let put := fun (e : Dev) (m line : Nat) => match x with
    | some y => e.writeLine m line y
    | none => (e.activate m line).putPoison m line
  match viewPage v (l / 1024) with
  | none => d
  | some pg =>
    let d0 := d.keepOld r l pg
    let d1 := match d0.pageLine r pg (l % 1024) with
      | some (m, line) =>
        put (if pg.1 then (if d0.mustWait m line true then d0.defer else d0)
             else d0.waitToWrite r (pg.2 * pageBytes + 64 * (l % 1024)) m line) m line
      | none => d0
    match (if pg.1 then none else tget (d1.pages r).windows pg.2) with
    | some n =>
      let w := nearPlace n
      put (if d1.mustWait w.1 (w.2 + l % 1024) true then d1.defer else d1) w.1 (w.2 + l % 1024)
    | none => d1

/-- Read `n` bytes of an object, with lines of `laid` taken in place of what is stored; a bad line is named. -/
def Dev.viewBytes (d : Dev) (r : Nat) (v : View) (laid : Tab Line) (off : Nat) (ls : List Nat) (acc : List Byte) (n : Nat) :
    (Status × Nat) × List Byte × Dev :=
  match ls with
  | [] => ((.ok, 0), (acc.drop (off % 64)).take n, d)
  | l :: rest =>
    match tget laid l with
    | some x => Dev.viewBytes d r v laid off rest (acc ++ bytesOf 64 x) n
    | none =>
      let (st, x, d1) := d.viewLine r v l
      if st = .ok then Dev.viewBytes d1 r v laid off rest (acc ++ bytesOf 64 x) n else ((st, l), [], d1)

/-- Read `n` bytes of an object from byte `off` of its page space. -/
def Dev.readView (d : Dev) (r : Nat) (v : View) (laid : Tab Line) (off n : Nat) : (Status × Nat) × List Byte × Dev :=
  d.viewBytes r v laid off (linesOf off n) [] n

/-! ## Window copies (R39, R40) -/

/-- Bring the window copies of an object's working version to its recent window: pages that left lose their copy, pages
that entered get one where the pool has a free page (R39, R40). -/
def Dev.moveWindow (d : Dev) (r i : Nat) (before : List Nat) : Dev :=
  match tget d.regions r with
  | none => d
  | some reg =>
    if (d.partn reg.partition).pseudoChannels = 0 then d
    else
      let o := d.obj r i
      let now := d.windowHomes r o.workingRoot o o.length
      now.foldl (fun e h =>
        if (tget (e.pages r).windows h).isSome then e
        else
          match e.takeNear reg.partition with
          | some (n, f) => (f.copyPage r (false, h) (true, n)).modPages r (fun s => { s with windows := tset s.windows h n })
          | none =>
            if (e.obj r i).nearFullRaised then e
            else ((e.modObj r i (fun o => { o with nearFullRaised := true })).raise
              { code := .nearPoolFull, part := some reg.partition, detail0 := some (e.workHandle r i) }).demoteOne reg.partition)
        (d.leaveWindow r (before.filter (fun h => !now.contains h)))

/-! ## What a reader sees (R73) -/

/-- A version of an object as it is now. -/
def Dev.versionNow (d : Dev) (r root length : Nat) : Snapshot :=
  let v := d.viewOf r root
  { region := r, length := length, view := { v with maps := v.maps.filter (fun m => v.entries.any (fun e => e.2 == m.1)) } }

/-- The working version of an object as it is now. -/
def Dev.workingNow (d : Dev) (r : Nat) (o : Obj) : Snapshot := d.versionNow r o.workingRoot o.length

/-- The version that a reading descriptor sees from its dispatch on. A reader of the working version sees no append that has taken effect
and whose completion is still to be written. -/
def Dev.snapshotOf (d : Dev) (x : Line) : Option Snapshot :=
  if dOpcode x = 0x11 ∨ dOpcode x = 0x12 then
    let h := dW0 x
    let r := hRegion h
    let o := d.obj r (hIndex h)
    if hSlot h = 0 then
      match d.jobs.findSome? (fun j => if j.changes = some (r, hIndex h) then j.before else none) with
      | some s => some s
      | none => some (d.workingNow r o)
    else some (d.versionNow r (o.slot (hSlot h)).root (o.slot (hSlot h)).length)
  else none

/-- The completion of a descriptor is written: an append before it on the same object counts as written too, for what came later builds
on it (DESIGN CHOICE, log entry 79). -/
def Dev.appendDone (d : Dev) (j : Job) : Dev :=
  if j.before.isSome then
    { d with jobs := d.jobs.map (fun k => if k.id < j.id ∧ k.changes = j.changes then { k with before := none } else k) }
  else d

/-! ## The Plate descriptors (R64, Table 3.7) -/

/-- The region, object index and object of a descriptor's handle. -/
def Dev.target (d : Dev) (j : Job) : Nat × Nat × Obj :=
  (hRegion (dW0 j.desc), hIndex (dW0 j.desc), d.obj (hRegion (dW0 j.desc)) (hIndex (dW0 j.desc)))

/-- Whether an operation on the working version came after a destroy of the object (R72). -/
def Dev.goneWorking (d : Dev) (j : Job) : Bool :=
  let (_, _, o) := d.target j
  hSlot (dW0 j.desc) = 0 && (o.state != .live || o.gen.toNat != hObjGen (dW0 j.desc))

/-- PLATE_OPEN. -/
def Dev.plateOpen (j : Job) (d : Dev) : Dev :=
  let (r, i, o) := d.target j
  let want := field j.desc 192 32
  let v := if want = 0 then o.latestVersion.toNat else want
  match o.slots.find? (fun s => s.2.state == .published && s.2.version.toNat == v && v != 0) with
  | none => d.finish j .versionGone
  | some (s, sl) =>
    if sl.openCount = 65535 then d.finish j .saturated
    else (d.modObj r i (fun o => { o with slots := tset o.slots s { sl with openCount := sl.openCount + 1 } })).finish j .ok
      (makeHandle r i s sl.gen o.gen) sl.version

/-- PLATE_CLOSE of a published handle. The closing descriptor holds the version until its own completion is written (R61), so a slot that
it leaves without an open is DISCARDING until then. -/
def Dev.plateClose (j : Job) (d : Dev) : Dev :=
  let (r, i, o) := d.target j
  let s := hSlot (dW0 j.desc)
  let sl := o.slot s
  if s = 0 then d.finish j .format
  else if sl.openCount = 0 then d.finish j .format
  else
    let d1 := d.modObj r i (fun o => { o with slots := tset o.slots s { sl with openCount := sl.openCount - 1 } })
    (d1.settleSlot r i s none).finish j .ok 0 (BitVec.ofNat 32 (sl.openCount - 1))

/-- PLATE_CLOSE with `destroy` (R65). Its own hold on the working version ends with its completion (R61). -/
def Dev.plateDestroy (j : Job) (d : Dev) : Dev :=
  let (r, i, o) := d.target j
  if hSlot (dW0 j.desc) ≠ 0 then d.finish j .format
  else if d.goneWorking j then d.finish j .versionGone
  else
    let d1 := d.modObj r i (fun o => { o with state := .destroying })
    let d2 := (o.slots.map (fun s => s.1)).foldl (fun e s => e.settleSlot r i s none) d1
    (d2.freeWorking r i none).finish j .ok

/-- PLATE_PUBLISH. -/
def Dev.platePublish (j : Job) (d : Dev) : Dev :=
  let (r, i, o) := d.target j
  if hSlot (dW0 j.desc) ≠ 0 then d.finish j .format
  else if d.goneWorking j then d.finish j .versionGone
  else if o.latestVersion = 0xFFFFFFFE then d.finish j .saturated
  else
    match (List.range 16).find? (fun s => s != 0 && (o.slot s).state == .free) with
    | none => d.finish j .noResource
    | some s =>
      match d.copyRoot r i o.workingRoot with
      | none => d.finish j .noResource
      | some (root, d1) =>
        let old := o.slots.find? (fun x => x.2.state == .published && x.2.version == o.latestVersion)
        let sl : PlateSlot := { version := o.latestVersion + 1, root := root, state := .published, gen := (o.slot s).gen,
                                openCount := if bit j.desc 225 then 1 else 0, length := o.length }
        let d2 := d1.modObj r i (fun o => { o with slots := tset o.slots s sl, latestVersion := o.latestVersion + 1 })
        let d3 := match old with
          | some (t, _) => d2.settleSlot r i t none
          | none => d2
        d3.finish j .ok (makeHandle r i s sl.gen o.gen) sl.version

/-- PLATE_FORK. -/
def Dev.plateFork (j : Job) (d : Dev) : Dev :=
  let (r, i, o) := d.target j
  let s := hSlot (dW0 j.desc)
  if d.goneWorking j then d.finish j .versionGone
  else
    let src := if s = 0 then (o.workingRoot, o.length) else ((o.slot s).root, (o.slot s).length)
    let taken := (d.objs.filter (fun x => decide (x.1 / 65536 = r) && x.2.state != .free)).map (fun x => x.1 % 65536)
    match firstFree taken 0 65536 with
    | none => d.finish j .noResource
    | some k =>
      match d.copyRoot r i src.1 with
      | none => d.finish j .noResource
      | some (root, d1) =>
        let gen := (d1.obj r k).gen
        let d2 := d1.modObj r k (fun old => { o with
          gen := old.gen, state := .live, pinned := false, length := src.2, workingRoot := root, workingFreed := false,
          latestVersion := 0, parentIndex := i, parentGen := o.gen, nearFullRaised := false,
          slots := old.slots.map (fun x => (x.1, { gen := x.2.gen })) })
        (d2.moveWindow r k []).finish j .ok (makeHandle r k 0 0 gen) (BitVec.ofNat 32 src.2)

/-- PLATE_OPEN (R64). -/
def execPlateOpen (job : Nat) (s : State) : Host.Outcome State Fault Refusal :=
  devStep (fun d => d.runJob job [0x20] Dev.plateOpen) s

/-- PLATE_CLOSE of a published handle (R64): a descriptor without `destroy`. -/
def execPlateClose (job : Nat) (s : State) : Host.Outcome State Fault Refusal :=
  devStep (fun d => d.runJob job [0x21] (fun j e => if bit j.desc 224 then e else Dev.plateClose j e)) s

/-- PLATE_CLOSE with `destroy` (R65). -/
def execPlateCloseDestroy (job : Nat) (s : State) : Host.Outcome State Fault Refusal :=
  devStep (fun d => d.runInTurn job [0x21] (fun j e => if bit j.desc 224 then Dev.plateDestroy j e else e)) s

/-- PLATE_PUBLISH (R64). -/
def execPlatePublish (job : Nat) (s : State) : Host.Outcome State Fault Refusal :=
  devStep (fun d => d.runInTurn job [0x22] Dev.platePublish) s

/-- PLATE_FORK (R64). -/
def execPlateFork (job : Nat) (s : State) : Host.Outcome State Fault Refusal :=
  devStep (fun d => d.runInTurn job [0x23] Dev.plateFork) s

end Sys2Proof.Machine
end

