-- ==== Sys2Proof/Machine/Queues.lean ====
section
/-! DEFINITION. Queue pairs: doorbells, fetching, dispatch, completions (Chapter 6), tally descriptors, atomics and
locks (R246 to R248, R279 to R282). -/

namespace Sys2Proof.Machine

open Sys2Proof

/-! ## Doorbells (R117, R118, R299, R300) -/

/-- What a byte of the doorbell aperture belongs to (R117). -/
inductive DbTarget where
  | queue (q : Nat)
  | mailbox (p : Nat)
  | ring (p : Nat)
  | none
deriving DecidableEq, Repr

/-- The doorbell at an offset; none where it is reserved or its ring does not exist. -/
def Dev.dbTarget (d : Dev) (off : Nat) : DbTarget :=
  if off < 0x200000 then (if (d.queue (off / 8)).exists_ then .queue (off / 8) else .none)
  else if off < 0x200100 then
    (if (tget d.partMbx ((off - 0x200000) / 8)).isSome then .mailbox ((off - 0x200000) / 8) else .none)
  else if off < 0x200200 then
    (if (tget d.partRings ((off - 0x200100) / 8)).isSome then .ring ((off - 0x200100) / 8) else .none)
  else .none

/-- Discard a doorbell write: count it and report it (R118). -/
def Dev.dbReject (d : Dev) (w : DbWrite) (part queue : Option Nat) (st : Status) : Dev :=
  (d.bump .dbRejected).raise
    { code := .doorbellRejected, part := part, context := some w.ctx, queue := queue,
      detail0 := some (BitVec.ofNat 64 w.off), detail1 := some (statusWord st) }

/-- Set a queue to ERROR and raise QUEUE_ERROR (R118, R127). -/
def Dev.queueError (d : Dev) (q : Nat) (st : Status) : Dev :=
  (d.modQueue q (fun x => { x with state := .error })).raise
    { code := .queueError, part := some (d.queue q).partition, context := some (d.queue q).context, queue := some q,
      detail0 := some (BitVec.ofNat 64 q), detail1 := some (statusWord st) }

/-- Whether a write is a single aligned 8-byte write. -/
def dbForm (w : DbWrite) : Bool := w.off % 8 == 0 && w.len == 8

/-- A write to the doorbell of queue `q` (R118). -/
def Dev.dbQueue (d : Dev) (w : DbWrite) (q : Nat) : Dev :=
  let x := d.queue q
  let tail : U32 := w.value.truncate 32
  let head : U32 := (w.value >>> 32).truncate 32
  if !dbForm w then d.dbReject w (some x.partition) (some q) .format
  else if !d.ctxAllowed x w.ctx then d.dbReject w (some x.partition) (some q) .rights
  else match x.state with
    | .disabled | .error => d.bump .dbInactive
    | .active | .parked =>
      if (tail - x.sqHead).toNat ≤ 2 ^ x.sqLog2 ∧ (tail - x.sqTail).toNat ≤ 2 ^ x.sqLog2 ∧
         (x.cqTail - head).toNat ≤ 2 ^ x.cqLog2 ∧ (head - x.cqHead).toNat ≤ 2 ^ x.cqLog2
      then d.modQueue q (fun y => { y with sqTail := tail, cqHead := head })
      else d.queueError q .format

/-- A write to partition `p`'s mailbox doorbell (R299): the checks of R118 over rings of 64 entries, from the mailbox's
context (log entry 17). -/
def Dev.dbMailbox (d : Dev) (w : DbWrite) (p : Nat) : Dev :=
  match tget d.partMbx p with
  | none => d
  | some m =>
    let tail : U32 := w.value.truncate 32
    let head : U32 := (w.value >>> 32).truncate 32
    if !dbForm w then d.dbReject w (some p) none .format
    else if w.ctx ≠ m.ctx then d.dbReject w (some p) none .rights
    else if (tail - m.cmdDone).toNat ≤ 64 ∧ (tail - m.cmdTail).toNat ≤ 64 ∧ (m.cmdDone - head).toNat ≤ 64 ∧
            (head - m.rspHead).toNat ≤ 64
    then { d with partMbx := tset d.partMbx p { m with cmdTail := tail, rspHead := head } }
    else d.dbReject w (some p) none .format

/-- A write to partition `p`'s event-ring doorbell (R300); space that returns lets EVENTS_LOST be written (R297). -/
def Dev.dbRing (d : Dev) (w : DbWrite) (p : Nat) : Dev :=
  match tget d.partRings p with
  | none => d
  | some g =>
    let head : U32 := w.value.truncate 32
    if (d.context w.ctx).partition ≠ p ∨ (d.context w.ctx).valid = false then d.dbReject w (some p) none .rights
    else if !dbForm w || w.value >>> 32 != 0 then d.dbReject w (some p) none .format
    else if (g.tail - head).toNat ≤ 2 ^ g.log2 ∧ (head - g.head).toNat ≤ 2 ^ g.log2 then
      let d1 := { d with partRings := tset d.partRings p { g with head := head } }
      if g.unreported ≠ 0 ∧ head ≠ g.head then
        { d1 with partRings := tset d1.partRings p { g with head := head, unreported := 0 } }.putPartEvent p
          { code := .eventsLost, part := some p, detail0 := some (BitVec.ofNat 64 g.unreported) }
      else d1
    else d.dbReject w (some p) none .format

/-- The partition a doorbell belongs to. -/
def Dev.dbPart (d : Dev) (t : DbTarget) : Option Nat :=
  match t with
  | .queue q => some (d.queue q).partition
  | .mailbox p => some p
  | .ring p => some p
  | .none => none

/-- A write into the doorbell aperture. It is refused while Dome is requested (R366), and while the doorbell's partition
is RESETTING (R263, R344). -/
def Dev.ringDoorbell (d : Dev) (w : DbWrite) : Dev :=
  if d.sys.domeReqAt.isSome || (d.dbPart (d.dbTarget w.off)).any (fun p => (d.partn p).state == .resetting) then d
  else match d.dbTarget w.off with
    | .queue q => d.dbQueue w q
    | .mailbox p => d.dbMailbox w p
    | .ring p => d.dbRing w p
    | .none => d.dbReject w none none .bounds

/-- QUEUE_DOORBELL (R118). -/
def execQueueDoorbell (w : DbWrite) (s : State) : Host.Outcome State Fault Refusal :=
  devStep (fun d =>
    match d.dbTarget w.off with
    | .queue _ => d.ringDoorbell w
    | _ => d) s

/-- APERTURE_RESERVED_WRITE (R117). -/
def execApertureReservedWrite (w : DbWrite) (s : State) : Host.Outcome State Fault Refusal :=
  devStep (fun d =>
    match d.dbTarget w.off with
    | .none => d.ringDoorbell w
    | _ => d) s

/-- PART_MAILBOX_DOORBELL (R299). -/
def execPartMailboxDoorbell (w : DbWrite) (s : State) : Host.Outcome State Fault Refusal :=
  devStep (fun d =>
    match d.dbTarget w.off with
    | .mailbox _ => d.ringDoorbell w
    | _ => d) s

/-- PART_EVENT_RING_DOORBELL (R300). -/
def execPartEventRingDoorbell (w : DbWrite) (s : State) : Host.Outcome State Fault Refusal :=
  devStep (fun d =>
    match d.dbTarget w.off with
    | .ring _ => d.ringDoorbell w
    | _ => d) s

/-! ## Completions (R121, R125 to R127, R131, R132) -/

/-- A completion (Table 6.4). -/
def completionBytes (tag : Nat) (st : Status) (gen : U8) (residue : U32) (result : U64) (ts : Nat) (mode : U8) (phase : Nat) :
    List Byte :=
  bytesOf 32 (BitVec.ofNat 256 (packBits
    [ (0, 16, tag), (16, 8, statusCode st), (24, 8, gen.toNat), (32, 32, residue.toNat), (64, 64, result.toNat),
      (128, 64, ts), (192, 8, mode.toNat), (200, 1, phase) ]))

/-- Write a completion into the next entry of a queue (R121, R127): whether the write succeeded, and the device. The
completion tail advances and the reservation ends either way. A write that ends with LEASE_EXPIRED, FENCED, TIMEOUT or FORMAT is taken as
one that ends with the four statuses of R127 (DESIGN CHOICE, log entry 78). -/
def Dev.postCompletion (d : Dev) (q tag : Nat) (st : Status) (gen : U8) (residue : U32) (result : U64) (mode : U8) :
    Bool × Dev :=
  let x := d.queue q
  let k := x.cqTail.toNat
  let bs := completionBytes tag st gen residue result d.now mode (phaseOf k (2 ^ x.cqLog2))
  let (wst, d1) := d.writeBytes x.context (x.cqBase + 32 * (k % 2 ^ x.cqLog2)) bs
  let d2 := d1.modQueue q (fun y => { y with cqTail := y.cqTail + 1, inFlight := y.inFlight - 1 })
  if wst = .ok then (true, d2) else (false, d2.queueError q wst)

/-- Completion signalling (R131, R132): add 1 to a counter; TALLY_SATURATED where it saturates or is refused. -/
def Dev.signalTally (d : Dev) (t : Nat) (part : Nat) : Dev :=
  let (d1, st) := d.tallyAdd t 1
  if st = .ok then d1
  else d1.raise { code := .tallySaturated, part := some part, detail0 := some (BitVec.ofNat 64 t), detail1 := some (statusWord st) }

/-- Contexts bound to a head (R236). -/
def Head.contexts (h : Head) : List Nat := (h.dcr.map (fun x => x.2)) ++ h.doorbell.toList

/-- Renew a lease that is HELD and not yet at its expiry (R242). -/
def Dev.renewLease (d : Dev) (l : Nat) : Dev :=
  match tget d.leases l with
  | some x =>
    if x.state = .held ∧ d.now < x.expiry then
      { d with leases := tset d.leases l { x with expiry := d.now + x.duration * 1000000000 } }
    else d
  | none => d

/-- A NOP completing OK renews the leases of its context, or of a head that its context is bound to (R242). -/
def Dev.renewByNop (d : Dev) (ctx : Nat) : Dev :=
  (d.leases.filter (fun l =>
    match l.2.head with
    | none => l.2.context == ctx
    | some h => (d.head h).contexts.contains ctx)).foldl (fun e l => e.renewLease l.1) d

/-- Write the completion of a finished job (R125). A completion of another generation is dropped and counted (R338);
one whose client writes are still being mirrored waits (R317). A descriptor refused by its checks signals its tally
unless that lies outside the partition's range (log entry 19). -/
def Dev.complete (d : Dev) (id : Nat) : Dev :=
  match d.job id with
  | none => d
  | some j =>
    match j.result with
    | none => d
    | some res =>
      if d.pair.mirrors.any (fun m => m.client == .job id) then d
      else
        let gone := ((d.releaseHolds j).dropJob id).appendDone j
        if (d.queue j.queue).gen ≠ j.queueGen then gone.bump .rstStaleCompletions
        else
          let (ok, d1) := gone.postCompletion j.queue (dTag j.desc) res.status j.queueGen res.residue res.result j.modeGen
          if ok then
            let d2 := if dTallyEn j.desc && tallyIn (d.partn j.partition) (dTally j.desc)
              then d1.signalTally (dTally j.desc) j.partition else d1
            if dOpcode j.desc = 0x7F ∧ res.status = .ok then d2.renewByNop (dCtx j.desc) else d2
          else d1

/-- COMPLETION_WRITE (R125, R127, R338). -/
def execCompletionWrite (job : Nat) (s : State) : Host.Outcome State Fault Refusal :=
  devStep (fun d => d.mirrored (.deferred true) (fun e => e.complete job)) s

/-! ## Fetching (R126, R127) -/

/-- Whether a queue may fetch its head descriptor. -/
def canFetch (x : Queue) : Bool :=
  x.exists_ && x.state == .active && x.sqHead != x.sqTail && decide (x.inFlight + (x.cqTail - x.cqHead).toNat < 2 ^ x.cqLog2)

/-- Fetch the head descriptor of a queue; a fetch that fails spends its completion entry (R127). The completion written then has result
and residue 0 and the present mode generation, and a fetch that ends with LEASE_EXPIRED, FENCED, TIMEOUT or FORMAT is taken alike (DESIGN
CHOICE, log entry 78). -/
def Dev.fetch (d : Dev) (q : Nat) : Dev :=
  let x := d.queue q
  if canFetch x then
    let addr := x.sqBase + 64 * (x.sqHead.toNat % 2 ^ x.sqLog2)
    let (st, desc, d1) := d.readCtxLine x.context addr
    let d2 := d1.modQueue q (fun y => { y with sqHead := y.sqHead + 1, inFlight := y.inFlight + 1 })
    if st = .ok then d2.modQueue q (fun y => { y with fetched := y.fetched ++ [{ desc := desc, slotAddr := addr }] })
    else ((d2.postCompletion q 0xFFFF st x.gen 0 0 d.sys.modeGen).2).queueError q st
  else d

/-- DESCRIPTOR_FETCH (R126). -/
def execDescriptorFetch (queue : Nat) (s : State) : Host.Outcome State Fault Refusal :=
  liveStep (fun d => d.mirrored (.deferred true) (fun e => e.fetch queue)) s

/-! ## Dispatch (R120, R129, R410) -/

/-- Engines that hold a dispatched descriptor. -/
def Dev.busyEngines (d : Dev) : List Nat :=
  d.jobs.flatMap (fun j =>
    match j.unit with
    | .engines es => if j.result.isNone then es else []
    | _ => [])

/-- Whether an engine can take a descriptor of a group: not busy, not in reset, not FAILED (R129, R341). -/
def Dev.engineFree (d : Dev) (g : Group) (e : Nat) : Bool :=
  bit g.engines e && !d.busyEngines.contains e && (tget d.engReset e).isNone && !bit d.engFailed e

/-- The engines of a group that can take a descriptor. -/
def Dev.freeEngines (d : Dev) (g : Group) : List Nat := (bitsOf g.engines).filter (fun e => d.engineFree g e)

/-- The mover and channel of a group that take a descriptor now (R138). -/
def Dev.pickMover (d : Dev) (g : Group) : Option (Nat × Nat) := d.pickChannel g.movers

/-- The unit that takes a descriptor now, if one can (R123, R129). The Plate operations use one engine; the others use
the leading engine and the idle engines of the group. A withdrawn engine takes whole descriptors only (R353). -/
def Dev.takeUnit (d : Dev) (g : Group) (x : Line) : Option JobUnit :=
  match opKind (dOpcode x) with
  | some .engine =>
    let (slow, es) := (d.freeEngines g).partition (fun e => bit g.withdrawn e)
    match es ++ slow with
    | [] => none
    | e :: _ => some (.engines (if dOpcode x < 0x20 ∧ es ≠ [] then es else [e]))
  | some .mover => (d.pickMover g).map (fun m => .mover m.1 m.2)
  | some .memory => some .memory
  | _ => some .dispatcher

/-- The priority a queue competes at (R120). -/
def queueLevel (x : Queue) (f : Fetched) : Nat := min (dPrio f.desc) x.prioCap

/-- Whether a queue is ready (R129); descriptors that fail their checks need no unit. -/
def Dev.ready (d : Dev) (x : Queue) : Bool :=
  match x.fetched with
  | [] => false
  | f :: _ =>
    x.exists_ && x.state == .active && (!dFence f.desc || x.inFlight == x.fetched.length) &&
    ((d.descCheck x f.desc).isSome || (d.takeUnit (d.group x.partition x.group) f.desc).isSome)

/-- Dispatch the first fetched descriptor of a queue. A TALLY_WAIT waits from its dispatch (R134). A descriptor refused by its header has
result and residue 0, a COPY or FILL too: Table 6.12 gives them only for an element that is checked (DESIGN CHOICE, log entry 78). -/
def Dev.dispatchOne (d : Dev) (q : Nat) : Dev :=
  let x := d.queue q
  match x.fetched with
  | [] => d
  | f :: rest =>
    let fail := d.descCheck x f.desc
    let unit := if fail.isSome then some .dispatcher else d.takeUnit (d.group x.partition x.group) f.desc
    match unit with
    | none => d
    | some u =>
      let elem := dOpcode f.desc = 1 ∨ dOpcode f.desc = 2
      let bodyFail := elem ∧ d.headerCheck x f.desc = none
      let j : Job :=
        { id := d.nextJob, queue := q, queueGen := x.gen, modeGen := d.sys.modeGen, partition := x.partition,
          desc := f.desc, slotAddr := f.slotAddr, unit := u, dispatchedAt := d.now, lastAccess := d.now,
          holds := if fail.isSome then [] else descHolds f.desc
          snap := if fail.isSome then none else d.snapshotOf f.desc
          waiting := fail.isNone && dOpcode f.desc == 0x41
          result := fail.map (fun st =>
            if bodyFail then { status := st, result := BitVec.ofNat 64 f.slotAddr, residue := BitVec.ofNat 32 (field f.desc 256 32) }
            else { status := st }) }
      let park := fail.isNone && dOpcode f.desc == 0x41
      { d with nextJob := d.nextJob + 1, jobs := d.jobs ++ [j] }.modQueue q (fun y => { y with
        fetched := rest
        state := if park then .parked else y.state })

/-- Dispatch descriptors of a queue while it stays ready, at most `n` of them (R129). -/
def Dev.dispatchRun (d : Dev) (q : Nat) : Nat → Dev
  | 0 => d
  | n + 1 => if d.ready (d.queue q) then Dev.dispatchRun (d.dispatchOne q) q n else d

/-- The first of some queue numbers after the one last served, rotating (R129). -/
def rotateAfter (qs : List Nat) (last : Option Nat) : Option Nat :=
  match last with
  | none => qs.head?
  | some l =>
    match qs.find? (fun q => decide (l < q)) with
    | some q => some q
    | none => qs.head?

/-- Ready queues of a group with their levels, in ascending queue number. -/
def Dev.readyQueues (d : Dev) (p g : Nat) : List (Nat × Nat) :=
  d.queues.filterMap (fun x =>
    if x.2.partition == p && x.2.group == g && d.ready x.2 then x.2.fetched.head?.map (fun f => (x.1, queueLevel x.2 f)) else none)

/-- pick(group) of R129. -/
def Dev.dispatchGroup (d : Dev) (p g : Nat) : Dev :=
  let rs := d.readyQueues p g
  let grp := d.group p g
  let starved := rs.filter (fun r => decide (tgetD grp.lastDispatch r.2 0 + 100000 ≤ d.now))
  let pool := if starved = [] then rs else starved
  let lvl := pool.foldl (fun a r => max a r.2) 0
  match rotateAfter ((rs.filter (fun r => r.2 == lvl)).map (fun r => r.1)) (tget grp.lastServed lvl) with
  | none => d
  | some q =>
    (d.modGroup p g (fun x => { x with
      lastDispatch := tset x.lastDispatch lvl d.now
      lastServed := tset x.lastServed lvl q })).dispatchRun q (d.queue q).weight

/-- DISPATCH (R129). -/
def execDispatch (part group : Nat) (s : State) : Host.Outcome State Fault Refusal :=
  liveStep (fun d => d.dispatchGroup part group) s

/-- NOP (R123): completes OK with result and residue 0. -/
def execNop (job : Nat) (s : State) : Host.Outcome State Fault Refusal :=
  devStep (fun d => d.runJob job [0x7F] (fun j e => e.finish j .ok)) s

/-! ## Tally descriptors (R133, R134) -/

/-- A parked queue returns to ACTIVE. -/
def Dev.unpark (d : Dev) (q : Nat) : Dev :=
  if (d.queue q).state = .parked then d.modQueue q (fun x => { x with state := .active }) else d

/-- The queue of a wait is PARKED, unless a reset has come between. -/
def Dev.park (d : Dev) (j : Job) : Dev :=
  d.modQueue j.queue (fun x => { x with state := if x.state = .active ∧ x.gen = j.queueGen then .parked else x.state })

/-- The counter that a TALLY_ADD or TALLY_WAIT names. -/
def jobTally (j : Job) : Nat := field j.desc 128 20

/-- TALLY_ADD (R133). -/
def Dev.doTallyAdd (j : Job) (d : Dev) : Dev :=
  let t := jobTally j
  if !tallyIn (d.partn j.partition) t then d.finish j .bounds
  else
    let d1 := if bit j.desc 148 then d.setTally t { value := (d.tally t).value } else d
    let (d2, st) := d1.tallyAdd t (BitVec.ofNat 64 (dW1 j.desc)).toInt
    d2.finish j st (d2.tally t).value (tallyFlags (d2.tally t))

/-- TALLY_ADD (R133). -/
def execTallyAdd (job : Nat) (s : State) : Host.Outcome State Fault Refusal :=
  devStep (fun d => d.runJob job [0x40] Dev.doTallyAdd) s

/-- End a wait with a status and a result; its queue returns to ACTIVE (R134). -/
def Dev.endWait (d : Dev) (j : Job) (st : Status) (result : U64) : Dev :=
  (d.finish j st result (tallyFlags (d.tally (jobTally j)))).unpark j.queue

/-- TALLY_WAIT: the queue parks until the counter reaches the target (R134). -/
def Dev.doTallyWait (j : Job) (d : Dev) : Dev :=
  if !tallyIn (d.partn j.partition) (jobTally j) then (d.finish j .bounds).unpark j.queue
  else (d.putJob { j with waiting := true }).park j

/-- TALLY_WAIT (R134). -/
def execTallyWait (job : Nat) (s : State) : Host.Outcome State Fault Refusal :=
  devStep (fun d => d.runJob job [0x41] Dev.doTallyWait) s

/-- TALLY_WAIT_SATISFIED: a pending wait finds its counter at or above its target (R134). -/
def execTallyWaitSatisfied (job : Nat) (s : State) : Host.Outcome State Fault Refusal :=
  devStep (fun d => d.onJob job [0x41] (fun j e =>
    if j.waiting && decide (dW1 j.desc ≤ (e.tally (jobTally j)).value.toNat)
    then e.endWait j .ok (e.tally (jobTally j)).value else e)) s

/-- TALLY_WAIT_TIMEOUT: a pending wait's limit passes (R134); a limit of 0 never does. -/
def execTallyWaitTimeout (job : Nat) (s : State) : Host.Outcome State Fault Refusal :=
  devStep (fun d => d.onJob job [0x41] (fun j e =>
    let limit := field j.desc 256 32
    if j.waiting && limit != 0 then
      let e1 := e.reach (j.dispatchedAt + limit * 1000)
      e1.endWait j .timeout (e1.tally (jobTally j)).value
    else e)) s

/-- End pending waits on counters with ABANDONED (R134, R412). The spec states no result for them: it is free. -/
def Dev.abandonWaits (d : Dev) (ts : List Nat) : Dev :=
  (d.jobs.filter (fun j => j.waiting && dOpcode j.desc == 0x41 && ts.contains (jobTally j))).foldl (fun e j =>
    let (w, e1) := e.drawWord
    e1.endWait j .abandoned w) d

/-! ## Atomics (R247, R248) -/

/-- Read a line that an operation will write: in the coherent window it is taken from every host first (R248). -/
def Dev.loadForWrite (d : Dev) (r off : Nat) : Status × Line × Dev :=
  match tget d.regions r with
  | none => (.bounds, 0, d)
  | some reg =>
    match d.winTouch reg r off true with
    | (none, d1) => (.ok, 0, d1)
    | (some .ok, d1) =>
      match d1.place reg off with
      | some (m, line) => if d1.mustWait m line true then (.ok, 0, d1.defer) else d1.readLine m line
      | none => (.bounds, 0, d1)
    | (some st, d1) => (st, 0, d1)

/-- Apply an atomic operation at a region offset: the status and the old value. -/
def Dev.atomicAt (d : Dev) (r off op operand compare : Nat) : Status × Nat × Dev :=
  let n := if op / 16 % 2 = 1 then 8 else 4
  let (st, x, d1) := d.loadForWrite r off
  if st = .ok then
    let o := off % 64
    let old := field x (8 * o) (8 * n)
    let new := atomicNew (8 * n) (op % 16) old (operand % 2 ^ (8 * n)) (compare % 2 ^ (8 * n))
    let line := mergeBytes x (BitVec.ofNat 512 (new * 2 ^ (8 * o))) (BitVec.ofNat 64 ((2 ^ n - 1) * 2 ^ o))
    let (st', d2) := d1.save r (off / 64 * 64) line
    (st', old, d2)
  else (st, 0, d1)

/-- ATOMIC (R248). -/
def Dev.doAtomic (j : Job) (d : Dev) : Dev :=
  let n := if bit j.desc 196 then 8 else 4
  match d.locate (dCtx j.desc) (dW0 j.desc) n .a with
  | .error st => d.finish j st
  | .ok (r, off) =>
    let (st, old, d1) := d.atomicAt r off (field j.desc 192 8) (field j.desc 256 64) (field j.desc 320 64)
    d1.finish j st (if st = .ok then BitVec.ofNat 64 old else 0)

/-- ATOMIC (R248). -/
def execAtomic (job : Nat) (s : State) : Host.Outcome State Fault Refusal :=
  devStep (fun d => d.runJob job [0x31] Dev.doAtomic) s

/-! ## Locks (R279 to R282) -/

/-- A lock line's reserved fields are zero (Table 11.8). -/
def lockRsvOk (x : Line) : Bool := field x 1 7 == 0 && field x 26 6 == 0 && field x 40 8 == 0 && field x 128 384 == 0

/-- Whether the owner of a held lock is live (R281). -/
def Dev.ownerLive (d : Dev) (x : Line) : Bool :=
  let q := d.queue (field x 8 18)
  q.state != .error && q.state != .disabled && q.gen.toNat == field x 32 8

/-- The lock line after an acquisition (R281). -/
def lockTaken (x : Line) (q : Nat) (gen : U8) (ctx : Nat) : Line :=
  BitVec.ofNat 512 (packBits
    [(0, 1, 1), (8, 18, q), (32, 8, gen.toNat), (48, 16, ctx), (64, 64, field x 64 64 + 1)])

/-- Take a lock for a job and finish it; its queue returns to ACTIVE. -/
def Dev.takeLock (d : Dev) (j : Job) (r off : Nat) (x : Line) (st : Status) : Dev :=
  let y := lockTaken x j.queue j.queueGen (dCtx j.desc)
  let (wst, d1) := d.save r off y
  if wst = .ok then (d1.finish j st (BitVec.ofNat 64 (field y 64 64))).unpark j.queue else (d1.finish j wst).unpark j.queue

/-- The memory unit whose controller keeps a lock line's waiters (R281). -/
def Dev.lockUnit (d : Dev) (r off : Nat) : Nat :=
  match (tget d.regions r).bind (fun reg => d.place reg off) with
  | some (m, _) => m
  | none => 0

/-- The waiter list's key of a lock line. -/
def lockKey (r off : Nat) : Nat := r * 68719476736 + off / 64

/-- Remove a job from every waiter list. -/
def Dev.dropWaiter (d : Dev) (id : Nat) : Dev :=
  { d with units := d.units.map (fun u => (u.1, { u.2 with lockWaiters := u.2.lockWaiters.filter (fun w => w.job != id) })) }

/-- LOCK_ACQUIRE (R281). -/
def Dev.doLockAcquire (j : Job) (d : Dev) : Dev :=
  if j.waiting then d
  else match d.locate (dCtx j.desc) (dW0 j.desc) 64 .a with
    | .error st => d.finish j st
    | .ok (r, off) =>
      let (st, x, d1) := d.loadForWrite r off
      if st ≠ .ok then d1.finish j st
      else if !lockRsvOk x then d1.finish j .format
      else if !bit x 0 then d1.takeLock j r off x .ok
      else if !d1.ownerLive x then d1.takeLock j r off x .abandoned
      else
        let m := d1.lockUnit r off
        if 256 ≤ (d1.unit m).lockWaiters.length then d1.finish j .noResource
        else if field j.desc 192 32 = 0 then d1.finish j .timeout
        else if (d1.queue j.queue).gen ≠ j.queueGen then d1.dropJob j.id
        else
          ((d1.modUnit m (fun u => { u with lockWaiters := u.lockWaiters ++ [{ job := j.id, line := lockKey r off }] })).putJob
            { j with waiting := true }).park j

/-- LOCK_ACQUIRE (R281). -/
def execLockAcquire (job : Nat) (s : State) : Host.Outcome State Fault Refusal :=
  devStep (fun d => d.runJob job [0x32] Dev.doLockAcquire) s

/-- At a release the first waiter of the line takes the lock (R281). -/
def Dev.grantLock (d : Dev) (r off : Nat) (x : Line) : Dev :=
  match (d.unit (d.lockUnit r off)).lockWaiters.find? (fun w => w.line == lockKey r off) with
  | none => d
  | some w =>
    match d.job w.job with
    | some j => (d.dropWaiter w.job).takeLock j r off x .ok
    | none => d.dropWaiter w.job

/-- LOCK_RELEASE (R282). -/
def Dev.doLockRelease (j : Job) (d : Dev) : Dev :=
  match d.locate (dCtx j.desc) (dW0 j.desc) 64 .a with
  | .error st => d.finish j st
  | .ok (r, off) =>
    let (st, x, d1) := d.loadForWrite r off
    if st ≠ .ok then d1.finish j st
    else if !lockRsvOk x then d1.finish j .format
    else if !bit x 0 then d1.finish j .format
    else if field x 8 18 ≠ j.queue ∨ field x 32 8 ≠ j.queueGen.toNat then d1.finish j .rights
    else
      let y := putBit x 0 false
      let (wst, d2) := d1.save r off y
      if wst = .ok then (d2.finish j .ok).grantLock r off y else d2.finish j wst

/-- LOCK_RELEASE (R282). -/
def execLockRelease (job : Nat) (s : State) : Host.Outcome State Fault Refusal :=
  devStep (fun d => d.runJob job [0x33] Dev.doLockRelease) s

/-- LOCK_OWNER_RECHECK: a waiter looks at the owner again (R281); a lock that is free by then it takes with OK (log entry
18). -/
def Dev.recheckLock (j : Job) (d : Dev) : Dev :=
  if !j.waiting then d
  else match d.locate (dCtx j.desc) (dW0 j.desc) 64 .a with
    | .error st => ((d.dropWaiter j.id).finish j st).unpark j.queue
    | .ok (r, off) =>
      let (st, x, d1) := d.loadForWrite r off
      if st ≠ .ok then ((d1.dropWaiter j.id).finish j st).unpark j.queue
      else if !bit x 0 then (d1.dropWaiter j.id).takeLock j r off x .ok
      else if d1.ownerLive x then d1
      else (d1.dropWaiter j.id).takeLock j r off x .abandoned

/-- LOCK_OWNER_RECHECK (R281). -/
def execLockOwnerRecheck (job : Nat) (s : State) : Host.Outcome State Fault Refusal :=
  devStep (fun d => d.runJob job [0x32] Dev.recheckLock) s

/-- LOCK_WAIT_TIMEOUT (R281). -/
def execLockWaitTimeout (job : Nat) (s : State) : Host.Outcome State Fault Refusal :=
  devStep (fun d => d.onJob job [0x32] (fun j e =>
    if j.waiting then
      (((e.reach (j.dispatchedAt + field j.desc 192 32 * 1000)).dropWaiter j.id).finish j .timeout).unpark j.queue
    else e)) s

end Sys2Proof.Machine
end

