-- ==== Sys2Proof/Machine/Kv.lean ====
section
/-! DEFINITION. The engine operations: KV_APPEND, ATTEND, KV_GATHER, SUMMARY_REBUILD (Chapter 4 over Chapter 5). -/

namespace Sys2Proof.Machine

open Sys2Proof

/-! ## Bad lines (R13) -/

/-- Finish an engine operation that met a bad line: its status, none of its output, and POISON_CONSUMED. -/
def Dev.engineBad (d : Dev) (j : Job) (st : Status) (at_ : Option (Nat × Nat)) : Dev :=
  if st = .poison ∨ st = .uncorrectable then
    let e : Event :=
      match at_ with
      | some (m, line) =>
        { code := .poisonConsumed, part := some j.partition, context := some (dCtx j.desc), queue := some j.queue,
          tag := some (BitVec.ofNat 16 (dTag j.desc)), unit := some (memUnitRef m), loc := some (d.loc m line),
          detail0 := some (BitVec.ofNat 64 line) }
      | none =>
        { code := .poisonConsumed, part := some j.partition, context := some (dCtx j.desc), queue := some j.queue,
          tag := some (BitVec.ofNat 16 (dTag j.desc)) }
    (d.raise e).finish j st
  else d.finish j st

/-- The first bad line of a context's range, for POISON_CONSUMED. -/
def Dev.badLine (d : Dev) (ctx addr n : Nat) (need : Right) : Option (Nat × Nat) :=
  (d.rangeLines ctx addr n need).find? (fun x => (d.demandRead x.1 x.2 0 0).1 == .poison || (d.demandRead x.1 x.2 0 0).1 == .uncorrectable)

/-- The `k`-th 16-bit word of a byte string. -/
def half (bs : List Byte) (k : Nat) : BitVec 16 := BitVec.ofNat 16 (natOfBytes ((bs.drop (2 * k)).take 2))

/-- The BF16 values of a byte string. -/
def bf16s (bs : List Byte) : List Fp := (List.range (bs.length / 2)).map (fun k => ofBf16 (half bs k))

/-! ## Pieces of lines -/

/-- Bytes to write in an object's page space, gathered line by line. -/
abbrev Patch := Tab (Line × U64)

/-- Add one byte to a patch. -/
def addByte (p : Patch) (a : Nat) (b : Byte) : Patch :=
  tmod p (a / 64) (0, 0) (fun x =>
    (mergeBytes x.1 (BitVec.ofNat 512 (b.toNat * 2 ^ (8 * (a % 64)))) (BitVec.ofNat 64 (2 ^ (a % 64))), putBit x.2 (a % 64) true))

/-- Add bytes from offset `a` upwards. -/
def addBytes (p : Patch) (a : Nat) (bs : List Byte) : Patch :=
  match bs with
  | [] => p
  | b :: rest => addBytes (addByte p a b) (a + 1) rest

/-- Turn a patch into whole lines, reading the lines that it changes in part: the first bad line ends it (R151). -/
def Dev.resolve (d : Dev) (r : Nat) (v : View) (laid : Tab Line) : Patch → (Status × Nat) × Tab Line × Dev
  | [] => ((.ok, 0), laid, d)
  | (l, x, en) :: rest =>
    if en = 0xFFFFFFFFFFFFFFFF then Dev.resolve d r v (tset laid l x) rest
    else
      match tget laid l with
      | some old => Dev.resolve d r v (tset laid l (mergeBytes old x en)) rest
      | none =>
        let (st, old, d1) := d.viewLine r v l
        if st = .ok then Dev.resolve d1 r v (tset laid l (mergeBytes old x en)) rest else ((st, l), laid, d1)

/-- Store the lines of a patch. -/
def Dev.putLines (d : Dev) (r : Nat) (v : View) (ls : Tab Line) : Dev := ls.foldl (fun e x => e.putViewLine r v x.1 (some x.2)) d

/-- The object pages of a byte range. -/
def pagesOf (a n : Nat) : List Nat :=
  if n = 0 then [] else (List.range ((a + n - 1) / pageBytes - a / pageBytes + 1)).map (fun i => a / pageBytes + i)

/-! ## Rows as stored (R77, R78) -/

/-- Pack element codes into a row. -/
def packRow (o : Obj) (codes : List Nat) : List Byte :=
  let e := (fmtOf o.kvFormat).bits
  let v := codes.foldr (fun c acc => c + 2 ^ e * acc) 0
  (List.range o.rowBytes).map (fun i => BitVec.ofNat 8 (v / 2 ^ (8 * i)))

/-- Unpack and dequantise a row with its scales (R102). -/
def unpackRow (o : Obj) (row scales : List Byte) : List Fp :=
  let e := (fmtOf o.kvFormat).bits
  let v := natOfBytes row
  (List.range o.dim).map (fun j => dequant o.kvFormat (v / 2 ^ (e * j) % 2 ^ e) (lgetD scales (j / 32) 0).toNat)

/-- Quantise a row (R101): its bytes and its scale bytes. -/
def quantRow (o : Obj) (vs : List Fp) : List Byte × List Byte :=
  let gs := (chunksOf 32 (o.dim / 32) vs).map (fun g => quantise o.kvFormat g)
  (packRow o (gs.flatMap (fun g => g.2)), gs.map (fun g => BitVec.ofNat 8 g.1))

/-- The pieces that one row writes: (offset in the page space, bytes). `value` picks the value half. -/
def rowPieces (o : Obj) (layer token h : Nat) (value : Bool) (vs : List Fp) : List (Nat × List Byte) :=
  let base := o.kvLocate layer (token / 64) + h * o.headBytes
  let k := token % 64
  let (row, sc) := quantRow o vs
  if value then
    [(base + 64 * o.rowBytes + k * o.rowBytes, row), (base + 128 * o.rowBytes + 2 * o.dim + k * (o.dim / 32), sc)]
  else
    [(base + k * o.rowBytes, row), (base + 128 * o.rowBytes + k * (o.dim / 32), sc)]

/-- Read the first `n` rows of a head segment, keys or values, dequantised. -/
def Dev.readRows (d : Dev) (r : Nat) (v : View) (laid : Tab Line) (o : Obj) (base n : Nat) (value : Bool) :
    (Status × Nat) × List (List Fp) × Dev :=
  let rowAt := base + (if value then 64 * o.rowBytes else 0)
  let scAt := base + 128 * o.rowBytes + (if value then 2 * o.dim else 0)
  let (s1, rows, d1) := d.readView r v laid rowAt (n * o.rowBytes)
  if s1.1 ≠ .ok then (s1, [], d1)
  else
    let (s2, scs, d2) := d1.readView r v laid scAt (n * (o.dim / 32))
    if s2.1 ≠ .ok then (s2, [], d2)
    else
      ((.ok, 0), (List.range n).map (fun t =>
        unpackRow o ((rows.drop (t * o.rowBytes)).take o.rowBytes) ((scs.drop (t * (o.dim / 32))).take (o.dim / 32))), d2)

/-- A summary as stored (R79). -/
def summaryBytes (s : List (BitVec 16) × F32) : List Byte := (s.1.flatMap (bytesOf 2)) ++ bytesOf 4 s.2

/-- Compute the summary of a block of a layer for every head from its stored keys (R80, R107). -/
def Dev.blockSummary (d : Dev) (r : Nat) (v : View) (laid : Tab Line) (o : Obj) (layer block : Nat) :
    Nat → (Status × Nat) × List Byte × Dev
  | 0 => ((.ok, 0), [], d)
  | n + 1 =>
    let h := o.heads - (n + 1)
    let (st, keys, d1) := d.readRows r v laid o (o.kvLocate layer block + h * o.headBytes) 64 false
    if st.1 ≠ .ok then (st, [], d1)
    else
      let (st', rest, d2) := Dev.blockSummary d1 r v laid o layer block n
      (st', summaryBytes (summaryOf o.dim keys) ++ rest, d2)

/-- The summaries of several blocks, as pieces. -/
def Dev.summaries (d : Dev) (r : Nat) (v : View) (laid : Tab Line) (o : Obj) :
    List (Nat × Nat) → (Status × Nat) × List (Nat × List Byte) × Dev
  | [] => ((.ok, 0), [], d)
  | (layer, block) :: rest =>
    let (st, bs, d1) := d.blockSummary r v laid o layer block o.heads
    if st.1 ≠ .ok then (st, [], d1)
    else
      let (st', ps, d2) := Dev.summaries d1 r v laid o rest
      (st', (o.sumLocate layer block, bs) :: ps, d2)

/-! ## KV_APPEND (R81 to R84) -/

/-- The pieces that the rows of a source buffer write. -/
def appendPieces (o : Obj) (start rows first layers : Nat) (src : List Byte) : List (Nat × List Byte) :=
  let row := 2 * o.dim
  let token := 4 * o.heads * o.dim
  (List.range layers).flatMap (fun l =>
    (List.range rows).flatMap (fun t =>
      (List.range o.heads).flatMap (fun h =>
        let base := (l * rows + t) * token
        rowPieces o (first + l) (start + t) h false (bf16s ((src.drop (base + h * row)).take row)) ++
        rowPieces o (first + l) (start + t) h true (bf16s ((src.drop (base + o.heads * row + h * row)).take row)))))

/-- The blocks whose token 63 lies in a range of tokens, for each layer (R80). -/
def completedBlocks (start rows first layers : Nat) : List (Nat × Nat) :=
  (List.range layers).flatMap (fun l =>
    ((List.range (rows / 64 + 2)).map (fun k => start / 64 + k)).filterMap (fun b =>
      if start ≤ 64 * b + 63 ∧ 64 * b + 63 < start + rows then some (first + l, b) else none))

/-- The work of a KV_APPEND up to its stores: the device with every page it writes made exclusive, and the lines that it
stores, or the device with the descriptor ended by the check or the read that failed. A bad source line ends it before the source values
are looked at (DESIGN CHOICE, log entry 78). -/
def Dev.appendLines (j : Job) (d : Dev) : Except Dev (Dev × View × Tab Line) :=
  let x := j.desc
  let (r, i, o) := d.target j
  let start := field x 192 23
  let rows := field x 216 16
  let first := field x 232 8
  let layers := field x 240 8 + 1
  if d.goneWorking j then .error (d.finish j .versionGone)
  else if hSlot (dW0 x) ≠ 0 ∨ o.flat ∨ o.layers < first + layers ∨ o.length < start ∨ o.chunks * 4096 < start + rows then
    .error (d.finish j .format)
  else
    let addr := field x 256 64
    let n := appendBytes o x
    let (st, src, d1) := d.readBytes (dCtx x) addr n
    if st ≠ .ok then .error (d1.engineBad j st (d1.badLine (dCtx x) addr n .r))
    else if (bf16s src).any (fun f => !f.finite) then .error (d1.finish j .format)
    else
      let pieces := appendPieces o start rows first layers src
      let blocks := completedBlocks start rows first layers
      let kvPages := (pieces.flatMap (fun p => pagesOf p.1 p.2.length)).dedup
      let sumPages := (blocks.flatMap (fun b => pagesOf (o.sumLocate b.1 b.2) o.summaryBlockBytes)).dedup
      let (s0, d2) := d1.exclusiveAll r i (kvPages.map (fun p => (p, false)) ++ sumPages.map (fun p => (p, true)))
      if s0.1 ≠ .ok then .error (d2.engineBad j s0.1 (d2.viewFault r (d2.viewOf r o.workingRoot) (1024 * s0.2)))
      else
        let v := d2.viewOf r o.workingRoot
        let patch := pieces.foldl (fun p q => addBytes p q.1 q.2) []
        let (s1, laid, d3) := d2.resolve r v [] patch
        if s1.1 ≠ .ok then .error (d3.engineBad j s1.1 (d3.viewFault r v s1.2))
        else
          let (s2, sums, d4) := d3.summaries r v laid o blocks
          if s2.1 ≠ .ok then .error (d4.engineBad j s2.1 (d4.viewFault r v s2.2))
          else
            let (s3, all, d5) := d4.resolve r v laid (sums.foldl (fun p q => addBytes p q.1 q.2) [])
            if s3.1 ≠ .ok then .error (d5.engineBad j s3.1 (d5.viewFault r v s3.2)) else .ok (d5, v, all)

/-- KV_APPEND. Until its completion is written, what the working version was before is kept for readers dispatched meanwhile (R73). -/
def Dev.kvAppend (j : Job) (d : Dev) : Dev :=
  let (r, i, o) := d.target j
  let before := d.windowHomes r o.workingRoot o o.length
  match d.appendLines j with
  | .error e => e
  | .ok (e, v, all) =>
    let len := if bit j.desc 215 then field j.desc 192 23 + field j.desc 216 16 else o.length
    let e0 := e.putJob { j with before := some (d.workingNow r o) }
    let e1 := ((e0.putLines r v all).modObj r i (fun y => { y with length := len })).moveWindow r i before
    e1.finish ((e1.job j.id).getD j) .ok (BitVec.ofNat 64 len) (BitVec.ofNat 32 (field j.desc 216 16))

/-- Rows of a KV_APPEND that ends early: freely, none of its work is done, or its pages are exclusive and each line that it
stores is, freely, stored or not (Table 14.3). -/
def Dev.partAppend (d : Dev) (j : Job) : Dev :=
  let (w, d0) := d.drawWord
  if bit w 0 then
    match d0.appendLines j with
    | .error _ => d0
    | .ok (e, v, all) =>
      all.foldl (fun f x => let (b, g) := f.drawWord; if bit b 0 then g.putViewLine (d.target j).1 v x.1 (some x.2) else g) e
  else d0

/-- KV_APPEND (R83). -/
def execKvAppend (job : Nat) (s : State) : Host.Outcome State Fault Refusal :=
  devStep (fun d => d.runInTurn job [0x10] Dev.kvAppend) s

/-! ## ATTEND (R85 to R91) -/

/-- The operands of an ATTEND. -/
structure AttendOps where
  layer : Nat
  n : Nat
  g : Nat
  causal : Bool
  select : Bool
  stripes : Nat
  stripe : Nat
  len : Nat
  le : Nat
  qPos : Nat
  topK : Nat
  sinks : Nat
  window : Nat
  scale : F32
deriving DecidableEq, Repr

/-- Read the operands; `len` is the length of the version named (R87, R88). -/
def attendOps (x : Line) (len : Nat) : AttendOps :=
  let l := if field x 224 23 = 0 then len else field x 224 23
  let n := field x 200 4 + 1
  let causal := field x 208 2 == 1
  { layer := field x 192 8, n := n, g := field x 204 4 + 1, causal := causal, select := bit x 210,
    stripes := field x 212 4 + 1, stripe := field x 216 4, len := l,
    le := if causal then min l (field x 256 23 + n) else l,
    qPos := field x 256 23, topK := field x 288 16, sinks := field x 304 8, window := field x 312 8,
    scale := BitVec.ofNat 32 (field x 448 32) }

/-- λ of R87: the local tokens that L needs. -/
def localTokens (a : AttendOps) : Nat :=
  let f := a.len / 4096
  4096 * ((f + a.stripes - 1 - a.stripe) / a.stripes) + (if f % a.stripes = a.stripe then a.len % 4096 else 0)

/-- The local block index of a held global block (R87). -/
def localBlock (a : AttendOps) (b : Nat) : Nat := b / 64 / a.stripes * 64 + b % 64

/-- Insert into a list ordered by score descending, then block ascending (R89). -/
def insertScore (x : Nat × F32) : List (Nat × F32) → List (Nat × F32)
  | [] => [x]
  | y :: rest => if lt32 y.2 x.2 || (!lt32 x.2 y.2 && decide (x.1 < y.1)) then x :: y :: rest else y :: insertScore x rest

/-- Insert into an ascending list. -/
def insertNat (x : Nat) : List Nat → List Nat
  | [] => [x]
  | y :: rest => if x ≤ y then x :: y :: rest else y :: insertNat x rest

/-- The score of a block: the largest bound over the query rows of the head group, NaN ranking first (R89, R105). -/
def blockScore (qs : List (List Fp)) (mu : List Fp) (rad : F32) : F32 :=
  match qs.map (fun q => bound32 q mu rad) with
  | [] => negInf32
  | s :: rest =>
    let m := rest.foldl max32 s
    if isNan32 m then 0x7F800000 else m

/-- Read the summaries of the blocks and score them. -/
def Dev.scoreBlocks (d : Dev) (r : Nat) (v : View) (o : Obj) (a : AttendOps) (h : Nat) (qs : List (List Fp)) :
    List Nat → (Status × Nat) × List (Nat × F32) × Dev
  | [] => ((.ok, 0), [], d)
  | b :: rest =>
    let (st, bs, d1) := d.readView r v [] (o.sumLocate a.layer (localBlock a b) + h * (2 * o.dim + 4)) (2 * o.dim + 4)
    if st.1 ≠ .ok then (st, [], d1)
    else
      let sc := blockScore qs (bf16s (bs.take (2 * o.dim))) (BitVec.ofNat 32 (natOfBytes (bs.drop (2 * o.dim))))
      let (st', xs, d2) := Dev.scoreBlocks d1 r v o a h qs rest
      (st', (b, sc) :: xs, d2)

/-- choose(h) (R89). -/
def Dev.chooseBlocks (d : Dev) (r : Nat) (v : View) (o : Obj) (a : AttendOps) (h : Nat) (qs : List (List Fp)) :
    (Status × Nat) × List Nat × Dev :=
  if a.le = 0 then ((.ok, 0), [], d)
  else
    let last := (a.le - 1) / 64
    let cand := (List.range (last + 1)).filter (fun b => b / 64 % a.stripes == a.stripe)
    if !a.select then ((.ok, 0), cand, d)
    else
      let isFixed := fun (b : Nat) => decide (b < a.sinks) || decide (last < b + a.window) || (b == last && a.le % 64 != 0)
      let (st, sc, d1) := d.scoreBlocks r v o a h qs (cand.filter (fun b => !isFixed b))
      if st.1 ≠ .ok then (st, [], d1)
      else
        let best := ((sc.foldr insertScore []).take a.topK).map (fun x => x.1)
        ((.ok, 0), ((cand.filter isFixed) ++ best).foldr insertNat [], d1)

/-- Read the tokens below Le of the chosen blocks of a head: (global block, key rows, value rows). -/
def Dev.readBlocks (d : Dev) (r : Nat) (v : View) (o : Obj) (a : AttendOps) (h : Nat) :
    List Nat → (Status × Nat) × List (Nat × List (List Fp) × List (List Fp)) × Dev
  | [] => ((.ok, 0), [], d)
  | b :: rest =>
    let base := o.kvLocate a.layer (localBlock a b) + h * o.headBytes
    let n := min 64 (a.le - 64 * b)
    let (s1, ks, d1) := d.readRows r v [] o base n false
    if s1.1 ≠ .ok then (s1, [], d1)
    else
      let (s2, vs, d2) := d1.readRows r v [] o base n true
      if s2.1 ≠ .ok then (s2, [], d2)
      else
        let (st, xs, d3) := Dev.readBlocks d2 r v o a h rest
        (st, (b, ks, vs) :: xs, d3)

/-- The visible tokens of a block for row `i`: (slot, logit, value row) (R88, R106). -/
def visible (a : AttendOps) (q : List Fp) (i : Nat) (blk : Nat × List (List Fp) × List (List Fp)) :
    List (Nat × F32 × List Fp) :=
  (List.range blk.2.1.length).filterMap (fun t =>
    let p := 64 * blk.1 + t
    if p < a.le ∧ (a.causal = false ∨ p ≤ a.qPos + i) then
      some (t, mul32 (dot32 q (lgetD blk.2.1 t [])) a.scale, lgetD blk.2.2 t [])
    else none)

/-- One KV head: its query heads' rows, as (output row, lse) in order of query head and row; and the blocks read. -/
def Dev.attendHead (d : Dev) (r : Nat) (v : View) (o : Obj) (a : AttendOps) (h : Nat) (qs : List (List Fp)) :
    (Status × Nat) × (List (List F32 × F32) × Nat) × Dev :=
  let (s1, bs, d1) := d.chooseBlocks r v o a h qs
  if s1.1 ≠ .ok then (s1, ([], 0), d1)
  else
    let (s2, blks, d2) := d1.readBlocks r v o a h bs
    if s2.1 ≠ .ok then (s2, ([], 0), d2)
    else
      ((.ok, 0), ((List.range qs.length).map (fun k =>
        rowAttend o.dim (blks.map (visible a (lgetD qs k []) (k % a.n)))), bs.length), d2)

/-- Every KV head in ascending order. -/
def Dev.attendAll (d : Dev) (r : Nat) (v : View) (o : Obj) (a : AttendOps) :
    List (Nat × List (List Fp)) → (Status × Nat) × (List (List F32 × F32) × Nat) × Dev
  | [] => ((.ok, 0), ([], 0), d)
  | (h, qs) :: rest =>
    let (s1, (rows, n), d1) := d.attendHead r v o a h qs
    if s1.1 ≠ .ok then (s1, ([], 0), d1)
    else
      let (s2, (rows', n'), d2) := Dev.attendAll d1 r v o a rest
      (s2, (rows ++ rows', n + n'), d2)

/-- Fill a byte string with zeros to `n` bytes. -/
def padTo (n : Nat) (bs : List Byte) : List Byte := bs ++ List.replicate (n - bs.length) 0

/-- ATTEND. A query line that is bad ends it before the query values are looked at, and of several bad lines the first that it reads,
summaries before keys and values, decides the status (DESIGN CHOICE, log entry 78). -/
def Dev.attend (j : Job) (d : Dev) : Dev :=
  let x := j.desc
  let (r, _, o) := d.target j
  match j.snap with
  | none => d.finish j .versionGone
  | some sn =>
    let a := attendOps x sn.length
    if o.flat ∨ o.layers ≤ a.layer ∨ field x 204 4 ≠ o.gqM1 ∨ sn.length < localTokens a then d.finish j .format
    else
      let (st, qb, d1) := d.readBytes (dCtx x) (field x 320 64) (queryBytes o x)
      if st ≠ .ok then d1.engineBad j st (d1.badLine (dCtx x) (field x 320 64) (queryBytes o x) .r)
      else
        let vals := bf16s qb
        if vals.any (fun f => !f.finite) then d1.finish j .format
        else
          let rows := chunksOf o.dim (attendHeads o * a.n) vals
          let groups := (List.range o.heads).map (fun h => (h, (rows.drop (h * a.g * a.n)).take (a.g * a.n)))
          let v := sn.view
          let (s1, (outs, blocks), d2) := d1.attendAll r v o a groups
          if s1.1 ≠ .ok then d2.engineBad j s1.1 (d2.viewFault r v s1.2)
          else
            let body := outs.flatMap (fun p => p.1.flatMap (fun y => if bit x 211 then bytesOf 2 (bf16 (ofF32 y)) else bytesOf 4 y))
            let lse := outs.flatMap (fun p => bytesOf 4 p.2)
            let (wst, d3) := d2.writeBytes (dCtx x) (field x 384 64) (padTo (outTotal o x) (padTo (outBytes o x) body ++ lse))
            if wst = .ok then d3.finish j .ok (BitVec.ofNat 64 a.len) (BitVec.ofNat 32 blocks) else d3.engineBad j wst none

/-- ATTEND (R90). -/
def execAttend (job : Nat) (s : State) : Host.Outcome State Fault Refusal :=
  devStep (fun d => d.runJob job [0x11] Dev.attend) s

/-! ## KV_GATHER (R92, R93) -/

/-- The blocks that a raw gather reads, as (layer, block). -/
def rawBlocks (first layers token n : Nat) : List (Nat × Nat) :=
  (List.range layers).flatMap (fun l => (List.range (n / 64)).map (fun k => (first + l, token / 64 + k)))

/-- Stored blocks, unchanged. -/
def Dev.gatherRaw (d : Dev) (r : Nat) (v : View) (o : Obj) : List (Nat × Nat) → (Status × Nat) × List Byte × Dev
  | [] => ((.ok, 0), [], d)
  | (l, b) :: rest =>
    let (s1, bs, d1) := d.readView r v [] (o.kvLocate l b) o.kvBlockBytes
    if s1.1 ≠ .ok then (s1, [], d1)
    else
      let (s2, bs', d2) := Dev.gatherRaw d1 r v o rest
      (s2, bs ++ bs', d2)

/-- One row, dequantised, as BF16 bytes. -/
def Dev.gatherRow (d : Dev) (r : Nat) (v : View) (o : Obj) (layer token h : Nat) (value : Bool) :
    (Status × Nat) × List Byte × Dev :=
  let base := o.kvLocate layer (token / 64) + h * o.headBytes
  let k := token % 64
  let rowAt := base + (if value then 64 * o.rowBytes else 0) + k * o.rowBytes
  let scAt := base + 128 * o.rowBytes + (if value then 2 * o.dim else 0) + k * (o.dim / 32)
  let (s1, row, d1) := d.readView r v [] rowAt o.rowBytes
  if s1.1 ≠ .ok then (s1, [], d1)
  else
    let (s2, sc, d2) := d1.readView r v [] scAt (o.dim / 32)
    if s2.1 ≠ .ok then (s2, [], d2)
    else ((.ok, 0), (unpackRow o row sc).flatMap (fun f => bytesOf 2 (bf16 f)), d2)

/-- Rows in the layout of R82. -/
def Dev.gatherRows (d : Dev) (r : Nat) (v : View) (o : Obj) :
    List (Nat × Nat × Nat × Bool) → (Status × Nat) × List Byte × Dev
  | [] => ((.ok, 0), [], d)
  | (l, t, h, val) :: rest =>
    let (s1, bs, d1) := d.gatherRow r v o l t h val
    if s1.1 ≠ .ok then (s1, [], d1)
    else
      let (s2, bs', d2) := Dev.gatherRows d1 r v o rest
      (s2, bs ++ bs', d2)

/-- The rows of a gather, in the order of R82. -/
def gatherOrder (o : Obj) (first layers token n : Nat) : List (Nat × Nat × Nat × Bool) :=
  (List.range layers).flatMap (fun l =>
    (List.range n).flatMap (fun t =>
      (List.range o.heads).map (fun h => (first + l, token + t, h, false)) ++
      (List.range o.heads).map (fun h => (first + l, token + t, h, true))))

/-- KV_GATHER. -/
def Dev.kvGather (j : Job) (d : Dev) : Dev :=
  let x := j.desc
  let (r, _, o) := d.target j
  match j.snap with
  | none => d.finish j .versionGone
  | some sn =>
    let token := field x 192 23
    let n := field x 216 16
    let first := field x 232 8
    let layers := field x 240 8 + 1
    if o.flat ∨ sn.length < token + n ∨ o.layers < first + layers then d.finish j .format
    else
      let v := sn.view
      let (s1, bs, d1) :=
        if bit x 215 then d.gatherRaw r v o (rawBlocks first layers token n)
        else d.gatherRows r v o (gatherOrder o first layers token n)
      if s1.1 ≠ .ok then d1.engineBad j s1.1 (d1.viewFault r v s1.2)
      else
        let (wst, d2) := d1.writeBytes (dCtx x) (field x 256 64) bs
        if wst = .ok then d2.finish j .ok 0 (BitVec.ofNat 32 ((bs.length + 63) / 64)) else d2.engineBad j wst none

/-- KV_GATHER (R93). -/
def execKvGather (job : Nat) (s : State) : Host.Outcome State Fault Refusal :=
  devStep (fun d => d.runJob job [0x12] Dev.kvGather) s

/-! ## SUMMARY_REBUILD (R94, R95) -/

/-- The summary lines of the named blocks of one layer, over the object's page space. -/
def namedLines (o : Obj) (layer first n : Nat) : List Nat :=
  ((List.range n).flatMap (fun k => linesOf (o.sumLocate layer (first + k)) o.summaryBlockBytes)).dedup

/-- The blocks of one layer whose summaries share one of the lines. -/
def sharingBlocks (o : Obj) (layer first n : Nat) : List Nat :=
  let ls := namedLines o layer first n
  let c0 := first / 64
  let c1 := (first + n - 1) / 64
  ((List.range ((c1 - c0 + 1) * 64)).map (fun k => c0 * 64 + k)).filter (fun b =>
    (linesOf (o.sumLocate layer b) o.summaryBlockBytes).any (fun l => ls.contains l))

/-- The summaries of blocks, zero where a block is not complete, as pieces. -/
def Dev.rebuildSlots (d : Dev) (r : Nat) (v : View) (o : Obj) :
    List (Nat × Nat) → (Status × Nat) × List (Nat × List Byte) × Dev
  | [] => ((.ok, 0), [], d)
  | (layer, b) :: rest =>
    let (s1, bs, d1) :=
      if 64 * b + 64 ≤ o.length then d.blockSummary r v [] o layer b o.heads
      else (((.ok : Status), 0), List.replicate o.summaryBlockBytes (0 : Byte), d)
    if s1.1 ≠ .ok then (s1, [], d1)
    else
      let (s2, ps, d2) := Dev.rebuildSlots d1 r v o rest
      (s2, (o.sumLocate layer b, bs) :: ps, d2)

/-- SUMMARY_REBUILD. -/
def Dev.summaryRebuild (j : Job) (d : Dev) : Dev :=
  let x := j.desc
  let (r, i, o) := d.target j
  let first := field x 192 16
  let n := field x 208 16
  let layer := field x 224 8
  let layers := field x 232 8 + 1
  if d.goneWorking j then d.finish j .versionGone
  else if hSlot (dW0 x) ≠ 0 ∨ o.flat ∨ o.chunks * 64 < first + n ∨ o.layers < layer + layers then d.finish j .format
  else
    let ls := (List.range layers).map (fun l => layer + l)
    let named := (ls.flatMap (fun l => namedLines o l first n)).dedup
    let slots := ls.flatMap (fun l => (sharingBlocks o l first n).map (fun b => (l, b)))
    let pages := (named.map (fun l => l / 1024)).dedup
    let (s0, d1) := d.exclusiveAll r i (pages.map (fun p => (p, true)))
    if s0.1 ≠ .ok then d1.engineBad j s0.1 (d1.viewFault r (d1.viewOf r o.workingRoot) (1024 * s0.2))
    else
      let v := d1.viewOf r o.workingRoot
      let (s1, ps, d2) := d1.rebuildSlots r v o slots
      if s1.1 ≠ .ok then d2.engineBad j s1.1 (d2.viewFault r v s1.2)
      else
        let patch := ps.foldl (fun p q => addBytes p q.1 q.2) []
        let lines := named.map (fun l => (l, (tgetD patch l (0, 0)).1))
        (d2.putLines r v lines).finish j .ok 0 (BitVec.ofNat 32 slots.length)

/-- SUMMARY_REBUILD (R95). -/
def execSummaryRebuild (job : Nat) (s : State) : Host.Outcome State Fault Refusal :=
  devStep (fun d => d.runInTurn job [0x13] Dev.summaryRebuild) s

end Sys2Proof.Machine
end

