-- ==== Sys2Proof/Machine/Frames.lean ====
section
/-! DEFINITION. What a port sends by itself: frame headers, CONTROL frames, credit counts (R180 to R191). -/

namespace Sys2Proof.Machine

open Sys2Proof

/-- A class's credit return (Table 8.2). -/
def creditRet (l : List CreditCount) (t : Nat) : CreditRet := { tc := t, hdr := (creditOf l t).hdr, data := (creditOf l t).data }

/-- Classes whose freed counts have changed since they were last returned, in rotating order from `crNext` (R191). -/
def Port.changed (p : Port) : List Nat :=
  ((List.range 8).map (fun i => (p.crNext + i) % 8)).filter (fun t => creditOf p.freed t != creditOf p.returned t)

/-- The two classes that the next frame header returns (R191). -/
def Port.returnPair (p : Port) : Nat × Nat :=
  match p.changed with
  | a :: b :: _ => (a, b)
  | [a] => (a, (a + 1) % 8)
  | [] => (p.crNext, (p.crNext + 1) % 8)

/-- The header of the next frame a port sends: acknowledgement, two credit returns, nonce (R186, R188, R191, R200). -/
def Port.frameBase (p : Port) (ftype : Nat) (nak : Bool) : Frame :=
  { ftype := ftype, nak := nak, keyPhase := p.keyPhase, ackValid := p.rxAny, ackSeq := p.rxExp - 1,
    crA := creditRet p.freed p.returnPair.1, crB := creditRet p.freed p.returnPair.2, nonce := p.nonce }

/-- What sending a frame leaves behind: the nonce counts on, the acknowledgement is out, two classes are returned. -/
def Port.afterFrame (p : Port) : Port :=
  let (a, b) := p.returnPair
  { p with
    nonce := p.nonce + 1, keyFrames := p.keyFrames + 1, rxUnacked := 0, crNext := (b + 1) % 8
    returned := lset (lset p.returned a (creditOf p.freed a)) b (creditOf p.freed b) }

/-- Send a CONTROL frame: its slot 0 carries all eight credit returns (R182). -/
def Dev.sendControl (d : Dev) (n : Nat) (nak : Bool) : Dev :=
  let p := d.port n
  let f := { p.frameBase 2 nak with
    control := creditSlot ((List.range 8).map (fun t => ((creditOf p.freed t).hdr.toNat, (creditOf p.freed t).data.toNat))) }
  let d1 := (d.modPort n (fun x => { x.afterFrame with returned := x.freed })).emit (.frame n f (wireFrame n p.txKey f))
  if nak then d1.bump (.swNakTx n) else d1

/-- Whether a class has more than a quarter of its advertised data credits freed and not returned (R191). -/
def Port.returnDue (p : Port) : Bool :=
  (List.range 8).any (fun t =>
    decide ((lgetD p.advInForce t (0, 0)).2 < 4 * ((creditOf p.freed t).data - (creditOf p.returned t).data).toNat))

/-- Whether a packet is next in its class among those that a port's link buffer holds, or is not among them (R181). -/
def Port.rxTurn (x : Port) (p : Packet) : Bool :=
  match (x.rxOld ++ x.rxBuf).find? (fun q => q.tc == p.tc) with
  | some q => q == p || !(x.rxOld ++ x.rxBuf).contains p
  | none => true

/-- Return freed credits that are due: a CONTROL frame, while the port carries frames (R191, Table 8.4). -/
def Dev.returnCredits (d : Dev) (n : Nat) : Dev :=
  if (d.port n).state = .active ∧ (d.port n).returnDue then d.sendControl n false else d

/-- A packet leaves a port's link buffer: its credits are freed (R191). A packet that the link layer has not delivered
brings no credits (log entry 26), nor does one received before the last DOWN, whose credits DOWN reset (R198). -/
def Dev.takeRx (d : Dev) (n : Nat) (p : Packet) : Dev :=
  if (d.port n).rxOld.contains p then d.modPort n (fun x => { x with rxOld := x.rxOld.erase p })
  else if (d.port n).rxBuf.contains p then
    (d.modPort n (fun x => { x with rxBuf := x.rxBuf.erase p, freed := addCredit x.freed p.tc p.units })).returnCredits n
  else d

end Sys2Proof.Machine
end

