-- ==== Sys2Proof/Machine/Integrity.lean ====
section
/-! DEFINITION. Accesses at the memory controllers, device metadata, translation caches, parity upkeep, Transit,
rebuilds, refresh and row disturbance, migrations, promotion and summary-page moves (Chapters 2 and 7). -/

namespace Sys2Proof.Machine

open Sys2Proof

/-! ## Lines that exist (R28) -/

/-- The number of lines of memory unit `m` (R28, R30). -/
def Dev.unitLines (d : Dev) (m : Nat) : Nat := if m < 48 then (d.unit m).slots * slotLines else 18432 * 1024

/-- Whether a memory unit has power: it trained, and a partition holds it or is being given it (R21, R28). -/
def Dev.powered (d : Dev) (m : Nat) : Bool :=
  (d.unit m).trained && !(d.unit m).removed &&
  ((d.unitOwner m).isSome || d.hk.ops.any (fun o => match o.2 with | .addUnit _ x => x == m | _ => false))

/-- Whether requests reach a memory unit: a partition owns it (R20, R21, R266). -/
def Dev.unitServes (d : Dev) (m : Nat) : Bool := (d.unit m).trained && !(d.unit m).removed && (d.unitOwner m).isSome

/-- Whether a trained memory unit has the line. -/
def Dev.lineExists (d : Dev) (m line : Nat) : Bool :=
  (d.unit m).trained && !(d.unit m).removed && decide (line < d.unitLines m)

/-! ## Device metadata (R29, R172) -/

/-- The unit and line of metadata line `idx` in a copy. -/
def Dev.metaLine (d : Dev) (copy1 : Bool) (idx : Nat) : Option (Nat × Nat) :=
  if d.metaPlace.present then
    ((if copy1 then d.metaPlace.copy1 else d.metaPlace.copy0)[idx / slotLines]?).map
      (fun x => (x.1, x.2 * slotLines + idx % slotLines))
  else none

/-- The copy and the metadata line that a line of a unit holds. -/
def Dev.metaIndex (d : Dev) (m line : Nat) : Option (Bool × Nat) :=
  let at_ := fun (l : List (Nat × Nat)) => l.findIdx? (fun x => x.1 == m && x.2 == line / slotLines)
  if d.metaPlace.present then
    match at_ d.metaPlace.copy0 with
    | some i => some (false, i * slotLines + line % slotLines)
    | none => (at_ d.metaPlace.copy1).map (fun i => (true, i * slotLines + line % slotLines))
  else none

/-- The 64-byte line of 32-bit or wider entries, entry 0 lowest (R5). -/
def packLine (width : Nat) (es : List Nat) : Line :=
  BitVec.ofNat 512 ((es.mapIdx (fun i e => e % 2 ^ width * 2 ^ (width * i))).sum)

/-- An entry of a region's parity list (Table 7.7): the parity extent, and seven 16-bit member indices of which 0xFFFF is none. -/
def parityEntry (g : ParityGroup) : Nat :=
  (extentWord g.parity).toNat +
  (((List.range 7).map (fun i => ((g.members[i]?).getD 0xFFFF) % 65536 * 2 ^ (32 + 16 * i))).sum)

/-- Line `off` of an extent list (Table 2.3, 16 entries a line) with the parity list that follows it (Table 7.7, two entries a line). -/
def listLine (es : List Extent) (gs : List ParityGroup) (off : Nat) : Line :=
  let n := (es.length + 15) / 16
  if off < n then packLine 32 (((es.drop (16 * off)).take 16).map (fun e => (extentWord e).toNat))
  else packLine 256 (((gs.drop (2 * (off - n))).take 2).map parityEntry)

/-- The region whose extent list or parity list metadata line `idx` holds, with the line itself (R32, R163). -/
def Dev.metaList (d : Dev) (idx : Nat) : Option (Nat × Line) :=
  d.regions.findSome? (fun x =>
    let r := x.2
    let within := fun (a : Nat) (es : List Extent) (gs : List ParityGroup) => decide (a ≤ idx) && decide (idx < a + listLines es.length gs.length)
    if within r.listLine r.extents r.parity then some (x.1, listLine r.extents r.parity (idx - r.listLine))
    else if r.migrating && within r.newListLine r.newExtents r.newParity then some (x.1, listLine r.newExtents r.newParity (idx - r.newListLine))
    else none)

/-- The header of a metadata copy (R384, Table 16.4). -/
def Dev.metaHeader (d : Dev) (copy1 : Bool) : Line :=
  let p := d.metaPlace
  let unit := fun (l : List (Nat × Nat)) => (l.headD (0, 0)).1
  let mine := if copy1 then p.copy1 else p.copy0
  let body : BitVec 384 := BitVec.ofNat 384 (packBits ([ (0, 32, 0x46525948), (32, 4, 1), (36, 5, p.k), (41, 1, copy1.toNat), (48, 7, unit mine),
    (56, 7, unit (if copy1 then p.copy0 else p.copy1)), (64, 64, p.seq.toNat) ] ++ (mine.take p.k).mapIdx (fun i x => (128 + 10 * i, 10, x.2))))
  body.setWidth 512 ||| ((Config.headerTag Config.metadataKeys body).setWidth 512 <<< 384)

/-- What metadata line `idx` holds: a copy's header, a line of a region's lists, as its record says, or what METADATA_WRITE stored. -/
def Dev.metaData (d : Dev) (idx m line : Nat) : Line :=
  if idx = 0 then d.metaHeader ((d.metaIndex m line).any (fun x => x.1))
  else match d.metaList idx with
    | some (_, w) => w
    | none => d.pool.data m line

/-- What the controllers make of metadata line `idx` in one copy, by the first rows of Table 7.2: its data and whether it is to be
rewritten, or nothing where it is uncorrectable twice. Poison in metadata is as bad as an uncorrectable word. -/
def Dev.metaProbe (d : Dev) (idx m line : Nat) (x : BitVec 640) : Option (Line × Bool) × Dev :=
  let w := d.metaData idx m line
  let near := decide (48 ≤ m)
  if (d.unit m).dead then (none, d)
  else match classify near (d.pool.fault m line) x with
    | .valid => (some (w, false), d)
    | .corrected pos => (some (w, true), d.logCorrection m line pos 0)
    | .poison => (none, d.bump .diPoisonReads)
    | .wrong => let (v, e) := d.drawLine; (some (v, false), e)
    | .miscorrected => let (v, e) := d.miscorrect m line 0; (some (v, true), e)
    | .uncorrectable =>
      match classify near (d.pool.fault m line) 0 with
      | .valid => (some (w, false), (d.bump .diTransient).logTransient m line)
      | .corrected pos => (some (w, true), (d.bump .diTransient).logCorrection m line pos 2)
      | .poison => (none, d.bump .diPoisonReads)
      | .wrong => let (v, e) := (d.bump .diTransient).drawLine; (some (v, false), e)
      | .miscorrected => let (v, e) := (d.bump .diTransient).miscorrect m line 2; (some (v, true), e)
      | .uncorrectable => (none, d.bump .diUeTotal)

/-- The number by which an event names a metadata structure: its kind by the rows of Table 14.4, and its own number (log entry
38). -/
def metaCode (x : MetaStruct) : U64 :=
  let w := fun (k a b : Nat) => BitVec.ofNat 64 (packBits [(0, 8, k), (8, 24, a), (32, 32, b)])
  match x with
  | .region r => w 0 r 0
  | .object r i => w 1 r i
  | .pageCount r p => w 2 r p
  | .lease l => w 3 l 0
  | .queue q => w 4 q 0
  | .context c => w 5 c 0
  | .window n => w 6 n 0
  | .rankTable j => w 7 j 0
  | .wrappedKey p => w 8 p 0
  | .pair => w 9 0 0

/-- Write a metadata line to both copies (R172). -/
def Dev.metaWrite (d : Dev) (idx : Nat) (data : Line) : Dev :=
  match d.metaLine false idx, d.metaLine true idx with
  | some a, some b => { d with pool := (d.pool.store a.1 a.2 data).store b.1 b.2 data }
  | _, _ => d

/-- METADATA_WRITE: the line goes to both mirror copies, and is acknowledged when both have it. -/
def execMetadataWrite (idx : Nat) (data : Line) (s : State) : Host.Outcome State Fault Refusal :=
  liveStep (fun d => d.guard ((d.metaLine false idx).isSome && (d.metaLine true idx).isSome)
    (fun e => (e.metaWrite idx data).emit (.lineAck .ok))) s

/-- Read metadata line `idx` for quadrant `q`: the copy of that quadrant, or copy 0; a copy that is correctable is
rewritten, and one that is not is read from the other, and both are rewritten. Nothing, where both are bad (R172). -/
def Dev.metaRead (d : Dev) (idx q : Nat) (x0 x1 : BitVec 640) : Option (Option Line × Dev) :=
  match d.metaLine false idx, d.metaLine true idx with
  | some a, some b =>
    let first1 := decide (a.1 / 12 ≠ q) && decide (b.1 / 12 = q)
    let (p, xp, o, xo) := if first1 then (b, x1, a, x0) else (a, x0, b, x1)
    match d.metaProbe idx p.1 p.2 xp with
    | (some (w, fix), d1) => some (some w, if fix then { d1 with pool := d1.pool.store p.1 p.2 w } else d1)
    | (none, d1) =>
      match d1.metaProbe idx o.1 o.2 xo with
      | (some (w, _), d2) => some (some w, d2.metaWrite idx w)
      | (none, d2) => some (none, d2)
  | _, _ => none

/-- A metadata line that neither copy gives: METADATA_LOST, with the region whose list it held, and Huanik's next round acts on it
(R172, R345). -/
def Dev.metaGone (d : Dev) (idx m line : Nat) : Dev :=
  let held := (d.metaList idx).map (fun x => x.1)
  let part := held.bind (fun r => (tget d.regions r).map Region.partition)
  { d with lostMeta := d.lostMeta ++ (held.map MetaStruct.region).toList }.raise
    { code := .metadataLost, part := part, unit := some (memUnitRef m), loc := some (d.loc m line)
      detail1 := held.map (fun r => metaCode (.region r)) }

/-! ## Line accesses (R148, R150, R151, R153, R343) -/

/-- Whether a slot is in raw diagnostic mode (R176). -/
def Dev.isRaw (d : Dev) (m line : Nat) : Bool := d.pool.rawExtents.any (fun e => extIs e m (line / slotLines))

/-- The line that serves a line of a slot under rebuild (Table 7.9): below the cursor, that of the spare slot. -/
def Dev.lineServed (d : Dev) (m line : Nat) : Nat × Nat := d.groupLine (lineExtent m line) (line % slotLines)

/-- Whether a write to a line waits for a page copy of the region that it serves (Table 2.7, Table 7.9), and the extent that it moves to
the front of its rebuild. -/
def Dev.lineHeld (d : Dev) (m line : Nat) : Bool × Option (Nat × Nat) :=
  match d.slotRegion m (line / slotLines) with
  | some (_, reg, new, i) =>
    let off := reg.offsetOf new i (64 * (line % slotLines))
    if reg.migrating && reg.useNew off != new then (false, none) else d.pageHeld reg off
  | none => (false, none)

/-- The near-tier window copy that a line belongs to: the unit and line of its home (R39, R149). -/
def Dev.windowHome (d : Dev) (m line : Nat) : Option (Nat × Nat) :=
  if m < 48 then none
  else d.seqPages.findSome? (fun x =>
    (x.2.windows.find? (fun w => w.2 == (m - 48) * 18432 + line / 1024)).bind (fun w =>
      (tget d.regions x.1).bind (fun reg => d.place reg (w.1 * pageBytes + 64 * (line % 1024)))))

/-- A demand read of a line that is a window copy: where it reads as POISON or UNCORRECTABLE it is read again from its home, and the
copy is rewritten from the home; the home's status alone is returned (R149). -/
def Dev.copyRead (d : Dev) (m line : Nat) (x1 x2 : BitVec 640) : Status × Line × Dev :=
  let (st, w, e) := d.demandRead m line x1 x2
  match (if st = .poison ∨ st = .uncorrectable then e.windowHome m line else none) with
  | some h =>
    let (st', v, e1) := e.demandRead h.1 h.2 0 0
    (st', v, if st' = .ok then e1.putLine m line v else { e1 with pool := e1.pool.poisonLine m line })
  | none => (st, w, e)

/-- The stored word of a line. A line that RAW_WRITE has not written holds whatever was stored last (R177). -/
def Dev.rawStored (d : Dev) (m line : Nat) : BitVec 640 :=
  let near := decide (48 ≤ m)
  match tget d.pool.raw (lineKey m line) with
  | some (data, check) => codeword near data check
  | none =>
    let f := d.pool.fault m line
    (if f.poison then Config.poisonPattern near
     else codeword near (d.storedField m line) (Config.checkBits near (d.storedField m line))) ^^^ f.mask

/-- Whether a line lies in a slot not yet cleared under the present key, so that it is never decrypted, and requests for it wait for Shutter
(R265, R267). -/
def Dev.awaitsClear (d : Dev) (m line : Nat) : Bool :=
  let slot := line / slotLines
  !(d.unit m).cleared.contains slot && !d.metaAll.contains (m, slot) && !d.isRaw m line

/-- A request waits at its controller. -/
def Dev.hold (d : Dev) (m : Nat) (q : HeldReq) : Dev := (d.modUnit m (fun u => { u with held := u.held ++ [q] })).emit .lineWaits

/-- A read at the controller of a line. No request reaches a unit of no partition (R20, R21). -/
def Dev.lineRead (d : Dev) (m line : Nat) (x1 x2 : BitVec 640) : Dev :=
  if !d.unitServes m then d
  else if d.awaitsClear m line || d.mustWait m line false then d.hold m (.read line x1 x2)
  else
    let d1 := d.activate m line
    let y := d1.lineServed m line
    if d1.isRaw m line then d1.emit (.line .ok ((d1.rawStored m line).setWidth 512))
    else
      match d1.metaIndex m line with
      | some (c1, idx) =>
        match d1.metaRead idx (m / 12) (if c1 then 0 else x1) (if c1 then x1 else 0) with
        | some (some w, e) => e.emit (.line .ok w)
        | some (none, e) => (e.metaGone idx m line).emit (.line .uncorrectable 0)
        | none => d1
      | none =>
        let (st, w, e) := d1.copyRead y.1 y.2 x1 x2
        if st = .ok ∧ e.parityUnknown y.1 y.2 = true then
          let (v, e1) := e.drawLine
          e1.emit (.line .ok v)
        else e.emit (.line st w)

/-- LINE_READ: a demand read at the controller of a line. -/
def execLineRead (m line : Nat) (d1 d2 : BitVec 640) (s : State) : Host.Outcome State Fault Refusal :=
  if s.dev.lineExists m line then liveStep (fun d => d.lineRead m line d1 d2) s else .fault .absentLine

/-- Put a line into effect at its controller: a metadata line goes to both copies (R172), any other to the place that serves it. -/
def Dev.lineStore (d : Dev) (m line : Nat) (data : Line) : Dev :=
  match d.metaIndex m line with
  | some (_, idx) => d.metaWrite idx data
  | none => d.putLine (d.lineServed m line).1 (d.lineServed m line).2 data

/-- A full-line write at the controller of a line; a line in raw mode gets no check bits of its own. -/
def Dev.lineWrite (d : Dev) (m line : Nat) (data : Line) : Dev :=
  let (held, front) := d.lineHeld m line
  if !d.unitServes m then d
  else if held || d.awaitsClear m line || d.mustWait m line true then
    { d with rebuilds := front.toList.foldl toFront d.rebuilds }.hold m (.write line data)
  else
    let d1 := d.activate m line
    if d1.isRaw m line then
      let (w, e) := d1.drawWord
      { e with pool := { e.pool with raw := tset e.pool.raw (lineKey m line) (data, w.setWidth 128) } }.emit (.lineAck .ok)
    else (d1.lineStore m line data).emit (.lineAck .ok)

/-- LINE_WRITE: a full-line write, which clears poison and updates parity. -/
def execLineWrite (m line : Nat) (data : Line) (s : State) : Host.Outcome State Fault Refusal :=
  if s.dev.lineExists m line then liveStep (fun d => d.lineWrite m line data) s else .fault .absentLine

/-- A read-modify-write at the controller of a line (R151); in raw mode the stored data bytes are merged, without check bits. -/
def Dev.lineMerge (d : Dev) (m line : Nat) (data : Line) (en : U64) (x1 x2 : BitVec 640) : Dev :=
  let (held, front) := d.lineHeld m line
  if !d.unitServes m then d
  else if held || d.awaitsClear m line || d.mustWait m line true then
    { d with rebuilds := front.toList.foldl toFront d.rebuilds }.hold m (.rmw line data en x1 x2)
  else
    let d1 := d.activate m line
    let y := d1.lineServed m line
    if d1.isRaw m line then
      let (w, e) := d1.drawWord
      let new := mergeBytes ((d1.rawStored m line).setWidth 512) data en
      { e with pool := { e.pool with raw := tset e.pool.raw (lineKey m line) (new, w.setWidth 128) } }.emit (.lineAck .ok)
    else match d1.metaIndex m line with
      | some (c1, idx) =>
        match d1.metaRead idx (m / 12) (if c1 then 0 else x1) (if c1 then x1 else 0) with
        | some (some w, e) => (e.metaWrite idx (mergeBytes w data en)).emit (.lineAck .ok)
        | some (none, e) => (e.metaGone idx m line).emit (.lineAck .uncorrectable)
        | none => d1
      | none =>
        let (st, old, e) := d1.demandRead y.1 y.2 x1 x2
        if st = .ok then (e.putLine y.1 y.2 (mergeBytes old data en)).emit (.lineAck .ok) else e.emit (.lineAck st)

/-- READ_MODIFY_WRITE: the enabled bytes are merged into the line, or none is written and the read's status is
answered. -/
def execReadModifyWrite (m line : Nat) (data : Line) (en : U64) (d1 d2 : BitVec 640) (s : State) :
    Host.Outcome State Fault Refusal :=
  if s.dev.lineExists m line then liveStep (fun d => d.lineMerge m line data en d1 d2) s else .fault .absentLine

/-- Requests that waited at a unit go on, in arrival order; those that must still wait do. -/
def Dev.release (d : Dev) (m : Nat) (held : List HeldReq) : Dev :=
  held.foldl (fun e q =>
    match q with
    | .read line x1 x2 => e.lineRead m line x1 x2
    | .write line data => e.lineWrite m line data
    | .rmw line data en x1 x2 => e.lineMerge m line data en x1 x2) d

/-- The requests that wait at unit `m` are tried again. -/
def Dev.retryHeld (d : Dev) (m : Nat) : Dev :=
  if (d.unit m).held = [] then d else (d.modUnit m (fun u => { u with held := [] })).release m (d.unit m).held

/-! ## Translation caches (R15) -/

/-- The translation cache of a port: 0 to 31 Swearis, 32 to 35 CXL. -/
def Dev.transOf (d : Dev) (port : Nat) : List TransEntry := if port < 32 then (d.port port).trans else tgetD d.cxlTrans (port - 32) []

/-- Set the translation cache of a port. -/
def Dev.setTrans (d : Dev) (port : Nat) (l : List TransEntry) : Dev :=
  if port < 32 then d.modPort port (fun p => { p with trans := l }) else { d with cxlTrans := tset d.cxlTrans (port - 32) l }

/-- Keep only the translation entries, on every port, that satisfy `f`: invalidation (R15). -/
def Dev.keepTrans (d : Dev) (f : TransEntry → Bool) : Dev :=
  { d with
    ports := d.ports.map (fun p => (p.1, { p.2 with trans := p.2.trans.filter f }))
    cxlTrans := d.cxlTrans.map (fun (x : Nat × List TransEntry) => (x.1, x.2.filter f)) }

/-- The partition of a cached translation. -/
def Dev.transPart (d : Dev) (e : TransEntry) : Nat := (d.context e.ctx).partition

/-- The cache with one entry replaced, for partition `p`: the least recently used entry of a partition that holds more
than its 64 guaranteed entries, or of `p` itself. -/
def Dev.evictTrans (d : Dev) (p : Nat) (l : List TransEntry) : List TransEntry :=
  let n := fun (x : Nat) => (l.filter (fun e => d.transPart e == x)).length
  match l.reverse.findIdx? (fun e => decide (64 < n (d.transPart e)) || (d.transPart e == p && decide (64 ≤ n p))) with
  | some i => (l.reverse.eraseIdx i).reverse
  | none => l.dropLast

/-- An access of a context at a port looks its extent up in the port's translation cache (R15): a hit makes the entry the one used last; a
miss reads a line of the extent table, in the port's own quadrant, and installs the entry. -/
def Dev.transFill (d : Dev) (port ctx addr : Nat) : Dev :=
  let c := d.context ctx
  match (if c.valid then segOf c addr else none) with
  | none => d
  | some s =>
    if s.kind = .region then
      match tget d.regions s.targetId with
      | none => d
      | some r =>
        let off := s.targetOff + (addr - s.base)
        let new := r.useNew off
        let idx := (if new then decomposeIdx (grainBytes r.grainM8) r.newWidth r.newSalt.toNat off
          else decomposeIdx (grainBytes r.grainM8) r.width r.salt.toNat off).1
        let e : TransEntry := { ctx := ctx, region := s.targetId, ext := idx }
        let l := d.transOf port
        if l.contains e then d.setTrans port (e :: l.erase e)
        else
          let row := (if new then r.newListLine else r.listLine) + idx / 16
          let d1 := match d.metaRead row (if port < 32 then port / 8 else port - 32) 0 0 with
            | some (some _, x) => x
            | some (none, x) => let a := (d.metaLine false row).getD (0, 0); x.metaGone row a.1 a.2
            | none => d
          d1.setTrans port (e :: (if 4096 ≤ l.length then d.evictTrans c.partition l else l))
    else d

/-- TRANSLATION_CACHE_FILL. -/
def execTranslationCacheFill (port ctx : Nat) (addr : Nat) (s : State) : Host.Outcome State Fault Refusal :=
  liveStep (fun d => d.transFill port ctx addr) s

/-! ## Parity ranges (R165) -/

/-- Change parity group `g` of a region, numbered over the groups of its old and new placement. -/
def Dev.modGroupOf (d : Dev) (region g : Nat) (f : ParityGroup → ParityGroup) : Dev :=
  match tget d.regions region with
  | none => d
  | some r =>
    { d with regions := tset d.regions region { r with
        parity := r.parity.mapIdx (fun i x => if i = g then f x else x)
        newParity := r.newParity.mapIdx (fun i x => if r.parity.length + i = g then f x else x) } }

/-- Parity group `g` of a region. -/
def Dev.groupOf (d : Dev) (region g : Nat) : Option ParityGroup :=
  (tget d.regions region).bind (fun r => (r.groups[g]?).map (fun x => x.1))

/-- PARITY_RANGE_CLEAN: one second after its last write a stale range is marked clean. -/
def execParityRangeClean (region group range : Nat) (s : State) : Host.Outcome State Fault Refusal :=
  liveStep (fun d =>
    match d.groupOf region group with
    | some g =>
      match tget g.stale range with
      | some t =>
        if g.unprotected.contains range then d
        else (d.reach (t + 1000000000)).modGroupOf region group (fun x => { x with stale := terase x.stale range })
      | none => d
    | none => d) s

/-- The parity of a 64 KiB range is made anew from the members as stored: a member line that is uncorrectable becomes poison, and the
parity lines are rewritten (R164, R165). -/
def Dev.recomputeRange (d : Dev) (region g range : Nat) : Dev :=
  match (tget d.regions region).bind (fun r => r.groups[g]?) with
  | none => d
  | some x => (List.range 1024).foldl (fun e i => { e with pool := e.reformParity x.1 (groupExtents x) (range * 1024 + i) }) d

/-- PARITY_RECOMPUTE_DONE: the parity of a stale range has been recomputed after a reset, and the range is protected. -/
def execParityRecomputeDone (region group range : Nat) (s : State) : Host.Outcome State Fault Refusal :=
  liveStep (fun d =>
    match d.groupOf region group with
    | some g =>
      d.guard (g.unprotected.contains range) (fun e => (e.recomputeRange region group range).modGroupOf region group (fun x => { x with
        stale := terase x.stale range
        unprotected := x.unprotected.filter (fun i => i != range) }))
    | none => d) s

/-! ## Transit (R158 to R161) -/

/-- Whether Transit runs on a unit: it is trained and alive, belongs to a partition, is neither rebuilt nor retrained, and
the device is not in Dome. -/
def Dev.transitRuns (d : Dev) (m : Nat) : Bool :=
  (d.unit m).trained && !(d.unit m).removed && (d.unitOwner m).isSome && (d.unit m).retrain.isNone && !(d.unit m).dead &&
  !d.sys.inDome &&
  !d.rebuilds.any (fun r => r.unit == m)

/-- The pass time in ns. -/
def Dev.passTime (d : Dev) : Nat := (d.param 0x0010 0).toNat * 3600000000000

/-- TRANSIT_PASS_START: the next pass begins at the end of the present pass's time, or at once if it was overdue. -/
def execTransitPassStart (m : Nat) (s : State) : Host.Outcome State Fault Refusal :=
  liveStep (fun d =>
    let u := d.unit m
    d.guard (d.transitRuns m && u.passDone) (fun e =>
      let e1 := if u.overdue then e else e.reach (u.passStart + e.passTime)
      e1.modUnit m (fun v => { v with
        transitLine := 0, transitPass := v.transitPass + 1, passStart := e1.now, passDone := false, overdue := false, shareTenths := 0 }))) s

/-- Whether a slot is one of a subchannel's spare slots. -/
def Dev.isSpare (d : Dev) (m slot : Nat) : Bool :=
  decide (m < 48) && (match d.unitOwner m with
    | some p => decide (d.spareFrom p m ≤ slot) && decide (slot < (d.unit m).slots) && !d.spareUsed.contains (m, slot)
    | none => false)

/-- An uncorrectable line as a check finds it (Table 7.5). -/
def Dev.scrubBad (d : Dev) (m line : Nat) : Dev :=
  let d1 := d.bump .diUeTotal
  match d1.metaIndex m line with
  | some (c1, idx) =>
    match d1.metaLine (!c1) idx with
    | some o =>
      match d1.metaProbe idx o.1 o.2 0 with
      | (some (w, _), d2) => d2.metaWrite idx w
      | (none, d2) => d2.metaGone idx m line
    | none => d1
  | none =>
    if d1.canReconstruct m line then
      let (w, d2) := d1.reconstruct m line
      let d3 := { d2 with pool := if (d2.pool.fault m line).poison then d2.pool.poisonLine m line else d2.pool.store m line w }
      (d3.bump .diUeRecon).raise (d3.lineEvent .ueReconstructed (d3.unitOwner m) m line)
    else if d1.isSpare m (line / slotLines) then { d1 with pool := d1.pool.clear m line 1 }
    else
      let d2 := if d1.holdsParity m line then { d1 with pool := d1.pool.poisonLine m line } else d1.giveUpLine m line
      d2.raise (d2.lineEvent .ueScrub (d2.unitOwner m) m line)

/-- Check one line: correct it in place, or act on an uncorrectable one (R159, Table 7.5). -/
def Dev.scrubLine (d : Dev) (m line : Nat) (x1 x2 : BitVec 640) : Dev :=
  let near := decide (48 ≤ m)
  let f := d.pool.fault m line
  let fix := fun (e : Dev) (pos src : Nat) =>
    let e1 := e.logCorrection m line pos src
    { e1 with pool := e1.pool.setFault m line {} }
  let mis := fun (e : Dev) (src : Nat) =>
    let (w, e1) := e.miscorrect m line src
    { e1 with pool := e1.pool.store m line w }
  if d.isRaw m line then d
  else match classify near f x1 with
    | .valid | .poison | .wrong => d
    | .corrected pos => fix d pos 1
    | .miscorrected => mis d 1
    | .uncorrectable =>
      match classify near f x2 with
      | .valid => (d.bump .diTransient).logTransient m line
      | .corrected pos => fix (d.bump .diTransient) pos 2
      | .miscorrected => mis (d.bump .diTransient) 2
      | .poison => d
      | .wrong => d.bump .diTransient
      | .uncorrectable => d.scrubBad m line

/-- TRANSIT_LINE_CHECK: Transit checks the line of its cursor and moves on; the last line of the unit ends the pass. -/
def execTransitLineCheck (m : Nat) (d1 d2 : BitVec 640) (s : State) : Host.Outcome State Fault Refusal :=
  liveStep (fun d => d.guard (d.transitRuns m && !(d.unit m).passDone) (fun e =>
    let line := (e.unit m).transitLine
    (e.scrubLine m line d1 d2).modUnit m (fun u => { u with
      transitLine := line + 1
      passDone := decide (e.unitLines m ≤ line + 1)
      shareTenths := if e.unitLines m ≤ line + 1 then 0 else u.shareTenths }))) s

/-- The next escalation of a pass: the percentage of the pass time at which it comes, and the share in tenths of a per
cent (Table 7.6). -/
def nextShare (share : Nat) : Option (Nat × Nat) :=
  if share < 5 then some (50, 5) else if share < 10 then some (75, 10) else if share < 20 then some (90, 20)
  else if share < 50 then some (100, 50) else none

/-- TRANSIT_ESCALATE: at the next threshold of its pass an unfinished unit gets its share; at the end of the pass time
SCRUB_OVERDUE is raised once. -/
def execTransitEscalate (m : Nat) (s : State) : Host.Outcome State Fault Refusal :=
  liveStep (fun d =>
    let u := d.unit m
    d.guard (d.transitRuns m && !u.passDone) (fun e =>
      match nextShare u.shareTenths with
      | none => e
      | some (pct, share) =>
        let e1 := (e.reach (u.passStart + e.passTime * pct / 100)).modUnit m (fun v => { v with
          shareTenths := share, overdue := v.overdue || pct == 100 })
        if pct = 100 then e1.raise (e1.lineEvent .scrubOverdue (e1.unitOwner m) m u.transitLine) else e1)) s

/-! ## The hour of the correction rate (R156) -/

/-- Insert a number into a rising list. -/
def insertUp (x : Nat) : List Nat → List Nat
  | [] => [x]
  | y :: r => if x ≤ y then x :: y :: r else y :: insertUp x r

/-- Twice the median of a list of numbers: twice the middle one, or the sum of the two middle ones (log entry 28). -/
def medianTwice (l : List Nat) : Nat :=
  let s := l.foldl (fun acc x => insertUp x acc) []
  if s = [] then 0 else lgetD s ((s.length - 1) / 2) 0 + lgetD s (s.length / 2) 0

/-- CE_RATE_HOUR_ROLLOVER: the new-location counts restart, and their medians set the next hour's threshold. -/
def execCeRateHourRollover (s : State) : Host.Outcome State Fault Refusal :=
  liveStep (fun d =>
    let e := d.reach (d.hourStart + 3600000000000)
    let last := fun (near : Bool) =>
      (e.units.filter (fun u => u.2.trained && decide (48 ≤ u.1) == near)).map (fun u => (e.count (.diUnitNew u.1)).toNat)
    { e with
      hourStart := e.now
      peerMedian := (medianTwice (last false), medianTwice (last true))
      ctr := (List.range 112).foldl (fun c m => if ctrGet c (.diUnitNew m) = 0 then c else ctrPut c (.diUnitNew m) 0) e.ctr
      units := e.units.map (fun u => (u.1, { u.2 with rateAlarm := false })) }) s

/-! ## Slots that Shutter clears (R259, R265, R267) -/

/-- Slots of a unit that Shutter clears: all but metadata slots, and the tail of a pseudo-channel as slot 4. -/
def Dev.shutterSlots (d : Dev) (m : Nat) : List Nat :=
  (List.range (if m < 48 then (d.unit m).slots else 5)).filter (fun e => !d.metaAll.contains (m, e))

/-- Slots of a unit not yet cleared under the present key. -/
def Dev.uncleared (d : Dev) (m : Nat) : List Nat := (d.shutterSlots m).filter (fun e => !(d.unit m).cleared.contains e)

/-- Whether Shutter has cleared every slot of a unit at least once under the present key. -/
def Dev.clearedOnce (d : Dev) (m : Nat) : Bool :=
  (d.shutterSlots m).all (fun e => tget (d.unit m).slotDraw e == some (d.unit m).key.draw)

/-- `clearing` of partition `p` says whether some owned subchannel slot is not yet cleared under the present key (Table 11.1). -/
def Dev.settleClearing (d : Dev) (p : Option Nat) : Dev :=
  match p with
  | none => d
  | some n =>
    let x := d.partn n
    let c := (bitsOf x.subchannels).any (fun u => !d.clearedOnce u)
    if x.state != .free && x.clearing != c then d.setPart n (fun y => { y with clearing := c }) else d

/-! ## Rebuild (R167 to R171) -/

/-- COMMAND_DONE of a long command (R295). -/
def Dev.commandDone (d : Dev) (op : Option Nat) (part : Option Nat) (st : Status) : Dev :=
  match op with
  | none => d
  | some n =>
    ({ d with hk := { d.hk with ops := d.hk.ops.filter (fun x => x.1 != n) } }).raise
      { code := .commandDone, part := part, detail0 := some (BitVec.ofNat 64 n), detail1 := some (statusWord st) }

/-- A list of extents with slot (m, slot) replaced. -/
def swapExtent (es : List Extent) (m slot v f : Nat) : List Extent :=
  es.map (fun (e : Extent) => if extIs e m slot then extentOf v f else e)

/-- Serve slot (m, slot) from slot (v, f) in every list, and invalidate the translations of regions that it serves. -/
def Dev.moveSlot (d : Dev) (m slot v f : Nat) : Dev :=
  let hit := d.regions.filter (fun x => (extIndex x.2.extents m slot).isSome || (extIndex x.2.newExtents m slot).isSome)
  let grp := fun (g : ParityGroup) => { g with parity := if extIs g.parity m slot then extentOf v f else g.parity }
  let sw := fun (l : List (Nat × Nat)) => l.map (fun (x : Nat × Nat) => if x == (m, slot) then (v, f) else x)
  let d1 : Dev := { d with
    regions := d.regions.map (fun x => (x.1, { x.2 with
      extents := swapExtent x.2.extents m slot v f
      newExtents := swapExtent x.2.newExtents m slot v f
      dirExtents := swapExtent x.2.dirExtents m slot v f
      parity := x.2.parity.map grp
      newParity := x.2.newParity.map grp }))
    metaPlace := { d.metaPlace with copy0 := sw d.metaPlace.copy0, copy1 := sw d.metaPlace.copy1 } }
  d1.keepTrans (fun e => !hit.any (fun x => x.1 == e.region && (match x.2.extents[e.ext]?, x.2.newExtents[e.ext]? with
        | some a, some b => extIs a m slot || extIs b m slot
        | some a, none => extIs a m slot
        | none, some b => extIs b m slot
        | none, none => false)))

/-- Copy one line of a rebuild (Table 7.8): corrected and logged, reconstructed, or written as poison. -/
def Dev.rebuildLine (d : Dev) (m line m' line' : Nat) : Dev :=
  let put := fun (e : Dev) (w : Line) => { e with pool := e.pool.store m' line' w }
  let bad := fun (e : Dev) => { e with pool := e.pool.poisonLine m' line' }
  let f := d.pool.fault m line
  if (d.unit m).dead then
    if f.poison then bad d
    else if d.canReconstruct m line then let (w, e) := d.reconstruct m line; put e w
    else bad d
  else match classify false f 0 with
    | .valid => put d (d.pool.data m line)
    | .corrected pos => let e := d.logCorrection m line pos 3; put e (e.pool.data m line)
    | .poison => bad d
    | .wrong => let (w, e) := d.drawLine; put e w
    | .miscorrected => let (w, e) := d.miscorrect m line 3; put e w
    | .uncorrectable =>
      let d1 := d.bump .diUeTotal
      if !d1.canReconstruct m line then bad d1
      else if f.poison then bad (d1.bump .diUeRecon)
      else let (w, e) := (d1.bump .diUeRecon).reconstruct m line; put e w

/-- Copy a page of a slot under rebuild: a metadata slot from the mirror, any other from its old place. -/
def Dev.rebuildPage (d : Dev) (u slot v f page : Nat) : Dev :=
  let line := slot * slotLines + page * 1024
  let line' := f * slotLines + page * 1024
  match d.metaIndex u line with
  | some (c1, idx) =>
    match d.metaLine (!c1) idx with
    | some o => { d with pool := d.pool.copyLines o.1 o.2 v line' 1024 }
    | none => d
  | none =>
    if (d.unit u).dead && (d.slotGroup u slot).isNone then
      { d with pool := d.pool.copyLines u line v line' 1024 }
    else (List.range 1024).foldl (fun e i => e.rebuildLine u (line + i) v (line' + i)) d

/-- Start the first rebuild queued on partition `p`, where none of its rebuilds runs (R171). -/
def Dev.kickRebuild (d : Dev) (p : Option Nat) : Dev :=
  match d.rebuilds.find? (fun r => d.unitOwner r.unit == p) with
  | none => d
  | some r =>
    if r.started then d
    else
      let (d1, r1) := d.nextRebuildExtent { r with started := true } r.todo
      { d1 with rebuilds := d1.rebuilds.map (fun x => if x.unit == r.unit then r1 else x) }

/-- The end of a rebuild. When every extent has been rebuilt REBUILD_DONE is raised, and the subchannel leaves its partition and is
powered down; where some stayed, the subchannel keeps them (R168, R170). The next rebuild of the partition starts. -/
def Dev.endRebuild (d : Dev) (r : Rebuild) : Dev :=
  let p := d.unitOwner r.unit
  let d1 := { d with rebuilds := d.rebuilds.filter (fun x => x.unit != r.unit) }
  let d2 :=
    if r.stayed = [] then
      let e := d1.raise { code := .rebuildDone, part := p, unit := some (memUnitRef r.unit), detail0 := some (BitVec.ofNat 64 r.total) }
      match p with
      | some n => (e.setPart n (fun x => { x with subchannels := putBit x.subchannels r.unit false })).modUnit r.unit
          (fun u => { u with removed := true, cleared := [] })
      | none => e
    else d1
  ((d2.settleClearing p).commandDone r.op p (if r.stayed = [] then .ok else .noResource)).kickRebuild p

/-- A rebuild with no extent left in hand ends. -/
def Dev.settleRebuild (d : Dev) (u : Nat) : Dev :=
  match d.rebuilds.find? (fun r => r.unit == u) with
  | some r => if r.started && r.cur.isNone && r.todo = [] then d.endRebuild r else d
  | none => d

/-- REBUILD_PAGE_COPIED: the page at the cursor has been copied to the spare slot and the cursor recorded; after the last
page the slot is served from its new place and the next extent starts. A rebuild pauses during a retrain, and waits
for its spare slot to be cleared (R265) and for the chain before it on its mover (R139). -/
def Dev.rebuildStep (d : Dev) (u : Nat) : Dev :=
  match d.rebuilds.find? (fun r => r.unit == u && r.started) with
  | none => d
  | some r =>
    if (d.unit u).retrain.isSome then d
    else match r.cur with
      | none => d.settleRebuild u
      | some (slot, v, f) =>
        let p := (d.unitOwner u).getD 0
        let d0 := d.haveCopy p true u
        if !(d.unit v).cleared.contains f then d
        else if !d0.copyRuns p true u then d0
        else
          let d1 := (d0.rebuildPage u slot v f r.cursor).endCopy true u
          let upd := fun (e : Dev) (x : Rebuild) => { e with rebuilds := e.rebuilds.map (fun y => if y.unit == u then x else y) }
          if r.cursor + 1 < extentPages then upd d1 { r with cursor := r.cursor + 1 }
          else
            let (d2, r2) := (d1.moveSlot u slot v f).nextRebuildExtent { r with cur := none } r.todo
            (upd d2 r2).settleRebuild u

/-- REBUILD_PAGE_COPIED, and the writes that waited for the page go on (R169). -/
def Dev.rebuildCopied (d : Dev) (u : Nat) : Dev := (d.rebuildStep u).retryHeld u

/-- REBUILD_PAGE_COPIED. -/
def execRebuildPageCopied (unit : Nat) (s : State) : Host.Outcome State Fault Refusal :=
  liveStep (fun d => d.rebuildCopied unit) s

/-! ## Refresh and row disturbance (R173 to R175) -/

/-- Issue `n` refresh commands to a rank back to back; each lowers the rank's activation counts by RAAIMT. -/
def Dev.issueRefresh (d : Dev) (m rank n : Nat) : Dev :=
  (d.modUnit m (fun u => { u with
    postponed := tset u.postponed rank 0
    raa := u.raa.map (fun x => if x.1 / 32 = rank then (x.1, x.2 - n * u.raaimt) else x) })).emit (.refresh m rank n)

/-- REFRESH_DUE: while reads are queued a refresh is postponed; when 8 are postponed, or no read is queued, they are issued back to
back (R173). -/
def execRefreshDue (m rank : Nat) (readsQueued : Bool) (s : State) : Host.Outcome State Fault Refusal :=
  liveStep (fun d =>
    let n := tgetD (d.unit m).postponed rank 0
    d.guard (d.powered m) (fun e =>
      if readsQueued && decide (n + 1 < 8) then e.modUnit m (fun u => { u with postponed := tset u.postponed rank (n + 1) })
      else e.issueRefresh m rank (n + 1))) s

/-- REFRESH_CATCHUP: the postponed refreshes of a rank are issued back to back. -/
def execRefreshCatchup (m rank : Nat) (s : State) : Host.Outcome State Fault Refusal :=
  liveStep (fun d =>
    let n := tgetD (d.unit m).postponed rank 0
    d.guard (n != 0 && d.powered m) (fun e => e.issueRefresh m rank n)) s

/-- ROW_THROTTLE_WINDOW_END: the throttle of a bank ends, or is repeated while its count is at or above RAAIMT. -/
def execRowThrottleWindowEnd (m bank : Nat) (s : State) : Host.Outcome State Fault Refusal :=
  liveStep (fun d =>
    match (d.unit m).throttles.find? (fun t => t.bank == bank) with
    | none => d
    | some t =>
      let e := d.reach t.until_
      (e.modUnit m (fun u =>
        if u.raaimt ≤ tgetD u.raa bank 0 then
          { u with throttles := u.throttles.map (fun x =>
              if x.bank == bank then { x with until_ := t.until_ + 64000, left := streamRate u bank t.stream e.now / 2 } else x) }
        else
          { u with
            throttles := u.throttles.filter (fun x => x.bank != bank)
            throttleEpisode := u.throttleEpisode.filter (fun b => b != bank) })).retryHeld m) s

/-- DRAM_TEMP_CROSSING: the thresholds are read from the DRAM again, and the trigger is halved or restored; a bank whose count stands at
the new trigger gets its RFM command. -/
def execDramTempCrossing (m : Nat) (above : Bool) (raaimt raammt : Nat) (s : State) : Host.Outcome State Fault Refusal :=
  liveStep (fun d => d.guard (d.unit m).trained (fun e =>
    (e.modUnit m (fun u => { u with hot := above, raaimt := raaimt, raammt := raammt })).rfmSweep m)) s

/-! ## Migration (R44 to R48) -/

/-- Give slots back: Shutter clears them, and they return to the fabric manager (R48, R265). -/
def Dev.giveBack (d : Dev) (es : List Extent) : Dev :=
  es.foldl (fun e x =>
    let k := (extM x, x.slot)
    { e.modUnit (extM x) (fun u => { u with cleared := u.cleared.filter (fun i => i != x.slot) }) with
      waitClear := if e.waitClear.contains k then e.waitClear else e.waitClear ++ [k] }) d

/-- Whether slots have all been cleared under the present key (R265). -/
def Dev.allCleared (d : Dev) (es : List Extent) : Bool := es.all (fun e => (d.unit (extM e)).cleared.contains e.slot)

/-- Copy page `page` of a migrating region from its old to its new placement, in runs of one grain. -/
def Dev.migratePage (d : Dev) (reg : Region) (page : Nat) : Dev :=
  let n := min 1024 (grainBytes reg.grainM8 / 64)
  let put := fun (e : Dev) (new : Bool) (off : Nat) =>
    (reg.placeIn new off).map (fun x =>
      let y := rebuiltPlace e.rebuilds x.1 (x.2 / pageBytes)
      (extM y, y.slot * slotLines + x.2 / 64))
  (List.range (1024 / n)).foldl (fun e i =>
    match put e false (page * pageBytes + i * n * 64), put e true (page * pageBytes + i * n * 64) with
    | some (m, line), some (m', line') => e.copyRun m line m' line' n
    | _, _ => e) d

/-- The region after its last page: the new placement is in force (R48). -/
def Region.installed (r : Region) (serial : Nat) : Region :=
  { r with
    extents := r.newExtents, salt := r.newSalt, width := r.newWidth, tier := r.newTier, listLine := r.newListLine
    parity := r.newParity, inNear := r.newNear, migrating := false, newExtents := [], newParity := [], cursor := 0
    migrateOp := none, promoted := if r.newNear then serial else r.promoted }

/-- MIGRATE_PAGE_COPIED: the page at the cursor has been copied by Huanik's chain (R139) and the cursor recorded in both copies; after the
last page the new placement is installed and the old extents are cleared and returned. -/
def Dev.migrateCopied (d : Dev) (r : Nat) : Dev :=
  match tget d.regions r with
  | none => d
  | some reg =>
    let d0 := d.haveCopy reg.partition false r
    if !reg.migrating || !d.allCleared (reg.newExtents ++ reg.newParity.map ParityGroup.parity) then d
    else if !d0.copyRuns reg.partition false r then d0
    else
      let d1 := (d0.migratePage reg reg.cursor).endCopy false r
      match tget d1.regions r with
      | none => d1
      | some reg1 =>
        if reg1.cursor + 1 < reg1.extents.length * extentPages then
          { d1 with regions := tset d1.regions r { reg1 with cursor := reg1.cursor + 1 } }
        else
          ((({ d1 with regions := tset d1.regions r (reg1.installed d1.serial), serial := d1.serial + 1 }.keepTrans (fun e => e.region != r)).giveBack
            (reg1.extents ++ reg1.parity.map ParityGroup.parity))).commandDone reg1.migrateOp (some reg1.partition) .ok

/-- MIGRATE_PAGE_COPIED, and the writes that waited for the page at its lines go on (Table 2.7). -/
def execMigratePageCopied (region : Nat) (s : State) : Host.Outcome State Fault Refusal :=
  liveStep (fun d => ((tget d.regions region).map (fun r => r.extents)).getD [] |>.foldl (fun e x => e.retryHeld (extM x)) (d.migrateCopied region)) s

/-! ## Promotion and summary pages (R40, R41) -/

/-- Free pages of a partition's near page pool. -/
def Dev.poolLeft (d : Dev) (p : Nat) : Nat :=
  let us := bitsOf (d.partn p).pseudoChannels
  (us.map (fun u =>
    (18432 - (((List.range 4).filter (fun e => d.nearSlotHeld u e)).length) * 4096) -
      (d.nearUsed.filter (fun n => n / 18432 == u)).length)).sum

/-- The NEAR_IF_FREE regions of a partition that lie in the capacity tier, the oldest first (R40). -/
def Dev.demoted (d : Dev) (p : Nat) : List (Nat × Region) :=
  (d.regions.filter (fun x => x.2.partition == p && x.2.tier == .nearIfFree && !x.2.inNear && !x.2.migrating)).foldl
    (fun acc x => acc.takeWhile (fun y => decide (y.2.created ≤ x.2.created)) ++ x :: acc.dropWhile (fun y => decide (y.2.created ≤ x.2.created))) []

/-- NEAR_PROMOTE: the oldest NEAR_IF_FREE region of a partition in the capacity tier that can go there goes back to the near tier by
migration, if the pool keeps at least 1 GiB free afterwards. -/
def Dev.nearPromote (d : Dev) (p : Nat) : Dev :=
  ((d.demoted p).findSome? (fun x =>
    if x.2.extents.length * 4096 + 16384 ≤ d.poolLeft p then d.startMigration x.1 x.2.width .nearIfFree true 25 x.2.salt none
    else none)).getD d

/-- NEAR_PROMOTE. -/
def execNearPromote (part : Nat) (s : State) : Host.Outcome State Fault Refusal := liveStep (fun d => d.nearPromote part) s

/-- The page that an object maps at object page `p`, in its working copy or one of its versions. -/
def Dev.mappedPage (d : Dev) (r i p : Nat) : Option (Bool × Nat) :=
  let o := d.obj r i
  (o.workingRoot :: o.slots.map (fun x => x.2.root)).findSome? (fun root =>
    (((d.pages r).entry root p).map (fun x => x.2)).join)

/-- SUMMARY_PAGE_MOVE: a summary page is copied by an idle data mover (R139) to the other tier and every map entry that names it is changed at once;
the old page stays until the descriptors that read it complete. -/
def Dev.summaryMove (d : Dev) (r i p : Nat) (toNear : Bool) : Dev :=
  let o := d.obj r i
  match tget d.regions r with
  | none => d
  | some reg =>
    if !d.idleMover reg.partition || o.state = .free || o.flat || o.chunkPages = 0 || decide (p % o.chunkPages < o.kvChunkPages) then d
    else match d.mappedPage r i p with
      | none => d
      | some old =>
        if old.1 = toNear then d
        else
          let got := if toNear then (d.takeNear reg.partition).map (fun x => ((true, x.1), x.2))
            else (d.takePage r).map (fun x => ((false, x.1), x.2))
          match got with
          | none => d
          | some (new, d1) =>
            let d2 := d1.copyPage r old new
            let readers := (d2.jobs.filter (fun j => j.snap.any (fun s => s.names r old) || j.before.any (fun s => s.names r old))).map (fun j => j.id)
            let d3 := (d2.setCount r new ((d2.pages r).count old)).setCount r old 0
            (((d3.pages r).maps.flatMap (fun m => (m.2.filter (fun y => y.2 == old)).map (fun y => (m.1, y.1)))).foldl
              (fun e y => e.setEntry r y.1 y.2 new) d3).modPages r (fun s => { s with moved := s.moved ++ [(old.1, old.2, readers)] })

/-- SUMMARY_PAGE_MOVE. -/
def execSummaryPageMove (region object page : Nat) (toNear : Bool) (s : State) : Host.Outcome State Fault Refusal :=
  liveStep (fun d => d.windowed (fun e => e.summaryMove region object page toNear)) s

/-- SUMMARY_OLD_PAGE_FREE: old copies of moved summary pages that no earlier descriptor reads any longer are freed. -/
def Dev.oldPages (d : Dev) (r : Nat) : Dev :=
  let (wait, go) := (d.pages r).moved.partition (fun x => x.2.2.any (fun id => (d.job id).isSome))
  go.foldl (fun e x =>
    if x.1 then e.freeNear x.2.1 else e.setUsed r x.2.1 false)
    (d.modPages r (fun s => { s with moved := wait }))

/-- SUMMARY_OLD_PAGE_FREE. -/
def execSummaryOldPageFree (region : Nat) (s : State) : Host.Outcome State Fault Refusal := liveStep (fun d => d.windowed (fun e => e.oldPages region)) s

end Sys2Proof.Machine
end

