-- ==== Sys2Proof/Machine/Movers.lean ====
section
/-! DEFINITION. Data movers: COPY and FILL chains, their bursts and aborts (R136 to R142), and REDUCE_WRITE (R96, R97). -/

namespace Sys2Proof.Machine

open Sys2Proof

/-! ## The two sides of an element -/

/-- Where one side of an element lies for a burst: a region, a flat object, another endpoint (R209), or a region lost with its record,
whose lines all read as uncorrectable (R345). -/
inductive Side where
  | region (r off : Nat)
  | object (r i slot line : Nat)
  | remote (ep window addr : Nat)
  | lost
deriving DecidableEq, Repr

/-- The side of an element for the `n` bytes from `a`, all in one segment. A handle is checked at dispatch alone (R60): the descriptor
holds its version from then on (R61). -/
def Dev.side (d : Dev) (ctx : Nat) (isObj : Bool) (h a n : Nat) (need : Right) : Except Status Side :=
  if isObj then .ok (.object (hRegion h) (hIndex h) (hSlot h) (a / 64))
  else match d.rangeParts ctx a n need true with
    | .error st => .error st
    | .ok [] => .error .bounds
    | .ok ((s, _, _) :: _) =>
      let off := s.targetOff + (a - s.base)
      if s.kind == .remote then
        match d.rankEp (d.context ctx).job s.targetId with
        | some ep => .ok (.remote ep s.remoteWindow off)
        | none => .error .linkDown
      else match d.refusesAt (ownLease ctx) s.targetId off n with
        | some .uncorrectable => if need == .r then .ok .lost else .error .uncorrectable
        | some st => .error st
        | none => .ok (.region s.targetId off)

/-- Whether a side is another endpoint. -/
def Side.isRemote (s : Side) : Bool :=
  match s with
  | .remote _ _ _ => true
  | _ => false

/-- The root of the version that a handle's slot names. -/
def Obj.rootFor (o : Obj) (slot : Nat) : Nat := if slot = 0 then o.workingRoot else (o.slot slot).root

/-- Read line `k` of a local side. -/
def Dev.readSide (d : Dev) (s : Side) (k : Nat) : Status × Line × Dev :=
  match s with
  | .region r off => d.load r (off + 64 * k)
  | .object r i slot l => d.viewLine r (d.viewOf r ((d.obj r i).rootFor slot)) (l + k)
  | .lost => (.uncorrectable, 0, d)
  | .remote _ _ _ => (.bounds, 0, d)

/-- Write line `k` of a local side; no data stands for a bad source line, written as poison (Table 6.12). -/
def Dev.writeSide (d : Dev) (s : Side) (k : Nat) (x : Option Line) : Status × Dev :=
  match s, x with
  | .region r off, some v => d.save r (off + 64 * k) v
  | .region r off, none => d.savePoison r (off + 64 * k)
  | .object r i _ l, v => (.ok, d.putViewLine r (d.viewOf r (d.obj r i).workingRoot) (l + k) v)
  | _, _ => (.bounds, d)

/-! ## Bursts (R138) -/

/-- Bytes from `a` to the end of its segment. -/
def Dev.toSegEnd (d : Dev) (ctx : Nat) (isObj : Bool) (a : Nat) : Nat :=
  if isObj then 4096 else match segOf (d.context ctx) a with
    | some s => s.base + 64 * s.lines - a
    | none => 4096

/-- The bytes of a chain's next burst: up to 4 KiB, within one segment on either side. -/
def Dev.burstSize (d : Dev) (ctx : Nat) (c : Chain) : Nat :=
  min (min 4096 (field c.elem 256 32 - c.moved))
    (min (if dOpcode c.elem = 1 then d.toSegEnd ctx (bit c.elem 480) (dW0 c.elem + c.moved) else 4096)
      (d.toSegEnd ctx (bit c.elem 481) (dW1 c.elem + c.moved)))

/-- The source side of the present burst; a FILL has none. -/
def Dev.srcSide (d : Dev) (ctx : Nat) (c : Chain) : Except Status (Option Side) :=
  if dOpcode c.elem = 1 then
    (d.side ctx (bit c.elem 480) (field c.elem 352 64) (dW0 c.elem + c.moved) c.burst .r).map some
  else .ok none

/-- The destination side of the present burst. -/
def Dev.dstSide (d : Dev) (ctx : Nat) (c : Chain) : Except Status Side :=
  d.side ctx (bit c.elem 481) (field c.elem 416 64) (dW1 c.elem + c.moved) c.burst .w

/-- The line that a FILL writes. -/
def fillLine (x : Line) : Line := BitVec.ofNat 512 (packBits ((List.range 8).map (fun i => (64 * i, 64, dW0 x))))

/-- Read a burst's source lines: the good ones by line number, and whether some line was uncorrectable. Another status
than a memory error ends the reading. -/
def Dev.readBurst (d : Dev) (s : Side) : List Nat → (Option Status × List (Nat × Line) × Bool) × Dev
  | [] => ((none, [], false), d)
  | k :: ks =>
    let (st, x, d1) := d.readSide s k
    if st = .ok ∨ st = .poison ∨ st = .uncorrectable then
      let ((e, xs, u), d2) := Dev.readBurst d1 s ks
      ((e, if st = .ok then (k, x) :: xs else xs, u || st == .uncorrectable), d2)
    else ((some st, [], false), d1)

/-- End a chain by a row of Table 6.12. -/
def Dev.endChain (d : Dev) (j : Job) (c : Chain) (st : Status) (result residue : Nat) : Dev :=
  d.finish { j with chain := some c } st (BitVec.ofNat 64 result) (BitVec.ofNat 32 residue)

/-- End a chain within an element: its residue is the bytes of the element not moved (Table 6.12). -/
def Dev.stopChain (d : Dev) (j : Job) (c : Chain) (st : Status) : Dev :=
  d.endChain j c st c.elemAddr (field c.elem 256 32 - c.moved)

/-- A chain's request packets go out under its context (R209). -/
def Dev.chainPacket (d : Dev) (ctx : Nat) (k : PktKind) (ep window addr lines : Nat) (data : List Line) : Packet :=
  { tc := (d.context ctx).tc, kind := k, dstEp := ep, job := (d.context ctx).job, srcRank := d.selfRank (d.context ctx).job,
    window := window, addr := BitVec.ofNat 64 addr, lines := lines, data := data }

/-- The pieces of at most 32 lines of a burst of `n` lines: (first line, lines). -/
def pieces (n : Nat) : List (Nat × Nat) := (List.range ((n + 31) / 32)).map (fun i => (32 * i, min 32 (n - 32 * i)))

/-- The mover of a job. -/
def jobMover (j : Job) : Nat :=
  match j.unit with
  | .mover n _ => n
  | _ => 0

/-- Issue a chain's requests; one that cannot leave ends the chain with LINK_DOWN once the others are answered. -/
def Dev.issue (d : Dev) (j : Job) (c : Chain) : List (Purpose × Packet) → Chain × Dev
  | [] => (c, d)
  | (why, p) :: rest =>
    match d.request (.mover (jobMover j)) why p with
    | (some t, d1) => Dev.issue d1 j { c with outstanding := c.outstanding ++ [t] } rest
    | (none, d1) => Dev.issue d1 j { c with fail := some .linkDown } rest

/-- The line numbers of maximal runs of good lines, each at most 32: what the WRITEs to another endpoint carry. A bad line
is not sent (log entry 22). -/
def goodRuns : List (Nat × Line) → List (Nat × List Line)
  | [] => []
  | (k, x) :: rest =>
    match goodRuns rest with
    | (k', xs) :: rs => if k' = k + 1 ∧ xs.length < 32 then (k, x :: xs) :: rs else (k, [x]) :: (k', xs) :: rs
    | [] => [(k, [x])]

/-- The WRITE requests of a burst to another endpoint. -/
def Dev.burstWrites (d : Dev) (j : Job) (ep window addr : Nat) (buf : List (Nat × Line)) : List (Purpose × Packet) :=
  (goodRuns buf).map (fun r => (.moverWrite j.id, d.chainPacket (dCtx j.desc) .write ep window (addr + 64 * r.1) 0 r.2))

/-- Put a chain back; one that failed ends once none of its requests is outstanding. -/
def Dev.putChain (d : Dev) (j : Job) (c : Chain) : Dev :=
  match c.fail with
  | some st => if c.outstanding = [] then d.stopChain j c st else d.putJob { j with chain := some c }
  | none => d.putJob { j with chain := some c }

/-- Send a burst's writes to another endpoint. -/
def Dev.sendBurst (d : Dev) (j : Job) (c : Chain) (dst : Side) : Dev :=
  match dst with
  | .remote ep window addr =>
    let (c1, d1) := d.issue j { c with reading := false } (d.burstWrites j ep window addr c.buffer)
    d1.putChain j c1
  | _ => d.putJob { j with chain := some { c with reading := false } }

/-- The lines of a FILL burst. -/
def fillBuffer (x : Line) (n : Nat) : List (Nat × Line) := (List.range n).map (fun k => (k, fillLine x))

/-- Begin a burst: a source at another endpoint is asked for its lines; a local source is read for a destination at
another endpoint; between local sides nothing happens before the burst ends. -/
def Dev.beginBurst (d : Dev) (j : Job) (c0 : Chain) : Dev :=
  let ctx := dCtx j.desc
  let c := { c0 with burst := d.burstSize ctx c0 }
  let n := c.burst / 64
  match d.srcSide ctx c, d.dstSide ctx c with
  | .error st, _ => d.stopChain j c st
  | _, .error st => d.stopChain j c st
  | .ok (some (.remote ep window addr)), .ok _ =>
    let reqs := (pieces n).map (fun p =>
      ((.moverRead j.id p.1 : Purpose), d.chainPacket ctx .read ep window (addr + 64 * p.1) p.2 []))
    let (c1, d1) := d.issue j { c with reading := true, buffer := [] } reqs
    d1.putChain j c1
  | .ok src, .ok dst =>
    if dst.isRemote then
      match src with
      | none => d.sendBurst j { c with buffer := fillBuffer c.elem n } dst
      | some s =>
        let ((e, xs, u), d1) := d.readBurst s (List.range n)
        match e with
        | some st => d1.stopChain j c st
        | none => d1.sendBurst j { c with buffer := xs, badUnc := c.badUnc || u } dst
    else d.putJob { j with chain := some { c with buffer := [], reading := false } }

/-- The object pages that an element writes. -/
def elemPages (x : Line) : List (Nat × Bool) :=
  let a := dW1 x / pageBytes
  (List.range ((dW1 x + field x 256 32 - 1) / pageBytes - a + 1)).map (fun k => (a + k, false))

/-- An element into an object takes its turn on it (R72): the object may be gone by then, and every page of the element is made exclusive
before a byte is stored (R66, R68). An element elsewhere needs no turn. -/
def Dev.takeTurn (d : Dev) (j : Job) (c : Chain) : Dev :=
  let h := field c.elem 416 64
  if !bit c.elem 481 then d.beginBurst j { c with turn := true }
  else if !d.inTurn { j with chain := some c } then d.putJob { j with chain := some c }
  else if (d.obj (hRegion h) (hIndex h)).state != .live || (d.obj (hRegion h) (hIndex h)).gen.toNat != hObjGen h
  then d.stopChain j c .versionGone
  else match d.exclusiveAll (hRegion h) (hIndex h) (elemPages c.elem) with
    | ((.ok, _), d1) => d1.beginBurst j { c with turn := true }
    | ((st, _), d1) => d1.stopChain j c st

/-- Begin an element (R140): the check of its range before its first burst, or, of an element read from memory, its whole check; then its
turn. `at_` is its address, or the ring slot's. -/
def Dev.beginElement (d : Dev) (j : Job) (c : Chain) (at_ : Nat) (x : Line) : Dev :=
  let c1 := { c with started := true, turn := false, elem := x, elemAddr := at_, moved := 0, needFetch := false, reading := false,
                     lastBurst := d.now, buffer := [] }
  match (if c.started then d.elemCheck (dCtx j.desc) x else d.elemRanges (dCtx j.desc) x) with
  | some st => d.endChain j c1 st at_ (field x 256 32)
  | none => d.takeTurn { j with holds := j.holds ++ (descHolds x).filter (fun h => !j.holds.contains h) } c1

/-- Write a burst's lines at a local destination, up to one that another status than OK answers: a missing line is a bad one. With the
status and the number of lines written. -/
def Dev.writeBurst (d : Dev) (s : Side) (buf : List (Nat × Line)) : List Nat → (Status × Nat) × Dev
  | [] => ((.ok, 0), d)
  | k :: ks =>
    let (st, d1) := d.writeSide s k ((buf.find? (fun x => x.1 == k)).map (fun x => x.2))
    if st = .ok then
      let ((st', n), d2) := Dev.writeBurst d1 s buf ks
      ((st', n + 1), d2)
    else ((st, 0), d1)

/-- The bad lines among the first `n` of a burst, which are written as poison. -/
def countBad (c : Chain) (buf : List (Nat × Line)) (n : Nat) : Chain :=
  let bad := (List.range n).filter (fun k => !buf.any (fun x => x.1 == k))
  { c with
    firstBad := if c.badLines = 0 then dW1 c.elem + c.moved + 64 * bad.headD 0 else c.firstBad
    badLines := c.badLines + bad.length
    moved := c.moved + 64 * n }

/-- Account for a burst written and go on: the next burst, the next element, or the end of the chain (R138, R140). -/
def Dev.afterBurst (d : Dev) (j : Job) (c : Chain) (buf : List (Nat × Line)) : Dev :=
  let c1 := { countBad c buf (c.burst / 64) with lastBurst := d.now, buffer := [] }
  if c1.moved = field c.elem 256 32 then
    let c2 := { c1 with done := c1.done + 1 }
    if field c.elem 288 64 = 0 then
      if c2.badLines = 0 then d.endChain j c2 .ok c2.done 0
      else d.endChain j c2 (if c2.badUnc then .uncorrectable else .poison) c2.firstBad c2.badLines
    else d.putJob { j with chain := some { c2 with needFetch := true } }
  else if c1.abort then d.putJob { j with chain := some c1 }
  else d.beginBurst j c1

/-- End the present burst: local sides are read and written now; writes to another endpoint have been acknowledged. -/
def Dev.endBurst (d : Dev) (j : Job) (c : Chain) : Dev :=
  let ctx := dCtx j.desc
  let n := c.burst / 64
  match d.srcSide ctx c, d.dstSide ctx c with
  | .error st, _ => d.stopChain j c st
  | _, .error st => d.stopChain j c st
  | .ok src, .ok dst =>
    if dst.isRemote then d.afterBurst j c c.buffer
    else
      let ((e, xs, u), d1) := match src with
        | none => (((none : Option Status), fillBuffer c.elem n, false), d)
        | some s => if s.isRemote then ((none, c.buffer, false), d) else d.readBurst s (List.range n)
      match e with
      | some st => d1.stopChain j c st
      | none =>
        let ((st, k), d2) := d1.writeBurst dst xs (List.range n)
        let c1 := { c with badUnc := c.badUnc || u }
        if st = .ok then d2.afterBurst j c1 xs else d2.stopChain j (countBad c1 xs k) st

/-- Whether a job is the chain its mover runs: the first dispatched of its channels, Huanik's among them (R138, R139). -/
def Dev.runsNow (d : Dev) (j : Job) : Bool :=
  d.jobs.all (fun x =>
    match x.unit with
    | .mover n _ => !(n == jobMover j && x.result.isNone && decide (x.id < j.id))
    | _ => true) &&
  d.liveCopies.all (fun x => !(x.mover == jobMover j && decide (x.before ≤ j.id)))

/-- Start a chain. -/
def Dev.startChain (j : Job) (d : Dev) : Dev :=
  if d.runsNow j && !(match j.chain with | some c => c.started || c.abort | none => false)
  then d.beginElement j {} j.slotAddr j.desc else d

/-- COPY (R136): the channel starts its chain. -/
def execCopy (job : Nat) (s : State) : Host.Outcome State Fault Refusal :=
  devStep (fun d => d.runJob job [0x01] Dev.startChain) s

/-- FILL (R136): the channel starts its chain. -/
def execFill (job : Nat) (s : State) : Host.Outcome State Fault Refusal :=
  devStep (fun d => d.runJob job [0x02] Dev.startChain) s

/-- Whether a chain element's header is as R136 requires. -/
def elemHeader (x : Line) : Bool :=
  (dOpcode x == 1 || dOpcode x == 2) && field x 8 4 == 1 && field x 12 116 == 0

/-- The address of the element after the present one. -/
def Chain.next (c : Chain) : Nat := field c.elem 288 64

/-- A chain element has been read (R136, R137). It is not started after an abort (R141). -/
def Dev.gotElement (d : Dev) (j : Job) (c : Chain) (x : Line) : Dev :=
  if c.abort then d.putJob { j with chain := some c }
  else if !elemHeader x || decide (65536 ≤ c.done) then d.endChain j c .format c.next (field x 256 32)
  else d.beginElement j c c.next x

/-- Read the next chain element under the ring descriptor's context (R137). -/
def Dev.fetchElement (j : Job) (d : Dev) : Dev :=
  match j.chain with
  | some c =>
    if c.needFetch && !c.abort && c.outstanding == [] && c.fail.isNone then
      match d.side (dCtx j.desc) false 0 c.next 64 .r with
      | .error st => d.endChain j c st c.next 0xFFFFFFFF
      | .ok (.remote ep window addr) =>
        let (c1, d1) := d.issue j c [(.moverRead j.id 0, d.chainPacket (dCtx j.desc) .read ep window addr 1 [])]
        if c1.fail.isSome then d1.endChain j c .linkDown c.next 0xFFFFFFFF else d1.putJob { j with chain := some c1 }
      | .ok s =>
        let (st, x, d1) := d.readSide s 0
        if st = .ok then d1.gotElement j c x else d1.endChain j c st c.next 0xFFFFFFFF
    else d
  | none => d

/-- CHAIN_ELEMENT_FETCH (R137). -/
def execChainElementFetch (job : Nat) (s : State) : Host.Outcome State Fault Refusal :=
  devStep (fun d => d.runJob job [0x01, 0x02] Dev.fetchElement) s

/-- A burst ends (R138), or an element that waits for its object tries again whether its turn has come (R72). A channel under abort goes
on no further (R141). -/
def Dev.burstDone (j : Job) (d : Dev) : Dev :=
  match j.chain with
  | some c =>
    if c.started && !c.needFetch && c.outstanding == [] && !c.reading && !c.abort then
      if c.turn then d.endBurst j c else d.takeTurn j c
    else d
  | none => d

/-- MOVER_BURST_DONE (R138). -/
def execMoverBurstDone (job : Nat) (s : State) : Host.Outcome State Fault Refusal :=
  devStep (fun d => d.runJob job [0x01, 0x02] Dev.burstDone) s

/-- Report an abort (R141). -/
def Dev.moverAborted (d : Dev) (j : Job) (st : Status) : Dev :=
  d.raise { code := .moverAbort, part := some j.partition, context := some (dCtx j.desc), queue := some j.queue,
            tag := some (BitVec.ofNat 16 (dTag j.desc)), detail0 := some (BitVec.ofNat 64 j.queue), detail1 := some (statusWord st) }

/-- The lines of a REDUCE_WRITE still to combine. -/
def reduceLeft (j : Job) : Nat := field j.desc 256 24 - ((j.chain.map (fun c => c.moved)).getD 0) / 64

/-- End a mover's job by an abort, with PARTIAL (R141) or, where its mover hung, TIMEOUT (R342). A chain that had not
started reports its first element whole; a REDUCE_WRITE the lines not combined (R97, Table 4.9). -/
def Dev.abortJob (d : Dev) (j : Job) (st : Status) : Dev :=
  let e := if dOpcode j.desc = 0x30 then d.finish j st 0 (BitVec.ofNat 32 (reduceLeft j))
    else match j.chain with
      | some c => if c.started then d.stopChain j c st
                  else d.endChain j c st j.slotAddr (field j.desc 256 32)
      | none => d.finish j st (BitVec.ofNat 64 j.slotAddr) (BitVec.ofNat 32 (field j.desc 256 32))
  e.moverAborted j st

/-- Mark a mover's job for an abort (R141). -/
def markAbort (j : Job) : Job := { j with chain := some { (j.chain.getD {}) with abort := true } }

/-- The opcodes of data movers. -/
def moverOps : List Nat := [0x01, 0x02, 0x30]

/-- The aborted channel's burst ends, then its chain (R141). Between two elements the element just done is the stopping
one, and nothing of it is left. -/
def Dev.doAbort (j : Job) (d : Dev) : Dev :=
  match j.chain with
  | some c =>
    if c.abort && c.outstanding == [] then
      let d1 := if c.started && c.turn && !c.needFetch && !c.reading && dOpcode j.desc != 0x30 then d.endBurst j c else d
      match d1.job j.id with
      | some j1 =>
        match j1.result with
        | none => d1.abortJob j1 .part
        | some res => d1.moverAborted j1 res.status
      | none => d1
    else d
  | none => d

/-- MOVER_ABORT (R141). -/
def execMoverAbort (job : Nat) (s : State) : Host.Outcome State Fault Refusal :=
  devStep (fun d => d.runJob job moverOps Dev.doAbort) s

/-! ## Replies to a mover's requests (R212) -/

/-- Insert a line into a buffer in ascending order. -/
def insertLine (x : Nat × Line) : List (Nat × Line) → List (Nat × Line)
  | [] => [x]
  | y :: r => if x.1 ≤ y.1 then x :: y :: r else y :: insertLine x r

/-- The burst's reads are answered: go on. -/
def Dev.readsAnswered (d : Dev) (j : Job) (c : Chain) : Dev :=
  match d.dstSide (dCtx j.desc) c with
  | .error st => d.stopChain j c st
  | .ok dst => d.sendBurst j { c with reading := false } dst

/-- A read of an element from another endpoint is answered (R137). -/
def Dev.elementAnswer (d : Dev) (j : Job) (c : Chain) (st : Status) (data : List Line) : Dev :=
  match data with
  | x :: _ => if st = .ok then d.gotElement j c x else if c.abort then d.putJob { j with chain := some c } else d.endChain j c st c.next 0xFFFFFFFF
  | [] => if c.abort then d.putJob { j with chain := some c } else d.endChain j c st c.next 0xFFFFFFFF

/-- End a REDUCE_WRITE: OK with the lines combined, another status with those not combined (R97, Table 4.9). -/
def Dev.endReduce (d : Dev) (j : Job) (c : Chain) (st : Status) : Dev :=
  let k := { j with chain := some c }
  d.finish k st 0 (BitVec.ofNat 32 (if st = .ok then field j.desc 256 24 else reduceLeft k))

/-- A line of a REDUCE_WRITE is combined and stored. -/
def Dev.reduced (d : Dev) (j : Job) (c : Chain) : Dev :=
  let c1 := { c with moved := c.moved + 64, buffer := [], lastBurst := d.now }
  if c1.moved = 64 * field j.desc 256 24 then d.endReduce j c1 .ok else d.putJob { j with chain := some c1 }

/-- An answer to a REDUCE_WRITE's request: a line of the source (0) or of the destination (1), or its write. -/
def Dev.reduceAnswer (d : Dev) (j : Job) (c : Chain) (read : Option Nat) (st : Status) (data : List Line) : Dev :=
  if st ≠ .ok then d.endReduce j c st
  else match read, data with
    | none, _ => d.reduced j c
    | some k, x :: _ => d.putJob { j with chain := some { c with buffer := insertLine (k, x) c.buffer } }
    | some _, [] => d.putJob { j with chain := some c }

/-- An answer to a read or a write of a chain (R140): data, a memory error of its lines, or a status that ends the chain
once its other requests are answered. A remote source is read in READs of up to 32 lines, and a reply has one status, so a POISON or
UNCORRECTABLE one makes every line of its READ a bad line (DEDUCED, log entry 82). -/
def Dev.chainAnswer (d : Dev) (id tag : Nat) (read : Option Nat) (st : Status) (data : List Line) : Dev :=
  match d.job id with
  | none => d
  | some j =>
    match j.chain with
    | none => d
    | some c0 =>
      if j.result.isSome then d
      else
        let c := { c0 with outstanding := c0.outstanding.filter (fun t => t != tag) }
        if dOpcode j.desc = 0x30 then d.reduceAnswer j c read st data
        else match read with
        | none => d.putChain j (if st = .ok then c else { c with fail := some (c.fail.getD st) })
        | some off =>
          if c.needFetch then d.elementAnswer j c st data
          else
            let c1 :=
              if st = .ok then { c with buffer := (c.buffer ++ data.mapIdx (fun i x => (off + i, x))) }
              else if st = .poison then c
              else if st = .uncorrectable then { c with badUnc := true }
              else { c with fail := some (c.fail.getD st) }
            if c1.outstanding = [] ∧ c1.fail.isNone then d.readsAnswered j { c1 with buffer := c1.buffer.foldl (fun acc x => insertLine x acc) [] }
            else d.putChain j c1

/-! ## REDUCE_WRITE -/

/-- A line that a REDUCE_WRITE needs: at hand with its status, or asked of another endpoint (none). -/
def Dev.reduceLine? (d : Dev) (j : Job) (c : Chain) (s : Side) (key : Nat) : Option (Status × Line) × Dev :=
  match c.buffer.find? (fun x => x.1 == key), s with
  | some x, _ => (some (.ok, x.2), d)
  | none, .remote ep window addr =>
    match d.request (.mover (jobMover j)) (.moverRead j.id key) (d.chainPacket (dCtx j.desc) .read ep window addr 1 []) with
    | (some t, d1) => (none, d1.putJob { j with chain := some { c with outstanding := c.outstanding ++ [t] } })
    | (none, d1) => (some (.linkDown, 0), d1)
  | none, .region r off =>
    let (st, x, d1) := if key = 0 then d.load r off else d.loadForWrite r off
    (some (st, x), d1)
  | none, side => let (st, x, d1) := d.readSide side 0; (some (st, x), d1)

/-- Store a combined line. -/
def Dev.reduceStore (d : Dev) (j : Job) (c : Chain) (s : Side) (x : Line) : Dev :=
  match s with
  | .remote ep window addr =>
    match d.request (.mover (jobMover j)) (.moverWrite j.id) (d.chainPacket (dCtx j.desc) .write ep window addr 0 [x]) with
    | (some t, d1) => d1.putJob { j with chain := some { c with outstanding := c.outstanding ++ [t] } }
    | (none, d1) => d1.endReduce j c .linkDown
  | side =>
    let (st, d1) := d.writeSide side 0 (some x)
    if st = .ok then d1.reduced j c else d1.endReduce j c st

/-- Combine the next line of a REDUCE_WRITE (R97, Table 4.9). Where the source line and the destination line are both bad, it ends with the
source's status (DESIGN CHOICE, log entry 78). A line that lies at another endpoint is fetched first, and written back there (R96, R209). -/
def Dev.doReduce (j : Job) (d : Dev) : Dev :=
  let c := { (j.chain.getD {}) with started := true }
  let ctx := dCtx j.desc
  if c.abort || c.outstanding != [] || !d.runsNow j then d
  else match d.side ctx false 0 (dW0 j.desc + c.moved) 64 .r with
    | .error st => d.endReduce j c st
    | .ok src =>
      match d.side ctx false 0 (dW1 j.desc + c.moved) 64 .w with
      | .error st => d.endReduce j c st
      | .ok dst =>
        match d.reduceLine? j c src 0 with
        | (none, d1) => d1
        | (some (.ok, x), d1) =>
          match d1.reduceLine? j c dst 1 with
          | (none, d2) => d2
          | (some (.ok, y), d2) => d2.reduceStore j c dst (reduceLine (field j.desc 280 3) y x)
          | (some (st, _), d2) => d2.endReduce j c st
        | (some (st, _), d1) => d1.endReduce j c st

/-- REDUCE_WRITE (R97): its channel combines the next line, which no other access divides. -/
def execReduceWrite (job : Nat) (s : State) : Host.Outcome State Fault Refusal :=
  devStep (fun d => d.runJob job [0x30] Dev.doReduce) s

end Sys2Proof.Machine
end

