-- ==== Sys2Proof/Machine/Pair.lean ====
section
/-! DEFINITION. Coelostat pairs: mirror acknowledgements, heartbeats, paths, takeover, resync and return (Chapter 13). -/

namespace Sys2Proof.Machine

open Sys2Proof

/-- Change the pair record. -/
def Dev.modPair (d : Dev) (f : Pair → Pair) : Dev := { d with pair := f d.pair }

/-! ## Heartbeat bodies (Table 13.4) -/

/-- `role` as a number. -/
def roleCode (r : Role) : Nat := match r with | .offline => 0 | .standby => 1 | .active => 2
/-- `sync` as a number. -/
def syncCode (s : Sync) : Nat := match s with | .unsynced => 0 | .resync => 1 | .synced => 2
/-- `sync` from a number; 3 is reserved and read as UNSYNCED. -/
def syncOf (n : Nat) : Sync := match n with | 1 => .resync | 2 => .synced | _ => .unsynced

/-- The fields of a heartbeat body: (lowest bit, width, value). -/
def hbFields (h : Heartbeat) : List (Nat × Nat × Nat) :=
  let b := fun (x : Bool) => if x then 1 else 0
  [ (0, 64, h.deviceId.toNat), (64, 64, h.claim.toNat), (128, 64, h.seenClaim.toNat), (192, 64, h.seenId.toNat),
    (256, 32, h.hbSeq.toNat), (288, 2, h.role), (290, 2, h.sync), (292, 1, b h.split), (293, 1, b h.singleton),
    (294, 1, b h.preferred), (295, 1, b h.returnRequest), (296, 1, b h.handoffReady), (297, 1, b h.fabricOk),
    (298, 1, b h.ringOk), (299, 1, b h.ringWhole), (300, 1, b h.fullResync), (304, 8, h.ringHops), (312, 8, h.resyncPct),
    (320, 32, h.pendingPages), (352, 16, h.engineFail), (368, 16, h.loopbackFail), (384, 32, h.patrolCe),
    (416, 32, h.patrolUe), (448, 8, h.patrolPct) ]

/-- A heartbeat body. -/
def hbLine (h : Heartbeat) : Line := BitVec.ofNat 512 (packBits (hbFields h))

/-- The heartbeat that a data unit carries. -/
def hbOfLine (x : Line) : Heartbeat :=
  { deviceId := BitVec.ofNat 64 (field x 0 64), claim := BitVec.ofNat 64 (field x 64 64),
    seenClaim := BitVec.ofNat 64 (field x 128 64), seenId := BitVec.ofNat 64 (field x 192 64),
    hbSeq := BitVec.ofNat 32 (field x 256 32), role := field x 288 2, sync := field x 290 2, split := bit x 292,
    singleton := bit x 293, preferred := bit x 294, returnRequest := bit x 295, handoffReady := bit x 296,
    fabricOk := bit x 297, ringOk := bit x 298, ringWhole := bit x 299, fullResync := bit x 300,
    ringHops := field x 304 8, resyncPct := field x 312 8, pendingPages := field x 320 32, engineFail := field x 352 16,
    loopbackFail := field x 368 16, patrolCe := field x 384 32, patrolUe := field x 416 32, patrolPct := field x 448 8 }

/-- Pages of the paired regions, as (entry, page), in ascending order. -/
def Dev.pairPages (d : Dev) : List (Nat × Nat) :=
  (d.pair.entries.filter (fun e => e.2.valid)).flatMap (fun e =>
    match tget d.regions e.2.region with
    | some r => (List.range (r.extents.length * extentPages)).map (fun p => (e.1, p))
    | none => [])

/-- Lines of the paired regions, without listing them. -/
def Dev.pairLines (d : Dev) : Nat :=
  ((d.pair.entries.filter (fun e => e.2.valid)).map (fun e =>
    match tget d.regions e.2.region with
    | some r => r.extents.length * slotLines
    | none => 0)).sum

/-- The health record of this device (Table 13.4). -/
def Dev.ownHb (d : Dev) : Heartbeat :=
  let p := d.pair
  { deviceId := Config.deviceId, claim := p.claim, seenClaim := p.seenClaim, seenId := p.seenId, hbSeq := p.hbSeq,
    role := roleCode p.role, sync := syncCode p.sync, split := p.split, singleton := p.singleton,
    preferred := d.sys.straps.pairPref, returnRequest := p.returnRequest, handoffReady := p.handoffReady,
    fabricOk := !p.fabric.failed, ringOk := !p.ring.failed, ringWhole := p.ringWhole, fullResync := p.fullResync,
    ringHops := p.ringHops,
    resyncPct := (match p.resync with
      | some r => if r.total = 0 then 100 else (r.total - r.todo.length) * 100 / r.total
      | none => if p.sync = .synced then 100 else 0),
    pendingPages := min 0xFFFFFFFF p.pendingPages.length, engineFail := min 0xFFFF p.engineFail,
    loopbackFail := min 0xFFFF p.loopbackFail, patrolCe := min 0xFFFFFFFF p.patrolCe, patrolUe := min 0xFFFFFFFF p.patrolUe,
    patrolPct := if d.pairLines = 0 then 0 else p.patrolPos * 100 / d.pairLines }

/-! ## Clients of mirror writes (R317, R329) -/

/-- A client's write is complete, with a status (R317). -/
def Dev.mirrorClient (d : Dev) (c : WinReq) (st : Status) : Dev :=
  match c with
  | .job id =>
    match d.job id with
    | some j =>
      if st = .ok then d else d.putJob { j with result := j.result.map (fun r => { r with status := st }) }
    | none => d
  | .packet _ p => d.reply p st (if st = .ok ∧ p.kind = .atomic then p.data else [])
  | .hostWrite h _ _ => if st = .ok then d.emit (.cxlDone h) else d.cxlRefuse h st false 0 none
  | _ => d

/-- Set `handoff_ready` once a quiesced active has completed its writes (R329). -/
def Dev.tryHandoff (d : Dev) : Dev :=
  if d.pair.quiescing && !d.pair.handoffReady && d.pair.mirrors == [] then
    d.modPair (fun p => { p with handoffReady := true, quiescedAt := d.now })
  else d

/-- Remove a client's mirror writes and complete it. -/
def Dev.endClient (d : Dev) (c : WinReq) (st : Status) : Dev :=
  ((d.modPair (fun p => { p with mirrors := p.mirrors.filter (fun m => m.client != c) })).mirrorClient c st).tryHandoff

/-- Writes whose mirror failed, held by an active that serves no longer, complete with FENCED (R316, R325). -/
def Dev.dropFailed (d : Dev) : Dev :=
  (((d.pair.mirrors.filter (fun m => m.failed)).map (fun m => m.client)).dedup).foldl (fun e c => e.endClient c .fenced) d

/-! ## Keys (R314, R325) -/

/-- Record a key above the seen key (R314). -/
def Dev.seeKey (d : Dev) (claim id : U64) : Dev :=
  if d.seenKey < claim.toNat * 18446744073709551616 + id.toNat then
    d.modPair (fun p => { p with seenClaim := claim, seenId := id })
  else d

/-- An ACTIVE device sees a higher key: it stops serving (R325). -/
def Dev.demote (d : Dev) (claim id : U64) : Dev :=
  if d.pair.role = .active then
    ((d.modPair (fun p => { p with
      role := .standby, sync := if p.handoffReady then p.sync else .unsynced
      fullResync := p.fullResync || !p.handoffReady, superseded := !p.handoffReady
      quiescing := false, handoffReady := false, alone := false, isolated := false, holdSince := none, resync := none })).raise
      { code := .pairDemoted, detail0 := some claim, detail1 := some id }).dropFailed
  else d

/-- Check a received key under R314 and R325. -/
def Dev.checkKey (d : Dev) (claim id : U64) : Dev :=
  let above := decide (d.ownKey < claim.toNat * 18446744073709551616 + id.toNat)
  let d1 := d.seeKey claim id
  if above then d1.demote claim id else d1

/-- Take control with a claim above every claim seen (R323, R327, R329). The new key becomes the seen key (log entry 23). -/
def Dev.takeControl (d : Dev) (ev : EvCode) (forced : Bool) (sync : Sync) : Dev :=
  let c : U64 := (if d.pair.claim.toNat < d.pair.seenClaim.toNat then d.pair.seenClaim else d.pair.claim) + 1
  (d.modPair (fun p => { p with
    claim := c, seenClaim := c, seenId := Config.deviceId, role := .active, sync := sync
    alone := sync != .synced, isolated := false, returnRequest := false, bothFailedAt := none, superseded := false })).raise
    { code := ev, detail0 := some c, detail1 := if ev = .pairTakeover then some (if forced then 1 else 0) else none }

/-- `enable`: clearing it sets `role` OFFLINE; a change from 0 to 1 makes the device STANDBY, UNSYNCED, with a full resync
(R313). -/
def Dev.pairEnable (d : Dev) (on : Bool) : Dev :=
  if on && !d.pair.enable then
    d.modPair (fun p => { p with enable := true, role := .standby, sync := .unsynced, fullResync := true })
  else if on then d
  else (d.modPair (fun p => { p with
    enable := false, role := .offline, quiescing := false, handoffReady := false, returnRequest := false, holdSince := none
    alone := false, resync := none })).dropFailed

/-! ## Mirror acknowledgements (R317, R319, R324) -/

/-- Mark a page of a paired region as written without a mirror (R324). -/
def Dev.markPage (d : Dev) (r page : Nat) : Dev :=
  if d.pair.pendingPages.contains (r, page) then d
  else d.modPair (fun p => { p with pendingPages := p.pendingPages ++ [(r, page)] })

/-- The active serves alone: writes whose mirror failed are marked and complete with OK (R324). -/
def Dev.serveAlone (d : Dev) : Dev :=
  let failed := d.pair.mirrors.filter (fun m => m.failed)
  let d1 := d.modPair (fun p => { p with
    alone := true, sync := .unsynced, holdSince := none, mirrors := p.mirrors.filter (fun m => !m.failed) })
  let d2 := failed.foldl (fun e m => e.markPage m.region (m.offset / pageBytes)) d1
  (failed.map (fun m => m.client)).dedup.foldl (fun e c =>
    if e.pair.mirrors.any (fun m => m.client == c) then e else e.mirrorClient c .ok) d2

/-- A mirror write is answered (R317, R319, R324). An active that already serves alone holds
nothing more. On a device that is no longer ACTIVE, a write that was not acknowledged completes with FENCED (R316). -/
def Dev.mirrorAnswer (d : Dev) (id : Nat) (st : Status) : Dev :=
  match d.pair.mirrors.find? (fun m => m.id == id) with
  | none => d
  | some m =>
    if st = .ok then
      let d1 := d.modPair (fun p => { p with mirrors := p.mirrors.filter (fun x => x.id != id) })
      if d1.pair.mirrors.any (fun x => x.client == m.client) then d1 else (d1.mirrorClient m.client .ok).tryHandoff
    else if st = .fenced then (d.demote d.pair.seenClaim d.pair.seenId).endClient m.client .fenced
    else if d.pair.role = .active then (if d.pair.alone then (d.mirrorFailed id).serveAlone else d.mirrorFailed id)
    else d.endClient m.client .fenced

/-- MIRROR_HOLD_END (R324). -/
def execMirrorHoldEnd (s : State) : Host.Outcome State Fault Refusal :=
  devStep (fun d =>
    match d.pair.holdSince with
    | some t => (d.reach (t + d.pair.discMs * 1000000)).serveAlone
    | none => d) s

/-! ## Resync (R328) -/

/-- Send one page to the partner: its good lines, in MIRROR_WRITEs of at most 32 lines. -/
def Dev.sendPage (d : Dev) (e pg : Nat) : Dev :=
  let r := (tgetD d.pair.entries e {}).region
  let ((_, xs, _), d1) := d.readBurst (.region r (pg * pageBytes)) (List.range pageLines)
  (goodRuns xs).foldl (fun f x =>
    match f.request .device .resync (f.mirrorPacket r (pg * pageBytes + 64 * x.1) x.2) with
    | (some _, g) => g
    | (none, g) => g.modPair (fun p => { p with sync := .unsynced })) d1

/-- The resync is done (R328). -/
def Dev.resyncDone (d : Dev) (rs : Resync) : Dev :=
  (d.modPair (fun p => { p with resync := none, pendingPages := [], fullResync := false, sync := .synced, alone := false })).raise
    { code := .pairResyncDone, detail0 := some (BitVec.ofNat 64 rs.total), detail1 := some (if rs.full then 1 else 0) }

/-- Copy the next page of the resync, or end it. -/
def Dev.resyncNext (d : Dev) (rs : Resync) : Dev :=
  match rs.todo with
  | [] => d.resyncDone rs
  | (e, pg) :: _ => (d.modPair (fun p => { p with resync := some rs })).sendPage e pg

/-- Whether a resync may start (R328). -/
def Dev.resyncReady (d : Dev) : Bool :=
  d.pair.enable && d.pair.role == .active && d.pair.sync == .unsynced && !d.pair.fabric.failed && !d.pair.ring.failed &&
  (match d.pair.partner with
   | some h => h.role == 1
   | none => false)

/-- Put a page into an ascending list of pages, once. -/
def insertPage (x : Nat × Nat) : List (Nat × Nat) → List (Nat × Nat)
  | [] => [x]
  | y :: r => if x = y then y :: r else if x.1 < y.1 ∨ x.1 = y.1 ∧ x.2 < y.2 then x :: y :: r else y :: insertPage x r

/-- Pages with a pending bit, as (entry, page). -/
def Dev.pendingOf (d : Dev) : List (Nat × Nat) :=
  (d.pair.entries.filter (fun e => e.2.valid)).flatMap (fun e =>
    (d.pair.pendingPages.filter (fun x => x.1 == e.2.region)).map (fun x => (e.1, x.2)))

/-- The pages that a resync copies: every page, or those with a pending bit. One that was broken off goes on at its cursor,
with the pages that have since been marked, unless a full copy has become due (R328). -/
def Dev.resyncPlan (d : Dev) : Resync :=
  let full := d.pair.fullResync || (match d.pair.partner with | some h => h.fullResync | none => false)
  let fresh := if full then d.pairPages else d.pendingOf.foldl (fun acc x => insertPage x acc) []
  match d.pair.resync with
  | some rs =>
    if full && !rs.full then { full := true, todo := fresh, total := fresh.length }
    else
      let todo := d.pendingOf.foldl (fun acc x => insertPage x acc) rs.todo
      { rs with todo := todo, total := rs.total + (todo.length - rs.todo.length) }
  | none => { full := full, todo := fresh, total := fresh.length }

/-- RESYNC_START (R328). -/
def execResyncStart (s : State) : Host.Outcome State Fault Refusal :=
  devStep (fun d => d.guard d.resyncReady (fun d =>
    let rs := d.resyncPlan
    ((d.modPair (fun p => { p with sync := .resync, alone := false, resync := some rs })).raise
      { code := .pairResyncStart, detail0 := some (BitVec.ofNat 64 rs.total), detail1 := some (if rs.full then 1 else 0) }).resyncNext rs)) s

/-- RESYNC_PAGE_DONE: the page's mirror writes are acknowledged (R328). -/
def execResyncPageDone (s : State) : Host.Outcome State Fault Refusal :=
  devStep (fun d =>
    match d.pair.resync with
    | some rs =>
      if d.pair.sync = .resync ∧ d.rt.reqs.all (fun r => r.purpose != .resync) then
        match rs.todo with
        | [] => d.resyncDone rs
        | (e, pg) :: rest =>
          (d.modPair (fun p => { p with
            pendingPages := p.pendingPages.filter (fun x => x != ((tgetD p.entries e {}).region, pg)) })).resyncNext
            { rs with todo := rest }
      else d
    | none => d) s

/-- An answer to a resync write: FENCED demotes, another failure breaks the resync off. -/
def Dev.resyncAnswer (d : Dev) (st : Status) : Dev :=
  if st = .ok then d
  else if st = .fenced then d.demote d.pair.seenClaim d.pair.seenId
  else d.modPair (fun p => { p with sync := if p.sync = .resync then .unsynced else p.sync })

/-! ## Paths (R321 to R323) -/

/-- What the state of the paths decides (Table 13.5). -/
def Dev.pairDecide (d : Dev) : Dev :=
  let p := d.pair
  let both := p.fabric.failed && p.ring.failed
  let one := p.fabric.failed != p.ring.failed
  if !p.enable then d
  else
    let d0 := if (p.fabric.failed || p.ring.failed) && p.sync == .resync then d.modPair (fun q => { q with sync := .unsynced }) else d
    if both then
      let d1 := d0.modPair (fun q => { q with split := false, disagreeSince := none })
      if p.role = .active then
        if p.ringWhole && !p.singleton then
          let d2 := d1.modPair (fun q => { q with isolated := false })
          if p.alone then d2 else d2.serveAlone
        else if p.isolated then d1
        else (d1.modPair (fun q => { q with isolated := true })).raise { code := .pairIsolated, detail0 := some p.claim }
      else d1
    else
      let d1 := d0.modPair (fun q => { q with isolated := false, bothFailedAt := none })
      if one then
        d1.modPair (fun q => { q with disagreeSince := if q.disagreeSince.isSome then q.disagreeSince else some d.now })
      else
        let d2 := d1.modPair (fun q => { q with split := false, disagreeSince := none })
        if p.split then
          d2.raise { code := .pairSplitCleared, detail0 := some (if p.ring.failedAt < p.fabric.failedAt then 0 else 1),
                     detail1 := some (BitVec.ofNat 64 ((d.now - p.disagreeSince.getD d.now) / 1000000)) }
        else d2

/-- A path at the end of a period (R321). -/
def Path.period (p : Path) (now : Nat) (may : Bool) : Path :=
  let missed := if p.seen then 0 else p.missed + 1
  let good := if p.seen then p.good + 1 else 0
  if p.failed then
    if decide (3 ≤ good) && may then { p with failed := false, missed := 0, good := good, seen := false }
    else { p with missed := missed, good := good, seen := false }
  else if 10 ≤ missed then { failed := true, missed := missed, good := 0, seen := false, lastSeq := none, failedAt := now }
  else { p with missed := missed, good := good, seen := false }

/-- The event of a path's change. -/
def Dev.pathEvent (d : Dev) (was is_ : Path) (n : U64) : Dev :=
  if was.failed = is_.failed then d
  else d.raise { code := if is_.failed then .pairPathFailed else .pairPathRestored, detail0 := some n }

/-- The end of a heartbeat period (R321, R322). -/
def Dev.heartbeatPeriod (d : Dev) : Dev :=
  if d.pair.enable then
    let f := d.pair.fabric.period d.now true
    let r := d.pair.ring.period d.now d.sys.straps.mringEn
    let was := d.pair
    let d1 := d.modPair (fun p => { p with fabric := f, ring := r })
    let d2 := (d1.pathEvent was.fabric f 0).pathEvent was.ring r 1
    let d3 := if f.failed && r.failed && !(was.fabric.failed && was.ring.failed)
      then d2.modPair (fun p => { p with bothFailedAt := some d.now }) else d2
    d3.pairDecide
  else d

/-- HEARTBEAT_PERIOD (R321). -/
def execHeartbeatPeriod (s : State) : Host.Outcome State Fault Refusal := liveStep Dev.heartbeatPeriod s

/-- DISCREPANCY_TIMER: SPLIT (R322). -/
def execDiscrepancyTimer (s : State) : Host.Outcome State Fault Refusal :=
  devStep (fun d =>
    match d.pair.disagreeSince with
    | some t =>
      if d.pair.split then d
      else
        let d1 := d.reach (t + d.pair.discMs * 1000000)
        (d1.modPair (fun p => { p with split := true })).raise
          { code := .pairSplit, detail0 := some (if d.pair.fabric.failed then 0 else 1),
            detail1 := some (BitVec.ofNat 64 ((d1.now - t) / 1000000)) }
    | none => d) s

/-- PAIR_TAKEOVER: 2 ms after both paths failed (R323). -/
def execPairTakeover (s : State) : Host.Outcome State Fault Refusal :=
  devStep (fun d =>
    match d.pair.bothFailedAt with
    | some t =>
      if d.pair.enable ∧ d.pair.role = .standby then
        let d1 := (d.reach (t + 2000000)).modPair (fun p => { p with bothFailedAt := none })
        if d.pair.sync ≠ .synced then
          d1.raise { code := .pairNoTakeover, detail0 := some (BitVec.ofNat 64 (syncCode d.pair.sync)),
                     detail1 := some (if d.sys.straps.mringEn then 1 else 0) }
        else if d.sys.straps.mringEn && d.pair.ringWhole && !d.pair.singleton then
          d1.takeControl .pairTakeover false .unsynced
        else d1
      else d
    | none => d) s

/-! ## Heartbeats (R320, R321, R329) -/

/-- Whether heartbeats are sent (R320, R381). -/
def Dev.beats (d : Dev) : Bool :=
  d.pair.enable && !d.sys.inDome && !d.sys.islandsOff && d.sys.stage == .running

/-- HEARTBEAT_SEND (R320, R330). -/
def Dev.heartbeatSend (d : Dev) : Dev :=
  if d.beats then
    let d1 := d.modPair (fun p => { p with hbSeq := p.hbSeq + 1 })
    let hb := d1.ownHb
    let d2 := d1.sendBack { tc := 6, flowTc := 6, kind := .heartbeat, dstEp := d.pair.partnerEp, data := [hbLine hb] }
    if d.sys.straps.mringEn then d2.emit (.ringMsg hb 0) else d2
  else d

/-- HEARTBEAT_SEND (R320). -/
def execHeartbeatSend (s : State) : Host.Outcome State Fault Refusal := devStep Dev.heartbeatSend s

/-- The standby takes over what the active says of its copy, except SYNCED against its own `full_resync` (log entry 24);
once SYNCED, a claim of its own that was superseded is reported (R326). -/
def Dev.followSync (d : Dev) (hb : Heartbeat) : Dev :=
  if d.pair.role = .standby ∧ hb.role = 2 ∧ !(d.pair.fullResync && d.pair.sync == .unsynced && hb.sync == 2) then
    let now_ := syncOf hb.sync
    let d1 := d.modPair (fun p => { p with sync := now_, fullResync := p.fullResync && now_ != .synced })
    if d.pair.superseded && now_ == .synced then
      (d1.modPair (fun p => { p with superseded := false, pendingPages := [] })).raise
        { code := .pairClaimSuperseded, detail0 := some (BitVec.ofNat 64 d.pair.pendingPages.length) }
    else d1
  else d

/-- Return and handoff requests (R329). -/
def Dev.followReturn (d : Dev) (hb : Heartbeat) : Dev :=
  let mine := d.sys.straps.pairPref
  if hb.preferred = mine then
    if d.pair.prefRaised then d
    else (d.modPair (fun p => { p with prefRaised := true })).raise { code := .pairPrefConflict, detail0 := some hb.deviceId }
  else if d.pair.role = .active ∧ hb.returnRequest ∧ !mine then
    if d.pair.quiescing then d.tryHandoff
    else (d.modPair (fun p => { p with quiescing := true, quiescedAt := d.now })).tryHandoff
  else if d.pair.role = .standby ∧ mine ∧ d.pair.returnRequest ∧ hb.handoffReady then
    d.takeControl .pairReturn false .synced
  else d

/-- A heartbeat of the partner arrives on a path (R321): it counts where its number is above the last accepted. -/
def Dev.takeHeartbeat (d : Dev) (ring : Bool) (hb : Heartbeat) : Dev :=
  let path := if ring then d.pair.ring else d.pair.fabric
  let fresh := match path.lastSeq with
    | some n => decide (n.toNat < hb.hbSeq.toNat)
    | none => true
  if d.pair.enable && hb.deviceId == d.pair.partnerId && fresh then
    let path' := { path with seen := true, lastSeq := some hb.hbSeq }
    let d1 := d.modPair (fun p => if ring then { p with ring := path', partner := some hb } else { p with fabric := path', partner := some hb })
    (((d1.checkKey hb.claim hb.deviceId).checkKey hb.seenClaim hb.seenId).followSync hb).followReturn hb
  else d

/-- Whether a return may be asked for (R329). -/
def Dev.mayReturn (d : Dev) : Bool :=
  d.pair.enable && d.pair.role == .standby && d.pair.sync == .synced && d.sys.straps.pairPref && !d.pair.returnRequest &&
  (match d.pair.partner with
   | some h => !h.preferred
   | none => false)

/-- Ask for control back. -/
def Dev.askReturn (d : Dev) : Dev := d.modPair (fun p => { p with returnRequest := true, requestAt := d.now })

/-- RETURN_REQUEST (R329). -/
def execReturnRequest (s : State) : Host.Outcome State Fault Refusal :=
  devStep (fun d => d.guard (d.mayReturn && d.pair.retryAt.isNone) Dev.askReturn) s

/-- RETURN_TIMEOUT (R329). -/
def execReturnTimeout (s : State) : Host.Outcome State Fault Refusal :=
  devStep (fun d => d.guard d.pair.returnRequest (fun d =>
    let d1 := d.reach (d.pair.requestAt + 100000000)
    (d1.modPair (fun p => { p with returnRequest := false, retryAt := some (d1.now + 10000000000) })).raise
      { code := .pairReturnAbandoned })) s

/-- RETURN_RETRY (R329). -/
def execReturnRetry (s : State) : Host.Outcome State Fault Refusal :=
  devStep (fun d =>
    match d.pair.retryAt with
    | some t =>
      let d1 := (d.reach t).modPair (fun p => { p with retryAt := none })
      d1.guard d1.mayReturn Dev.askReturn
    | none => d) s

/-- HANDOFF_TIMEOUT (R329). -/
def execHandoffTimeout (s : State) : Host.Outcome State Fault Refusal :=
  devStep (fun d => d.guard d.pair.quiescing (fun d =>
    (d.reach (d.pair.quiescedAt + 100000000)).modPair (fun p => { p with quiescing := false, handoffReady := false }))) s

/-! ## The management ring (R330 to R332) -/

/-- A message of this device has come round (R331). -/
def Dev.ownMessage (d : Dev) (hops : Nat) : Dev :=
  let d1 := d.modPair (fun p => { p with
    ownReturn := some d.now, ringHops := hops, ringWhole := true, brokenRaised := false, singleton := hops == 0 })
  let d2 := if hops = 0 ∧ d.pair.singleton = false then d1.raise { code := .pairSingleton } else d1
  d2.pairDecide

/-- A ring message (R330). -/
def Dev.ringMessage (d : Dev) (hb : Heartbeat) (hops : Nat) (crcOk : Bool) : Dev :=
  if !crcOk || !d.sys.straps.mringEn then d
  else if hb.deviceId = Config.deviceId then d.ownMessage hops
  else if 63 ≤ hops then d
  else
    let d1 := d.emit (.ringMsg hb (hops + 1))
    if hb.deviceId = d.pair.partnerId then d1.takeHeartbeat true hb else d1

/-- RING_MESSAGE_RECEIVE (R330). -/
def execRingMessageReceive (hb : Heartbeat) (hops : Nat) (crcOk : Bool) (s : State) : Host.Outcome State Fault Refusal :=
  devStep (fun d => d.ringMessage hb hops crcOk) s

/-- RING_WHOLE_TIMER: 2 ms without the device's own message end wholeness, 3 ms raise RING_BROKEN (R331). -/
def execRingWholeTimer (s : State) : Host.Outcome State Fault Refusal :=
  devStep (fun d =>
    let t := d.pair.ownReturn.getD d.sys.startedAt
    if d.pair.ringWhole then
      ((d.reach (t + 2000000)).modPair (fun p => { p with ringWhole := false })).pairDecide
    else if d.pair.brokenRaised then d
    else ((d.reach (t + 3000000)).modPair (fun p => { p with brokenRaised := true })).raise { code := .ringBroken }) s

/-- The bypass pin closed: driven low, or left at high impedance where STRAP_MRING_EN is low (R332). -/
def Sys.closeBypass (x : Sys) : Sys := { x with mringByp := if x.straps.mringEn then .low else .hiZ }

/-- MRING_LOCK_LOSS (R332). -/
def execMringLockLoss (s : State) : Host.Outcome State Fault Refusal :=
  devStep (fun d => ({ d with sys := d.sys.closeBypass }).modPair (fun p => { p with ringLock := false })) s

/-- MRING_LOCK_GAIN: after 100 µs of lock the bypass is opened (R332, R381). -/
def execMringLockGain (s : State) : Host.Outcome State Fault Refusal :=
  devStep (fun d => d.guard d.sys.straps.mringEn (fun d =>
    let d1 := d.reach (d.now + 100000)
    ({ d1 with sys := { d1.sys with mringByp := .high } }).modPair (fun p => { p with ringLock := true }))) s

/-- PORT_LOOPBACK_TEST: each DISABLED or ABSENT port of a standby (R333). -/
def execPortLoopbackTest (failing : U32) (s : State) : Host.Outcome State Fault Refusal :=
  devStep (fun d => d.guard (d.pair.enable && d.pair.role == .standby) (fun d =>
    d.modPair (fun p => { p with loopbackFail := ((bitsOf failing).filter (fun n =>
      (d.port n).state == .disabled || (d.port n).state == .absent)).length }))) s

end Sys2Proof.Machine
end

