-- ==== Sys2Proof/Machine/Routing.lean ====
section
/-! DEFINITION. Packets that arrive: reordering and loss, the ingress steps, replies and notices, transit, spraying,
gates and telemetry (Chapter 9). -/

namespace Sys2Proof.Machine

open Sys2Proof

/-- Change the routing layer. -/
def Dev.modRt (d : Dev) (f : Routing → Routing) : Dev := { d with rt := f d.rt }

/-! ## Answers to requests (R212, R218, R220) -/

/-- An outstanding request ends with a status and data. -/
def Dev.answer (d : Dev) (r : OutReq) (st : Status) (data : List Line) : Dev :=
  let d1 := d.dropReq r.tag
  match r.purpose with
  | .moverRead job off => d1.chainAnswer job r.tag (some off) st data
  | .moverWrite job => d1.chainAnswer job r.tag none st []
  | .mirror id => d1.mirrorAnswer id st
  | .resync => d1.resyncAnswer st
  | .huanik => d1

/-- A reply (R212, R337). -/
def Dev.takeReply (d : Dev) (p : Packet) : Dev :=
  match d.rt.reqs.find? (fun r => r.tag == p.reqTag && r.pkt.dstEp == p.srcEp) with
  | none => d.bump .rtUnmatched
  | some r =>
    if p.gen = d.domGen r.unit then d.answer r (statusOfCode p.status) p.data
    else (d.bump .rtUnmatched).bump (.rstStaleReplies (domKind r.unit))

/-- Resend an outstanding request once, or end it (Table 9.8): a second loss is TIMEOUT, a resend that cannot leave is
LINK_DOWN. -/
def Dev.resendOnce (d : Dev) (r : OutReq) : Dev :=
  if r.resent then d.answer r .timeout []
  else
    let (ok, d1) := d.resend r
    if ok then d1 else d1.answer r .linkDown []

/-- What the sender does about one lost packet (Table 9.8). -/
def Dev.onLost (d : Dev) (rec_ : SendRec) : Dev :=
  let req := d.rt.reqs.find? (fun r => r.tag == rec_.pkt.reqTag && r.pkt.dstEp == rec_.pkt.dstEp && r.pkt.flowSeq == rec_.seq)
  match rec_.pkt.kind with
  | .read | .write | .mirrorWrite =>
    match req with
    | some r => d.resendOnce r
    | none => d
  | .writePartial =>
    if rec_.pkt.posted then if rec_.pkt.retry then d else (d.originate { rec_.pkt with retry := true } true).2.bump .rtResent
    else match req with
      | some r => d.answer r .timeout []
      | none => d
  | .atomic =>
    match req with
    | some r => d.answer r .timeout []
    | none => d
  | .readReply | .writeAck | .atomicReply =>
    d.sendBack { tc := 7, flowTc := 7, kind := .replyLost, dstEp := rec_.pkt.dstEp, reqTag := rec_.pkt.reqTag, gen := rec_.pkt.gen }
  | _ => d

/-- The first number, class and count of a LOST or SKIP notice (Table 9.3). -/
def noticeOf (p : Packet) : U24 × Nat × Nat := (BitVec.ofNat 24 (field p.addr 0 24), field p.addr 24 3, field p.addr 32 16)

/-- The numbers that a notice names. -/
def noticeSeqs (p : Packet) : List U24 := (List.range (noticeOf p).2.2).map (fun i => (noticeOf p).1 + BitVec.ofNat 24 i)

/-- A LOST notice: each number it names that was sent within 200 µs (R218). -/
def Dev.takeLost (d : Dev) (p : Packet) : Dev :=
  let fl : FlowId := { src := d.selfEp, dst := p.srcEp, tc := (noticeOf p).2.1 }
  let recs := (noticeSeqs p).map (fun n => d.rt.records.find? (fun r => r.flow == fl && r.seq == n && decide (d.now ≤ r.sentAt + 200000)))
  let d1 := recs.foldl (fun e r =>
    match r with
    | some x => e.onLost x
    | none => e) d
  if recs.any Option.isNone then d1.bump .rtNoticeIgnored else d1

/-- A REPLY_LOST notice (Table 9.8); a MIRROR_WRITE is resent as a WRITE is (log entry 25). -/
def Dev.takeReplyLost (d : Dev) (p : Packet) : Dev :=
  match d.rt.reqs.find? (fun r => r.tag == p.reqTag && r.pkt.dstEp == p.srcEp && r.pkt.gen == p.gen) with
  | none => d
  | some r =>
    match r.pkt.kind with
    | .read | .write | .mirrorWrite => d.resendOnce r
    | _ => d.answer r .timeout []

/-! ## The ingress steps (R207, R210) -/

/-- Whether a kind is a request. -/
def isRequest (k : PktKind) : Bool :=
  match k with
  | .read | .write | .writePartial | .atomic | .mirrorWrite => true
  | _ => false

/-- The operands of a Swearis ATOMIC (R247): operand, compare, offset. -/
def atomicUnit (x : Line) : Nat × Nat × Nat := (field x 0 64, field x 64 64, field x 128 8)

/-- Whether a request is malformed (R207). -/
def badRequest (p : Packet) : Bool :=
  p.addr.toNat % 64 != 0 || p.rsvd || p.status != 0 || p.units != p.data.length ||
  (match p.kind with
   | .read => p.units != 0 || p.lines == 0 || decide (32 < p.lines)
   | .write | .mirrorWrite => p.units == 0 || decide (32 < p.units) || p.lines != 0
   | _ => p.units != 1 || p.lines != 0) ||
  (if p.kind = .writePartial then p.byteEn == 0 else p.byteEn != 0 || p.posted) ||
  (if p.kind = .mirrorWrite then false else p.claim != 0) ||
  (if p.kind = .atomic then
    let x := p.data.headD 0
    let (operand, compare, _) := atomicUnit x
    field x 136 376 != 0 || atomicBad p.atomicOp.toNat operand compare
   else p.atomicOp != 0)

/-- The context that a job and a window name for a rank (R208). -/
def Dev.windowCtx (d : Dev) (job window rank : Nat) : Option Nat :=
  (d.wins.find? (fun w => w.2.job == job && w.2.window == window && decide (w.2.rankLo ≤ rank) && decide (rank ≤ w.2.rankHi))).map
    (fun w => w.2.context)

/-- Lines that a request moves (R227). -/
def costOf (p : Packet) : Nat :=
  match p.kind with
  | .read => p.lines
  | .write | .mirrorWrite => p.units
  | _ => 1

/-- Ingress policing of partition `part` at port `n` (R227). -/
def Dev.police (d : Dev) (n part cost : Nat) : Bool × Dev :=
  let v := d.param 0x0024 (32 * n + part)
  let rate := field v 0 11
  let depth := 640 * field v 16 15
  if rate = 0x7FF then (true, d)
  else
    let b := tgetD (d.port n).buckets part { level := depth, at_ := d.now }
    let level := min depth (b.level + rate * (d.now - b.at_))
    if 640 * cost ≤ level then
      (true, d.modPort n (fun x => { x with buckets := tset x.buckets part { level := level - 640 * cost, at_ := d.now } }))
    else
      (false, (d.modPort n (fun x => { x with buckets := tset x.buckets part { level := level, at_ := d.now } })).bump (.swPoliceDrop n part))

/-- How the first ingress steps leave a request: dropped and counted, refused with a status, or let through to a context. -/
inductive Admit where
  | drop
  | refuse (st : Status)
  | pass (ctx : Nat)
deriving DecidableEq, Repr

/-- Steps 1 to 4 of Table 9.7. A request to a partition in a tenant change is refused with RIGHTS (R263;
log entry 27). -/
def Dev.letIn (d : Dev) (n : Nat) (p : Packet) : Admit × Dev :=
  if d.rankEp p.job p.srcRank ≠ some p.srcEp then (.drop, d.bump .rtSpoof)
  else if badRequest p then (.refuse .format, d)
  else match d.windowCtx p.job p.window p.srcRank with
    | none => (.refuse .rights, d)
    | some c =>
      if !(d.context c).valid || d.tenantChanging (d.context c).partition then (.refuse .rights, d)
      else
        let (ok, d1) := d.police n (d.context c).partition (costOf p)
        if ok then (.pass c, d1) else (.drop, d1)

/-- The right that a kind needs (Table 9.3). -/
def rightOf (k : PktKind) : Right :=
  match k with
  | .read => .r
  | .atomic => .a
  | _ => .w

/-- Bytes of the access of a request. -/
def spanOf (p : Packet) : Nat := 64 * costOf p

/-- The 8-byte aligned word that a posted doorbell write enables, if its enables are such. -/
def doorbellWord (p : Packet) : Option Nat :=
  (List.range 8).find? (fun k => p.byteEn == BitVec.ofNat 64 (255 * 2 ^ (8 * k)))

/-- Write lines in order. -/
def Dev.saveLines (d : Dev) (r off : Nat) : List Line → Status × Dev
  | [] => (.ok, d)
  | x :: xs =>
    let (st, d1) := d.save r off x
    if st = .ok then Dev.saveLines d1 r (off + 64) xs else (st, d1)

/-- A MIRROR_WRITE that passed the ingress steps (R318, Table 13.3). A device that is OFFLINE answers FENCED (R316). -/
def Dev.takeMirror (d : Dev) (p : Packet) (r off : Nat) : Status × Dev :=
  let claim : U64 := BitVec.ofNat 64 (field p.claim 64 64)
  let id : U64 := BitVec.ofNat 64 (field p.claim 0 64)
  let old := d.seenKey
  if p.srcEp ≠ d.pair.partnerEp then (.rights, d)
  else if p.claim.toNat < old then (.fenced, d)
  else
    let d1 := d.checkKey claim id
    if d.pair.role = .standby then d1.saveLines r off p.data else (.fenced, d1)

/-- Carry out a request in a REGION segment (R11). -/
def Dev.perform (d : Dev) (ctx : Nat) (p : Packet) : (Status × List Line) × Dev :=
  match d.locate ctx p.addr.toNat (spanOf p) (rightOf p.kind) with
  | .error st => ((st, []), d)
  | .ok (r, off) =>
    match p.kind with
    | .read => let (st, xs, d1) := d.loadLines r ((List.range p.lines).map (fun i => off / 64 + i)); ((st, if st = .ok then xs else []), d1)
    | .write => let (st, d1) := d.saveLines r off p.data; ((st, []), d1)
    | .writePartial =>
      let (st, d1) := if p.byteEn = BitVec.allOnes 64 then d.save r off (p.data.headD 0) else d.merge r off (p.data.headD 0) p.byteEn
      ((st, []), d1)
    | .atomic =>
      let (operand, compare, o) := atomicUnit (p.data.headD 0)
      if o % (if bit p.atomicOp 4 then 8 else 4) ≠ 0 ∨ 60 < o then ((.format, []), d)
      else
        let (st, old, d1) := d.atomicAt r (off + o) p.atomicOp.toNat operand compare
        ((st, if st = .ok then [BitVec.ofNat 512 old] else []), d1)
    | _ => ((.format, []), d)

/-- Steps 5 to 7 of Table 9.7 and the request's execution. A request that lands in a REMOTE segment is refused with RIGHTS:
Table 9.7 names no status for it (DESIGN CHOICE, log entry 12). -/
def Dev.execute (d : Dev) (ctx : Nat) (p : Packet) : (Status × List Line) × Dev :=
  match segOf (d.context ctx) p.addr.toNat with
  | none => ((.bounds, []), d)
  | some s =>
    if !segCovers s p.addr.toNat (spanOf p) then ((.bounds, []), d)
    else if !segGrants s (rightOf p.kind) || (p.kind == .mirrorWrite && s.kind != .region) then ((.rights, []), d)
    else match s.kind with
      | .doorbell =>
        match (if p.kind = .writePartial ∧ p.posted then doorbellWord p else none) with
        | none => ((.format, []), d)
        | some k =>
          ((.ok, []), d.ringDoorbell
            { ctx := ctx, off := s.targetOff + (p.addr.toNat - s.base) + 8 * k, len := 8,
              value := BitVec.ofNat 64 (field (p.data.headD 0) (64 * k) 64) })
      | .region =>
        if p.kind = .mirrorWrite then
          let (st, d1) := d.takeMirror p s.targetId (s.targetOff + (p.addr.toNat - s.base))
          ((st, []), d1)
        else d.perform ctx p
      | _ => ((.rights, []), d)

/-- A posted request that fails a check is counted (R207). -/
def Dev.refusePosted (d : Dev) (st : Status) : Dev :=
  if st = .format ∨ st = .rights ∨ st = .bounds then d.bump .rtMalformedDrop else d

/-- A request for this endpoint: the ingress steps, its translation, its execution, and its reply; a reply to a mirrored write waits for
the mirror (R15, R210, R317). -/
def Dev.takeRequest (d : Dev) (n : Nat) (p : Packet) : Dev :=
  match d.letIn n p with
  | (.drop, d1) => d1
  | (.refuse st, d1) => if p.posted then d1.refusePosted st else d1.reply p st []
  | (.pass c, d0) =>
    let d1 : Dev := { d0.transFill n c p.addr.toNat with stream := .port n c }
    let ((st, out), d2) := d1.execute c p
    let d3 := if d2.pair.nextMirror = d1.pair.nextMirror then d2
      else (d2.claimMirrors d1.pair.nextMirror (.packet n { p with data := out })).flushMirrors d1.pair.nextMirror
    if p.posted then d3.refusePosted st
    else if d2.pair.nextMirror = d1.pair.nextMirror then d3.reply p st out
    else d3

/-! ## Reordering (R216, R217, R219, R221) -/

/-- The state of a flow at this destination. -/
def Dev.flow (d : Dev) (f : FlowId) : Option FlowRx := d.rt.flows.find? (fun x => x.flow == f)

/-- Put the state of a flow. -/
def Dev.putFlow (d : Dev) (x : FlowRx) : Dev :=
  d.modRt (fun r => { r with flows := x :: r.flows.filter (fun y => y.flow != x.flow) })

/-- The partition a held packet is charged to (R216): that of the valid context that a request's job and window name, or that of the unit
whose request a reply answers; none where there is no such partition. -/
def Dev.chargeOf (d : Dev) (p : Packet) : Option Nat :=
  if isRequest p.kind then
    (d.wins.find? (fun w => w.2.job == p.job && w.2.window == p.window)).bind (fun w =>
      if (d.context w.2.context).valid then some (d.context w.2.context).partition else none)
  else
    match d.rt.reqs.find? (fun r => r.tag == p.reqTag) with
    | some r =>
      match r.purpose with
      | .moverRead job _ => (d.job job).map Job.partition
      | .moverWrite job => (d.job job).map Job.partition
      | _ => none
    | none => none

/-- What the packets held for reordering are charged to. -/
def Dev.heldCharges (d : Dev) : List (Option Nat) := d.rt.flows.flatMap (fun f => f.held.map HeldPkt.part)

/-- Slots of the common part that a number of packets of one partition takes. -/
def commonUse (n : Nat) : Nat := n - 2048

/-- Whether a packet with a charge finds a slot of the reorder buffer (R216). -/
def Dev.reorderRoom (d : Dev) (charge : Option Nat) : Bool :=
  let charges := d.heldCharges
  let mine := charges.filter (fun c => c == charge)
  let common := (charges.filter (fun c => c.isNone)).length +
    ((List.range 32).map (fun q => commonUse (charges.filter (fun c => c == some q)).length)).sum
  match charge with
  | none => decide (common < 65536)
  | some _ => decide (mine.length < 2048) || (decide (commonUse mine.length < 32768) && decide (common < 65536))

/-- Advance the expected number over what is held or declared lost: the packets delivered, and the state after. -/
def FlowRx.advance (x : FlowRx) : Nat → List (Nat × Packet) × FlowRx
  | 0 => ([], x)
  | n + 1 =>
    if x.gone.contains x.e then
      FlowRx.advance { x with e := x.e + 1, gone := x.gone.filter (fun g => g != x.e), missing := x.missing.filter (fun m => m.1 != x.e) } n
    else match x.held.find? (fun h => h.pkt.flowSeq == x.e) with
      | some h =>
        let (ps, y) := FlowRx.advance { x with e := x.e + 1, held := x.held.erase h } n
        ((h.port, h.pkt) :: ps, y)
      | none => ([], x)

/-- Advance a flow as far as it goes. -/
def FlowRx.settle (x : FlowRx) : List (Nat × Packet) × FlowRx := x.advance (x.held.length + x.gone.length)

/-- Numbers from `e` below distance `k` that are neither held nor lost nor yet missing begin to be missing. -/
def FlowRx.miss (x : FlowRx) (k now : Nat) : FlowRx :=
  let ns := ((List.range k).map (fun i => x.e + BitVec.ofNat 24 i)).filter (fun s =>
    !x.held.any (fun h => h.pkt.flowSeq == s) && !x.gone.contains s && !x.missing.any (fun m => m.1 == s))
  { x with missing := x.missing ++ ns.map (fun s => (s, now)) }

/-- A packet of a flow arrives (R216): the packets delivered now, and the device. -/
def Dev.reorder (d : Dev) (n : Nat) (p : Packet) : List (Nat × Packet) × Dev :=
  let fl : FlowId := { src := p.srcEp, dst := p.dstEp, tc := p.flowTc }
  let x : FlowRx := match d.flow fl with
    | some y => if p.sync then { flow := fl, e := p.flowSeq } else y
    | none => { flow := fl, e := p.flowSeq }
  let k := (p.flowSeq - x.e).toNat
  if k = 0 then
    let (ps, y) := { x with e := x.e + 1, missing := x.missing.filter (fun m => m.1 != x.e) }.settle
    ((n, p) :: ps, d.putFlow y)
  else if 8388608 ≤ k ∨ x.gone.contains p.flowSeq ∨ x.held.any (fun h => h.pkt.flowSeq == p.flowSeq) then
    ([], (d.putFlow x).bump .rtLate)
  else
    let x1 := x.miss k d.now
    if d.reorderRoom (d.chargeOf p) then
      ([], d.putFlow { x1 with held := x1.held ++ [{ port := n, pkt := p, part := d.chargeOf p }], missing := x1.missing.filter (fun m => m.1 != p.flowSeq) })
    else
      let x2 := x1.miss (k + 1) d.now
      ([], (d.putFlow { x2 with missing := x2.missing.map (fun m => if m.1 = p.flowSeq then (m.1, d.now) else m) }).bump .rtReorderFull)

/-! ## Delivery -/

/-- Runs of consecutive numbers, in ascending order from the first. -/
def runsOf : List U24 → List (U24 × Nat)
  | [] => []
  | s :: rest =>
    match runsOf rest with
    | (t, k) :: rs => if t = s + 1 ∧ k < 65535 then (s, k + 1) :: rs else (s, 1) :: (t, k) :: rs
    | [] => [(s, 1)]

/-- Deliver a packet that its flow no longer holds back, by its kind, except a SKIP. -/
def Dev.deliverOne (d : Dev) (n : Nat) (p : Packet) : Dev :=
  match p.kind with
  | .read | .write | .writePartial | .atomic | .mirrorWrite => d.takeRequest n p
  | .readReply | .writeAck | .atomicReply => d.takeReply p
  | .lost => d.takeLost p
  | .replyLost => d.takeReplyLost p
  | .heartbeat => d.takeHeartbeat false (hbOfLine (p.data.headD 0))
  | .skip => d
  | .reserved => d.bump .rtMalformedDrop

/-- Deliver packets in order. -/
def Dev.deliverAll (d : Dev) (ps : List (Nat × Packet)) : Dev := ps.foldl (fun e x => e.deliverOne x.1 x.2) d

/-- A SKIP notice (R219): numbers not yet received are declared lost at once; a notice that names none of them, or a flow without
state, is ignored and counted (Table 9.13). -/
def Dev.takeSkip (d : Dev) (p : Packet) : Dev :=
  match d.flow { src := p.srcEp, dst := d.selfEp, tc := (noticeOf p).2.1 } with
  | none => d.bump .rtNoticeIgnored
  | some x =>
    let new := (noticeSeqs p).filter (fun s =>
      decide ((s - x.e).toNat < 8388608) && !x.gone.contains s && !x.held.any (fun h => h.pkt.flowSeq == s))
    if new = [] then d.bump .rtNoticeIgnored
    else
      let (ps, y) := { x with gone := x.gone ++ new, missing := x.missing.filter (fun m => !new.contains m.1) }.settle
      ((d.putFlow y).bump .rtLostDeclared new.length).deliverAll ps

/-- Deliver a packet that its flow no longer holds back. -/
def Dev.deliver (d : Dev) (n : Nat) (p : Packet) : Dev := if p.kind = .skip then d.takeSkip p else d.deliverOne n p

/-- A packet for this endpoint arrives by port `n`: it leaves the link buffer; a packet of TC0 to TC6, or an escaped one, is
put in the order of its flow (R216). -/
def Dev.arrive (d : Dev) (n : Nat) (p : Packet) : Dev :=
  let d1 := (d.takeRx n p).modRt (fun r => { r with lastPort := tset r.lastPort p.srcEp n })
  if p.tc = 7 ∧ p.escaped = false then (d1.deliver n p).atRest
  else
    let (ps, d2) := d1.reorder n p
    (ps.foldl (fun e x => e.deliver x.1 x.2) d2).atRest

/-! ## Arbitration (R24, R261) -/

/-- The participant that a packet's lines count for at an arbitration point: the partition of the valid context that a request's window
names, or 32 for transit traffic; a reply or notice moves no line of a partition's. -/
def Dev.participant (d : Dev) (p : Packet) : Option Nat :=
  if p.dstEp != d.selfEp then some 32
  else if isRequest p.kind then
    (d.windowCtx p.job p.window p.srcRank).bind (fun c => if (d.context c).valid then some (d.context c).partition else none)
  else none

/-- The participants that wait at the arbitration point of a quadrant: those of the packets next in their classes in the link buffers of
its ports. -/
def Dev.waitingAt (d : Dev) (q : Nat) : List Nat :=
  (d.ports.filter (fun x => x.1 / 8 == q)).flatMap (fun x =>
    ((List.range 8).filterMap (fun t => (x.2.rxOld ++ x.2.rxBuf).find? (fun p => p.tc == t))).filterMap d.participant)

/-- When a participant's next line has its turn: the round, and in it how far the participant stands after the one granted last. -/
def ArbPoint.turn (a : ArbPoint) (k : Nat) : Nat := 33 * max a.round (tgetD a.rounds k 0) + (k + 32 - a.last) % 33

/-- Whether the arbitration point at a port's quadrant grants a packet now (log entry 89). ROTATING: no participant that waits there has
its turn before. FIXED_SLOT: each waits for its own slot alone, whatever the others do. -/
def Dev.granted (d : Dev) (n : Nat) (p : Packet) : Bool :=
  d.hk.arbFixed ||
  (match d.participant p with
   | none => true
   | some k => (d.waitingAt (n / 8)).all (fun o => decide ((tgetD d.arb (n / 8) {}).turn k ≤ (tgetD d.arb (n / 8) {}).turn o)))

/-- A packet takes its grants: one line a round. -/
def Dev.grantLines (d : Dev) (n : Nat) (p : Packet) : Dev :=
  match d.participant p with
  | none => d
  | some k =>
    let a := tgetD d.arb (n / 8) {}
    let r := max a.round (tgetD a.rounds k 0)
    { d with arb := tset d.arb (n / 8) { last := k, round := r, rounds := tset a.rounds k (r + costOf p) } }

/-- Whether a packet may be taken from a port now: the islands run, the port carries frames or holds the packet since before it went DOWN,
the packet is next in its class, and the crossbar grants it (R20, R24, R181, R198). -/
def Dev.mayTake (d : Dev) (n : Nat) (p : Packet) : Bool :=
  d.sys.live && ((d.port n).state == .active || (d.port n).rxOld.contains p) && (d.port n).rxTurn p && d.granted n p

/-- A row of the table for one kind of packet. -/
def Dev.packetRow (d : Dev) (n : Nat) (p : Packet) (ok : Bool) : Dev :=
  d.guard (ok && p.dstEp == d.selfEp && d.mayTake n p) (fun e => e.windowed (fun f => (f.grantLines n p).arrive n p))

/-- READ_REQUEST (R210). -/
def execReadRequest (port : Nat) (p : Packet) (s : State) : Host.Outcome State Fault Refusal :=
  devStep (fun d => d.packetRow port p (p.kind == .read)) s

/-- WRITE_REQUEST (R210). -/
def execWriteRequest (port : Nat) (p : Packet) (s : State) : Host.Outcome State Fault Refusal :=
  devStep (fun d => d.packetRow port p (p.kind == .write)) s

/-- WRITE_PARTIAL_REQUEST (R210, R211). -/
def execWritePartialRequest (port : Nat) (p : Packet) (s : State) : Host.Outcome State Fault Refusal :=
  devStep (fun d => d.packetRow port p (p.kind == .writePartial)) s

/-- ATOMIC_REQUEST (R248). -/
def execAtomicRequest (port : Nat) (p : Packet) (s : State) : Host.Outcome State Fault Refusal :=
  devStep (fun d => d.packetRow port p (p.kind == .atomic)) s

/-- MIRROR_WRITE_RECEIVE (R318). -/
def execMirrorWriteReceive (port : Nat) (p : Packet) (s : State) : Host.Outcome State Fault Refusal :=
  devStep (fun d => d.packetRow port p (p.kind == .mirrorWrite)) s

/-- MALFORMED_DROP (R207): a packet of reserved kind, or a posted request. -/
def execMalformedDrop (port : Nat) (p : Packet) (s : State) : Host.Outcome State Fault Refusal :=
  devStep (fun d => d.packetRow port p (p.kind == .reserved || (p.posted && isRequest p.kind))) s

/-- REPLY_RECEIVE (R212). -/
def execReplyReceive (port : Nat) (p : Packet) (s : State) : Host.Outcome State Fault Refusal :=
  devStep (fun d => d.packetRow port p (p.kind == .readReply || p.kind == .writeAck || p.kind == .atomicReply)) s

/-- LOST_NOTICE_RECEIVE (R218). -/
def execLostNoticeReceive (port : Nat) (p : Packet) (s : State) : Host.Outcome State Fault Refusal :=
  devStep (fun d => d.packetRow port p (p.kind == .lost)) s

/-- REPLY_LOST_RECEIVE (R218). -/
def execReplyLostReceive (port : Nat) (p : Packet) (s : State) : Host.Outcome State Fault Refusal :=
  devStep (fun d => d.packetRow port p (p.kind == .replyLost)) s

/-- SKIP_RECEIVE (R219). -/
def execSkipReceive (port : Nat) (p : Packet) (s : State) : Host.Outcome State Fault Refusal :=
  devStep (fun d => d.packetRow port p (p.kind == .skip)) s

/-- HEARTBEAT_RECEIVE (R321): `hb` is what the packet's data unit carries. -/
def execHeartbeatReceive (port : Nat) (p : Packet) (hb : Heartbeat) (s : State) : Host.Outcome State Fault Refusal :=
  devStep (fun d => d.packetRow port p (p.kind == .heartbeat && hbOfLine (p.data.headD 0) == hb)) s

/-- LOSS_DECLARATION (R217): the numbers missing for the loss time are passed over and reported. -/
def Dev.declareLost (d : Dev) (f : FlowId) : Dev :=
  match d.flow f with
  | none => d
  | some x =>
    match x.missing with
    | [] => d
    | m :: ms =>
      let t := (d.param 0x0022 0).toNat * 1000
      let d1 := d.reach (ms.foldl (fun a y => min a y.2) m.2 + t)
      let due := (x.missing.filter (fun y => decide (y.2 + t ≤ d1.now))).map (fun y => y.1)
      let (ps, y) := { x with gone := x.gone ++ due, missing := x.missing.filter (fun z => !due.contains z.1) }.settle
      let d2 := (d1.putFlow y).bump .rtLostDeclared due.length
      let d3 := (runsOf due).foldl (fun e r => e.sendBack (numberNotice .lost f.src f.tc r.1 r.2)) d2
      ps.foldl (fun e x => e.deliver x.1 x.2) d3

/-- LOSS_DECLARATION (R217). -/
def execLossDeclaration (flow : FlowId) (s : State) : Host.Outcome State Fault Refusal :=
  devStep (fun d => d.windowed (fun e => (e.declareLost flow).atRest)) s

/-- REQUEST_TIMEOUT (R220). -/
def execRequestTimeout (tag : Nat) (s : State) : Host.Outcome State Fault Refusal :=
  devStep (fun d =>
    match d.rt.reqs.find? (fun r => r.tag == tag) with
    | some r => d.windowed (fun e => ((e.reach (r.sentAt + (e.param 0x0023 0).toNat * 1000)).answer r .timeout []).atRest)
    | none => d) s

/-- SEND_RECORD_EXPIRY (R218). -/
def execSendRecordExpiry (flow : FlowId) (seq : U24) (s : State) : Host.Outcome State Fault Refusal :=
  devStep (fun d =>
    match d.rt.records.find? (fun r => r.flow == flow && r.seq == seq) with
    | some r => (d.reach (r.sentAt + 200000)).modRt (fun x => { x with records := x.records.filter (fun y => y != r) })
    | none => d) s

/-! ## Spraying (R215) -/

/-- Twice the median of ports sorted by latency: the sum of the two middle values (log entry 28). -/
def twiceMedian (l : List (Nat × Nat)) : Nat :=
  (l[(l.length - 1) / 2]?.map (fun x => x.2)).getD 0 + (l[l.length / 2]?.map (fun x => x.2)).getD 0

/-- A port's runs after a window of latency `lat` against twice the median `m2`; a window that measured no latency of the port ends
its run of slow windows and leaves the other as it was. -/
def SprayRun.window (x : SprayRun) (lat : Option Nat) (m2 : Nat) : SprayRun :=
  match lat with
  | none => { x with slow := 0 }
  | some l => { x with slow := if 2 * m2 < l then x.slow + 1 else 0, good := if l ≤ m2 then x.good + 1 else 0 }

/-- The mean latency of a port in the present window, in whole ns; none where no packet's HEAD frame was acknowledged in it. -/
def Port.latency (p : Port) : Option Nat := if p.latCount = 0 then none else some (p.latSum / p.latCount)

/-- Ports in order of lowest latency (R215). Ports of equal latency stand in the order of `ties`, and so do those whose latency no packet
measured, which come last; a port that `ties` leaves out comes after those it names (DESIGN CHOICE, log entry 28). -/
def Dev.byLatency (d : Dev) (ties ports : List Nat) : List Nat :=
  let pref := (ties.filter (fun n => ports.contains n)).dedup ++ ports.filter (fun n => !ties.contains n)
  let known := ((List.range pref.length).filterMap (fun i => (d.port (pref.getD i 0)).latency.map (fun l => (i, l)))).foldl
    (fun acc x => insertLat x acc) []
  known.map (fun x => pref.getD x.1 0) ++ pref.filter (fun n => (d.port n).latency.isNone)

/-- One spray set at the end of a window: which ports are excluded now (R215). -/
def Dev.sprayWindow (d : Dev) (ties : List Nat) (spray : U32) : Dev :=
  let act := (bitsOf spray).filter (fun n => d.portActive n)
  let known := (act.filterMap (fun n => (d.port n).latency.map (fun l => (n, l)))).foldl (fun acc x => insertLat x acc) []
  let runs := act.map (fun n =>
    let x := (d.rt.sprays.find? (fun x => x.spray == spray && x.port == n)).getD { spray := spray, port := n }
    let lat := (d.port n).latency
    { x.window lat (twiceMedian known) with lat := if lat.isSome then lat else x.lat })
  let want := (runs.filter (fun x => if x.excluded then decide (x.good < 16) else decide (2 ≤ x.slow))).map (fun x => x.port)
  let need := (act.length + 3) / 4
  let keep := ((d.byLatency ties act).filter (fun n => want.contains n)).take (need - (act.length - want.length))
  let out := want.filter (fun n => !keep.contains n)
  let after := runs.map (fun x =>
    if out.contains x.port then { x with excluded := true, good := if x.excluded then x.good else 0 } else { x with excluded := false })
  let d1 := d.modRt (fun r => { r with sprays := after ++ r.sprays.filter (fun x => x.spray != spray) })
  runs.foldl (fun e x =>
    if out.contains x.port && !x.excluded then
      e.raise { code := .swSlow, unit := some (.swPort, x.port), detail0 := some (BitVec.ofNat 64 x.slow) }
    else e) d1

/-- The end of a 64 µs window: the latencies measured in it are compared, and the next window begins. -/
def Dev.latencyWindow (d : Dev) (ties : List Nat) : Dev :=
  let d1 := (d.reach (d.rt.windowAt + 64000)).settleExcluded
  let d2 := d1.rt.spraySets.foldl (fun e x => e.sprayWindow ties x) d1
  ({ d2 with ports := d2.ports.map (fun (x : Nat × Port) => (x.1, { x.2 with latSum := 0, latCount := 0 })) }.modRt
    (fun r => { r with windowAt := d1.now })).settleExcluded

/-- SPRAY_LATENCY_WINDOW (R215). -/
def execSprayLatencyWindow (ties : List Nat) (s : State) : Host.Outcome State Fault Refusal := devStep (fun d => d.latencyWindow ties) s

/-! ## Transit (R225, R226) -/

/-- Whether transit mode is on: as PARAM_SET last set it, and as the flash configuration says where it never did (R312, R378; log
entry 42). -/
def Dev.transitOn (d : Dev) : Bool :=
  match tget d.params (0x0003 * 65536) with
  | some v => v == 1
  | none => d.sys.cfg.transitMode

/-- Forward a packet of another endpoint; one whose route has no ACTIVE port is dropped, which no counter of the spec counts (log entry
87). -/
def Dev.transit (d : Dev) (n : Nat) (p : Packet) : Dev :=
  let d1 := (d.takeRx n p).modRt (fun r => { r with lastPort := tset r.lastPort p.srcEp n })
  if d.transitOn = false then d1.bump .rtTransitDrop
  else if p.hops = 0 then d1.bump .rtHopDrop
  else
    let v := d1.rt.version p.epoch
    match (if v.state = .invalid then none else tget v.routes p.dstEp) with
    | none => d1.bump .rtEpochDrop
    | some r =>
      match d1.routePort r p.tc with
      | some m => d1.enqueue m { p with hops := p.hops - 1 }
      | none => d1

/-- TRANSIT_FORWARD (R226). -/
def execTransitForward (port : Nat) (p : Packet) (s : State) : Host.Outcome State Fault Refusal :=
  devStep (fun d => d.guard (p.dstEp != d.selfEp && d.mayTake port p) (fun e => (e.grantLines port p).transit port p)) s

/-- ESCAPE_TO_TC7: the transit packet at the head of a class that has waited 20 µs for credit moves to TC7 (R225). -/
def Dev.escape (d : Dev) (n tc : Nat) : Dev :=
  match (d.port n).egress.find? (fun e => e.p.tc == tc), tget (d.port n).stallSince tc with
  | some e, some w =>
    if tc = 7 ∨ e.p.srcEp = d.selfEp ∨ (d.port n).hasCredit e.p then d
    else
      match (tget (d.rt.version e.p.epoch).routes e.p.dstEp).bind (fun r => if d.portActive r.escapePort then some r.escapePort else none) with
      | none => d
      | some m =>
        let d1 := ((d.reach (w.1 + 20000)).settleWait n tc).modPort n (fun x => { x with
          egress := x.egress.erase e, stallSince := terase x.stallSince tc })
        ((d1.settleWait n tc).enqueue m { e.p with tc := 7, escaped := true }).bump (.swEscaped n)
  | _, _ => d

/-- ESCAPE_TO_TC7 (R225). -/
def execEscapeToTc7 (port tc : Nat) (s : State) : Host.Outcome State Fault Refusal := devStep (fun d => d.escape port tc) s

/-! ## Gates (R228 to R230) -/

/-- A cycle boundary applies what GATE_CTRL and GATE_OFFSET ask for (R229). -/
def Dev.applyGate (d : Dev) (n : Nat) : Dev :=
  let c := d.param 0x0025 n
  ((d.settleWaits n).modPort n (fun x => { x with gateOn := bit c 0, gateB := bit c 1, gateOffset := (d.param 0x0026 n).toNat })).settleWaits n

/-- GATE_ENTRY_BOUNDARY: the clock reaches the next entry of the schedule that runs, or that GATE_CTRL asks for; at a cycle
boundary pending changes apply (R228, R229). -/
def Dev.gateBoundary (d : Dev) (n : Nat) : Dev :=
  let p := d.port n
  let want := bit (d.param 0x0025 n) 0
  if !p.gateOn && !want then d
  else
    let es := d.schedule n (if p.gateOn then p.gateB else bit (d.param 0x0025 n) 1)
    let off := if p.gateOn then p.gateOffset else (d.param 0x0026 n).toNat
    let ph := phaseAt d.now off (cycleOf es)
    match entryAt es 0 ph with
    | none => d.applyGate n
    | some (_, e) =>
      let d1 := d.reach (d.now + (e - ph))
      if e = cycleOf es then d1.applyGate n else d1.settleWaits n

/-- GATE_ENTRY_BOUNDARY (R228). -/
def execGateEntryBoundary (port : Nat) (s : State) : Host.Outcome State Fault Refusal := devStep (fun d => d.gateBoundary port) s

/-! ## Telemetry (R231) -/

/-- The bucket of a depth in data units. -/
def depthBucket (n : Nat) : Nat := if n = 0 then 0 else min 15 (Nat.log2 n + 1)

/-- The bucket of a delay in ns; a delay below 10 ns counts in bucket 1 (log entry 29). -/
def delayBucket (n : Nat) : Nat := if n / 10 = 0 then 1 else min 15 (Nat.log2 (n / 10) + 1)

/-- The samples of one class at a port. -/
def Dev.sampleClass (d : Dev) (n t : Nat) : Dev :=
  match (d.port n).egress.find? (fun e => e.p.tc == t) with
  | none => (d.bump (.swQdepthHist n t 0)).bump (.swQdelayHist n t 0)
  | some e => (d.bump (.swQdepthHist n t (depthBucket ((d.port n).queuedUnits t)))).bump (.swQdelayHist n t (delayBucket (d.now - e.at_)))

/-- TELEMETRY_SAMPLE: every 1 µs (R231). -/
def execTelemetrySample (port : Nat) (s : State) : Host.Outcome State Fault Refusal :=
  devStep (fun d =>
    let d1 := d.reach ((d.port port).sampledAt + 1000)
    (List.range 8).foldl (fun e t => e.sampleClass port t) (d1.modPort port (fun x => { x with sampledAt := d1.now }))) s

end Sys2Proof.Machine
end

