-- ==== Sys2Proof/Machine/Link.lean ====
section
/-! DEFINITION. The Swearis link layer: frames, acknowledgement and replay, credits, training, link down, keys
(Chapter 8). -/

namespace Sys2Proof.Machine

open Sys2Proof

/-! ## Generation tags of ports -/

/-- Increment the generation tag of a reset-domain member and note when (R336, R339). -/
def Dev.incTag (d : Dev) (x : Domain) : Dev :=
  let d1 := { d with tagTimes := (d.tagTimes.filter (fun (t : Domain × Nat) => decide (d.now < t.2 + 250000000))) ++ [(x, d.now)] }
  match x with
  | .device => { d1 with sys := { d1.sys with deviceGen := d1.sys.deviceGen + 1 } }
  | .partition p => d1.modPart p (fun y => { y with gen := y.gen + 1 })
  | .engine n => { d1 with engGen := tmod d1.engGen n 0 (fun g => g + 1) }
  | .mover n => { d1 with movGen := tmod d1.movGen n 0 (fun g => g + 1) }
  | .memUnit m => { d1 with unitGen := tmod d1.unitGen m 0 (fun g => g + 1) }
  | .port n => { d1 with portGen := tmod d1.portGen n 0 (fun g => g + 1) }
  | .head h => { d1 with headGen := tmod d1.headGen h 0 (fun g => g + 1) }
  | .queue q => d1.modQueue q (fun y => { y with gen := y.gen + 1 })

/-! ## Resets that wait for the tag rate (R339) -/

/-- Whether a reset of `a` increments the tag of `b`: of itself, or of an instance that it contains (Table 14.1);
the engines of a partition are reset one by one. -/
def Dev.contains (d : Dev) (a b : Domain) : Bool :=
  a == b ||
  (match a, b with
   | .device, _ => true
   | .partition p, .mover n => bit (d.partn p).movers n
   | .partition p, .queue q => decide ((d.partn p).queueBase ≤ q) && decide (q < (d.partn p).queueBase + (d.partn p).queueCount)
   | _, _ => false)

/-- The times at which the tag of a reset-domain member was incremented, oldest first. -/
def Dev.incTimes (d : Dev) (x : Domain) : List Nat :=
  (d.tagTimes.filter (fun (t : Domain × Nat) => d.contains t.1 x)).map (fun (t : Domain × Nat) => t.2)

/-- The time from which the tag of a member may be incremented again: at most 64 times in 250 ms. -/
def Dev.tagAt (d : Dev) (x : Domain) : Nat :=
  let own := match ((d.incTimes x).reverse)[63]? with
    | some t => t + 250000000
    | none => 0
  (d.tagTimes.filter (fun (t : Domain × Nat) => d.contains x t.1)).foldl (fun (a : Nat) (t : Domain × Nat) =>
    match ((d.incTimes t.1).reverse)[63]? with
    | some u => max a (u + 250000000)
    | none => a) own

/-- Whether the tag of a reset-domain member, and of every instance that it contains, may be incremented now. -/
def Dev.tagFree (d : Dev) (x : Domain) : Bool := decide (d.tagAt x ≤ d.now)

/-- Increment a tag, or note that its reset waits. -/
def Dev.tagOrDefer (d : Dev) (x : Domain) (cause : Nat) : Dev :=
  if d.tagFree x then d.incTag x else { d with deferred := d.deferred ++ [{ dom := x, cause := cause }] }

/-! ## Link down (R198, R199) -/

/-- Packets in the HEAD slots of frames. -/
def headsOf (fs : List TxFrame) : List Packet :=
  fs.flatMap (fun f => f.f.slots.filterMap (fun s =>
    match s with
    | .head p => some p
    | _ => none))

/-- Packets that a port holds for transmission: those whose last frame is not acknowledged, and those in its queues (R198). -/
def Port.unsent (p : Port) : List Packet := p.unacked.filterMap TxFrame.ends ++ p.egress.map (fun e => e.p)

/-- Dispose of a packet held at DOWN (Table 8.6): it is counted, and a request of this device completes with LINK_DOWN, its number
skipped (R219). -/
def Dev.dispose (d : Dev) (n : Nat) (p : Packet) : Dev :=
  let d0 := d.bump (.swDownDropped n)
  if isRequest p.kind && p.srcEp == d.selfEp then
    match d.rt.reqs.find? (fun r => r.tag == p.reqTag && r.pkt.dstEp == p.dstEp && r.pkt.flowSeq == p.flowSeq) with
    | some r =>
      let d1 := d0.answer r .linkDown []
      if p.tc = 7 ∧ p.escaped = false then d1 else d1.sendBack (numberNotice .skip p.dstEp p.flowTc p.flowSeq 1)
    | none => d0
  else d0

/-- The link state of a fresh link-up (R184, R190, R198): what a port keeps is its training, its policing, its gates, and the counter of the
frames it has sent, which never repeats under one key (R200). -/
def Port.fresh (p : Port) : Port :=
  { p with
    txNext := 0, unacked := [], lastAck := none, rxExp := 0, rxAny := false, rxUnacked := 0, rxFirstUnacked := 0
    nakSince := none, replayFrom := none, badRun := 0, badTimes := []
    advInForce := List.replicate 8 (0, 0), partnerAdv := List.replicate 8 (0, 0), consumed := List.replicate 8 {}
    partnerFreed := List.replicate 8 {}, freed := List.replicate 8 {}, returned := List.replicate 8 {}
    restored := List.replicate 8 (0, 0), crNext := 0, rxPartial := none, rxOld := p.rxOld ++ p.rxBuf, rxBuf := []
    egress := [], keyEpoch := 0, keyPhase := false, keyFrames := 0, rxKeyPhase := false
    ownHello := [], partnerHello := [], partnerChain := [], linkSecret := 0, linkSalt := 0
    txKey := 0, rxKey := 0, rxNextKey := 0, rxEpoch := 0, stallSince := [], gateSince := [] }

/-- Go DOWN (R198). The waits of the packets it held are counted to the end (R202, R230). -/
def Dev.goDown (d : Dev) (n : Nat) (flapping : Bool) : Dev :=
  let p := d.port n
  let d1 := ((((d.settleWaits n).incTag (.port n)).bump (.swDowns n)).modPort n (fun x =>
    { x.fresh with state := .down, since := d.now, flapping := flapping })).settleExcluded
  let d2 := if p.rxPartial.isSome then d1.bump (.swDownDropped n) else d1
  p.unsent.foldl (fun e x => e.dispose n x) d2

/-- Whether a port waits for the tag rate before it goes DOWN (R339). -/
def Dev.downWaits (d : Dev) (n : Nat) : Bool := d.deferred.any (fun r => r.dom == .port n)

/-- Enter DOWN, or wait in RETRAIN, which carries no traffic, until the port's tag may be incremented (R198, R339; log entry 88). -/
def Dev.enterDown (d : Dev) (n : Nat) (flapping : Bool) : Dev :=
  if d.downWaits n then d
  else if d.tagFree (.port n) then d.goDown n flapping
  else
    let held : Dev := { d with deferred := d.deferred ++ [{ dom := .port n, cause := if flapping then 1 else 0 }] }
    held.modPort n (fun x => { x with state := .retrain })

/-- Enter RETRAIN, or DOWN on the ninth entry within 10 s (R196, R197). -/
def Dev.enterRetrain (d : Dev) (n : Nat) : Dev :=
  let times := (d.port n).retrainTimes.filter (fun t => decide (d.now < t + 10000000000)) ++ [d.now]
  let d1 := (d.bump (.swRetrains n)).modPort n (fun x => { x with
    retrainTimes := times, state := .retrain, since := d.now, retrainStep := 0, phase := 0, nakSince := none
    badRun := 0, badTimes := [], replayFrom := none, txKey := 0, rxKey := 0, rxNextKey := 0 })
  if 9 ≤ times.length then
    (d1.enterDown n true).raise
      { code := .swFlapping, unit := some (.swPort, n), detail0 := some (d.port n).partnerId, detail1 := some (BitVec.ofNat 64 times.length) }
  else d1

/-- Enter DETECT on an attempt. -/
def Dev.enterDetect (d : Dev) (n attempt : Nat) : Dev :=
  d.modPort n (fun x => { x with state := .detect, since := d.now, attempt := attempt, flapping := false })

/-! ## Acknowledgement and replay (R184 to R188) -/

/-- Retransmit unacknowledged frames: same slots, fresh headers (R186, R200). -/
def Dev.replay (d : Dev) (n : Nat) : Dev :=
  let old := (d.port n).unacked
  let d1 := d.modPort n (fun x => { x with unacked := [] })
  old.foldl (fun e t =>
    let p := e.port n
    let b := p.frameBase 1 false
    let f := { b with seq := t.f.seq, slots := t.f.slots }
    ((e.modPort n (fun x => { x.afterFrame with
      unacked := x.unacked ++ [{ t with f := f, sentAt := e.now, replays := t.replays + 1 }] })).emit
        (.frame n f (wireFrame n p.txKey f))).bump (.swReplayed n)) d1

/-- Replay, unless a frame has been replayed four times already: then the port retrains (R187). -/
def Dev.replayOrRetrain (d : Dev) (n : Nat) : Dev :=
  match (d.port n).unacked with
  | [] => d
  | t :: _ => if 4 ≤ t.replays then d.enterRetrain n else d.replay n

/-- How many frames an acknowledgement moves past: its distance from the last one received (R184). -/
def Port.ackDist (p : Port) (a : U12) : Nat := (a - p.lastAck.getD (BitVec.allOnes 12)).toNat

/-- An acknowledgement: the frames that it moves past go, and the latencies of the packets whose HEAD slots they carried are measured
(R184, R215). -/
def Dev.takeAck (d : Dev) (n : Nat) (a : U12) : Dev :=
  let p := d.port n
  if p.ackDist a ≤ p.unacked.length then
    let lats := (p.unacked.take (p.ackDist a)).filterMap (fun t => t.headAt.map (fun h => d.now - h))
    d.modPort n (fun x => { x with
      unacked := x.unacked.drop (p.ackDist a), lastAck := if p.ackDist a = 0 then x.lastAck else some a
      latSum := x.latSum + lats.sum, latCount := x.latCount + lats.length })
  else d

/-- A negative acknowledgement (R186). -/
def Dev.takeNak (d : Dev) (n : Nat) (a : U12) : Dev :=
  let p := d.port n
  let d0 := d.bump (.swNakRx n)
  if 2048 ≤ p.ackDist a then d0
  else if p.unacked.length < p.ackDist a + 1 then d0.enterRetrain n
  else (d0.takeAck n a).replayOrRetrain n

/-- A credit return (R190). -/
def Dev.takeCredit (d : Dev) (n : Nat) (c : CreditRet) : Dev :=
  (d.modPort n (fun x => { x with partnerFreed := lset x.partnerFreed c.tc { hdr := c.hdr, data := c.data } })).settleWait n c.tc

/-- A frame arrives under a key phase: with the first of the next phase the receiver takes the next key, and holds the one after (R201). -/
def Dev.takeKeyPhase (d : Dev) (n : Nat) (phase : Bool) : Dev :=
  if (d.port n).rxKeyPhase = phase then d
  else d.modPort n (fun x => { x with
    rxKeyPhase := phase, rxEpoch := x.rxEpoch + 1, rxKey := x.rxNextKey
    rxNextKey := linkKey x.linkSecret x.linkSalt x.partnerId (x.rxEpoch + 2) })

/-- The header of a good frame: key phase, credits, acknowledgement. -/
def Dev.takeHeader (d : Dev) (n : Nat) (f : Frame) : Dev :=
  let d1 := ((d.takeKeyPhase n f.keyPhase).takeCredit n f.crA).takeCredit n f.crB
  if f.nak then d1.takeNak n f.ackSeq else if f.ackValid then d1.takeAck n f.ackSeq else d1

/-- Whether a frame is bad (R183). A slot of the reserved `slot_map` code makes it bad too (log entry 86). -/
def badFrame (f : Frame) (c : FrameCond) : Bool :=
  c.uncorrectable != 0 || c.tagFail || f.ftype == 0 || decide (4 ≤ f.ftype) || f.rsvd || f.slots.any (fun s => match s with
    | .reserved _ => true
    | _ => false)

/-- Count how a frame arrived (Table 8.7). -/
def Dev.countFrame (d : Dev) (n : Nat) (c : FrameCond) : Dev :=
  let d1 := if c.corrected = 0 then d else d.bump (.swFecCorr n) c.corrected
  let d2 := if c.uncorrectable = 0 then d1 else d1.bump (.swFecUncorr n) c.uncorrectable
  if c.tagFail then d2.bump (.swTagFail n) else d2

/-- Ask for a replay, once until the expected frame arrives (R186). -/
def Dev.sendNak (d : Dev) (n : Nat) : Dev :=
  if (d.port n).nakSince.isSome then d
  else (d.sendControl n true).modPort n (fun x => { x with nakSince := some d.now })

/-- A bad frame: the port retrains after 16 in a row or more than 16 in 1 ms (R196), else asks for a replay. -/
def Dev.takeBad (d : Dev) (n : Nat) : Dev :=
  let times := (d.port n).badTimes.filter (fun t => decide (d.now < t + 1000000)) ++ [d.now]
  let d1 := d.modPort n (fun x => { x with badTimes := times, badRun := x.badRun + 1 })
  if 16 < times.length ∨ 16 ≤ (d1.port n).badRun then d1.enterRetrain n else d1.sendNak n

/-- One slot of an accepted frame (R181). -/
def Dev.takeSlot (d : Dev) (n : Nat) (s : Slot) : Dev :=
  let whole := fun (e : Dev) (p : Packet) =>
    ((e.modPort n (fun x => { x with rxPartial := none, rxBuf := x.rxBuf ++ [p] })).bump (.swRxPkts n p.tc)).bump (.swRxUnits n p.tc) p.units
  match s with
  | .empty | .reserved _ => d
  | .head p => if p.units = 0 then whole d { p with data := [] } else d.modPort n (fun x => { x with rxPartial := some { p with data := [] } })
  | .body w =>
    match (d.port n).rxPartial with
    | none => d
    | some p =>
      let q := { p with data := p.data ++ [w] }
      if q.data.length = q.units then whole d q else d.modPort n (fun x => { x with rxPartial := some q })

/-- Accept the expected frame (R185, R188). -/
def Dev.acceptFrame (d : Dev) (n : Nat) (f : Frame) : Dev :=
  let d1 := d.modPort n (fun x => { x with
    rxExp := x.rxExp + 1, rxAny := true, nakSince := none, rxUnacked := x.rxUnacked + 1
    rxFirstUnacked := if x.rxUnacked = 0 then d.now else x.rxFirstUnacked })
  let d2 := f.slots.foldl (fun e s => e.takeSlot n s) d1
  if 128 ≤ (d2.port n).rxUnacked then d2.sendControl n false else d2

/-- A good DATA frame (Table 8.3). -/
def Dev.takeData (d : Dev) (n : Nat) (f : Frame) : Dev :=
  let k := (f.seq - (d.port n).rxExp).toNat
  if k = 0 then d.acceptFrame n f
  else if k ≤ 2047 then d.sendNak n
  else if k = 2048 then d.enterRetrain n
  else (d.bump (.swRepeats n)).sendControl n false

/-- A frame on an ACTIVE port, of the wanted type or bad. -/
def Dev.takeFrame (d : Dev) (n : Nat) (f : Frame) (c : FrameCond) (type : Nat) : Dev :=
  if (d.port n).state ≠ .active ∨ (f.ftype ≠ type ∧ badFrame f c = false) then d
  else
    let d1 := d.countFrame n c
    if badFrame f c then d1.takeBad n
    else
      let d2 := (d1.modPort n (fun x => { x with badRun := 0 })).takeHeader n f
      if (d2.port n).state ≠ .active then d2
      else if type = 1 then d2.takeData n f
      else ((slotCredits f.control).zipIdx.map (fun x => ({ tc := x.2, hdr := BitVec.ofNat 16 x.1.1, data := BitVec.ofNat 20 x.1.2 } : CreditRet))).foldl
        (fun e r => e.takeCredit n r) d2

/-- DATA_FRAME_RECEIVE (R185). -/
def execDataFrameReceive (port : Nat) (f : Frame) (c : FrameCond) (s : State) : Host.Outcome State Fault Refusal :=
  devStep (fun d => d.takeFrame port f c 1) s

/-- CONTROL_FRAME_RECEIVE (R182). -/
def execControlFrameReceive (port : Nat) (f : Frame) (c : FrameCond) (s : State) : Host.Outcome State Fault Refusal :=
  devStep (fun d => d.takeFrame port f c 2) s

/-- NAK_RESEND_TIMEOUT (R186). -/
def execNakResendTimeout (port : Nat) (s : State) : Host.Outcome State Fault Refusal :=
  devStep (fun d =>
    match (d.port port).nakSince with
    | some t =>
      if (d.port port).state = .active then
        ((d.reach (t + 10000)).modPort port (fun x => { x with nakSince := none })).sendNak port
      else d
    | none => d) s

/-- REPLAY_TIMEOUT (R187). -/
def execReplayTimeout (port : Nat) (s : State) : Host.Outcome State Fault Refusal :=
  devStep (fun d =>
    match (d.port port).unacked with
    | t :: _ =>
      if (d.port port).state = .active then (d.reach (t.sentAt + (d.param 0x0020 port).toNat * 1000)).replayOrRetrain port else d
    | [] => d) s

/-- ACK_TIMER (R188). -/
def execAckTimer (port : Nat) (s : State) : Host.Outcome State Fault Refusal :=
  devStep (fun d =>
    if (d.port port).state = .active ∧ (d.port port).rxUnacked ≠ 0 then
      (d.reach ((d.port port).rxFirstUnacked + (d.param 0x0021 port).toNat)).sendControl port false
    else d) s

/-! ## Sending packets (R181, R184, R190, R213, R230) -/

/-- The slots of a packet (R181). -/
def packetSlots (p : Packet) : List Slot := .head { p with data := [] } :: p.data.map Slot.body

/-- Fill a frame's slots up to 19 with EMPTY. -/
def fillSlots (l : List Slot) : List Slot := l ++ List.replicate (19 - l.length) .empty

/-- Cut slots into frames of 19. -/
def cutFrames : Nat → List Slot → List (List Slot)
  | 0, _ => []
  | k + 1, l => if l = [] then [] else fillSlots (l.take 19) :: cutFrames k (l.drop 19)

/-- The frames that carry a packet: it starts at slot 0 of a new frame (log entry 87). -/
def packetFrames (p : Packet) : List (List Slot) := cutFrames (packetSlots p).length (packetSlots p)

/-- Send one DATA frame; `headAt` and `ends` are what the record of it keeps of the packet it carries. -/
def Dev.sendData (d : Dev) (n : Nat) (slots : List Slot) (headAt : Option Nat) (ends : Option Packet) : Dev :=
  let p := d.port n
  let b := p.frameBase 1 false
  let f := { b with seq := p.txNext, slots := slots }
  (d.modPort n (fun x => { x.afterFrame with
    txNext := x.txNext + 1, unacked := x.unacked ++ [{ f := f, sentAt := d.now, headAt := headAt, ends := ends }] })).emit
      (.frame n f (wireFrame n p.txKey f))

/-- Send the frames of a packet that was queued at time `at_`. -/
def Dev.sendFrames (d : Dev) (n : Nat) (p : Packet) (at_ : Nat) : Dev :=
  let fs := packetFrames p
  fs.zipIdx.foldl (fun e x => e.sendData n x.1 (if x.2 = 0 then some at_ else none) (if x.2 + 1 = fs.length then some { p with data := [] } else none)) d

/-- Whether a flow of this device has room for a packet more (R213). -/
def Dev.flowRoom (d : Dev) (p : Packet) : Bool :=
  p.srcEp != d.selfEp || p.tc == 7 ||
  decide ((d.rt.records.filter (fun r => r.flow == { src := p.srcEp, dst := p.dstEp, tc := p.flowTc } &&
    decide (d.now < r.sentAt + 200000))).length < 4194304)

/-- Keep the record of a sent packet and restart its request's timer (R218, R220). -/
def Dev.recordSent (d : Dev) (p : Packet) : Dev :=
  if p.srcEp = d.selfEp ∧ p.tc ≠ 7 then
    d.modRt (fun r => { r with
      records := { flow := { src := p.srcEp, dst := p.dstEp, tc := p.flowTc }, seq := p.flowSeq, pkt := p, sentAt := d.now } :: r.records
      reqs := r.reqs.map (fun q => if q.tag == p.reqTag && q.pkt == p then { q with sentAt := d.now } else q) })
  else d

/-- Start the packet at the head of a class on the link, if its class has the credit and its gate lets it start (R181, R190, R230). -/
def Dev.transmit (d : Dev) (n tc : Nat) : Dev :=
  let p := d.port n
  match p.egress.find? (fun e => e.p.tc == tc) with
  | none => d
  | some e =>
    if p.state ≠ .active ∨ 1024 < p.unacked.length + (packetFrames e.p).length ∨ d.flowRoom e.p = false then d
    else
      let d0 := d.settleWait n tc
      if p.hasCredit e.p = false ∨ d.gateOpen n tc (spanFrames e.p) = false then d0
      else
        let d1 := d0.modPort n (fun x => { x with egress := x.egress.erase e, consumed := addCredit x.consumed tc e.p.units })
        let d2 := (((d1.sendFrames n e.p e.at_).bump (.swTxPkts n tc)).bump (.swTxUnits n tc) e.p.units).settleWait n tc
        d2.recordSent e.p

/-- PACKET_TRANSMIT (R190). -/
def execPacketTransmit (port tc : Nat) (s : State) : Host.Outcome State Fault Refusal := devStep (fun d => d.transmit port tc) s

/-- LINK_REKEY: after 2^36 frames under one key the transmitter takes the key of the next epoch (R201). -/
def execLinkRekey (port : Nat) (s : State) : Host.Outcome State Fault Refusal :=
  devStep (fun d => d.guard (decide (68719476736 ≤ (d.port port).keyFrames)) (fun e => e.modPort port (fun x =>
    { x with
      keyEpoch := x.keyEpoch + 1, keyPhase := !x.keyPhase, keyFrames := 0
      txKey := linkKey x.linkSecret x.linkSalt Config.deviceId (x.keyEpoch + 1) }))) s

/-! ## Training (R193 to R197) -/

/-- Change the state of a port. -/
def Dev.goTo (d : Dev) (n : Nat) (st : PortState) : Dev := d.modPort n (fun x => { x with state := st, since := d.now })

/-- Credits held by packets whose HEAD slot was accepted, per class (R192). -/
def Port.occupancy (p : Port) : List (Nat × Nat) :=
  let ps := p.rxBuf ++ p.rxPartial.toList
  (List.range 8).map (fun t => ((ps.filter (fun x => x.tc == t)).length, ((ps.filter (fun x => x.tc == t)).map (fun x => x.units)).sum))

/-- What a phase needs afresh as this side enters it: the HELLO nonce, a free value, the ECDH pair, the advertisement in force (R195). -/
def Dev.beginPhase (d : Dev) (n k : Nat) : Dev :=
  let p := d.port n
  match k with
  | 0 =>
    let (a, d1) := d.drawWord
    let (b, d2) := d1.drawWord
    let (c, d3) := d2.drawWord
    let (e, d4) := d3.drawWord
    d4.modPort n (fun x => { x with
      ownHello := bodyBytes { port := n, retrain := p.state == .retrain, deviceId := Config.deviceId, content := .hello (a ++ b ++ c ++ e) }
      partnerChain := [] })
  | 2 =>
    let e : Dev := { d with free := d.free + 1 }
    e.modPort n (fun x => { x with ecdhNo := d.free })
  | 3 => d.modPort n (fun x => { x with advInForce := x.creditAdv })
  | _ => d

/-- Both parts of the key exchange, that of the lower device identifier first (R201; log entry 86). -/
def Port.lowerFirst (p : Port) (own theirs : List Byte) : List Byte :=
  if Config.deviceId.toNat ≤ p.partnerId.toNat then own ++ theirs else theirs ++ own

/-- What the frames of the present phase carry (Table 8.5): one frame, or as many as the certificate chain takes. -/
def Port.phaseContents (p : Port) : List ParamContent :=
  match p.phase with
  | 0 => [.hello (BitVec.ofNat 256 (natOfBytes (p.ownHello.drop 64)))]
  | 1 => (List.range (max 1 ((Config.certChain.length + 1023) / 1024))).map (fun i =>
      .cert (BitVec.ofNat 32 Config.certChain.length) (BitVec.ofNat 32 (1024 * i)) ((Config.certChain.drop (1024 * i)).take 1024) true Config.deviceId)
  | 2 =>
    let pub := Config.ecdhPublic p.ecdhNo
    [.keys pub (Config.signed (p.lowerFirst p.ownHello p.partnerHello ++ bytesOf 97 pub)) true]
  | 3 => [.credits (creditSlot p.creditAdv)]
  | 4 => [.audit (creditSlot (p.freed.map (fun c => (c.hdr.toNat, c.data.toNat)))) (creditSlot p.occupancy) p.rxExp]
  | _ => [.ready]

/-- Send one PARAM frame: like every frame it takes the next nonce, under the key in force (R200, R201). -/
def Dev.sendParam (d : Dev) (n : Nat) (c : ParamContent) : Dev :=
  let p := d.port n
  let b : ParamBody := { port := n, retrain := p.state == .retrain, deviceId := Config.deviceId, content := c, nonce := p.nonce }
  (d.modPort n (fun x => { x with nonce := x.nonce + 1, keyFrames := x.keyFrames + 1 })).emit (.paramFrame n b (wireParam n p.txKey b))

/-- Send the frames of the present phase. -/
def Dev.repeatPhase (d : Dev) (n : Nat) : Dev := (d.port n).phaseContents.foldl (fun e c => e.sendParam n c) d

/-- Enter a phase and send its frames. -/
def Dev.sendPhase (d : Dev) (n k : Nat) : Dev := ((d.beginPhase n k).modPort n (fun x => { x with phase := k })).repeatPhase n

/-- DETECT_SUCCESS (R193). -/
def execDetectSuccess (port : Nat) (s : State) : Host.Outcome State Fault Refusal :=
  devStep (fun d => d.guard ((d.port port).state == .detect) (fun e => e.goTo port .equalise)) s

/-- The bound of a training state, in ns (Table 8.4). -/
def stateBound (st : PortState) : Option Nat :=
  match st with
  | .detect => some 10000000
  | .equalise => some 40000000
  | .align => some 1000000
  | .param => some 15000000
  | _ => none

/-- TRAINING_STATE_TIMEOUT (R193). -/
def execTrainingStateTimeout (port : Nat) (s : State) : Host.Outcome State Fault Refusal :=
  devStep (fun d =>
    match stateBound (d.port port).state with
    | some t => (d.reach ((d.port port).since + t)).goTo port .backoff
    | none => d) s

/-- The end of a backoff (R194). -/
def Dev.backoffEnd (d : Dev) (n : Nat) : Dev :=
  let p := d.port n
  if p.state ≠ .backoff then d
  else if 16 ≤ p.attempt then
    (d.goTo n .absent).raise
      { code := .swAbsent, unit := some (.swPort, n), detail0 := some p.partnerId, detail1 := some (BitVec.ofNat 64 p.attempt) }
  else (d.reach (p.since + min (2 ^ (p.attempt - 1)) 1024 * 1000000)).enterDetect n (p.attempt + 1)

/-- BACKOFF_EXPIRY (R194). -/
def execBackoffExpiry (port : Nat) (s : State) : Host.Outcome State Fault Refusal := devStep (fun d => d.backoffEnd port) s

/-- EQUALISE_DONE (R193), in training and in a retrain. -/
def execEqualiseDone (port : Nat) (s : State) : Host.Outcome State Fault Refusal :=
  devStep (fun d =>
    match (d.port port).state with
    | .equalise => d.goTo port .align
    | .retrain => d.modPort port (fun x => { x with retrainStep := max x.retrainStep 1 })
    | _ => d) s

/-- ALIGN_DONE (R193): PARAM begins with HELLO. -/
def execAlignDone (port : Nat) (s : State) : Host.Outcome State Fault Refusal :=
  devStep (fun d =>
    match (d.port port).state with
    | .align => (d.goTo port .param).sendPhase port 0
    | .retrain =>
      if (d.port port).retrainStep = 1 then (d.modPort port (fun x => { x with retrainStep := 2 })).sendPhase port 0 else d
    | _ => d) s

/-- ABSENT_SIGNAL_DETECT: 1 ms of signal (R193). -/
def execAbsentSignalDetect (port : Nat) (s : State) : Host.Outcome State Fault Refusal :=
  devStep (fun d => d.guard ((d.port port).state == .absent) (fun e => (e.reach (e.now + 1000000)).enterDetect port 1)) s

/-- PARTNER_SIGNAL_LOST: BACKOFF in training; in a retrain it is a failure (R193). -/
def execPartnerSignalLost (port : Nat) (s : State) : Host.Outcome State Fault Refusal :=
  devStep (fun d =>
    match (d.port port).state with
    | .equalise | .align | .param => d.goTo port .backoff
    | .retrain => d.enterDown port false
    | _ => d) s

/-- FRAME_ALIGNMENT_LOST (R196). -/
def execFrameAlignmentLost (port : Nat) (s : State) : Host.Outcome State Fault Refusal :=
  devStep (fun d => d.guard ((d.port port).state == .active) (fun e => e.enterRetrain port)) s

/-- EYE_MARGIN_LOW (R196). -/
def execEyeMarginLow (port : Nat) (s : State) : Host.Outcome State Fault Refusal :=
  devStep (fun d => d.guard ((d.port port).state == .active) (fun e => e.enterRetrain port)) s

/-- RETRAIN_TIMEOUT: a retrain exceeds 60 ms (R193). -/
def execRetrainTimeout (port : Nat) (s : State) : Host.Outcome State Fault Refusal :=
  devStep (fun d => d.guard ((d.port port).state == .retrain) (fun e =>
    (e.reach ((e.port port).since + 60000000)).enterDown port false)) s

/-- DOWN_EXPIRY: 1 ms, or 1 s after flapping (R193, R197). -/
def execDownExpiry (port : Nat) (s : State) : Host.Outcome State Fault Refusal :=
  liveStep (fun d => d.guard ((d.port port).state == .down) (fun e =>
    (e.reach ((e.port port).since + (if (e.port port).flapping then 1000000000 else 1000000))).enterDetect port 1)) s

/-- The partner is refused: BLOCKED (R195); from a retrain the port disposes of what it holds first (log entry 30). -/
def Dev.block (d : Dev) (n : Nat) (id : U64) : Dev :=
  let d1 := if (d.port n).state = .retrain then d.enterDown n false else d
  (d1.goTo n .blocked).raise { code := .swAuthFail, unit := some (.swPort, n), detail0 := some id }

/-- HEAD slots and data units of a class in frames that the receiver has not accepted. -/
def unaccepted (fs : List TxFrame) (t : Nat) : Nat × Nat :=
  let ps := (headsOf fs).filter (fun p => p.tc == t)
  (ps.length, (ps.map (fun p => p.units)).sum)

/-- The leak of one class (R192): headers and data units. -/
def Port.leak (p : Port) (later : List TxFrame) (t : Nat) (freed occ : List (Nat × Nat)) : Int × Int :=
  let c := creditOf p.consumed t
  let u := unaccepted later t
  let f := lgetD freed t (0, 0)
  let o := lgetD occ t (0, 0)
  let back := lgetD p.restored t (0, 0)
  let h : U16 := c.hdr - BitVec.ofNat 16 u.1 - BitVec.ofNat 16 f.1 - BitVec.ofNat 16 back.1 - BitVec.ofNat 16 o.1
  let x : BitVec 20 := c.data - BitVec.ofNat 20 u.2 - BitVec.ofNat 20 f.2 - BitVec.ofNat 20 back.2 - BitVec.ofNat 20 o.2
  (h.toInt, x.toInt)

/-- The AUDIT of a retrain (R192): a positive leak is restored and counted, a negative one takes the link DOWN. -/
def Dev.audit (d : Dev) (n : Nat) (freed occ : List (Nat × Nat)) (e : U12) : Dev :=
  let p := d.port n
  let later := p.unacked.drop (min p.unacked.length (p.ackDist (e - 1)))
  let leaks := (List.range 8).map (fun t => p.leak later t freed occ)
  if leaks.any (fun l => decide (l.1 < 0) || decide (l.2 < 0)) then d.enterDown n false
  else
    let d1 := d.modPort n (fun x => { x with
      restored := (List.range 8).map (fun t =>
        ((lgetD x.restored t (0, 0)).1 + (lgetD leaks t (0, 0)).1.toNat, (lgetD x.restored t (0, 0)).2 + (lgetD leaks t (0, 0)).2.toNat))
      partnerFreed := (List.range 8).map (fun t =>
        { hdr := BitVec.ofNat 16 (lgetD freed t (0, 0)).1, data := BitVec.ofNat 20 (lgetD freed t (0, 0)).2 })
      replayFrom := some e })
    (List.range 8).foldl (fun a t =>
      let l := lgetD leaks t (0, 0)
      if l = (0, 0) then a else a.bump (.swCreditLeak n t) (l.1.toNat + l.2.toNat)) d1

/-- READY is exchanged: the port is ACTIVE; after a retrain it replays from the partner's expected number (R196). -/
def Dev.linkReady (d : Dev) (n : Nat) : Dev :=
  let p := d.port n
  let d1 := d.modPort n (fun x => { x with state := .active, since := d.now, attempt := 1 })
  match p.replayFrom with
  | some e => ((((d1.takeAck n (e - 1)).modPort n (fun x => { x with replayFrom := none })).replay n).returnCredits n).settleWaits n
  | none => d1

/-- The next phase of PARAM: AUDIT only in a retrain (R195). -/
def nextPhase (retrain : Bool) (k : Nat) : Nat := if k = 3 ∧ retrain = false then 5 else k + 1

/-- KEYS is complete: both directions have keys of epoch 0 from the shared secret and the HELLO nonces (R201). -/
def Port.withKeys (x : Port) (partnerKey : BitVec 776) : Port :=
  let secret := Config.ecdhShared x.ecdhNo partnerKey
  let salt : BitVec 512 := BitVec.ofNat 512 (natOfBytes (x.lowerFirst (x.ownHello.drop 64) (x.partnerHello.drop 64)))
  { x with
    keyEpoch := 0, keyPhase := false, rxKeyPhase := false, keyFrames := 0, linkSecret := secret, linkSalt := salt
    txKey := linkKey secret salt Config.deviceId 0, rxEpoch := 0, rxKey := linkKey secret salt x.partnerId 0
    rxNextKey := linkKey secret salt x.partnerId 1 }

/-- Take the partner's frame of the present phase. A part of the certificate chain counts when it comes in order, and the chain is judged
when it is whole. -/
def Dev.takePhase (d : Dev) (n : Nat) (b : ParamBody) : Dev :=
  let re := (d.port n).state == .retrain
  let go := fun (e : Dev) => e.sendPhase n (nextPhase re (phaseNo b.content))
  match b.content with
  | .hello _ => go (d.modPort n (fun x => { x with partnerId := b.deviceId, partnerHello := bodyBytes b }))
  | .cert len off part ok id =>
    let got := (d.port n).partnerChain
    if off.toNat ≠ got.length then d
    else
      let d1 := d.modPort n (fun x => { x with partnerChain := got ++ part })
      if (got ++ part).length < len.toNat then d1
      else if ok && id == b.deviceId then go d1 else d1.block n b.deviceId
  | .keys key _ ok => if ok then go (d.modPort n (fun x => x.withKeys key)) else d.block n b.deviceId
  | .credits adv => go (d.modPort n (fun x => { x with partnerAdv := slotCredits adv }))
  | .audit freed occ e =>
    let d1 := d.audit n (slotCredits freed) (slotCredits occ) e
    if (d1.port n).state = .retrain then go d1 else d1
  | .ready => d.linkReady n

/-- A PARAM frame (R195): it counts in PARAM, and in the PARAM step of a retrain that does not wait to go DOWN; a bad one is not used
(R183). One that does not bring the phase on makes the port send its own phase again (log entry 86). -/
def Dev.takeParam (d : Dev) (n : Nat) (b : ParamBody) (c : FrameCond) : Dev :=
  let p := d.port n
  if !(p.state == .param || (p.state == .retrain && p.retrainStep == 2 && !d.downWaits n)) then d
  else
    let d1 := d.countFrame n c
    if c.uncorrectable ≠ 0 ∨ c.tagFail ∨ b.rsvd then d1.repeatPhase n
    else if b.version ≠ 1 then d1.block n b.deviceId
    else if phaseNo b.content = p.phase then d1.takePhase n b
    else d1.repeatPhase n

/-- PARAM_FRAME_RECEIVE (R195). -/
def execParamFrameReceive (port : Nat) (b : ParamBody) (c : FrameCond) (s : State) : Host.Outcome State Fault Refusal :=
  devStep (fun d => d.takeParam port b c) s

/-! ## What Huanik commands of a port (R189, R193, R196) -/

/-- Start a port: from DISABLED, ABSENT or BLOCKED it enters DETECT. -/
def Dev.portEnable (d : Dev) (n : Nat) : Dev :=
  match (d.port n).state with
  | .disabled | .absent | .blocked => d.enterDetect n 1
  | _ => d

/-- Take a port to DISABLED: a port that carries traffic disposes of it first. -/
def Dev.portDisable (d : Dev) (n : Nat) : Dev :=
  let d1 := match (d.port n).state with
    | .active | .retrain => d.enterDown n false
    | _ => d
  d1.goTo n .disabled

/-- Whether an advertisement meets its limits (R189). -/
def creditsOk (adv : List (Nat × Nat)) : Bool :=
  adv.length == 8 && decide ((adv.map (fun a => a.1)).sum ≤ 4096) && decide ((adv.map (fun a => a.2)).sum ≤ 16384) &&
  decide (32 ≤ (lgetD adv 7 (0, 0)).1) && decide (1024 ≤ (lgetD adv 7 (0, 0)).2)

end Sys2Proof.Machine
end

