-- ==== Sys2Proof/Machine/Window.lean ====
section
/-! DEFINITION. Leases, CXL.mem accesses, BAR2, the coherent window, the heads and dynamic capacity (Chapter 10). -/

namespace Sys2Proof.Machine

open Sys2Proof

/-! ## Segments and extents of a head (R237 to R240) -/

/-- Segments with the `n` bytes from `base` cut out. -/
def cutSegments (ss : List Segment) (base n : Nat) : List Segment :=
  ss.flatMap (fun s =>
    let e := s.base + 64 * s.lines
    if s.kind = .region ∧ s.base < base + n ∧ base < e then
      (if s.base < base then [{ s with lines := (base - s.base) / 64 }] else []) ++
      (if base + n < e then [{ s with base := base + n, lines := (e - (base + n)) / 64, targetOff := s.targetOff + (base + n - s.base) }] else [])
    else [s])

/-- Add a REGION segment: one that directly continues an existing segment is merged into it (R238). -/
def addSegment (ss : List Segment) (x : Segment) : List Segment :=
  match ss.findIdx? (fun s => s.kind == .region && s.targetId == x.targetId && s.r == x.r && s.w == x.w && s.a == x.a &&
      s.base + 64 * s.lines == x.base && s.targetOff + 64 * s.lines == x.targetOff) with
  | some i => ss.mapIdx (fun j s => if j = i then { s with lines := s.lines + x.lines } else s)
  | none => ss.filter (fun s => s.kind != .invalid) ++ [x]

/-- Whether a segment overlaps one of a list. -/
def overlaps (ss : List Segment) (x : Segment) : Bool :=
  ss.any (fun s => s.kind != .invalid && decide (s.base < x.base + 64 * x.lines) && decide (x.base < s.base + 64 * s.lines))

/-- The segment of a dynamic-capacity extent (R238). -/
def dcSegment (x : DcExtent) : Segment :=
  { base := x.dpa % 4398046511104, lines := x.length / 64, kind := .region, r := x.r, w := x.w, targetId := x.region,
    targetOff := x.offset }

/-- Change the segments of a context and invalidate its translations (R209). -/
def Dev.setSegments (d : Dev) (ctx : Nat) (ss : List Segment) : Dev :=
  { d with ctxs := tset d.ctxs ctx { (d.context ctx) with segments := ss } }.keepTrans (fun e => e.ctx != ctx)

/-- The context of a head's DC region that holds a DPA. -/
def Head.dcContext (h : Head) (dpa : Nat) : Option Nat := tget h.dcr (dpa / 4398046511104)

/-- Add a record to a head's event log: 1 added, 2 released (R243). -/
def Dev.headEvent (d : Dev) (h : Nat) (payload : List U64) : Dev :=
  d.modHead h (fun x => { x with
    events := x.events ++ [{ log := 4, handle := x.nextHandle, payload := payload }]
    nextHandle := if x.nextHandle = 65535 then 1 else x.nextHandle + 1 })

/-! ## Leases (R241 to R243) -/

/-- A lease number that is free: one never used, or else the lowest FREE one. -/
def Dev.freeLease (d : Dev) : Option Nat :=
  match firstFree (d.leases.map (fun l => l.1)) 0 65536 with
  | some n => some n
  | none => (d.leases.find? (fun l => l.2.state == .free)).map (fun l => l.1)

/-- The extents that the `n` bytes at a region offset lie on: whole interleave sets (log entry 35). -/
def leaseRange (r : Region) (off n : Nat) : Nat × Nat :=
  let set := r.width * extentBytes
  let first := off / set * r.width
  (first, ((off + n - 1) / set + 1) * r.width - first)

/-- The extents of a lease. -/
def Lease.extents (l : Lease) : List Nat := (List.range l.count).map (fun i => l.first + i)

/-- The extents of a list that no HELD lease covers. -/
def Dev.uncovered (d : Dev) (region : Nat) (es : List Nat) : List Nat :=
  es.filter (fun e => !d.leases.any (fun l => l.2.state == .held && l.2.covers region e))

/-- Clear extents of a region, by extent-list index, and return them. -/
def Dev.clearExtents (d : Dev) (region : Nat) (es : List Nat) : Dev :=
  match tget d.regions region with
  | some r => d.giveBack (es.filterMap (fun i => r.extents[i]?))
  | none => d

/-- Step 5 of R243 for every FENCED lease of a region: where extents of it are covered by no HELD lease, it enters CLEARING
and Shutter clears them. -/
def Dev.settleLeases (d : Dev) (region : Nat) : Dev :=
  d.leases.foldl (fun e x =>
    let es := e.uncovered region x.2.extents
    if x.2.state = .fenced ∧ x.2.region = region ∧ es ≠ [] then
      { e with leases := tset e.leases x.1 { x.2 with state := .clearing } }.clearExtents region es
    else e) d

/-- Stop a migration whose region lost a lease (R49): both the old and the new extents are cleared and returned. -/
def Dev.stopMigration (d : Dev) (region : Nat) : Dev :=
  match tget d.regions region with
  | none => d
  | some r =>
    if r.migrating then
      let d1 := { d with regions := tset d.regions region { r with
        migrating := false, newExtents := [], newParity := [], cursor := 0, migrateOp := none } }
      let d2 := d1.giveBack (r.newExtents ++ r.newParity.map ParityGroup.parity)
      (d2.clearExtents region (d2.uncovered region (List.range r.extents.length))).commandDone r.migrateOp (some r.partition) .leaseExpired
    else d

/-- Take a head out of the directory for the lines that `f` picks: lines that it owned become I and their cached contents
are lost; from others it is removed. The number it owned, and the device. -/
def Dev.dropWindow (d : Dev) (h : Nat) (f : Nat → Nat → Bool) : Nat × Dev :=
  let pick := fun (k : Nat) => f (k / 68719476736) (k % 68719476736)
  let owns := fun (e : DirEntry) => (e.state == .e || e.state == .m) && e.holder == h
  ((d.dir.filter (fun x => pick x.1 && owns x.2)).length,
   { d with dir := d.dir.filterMap (fun x =>
      if !pick x.1 then some x
      else if owns x.2 then none
      else if x.2.state = .s ∨ x.2.state = .f then
        let sh := putBit x.2.sharers h false
        if sh = 0 then none
        else some (x.1, { x.2 with sharers := sh, state := if x.2.holder = h then .s else x.2.state })
      else some x) })

/-- The extent-list index of a line of a region. -/
def Region.lineExt (r : Region) (line : Nat) : Nat := (decomposeIdx (grainBytes r.grainM8) r.width r.salt.toNat (64 * line)).1

/-- Whether a translation belongs to a lease's holder and extents. -/
def Dev.leaseTrans (d : Dev) (l : Lease) (e : TransEntry) : Bool :=
  l.covers e.region e.ext && (match l.head with
    | some h => (d.head h).contexts.contains e.ctx
    | none => e.ctx == l.context)

/-- Steps 3 and 4 of R243. -/
def Dev.leaseLoss (d : Dev) (n : Nat) (l : Lease) : Dev :=
  let part := (tget d.regions l.region).map (fun r => r.partition)
  let d1 := match l.head, tget d.regions l.region with
    | some h, some r =>
      if r.window then
        let (k, e) := d.dropWindow h (fun x line => x == l.region && l.covers l.region (r.lineExt line))
        if k = 0 then e
        else e.raise { code := .windowLinesLost, part := part, unit := some (.cxlHead, h), detail0 := some (BitVec.ofNat 64 n),
                       detail1 := some (BitVec.ofNat 64 k) }
      else d
    | _, _ => d
  d1.raise { code := .leaseExpired, part := part, detail0 := some (BitVec.ofNat 64 n), detail1 := some (statusWord .leaseExpired) }

/-- The head that made a window request, and whether it is answered as a read (Table 10.5). -/
def WinReq.head (q : WinReq) : Option (Nat × Bool) :=
  match q with
  | .readShared h | .readOwn h | .memInv h | .hostRead h => some (h, true)
  | .hostWrite h _ _ | .evict h => some (h, false)
  | _ => none

/-- The requests of a fenced holder for lines of the window that are not complete end with LEASE_EXPIRED (R243, step 2). -/
def Dev.endPending (d : Dev) (l : Lease) : Dev :=
  match l.head, tget d.regions l.region with
  | some h, some r =>
    let mine := fun (x line : Nat) (q : WinReq) => x == l.region && q.head.any (fun y => y.1 == h) && l.covers x (r.lineExt line)
    let gone := (d.winTxns.filter (fun t => mine t.region t.line t.req)).map (fun t => (t.line, t.req)) ++
      (d.winWaits.filter (fun w => mine w.region w.line w.req)).map (fun w => (w.line, w.req))
    gone.foldl (fun e x => e.cxlRefuse h .leaseExpired (x.2.head.any (fun y => y.2)) (dirKey l.region x.1) (some r.partition))
      { d with
        winTxns := d.winTxns.filter (fun t => !mine t.region t.line t.req)
        winWaits := d.winWaits.filter (fun w => !mine w.region w.line w.req) }
  | _, _ => d

/-- Steps 1 to 4 of R243: a HELD lease is fenced, its translations are invalidated, what its holder has under way ends, and its window lines
are lost. -/
def Dev.fenceLease (d : Dev) (n : Nat) (l : Lease) : Dev :=
  (({ d with leases := tset d.leases n { l with state := .fenced } }.keepTrans (fun e => !d.leaseTrans l e)).endPending l).leaseLoss n l

/-- End a descriptor in flight on an object of a region whose lease expired (R75): a chain by the last row of Table 6.12, once its requests
to other endpoints are answered. -/
def Dev.expireJob (d : Dev) (j : Job) : Dev :=
  if dOpcode j.desc = 0x01 ∨ dOpcode j.desc = 0x02 then
    match j.chain with
    | some c =>
      if c.started then d.putChain j { c with fail := some (c.fail.getD .leaseExpired) }
      else d.endChain j c .leaseExpired j.slotAddr (field j.desc 256 32)
    | none => d.finish j .leaseExpired (BitVec.ofNat 64 j.slotAddr) (BitVec.ofNat 32 (field j.desc 256 32))
  else d.finish j .leaseExpired

/-- Every object of a region is destroyed at once, and every page is free again (R75). -/
def Dev.destroyObjects (d : Dev) (r : Nat) : Dev :=
  let sp := d.pages r
  let near := sp.nearCounts.map (fun c => c.1) ++ sp.windows.map (fun w => w.2) ++
    (sp.freeing.filter (fun x => x.1.1)).map (fun x => x.1.2) ++ (sp.moved.filter (fun x => x.1)).map (fun x => x.2.1)
  let d1 := sp.used.foldl (fun e p => (e.setCount r (false, p) 0).setUsed r p false) d
  { d1 with
    objs := d1.objs.map (fun o =>
      if o.1 / 65536 = r ∧ o.2.state ≠ .free then
        (o.1, { gen := o.2.gen + 1, slots := o.2.slots.map (fun s => (s.1, { gen := if s.2.state = .free then s.2.gen else s.2.gen + 1 })) })
      else o)
    seqPages := terase d1.seqPages r
    nearUsed := d1.nearUsed.filter (fun n => !near.contains n) }

/-- What an expiry does to the objects of a region and to the descriptors in flight on them (R75). -/
def Dev.expireObjects (d : Dev) (r : Nat) : Dev :=
  if d.objs.any (fun o => decide (o.1 / 65536 = r) && o.2.state != .free) then
    ((d.jobs.filter (fun j => j.result.isNone && j.holds.any (fun h => h.region == r))).foldl (fun e j => e.expireJob j) d).atOnce
      (fun e => e.destroyObjects r)
  else d

/-- A lease expires: it is fenced, its translations are invalidated, window lines are lost, the event is raised, objects of its region are
destroyed, and extents that nobody else holds are cleared (R243, R49, R75). -/
def Dev.expireLease (d : Dev) (n : Nat) : Dev :=
  match tget d.leases n with
  | none => d
  | some l =>
    if l.state = .held then (((d.fenceLease n l).expireObjects l.region).stopMigration l.region).settleLeases l.region else d

/-- LEASE_EXPIRY: the device timestamp reaches a lease's expiry. -/
def execLeaseExpiry (lease : Nat) (s : State) : Host.Outcome State Fault Refusal :=
  devStep (fun d =>
    match tget d.leases lease with
    | some l => d.guard (l.state == .held && d.sys.live && d.sys.outageFrom.isNone && !d.sys.coldRetained) (fun e => (e.reach l.expiry).expireLease lease)
    | none => d) s

/-- A lease whose extents have been cleared becomes FREE; a head loses the extent and its segment, and its event log gets a
release record. -/
def Dev.endLease (d : Dev) (n : Nat) (l : Lease) : Dev :=
  let d1 := { d with leases := tset d.leases n { l with state := .free } }
  match l.head with
  | none => d1
  | some h =>
    (d1.head h).extents.foldl (fun e x =>
      if x.lease = some n then
        let e1 := match (if x.released then none else (e.head h).dcContext x.dpa) with
          | some c => e.setSegments c (cutSegments (e.context c).segments (x.dpa % 4398046511104) x.length)
          | none => e
        (e1.modHead h (fun y => { y with extents := y.extents.filter (fun z => z != x) })).headEvent h
          [2, BitVec.ofNat 64 x.dpa, BitVec.ofNat 64 x.length]
      else e) d1

/-- End every CLEARING lease none of whose extents still waits for Shutter. -/
def Dev.endCleared (d : Dev) : Dev :=
  d.leases.foldl (fun e x =>
    let waits := match tget e.regions x.2.region with
      | some r => x.2.extents.any (fun i => (r.extents[i]?).any (fun y => e.waitClear.contains (extM y, y.slot)))
      | none => false
    if x.2.state = .clearing ∧ waits = false then e.endLease x.1 x.2 else e) d

/-! ## From host address to region (R234, R244, R251) -/

/-- Whether a head carries CXL.mem requests: not below 16 GT/s, where its link trains as PCIe only (R232). -/
def Dev.memOpen (d : Dev) (h : Nat) : Bool :=
  (d.head h).linkUp && [16, 32, 64].contains (d.head h).rate && !(d.head h).removed && !(d.head h).d3hot && !d.sys.inDome

/-- The DPA of a host address in a decoder (R234). -/
def Decoder.dpa (x : Decoder) (hpa : Nat) : Nat :=
  let off := hpa - x.base
  x.dpaBase + off / (x.gran * x.ways) * x.gran + off % x.gran

/-- The region and offset that a head's access reaches, or its status. A partition in a tenant change refuses it (R263; log
entry 27). -/
def Dev.cxlLocate (d : Dev) (h hpa : Nat) (needs : List Right) : Except Status (Nat × Nat) × Dev :=
  let hd := d.head h
  match hd.decoders.find? (fun x => decide (x.2.base ≤ hpa) && decide (hpa < x.2.base + x.2.size)) with
  | none => (.error .bounds, d)
  | some (i, x) =>
    match hd.dcContext (x.dpa hpa) with
    | none => (.error .bounds, d)
    | some c =>
      if d.tenantChanging (d.context c).partition then (.error .rights, d) else
      let at_ := fun (n : Right) => d.locateBy (fun l => l.head == some h) c (x.dpa hpa % 4398046511104) 64 n
      let res := needs.foldl (fun (acc : Except Status (Nat × Nat)) n => match acc with
        | .error st => .error st
        | .ok _ => at_ n) (at_ (needs.headD .r))
      match res with
      | .error st => (.error (if st = .format then .rights else st), d)
      | .ok (r, off) =>
        if (tget d.regions r).any (fun y => y.window) && !x.bi then
          (.error .rights,
           if x.noBiRaised then d
           else
             (d.modHead h (fun y => { y with decoders := tset y.decoders i { x with noBiRaised := true } })).raise
               { code := .windowNoBi, part := (tget d.regions r).map (fun y => y.partition), unit := some (.cxlHead, h),
                 detail0 := some (BitVec.ofNat 64 i), detail1 := some (statusWord .rights) })
        else (.ok (r, off), { d.transFill (32 + h / 2) c (x.dpa hpa % 4398046511104) with stream := .port (32 + h) c })

/-- Run an access of a head that is located, or refuse it (Table 10.5). What it meets that it must wait for makes it wait (R253, R343). -/
def Dev.cxlAccess (d : Dev) (h hpa : Nat) (needs : List Right) (read : Bool) (f : Nat → Nat → Region → Dev → Dev) : Dev :=
  d.guard (d.memOpen h) (fun e => e.windowed (fun e0 =>
    match e0.cxlLocate h hpa needs with
    | (.error st, e1) => e1.cxlRefuse h st read hpa none
    | (.ok (r, off), e1) =>
      match tget e1.regions r with
      | some reg => (f r off reg e1).atRest
      | none => e1))

/-! ## Window transactions (R253, R254, Table 10.8) -/

/-- The physical place of a window line. -/
def Dev.winPlace (d : Dev) (r line : Nat) : Option (Nat × Nat) := (tget d.regions r).bind (fun reg => d.place reg (64 * line))

/-- Read a window line from memory. -/
def Dev.winRead (d : Dev) (r line : Nat) : Status × Line × Dev :=
  match d.winPlace r line with
  | some (m, l) => d.readLine m l
  | none => (.bounds, 0, d)

/-- Write a window line, whole or in part (R151). -/
def Dev.winWrite (d : Dev) (r line : Nat) (data : Line) (en : U64) : Status × Dev :=
  match d.winPlace r line with
  | none => (.bounds, d)
  | some (m, l) =>
    if en = BitVec.allOnes 64 then (.ok, d.writeLine m l data)
    else
      let (st, old, d1) := d.readLine m l
      if st = .ok then (.ok, d1.putLine m l (mergeBytes old data en)) else (st, d1)

/-- Whether a request writes memory. -/
def WinReq.writes (q : WinReq) : Bool :=
  match q with
  | .hostWrite _ _ _ | .other (.write _ _) | .other (.atomic _ _ _ _) => true
  | _ => false

/-- Whether the memory behind a window line makes an access wait: a page copy, or its controller (R45, R169, R175, R343). -/
def Dev.winHeld (d : Dev) (r line : Nat) (write : Bool) : Bool :=
  match tget d.regions r with
  | none => false
  | some reg => (write && (d.writeHeld r (64 * line) || (d.pageHeld reg (64 * line)).1)) ||
      (d.place reg (64 * line)).any (fun x => d.mustWait x.1 x.2 write)

/-- The snoops that a request needs first (Table 10.8). -/
def snoopsFor (e : DirEntry) (q : WinReq) : List (Nat × Snoop) :=
  let owner := fun (h : Nat) (k : Snoop) => if e.holder = h then [] else [(e.holder, k)]
  let others := fun (h : Nat) => ((bitsOf e.sharers).filter (fun x => x != h)).map (fun x => (x, Snoop.inv))
  match q, e.state with
  | .readShared h, .e => owner h .data
  | .readShared h, .m => owner h .data
  | .hostRead h, .e => owner h .cur
  | .hostRead h, .m => owner h .cur
  | .readOwn h, .e => owner h .inv
  | .readOwn h, .m => owner h .inv
  | .memInv h, .e => owner h .inv
  | .memInv h, .m => owner h .inv
  | .hostWrite h _ _, .e => owner h .inv
  | .hostWrite h _ _, .m => owner h .inv
  | .readOwn h, .s => others h
  | .readOwn h, .f => others h
  | .memInv h, .s => others h
  | .memInv h, .f => others h
  | .hostWrite h _ _, .s => others h
  | .hostWrite h _ _, .f => others h
  | .other .read, _ => otherSnoops e false
  | .other _, _ => otherSnoops e true
  | .deferred w, _ => otherSnoops e w
  | _, _ => []

/-- The data of a line granted to a head, with the line's next state. -/
def Dev.winGrant (d : Dev) (r line h : Nat) (next : DirEntry) : Dev :=
  let (st, x, d1) := d.winRead r line
  if st = .ok then (d1.setDir r line next).emit (.cxlGrant h next.state (some x)) else d1.cxlRefuse h st true (dirKey r line) none

/-- Apply an atomic of another requester to a window line. -/
def Dev.winAtomic (d : Dev) (r line op offset : Nat) (operand compare : U64) : Dev :=
  let n := if op / 16 % 2 = 1 then 8 else 4
  let (st, x, d1) := d.winRead r line
  if st = .ok then
    let old := field x (8 * offset) (8 * n)
    let new := atomicNew (8 * n) (op % 16) old (operand.toNat % 2 ^ (8 * n)) (compare.toNat % 2 ^ (8 * n))
    let (_, d2) := (d1.setDir r line {}).winWrite r line (BitVec.ofNat 512 (new * 2 ^ (8 * offset))) (BitVec.ofNat 64 ((2 ^ n - 1) * 2 ^ offset))
    d2.emit (.line .ok (BitVec.ofNat 512 old))
  else d1.emit (.line st 0)

/-- Carry out a request whose snoops are answered (Table 10.8). -/
def Dev.winDo (d : Dev) (r line : Nat) (q : WinReq) : Dev :=
  let e := d.dirOf r line
  let own := fun (h : Nat) => ({ state := .m, holder := h } : DirEntry)
  match q with
  | .readShared h =>
    d.winGrant r line h (match e.state with
      | .i => { state := .e, holder := h }
      | .s | .f => { state := .f, holder := h, sharers := putBit e.sharers h true }
      | .e | .m => if e.holder = h then e else { state := .f, holder := h, sharers := putBit (putBit 0 e.holder true) h true })
  | .readOwn h => d.winGrant r line h (own h)
  | .memInv h =>
    if e.state = .f ∧ e.holder = h then (d.setDir r line (own h)).emit (.cxlGrant h .m none) else d.winGrant r line h (own h)
  | .hostRead h =>
    let (st, x, d1) := d.winRead r line
    if st = .ok then d1.emit (.cxlData h x false) else d1.cxlRefuse h st true (dirKey r line) none
  | .hostWrite h data en =>
    let (st, d1) := d.winWrite r line data en
    if st = .ok then (d1.setDir r line {}).emit (.cxlDone h) else d1.cxlRefuse h st false (dirKey r line) none
  | .other .read => let (st, x, d1) := d.winRead r line; d1.emit (.line st x)
  | .other (.write data en) =>
    let (st, d1) := d.winWrite r line data en
    (if st = .ok then d1.setDir r line {} else d1).emit (.lineAck st)
  | .other (.atomic op offset operand compare) => d.winAtomic r line op.toNat offset operand compare
  | .evict h => (d.dropWindow h (fun x l => x == r && l == line)).2.emit (.cxlDone h)
  | _ => d

/-- Start a request on a free line. -/
def Dev.winStart (d : Dev) (r line : Nat) (q : WinReq) : Dev :=
  match snoopsFor (d.dirOf r line) q with
  | [] => d.winDo r line q
  | sn => d.startTxn r line q sn

/-- A request for a window line: it starts, or waits while the line is busy or its memory makes it wait. -/
def Dev.winRequest (d : Dev) (r line : Nat) (q : WinReq) : Dev :=
  if d.winBusy r line none || d.winHeld r line q.writes then d.winWait r line q else d.winStart r line q

/-- Whether an atomic on a window line is refused with FORMAT, before it has any effect (R246 to R248). -/
def otherBad (x : OtherAccess) : Bool :=
  match x with
  | .atomic op offset operand compare =>
    atomicBad op.toNat operand.toNat compare.toNat || offset % (if op.toNat / 16 % 2 = 1 then 8 else 4) != 0 || decide (60 < offset)
  | _ => false

/-- WINDOW_OTHER_ACCESS: a window line is read or written by a requester that does not cache. -/
def execWindowOtherAccess (region line : Nat) (acc : OtherAccess) (s : State) : Host.Outcome State Fault Refusal :=
  liveStep (fun d =>
    match tget d.regions region with
    | some reg =>
      d.guard (reg.window && !reg.failed && (d.winPlace region line).isSome) (fun e =>
        if otherBad acc then e.emit (.line .format 0) else e.winRequest region line (.other acc))
    | none => d) s

/-- The age at which the line is reserved for a request (R253). -/
def Dev.ageLimit (d : Dev) (q : WinReq) : Nat :=
  match q with
  | .readShared h | .readOwn h | .memInv h | .hostRead h | .hostWrite h _ _ | .evict h => (d.param 0x0031 h).toNat
  | _ => (d.param 0x0030 0).toNat

/-- WINDOW_BUSY_RETRY: the first request waiting for a line is tried again. If the line is free to it, it starts; otherwise
it ages and goes to the end of its queue, and at its limit the line is reserved for it. One whose descriptor is gone goes too. -/
def Dev.winRetry (d : Dev) (r line : Nat) : Dev :=
  match d.winWaits.find? (fun w => w.region == r && w.line == line) with
  | none => d
  | some w =>
    let rest := d.winWaits.erase w
    if w.who.1.any (fun id => (d.job id).isNone) then { d with winWaits := rest }
    else if d.winBusy r line (some w) || d.winHeld r line w.req.writes then
      let held := rest.any (fun x => x.region == r && x.line == line && x.reserved)
      { d with winWaits := rest ++ [{ w with
          age := w.age + 1, reserved := w.reserved || (decide (d.ageLimit w.req ≤ w.age + 1) && !held) }] }
    else
      match w.req with
      | .deferred _ => { d with winWaits := rest ++ [w] }
      | q => { d with winWaits := rest }.winStart r line q

/-- WINDOW_BUSY_RETRY. -/
def execWindowBusyRetry (region line : Nat) (s : State) : Host.Outcome State Fault Refusal := devStep (fun d => d.winRetry region line) s

/-- Replace a transaction, or remove it. -/
def Dev.putTxn (d : Dev) (t : WinTxn) (u : Option WinTxn) : Dev :=
  { d with winTxns := d.winTxns.flatMap (fun x => if x == t then u.toList else [x]) }

/-- BISNP_RESPONSE: a host answers a snoop, writing back what it modified; the last answer lets the transaction go on. The
owner's answer to BISnpCur fixes the state (Table 10.8). An answer whose memory accesses must wait is taken up later (R45, R343). -/
def Dev.snoopAnswer (d : Dev) (r line h : Nat) (ans : BiAnswer) (wb : Option Line) : Dev :=
  match d.winTxns.find? (fun t => t.region == r && t.line == line && t.waiting.contains h) with
  | none => d
  | some t =>
    if d.winHeld r line (wb.isSome || t.req.writes) then d
    else
    let cur := (snoopsFor (d.dirOf r line) t.req).any (fun x => x == (h, Snoop.cur))
    let d1 := match wb with
      | some x => (d.winWrite r line x (BitVec.allOnes 64)).2
      | none => d
    let d2 := if cur then
        d1.setDir r line (match ans with
          | .keepsExclusive => { state := .e, holder := h }
          | .keepsShared => { state := .s, sharers := putBit 0 h true }
          | .keepsNothing => {})
      else d1
    let rest := t.waiting.filter (fun x => x != h)
    if rest ≠ [] then d2.putTxn t (some { t with waiting := rest })
    else
      match t.req with
      | .deferred w => (if w then d2.setDir r line {} else d2).putTxn t (some { t with waiting := [] })
      | q => (d2.putTxn t none).winDo r line q

/-- BISNP_RESPONSE. -/
def execBisnpResponse (region line head : Nat) (ans : BiAnswer) (wb : Option Line) (s : State) : Host.Outcome State Fault Refusal :=
  devStep (fun d => d.snoopAnswer region line head ans wb) s

/-- A snoop went unanswered: the transaction ends, a host's read with poisoned data and any other request with TIMEOUT
(R254). The line's state stays. BI_TIMEOUT is raised for each of `heads`, naming the line by its region and number (log entry 83). -/
def Dev.failTxn (d : Dev) (t : WinTxn) (heads : List Nat) : Dev :=
  let d1 := heads.foldl (fun e h =>
    e.raise { code := .biTimeout, part := (tget e.regions t.region).map (fun y => y.partition), unit := some (.cxlHead, h),
              detail0 := some (BitVec.ofNat 64 (dirKey t.region t.line)), detail1 := some (statusWord .timeout) }) d
  match t.req.head with
  | some (h, read) => (d1.putTxn t none).cxlRefuse h .timeout read (dirKey t.region t.line) none
  | none =>
    match t.req with
    | .other (.write _ _) => (d1.putTxn t none).emit (.lineAck .timeout)
    | .other _ => (d1.putTxn t none).emit (.line .timeout 0)
    | _ => d1.putTxn t (some { t with waiting := [], failed := true })

/-- The time at which a head's snoop of a transaction runs out. -/
def Dev.biLimit (d : Dev) (t : WinTxn) (h : Nat) : Nat := t.started + (d.param 0x0032 h).toNat * 1000000

/-- BI_TIMEOUT: the first of the snoops of a line that wait runs out, each by the limit of its own head. A finished transaction that no access
has taken up is dropped. -/
def Dev.biTimeout (d : Dev) (r line : Nat) : Dev :=
  match d.winTxns.find? (fun t => t.region == r && t.line == line) with
  | none => d
  | some t =>
    match t.waiting with
    | [] => d.putTxn t none
    | h :: hs =>
      let e := d.reach (hs.foldl (fun a x => min a (d.biLimit t x)) (d.biLimit t h))
      e.failTxn t (t.waiting.filter (fun x => decide (e.biLimit t x ≤ e.now)))

/-- BI_TIMEOUT. -/
def execBiTimeout (region line : Nat) (s : State) : Host.Outcome State Fault Refusal := devStep (fun d => d.biTimeout region line) s

/-! ## CXL.mem (R244, R245) -/

/-- CXL_MEM_READ: a host read of a line; of a window line without caching it. -/
def execCxlMemRead (head hpa : Nat) (s : State) : Host.Outcome State Fault Refusal :=
  devStep (fun d => d.cxlAccess head hpa [.r] true (fun r off reg e =>
    if reg.window then e.winRequest r (off / 64) (.hostRead head)
    else
      let (st, x, e1) := e.load r off
      if st = .ok then e1.emit (.cxlData head x false) else e1.cxlRefuse head st true hpa (some reg.partition))) s

/-- CXL_MEM_WRITE: a host write, full or partial; its completion waits for the mirror of a paired region (R317). -/
def execCxlMemWrite (head hpa : Nat) (data : Line) (en : U64) (s : State) : Host.Outcome State Fault Refusal :=
  devStep (fun d => d.mirrored (.hostWrite head data en) (fun f =>
    f.cxlAccess head hpa [.w] false (fun r off reg e =>
      if reg.window then e.winRequest r (off / 64) (.hostWrite head data en)
      else
        let (st, e1) := if en = BitVec.allOnes 64 then e.save r off data else e.merge r off data en
        if st ≠ .ok then e1.cxlRefuse head st false hpa (some reg.partition)
        else if e1.pair.nextMirror = e.pair.nextMirror then e1.emit (.cxlDone head) else e1))) s

/-- A window request of a head that caches; on a line outside the window it is a plain read. -/
def Dev.cacheRead (d : Dev) (h hpa : Nat) (needs : List Right) (q : WinReq) : Dev :=
  d.cxlAccess h hpa needs true (fun r off reg e =>
    if reg.window then e.winRequest r (off / 64) q
    else
      let (st, x, e1) := e.load r off
      if st = .ok then e1.emit (.cxlData h x false) else e1.cxlRefuse h st true hpa (some reg.partition))

/-- WINDOW_READ_SHARED. -/
def execWindowReadShared (head hpa : Nat) (s : State) : Host.Outcome State Fault Refusal :=
  devStep (fun d => d.cacheRead head hpa [.r] (.readShared head)) s

/-- WINDOW_READ_OWNERSHIP: needs the R and the W right. -/
def execWindowReadOwnership (head hpa : Nat) (s : State) : Host.Outcome State Fault Refusal :=
  devStep (fun d => d.cacheRead head hpa [.r, .w] (.readOwn head)) s

/-- WINDOW_MEMINV: needs the W right. -/
def execWindowMeminv (head hpa : Nat) (s : State) : Host.Outcome State Fault Refusal :=
  devStep (fun d => d.cacheRead head hpa [.w] (.memInv head)) s

/-- WINDOW_WRITEBACK: the owner writes a line back and keeps nothing; from a head that does not own the line it is a full
write. -/
def execWindowWriteback (head hpa : Nat) (data : Line) (s : State) : Host.Outcome State Fault Refusal :=
  devStep (fun d => d.mirrored (.hostWrite head data (BitVec.allOnes 64)) (fun f =>
    f.cxlAccess head hpa [.w] false (fun r off reg e =>
      if reg.window then e.winRequest r (off / 64) (.hostWrite head data (BitVec.allOnes 64))
      else
        let (st, e1) := e.save r off data
        if st ≠ .ok then e1.cxlRefuse head st false hpa (some reg.partition)
        else if e1.pair.nextMirror = e.pair.nextMirror then e1.emit (.cxlDone head) else e1))) s

/-- WINDOW_CLEAN_EVICTION: the head is removed from the line; a forwarder that leaves turns F to S, and a line that nobody
holds is I. It is answered like a write (R244). -/
def execWindowCleanEviction (head hpa : Nat) (s : State) : Host.Outcome State Fault Refusal :=
  devStep (fun d => d.cxlAccess head hpa [.r] false (fun r off reg e =>
    if reg.window then e.winRequest r (off / 64) (.evict head) else e.emit (.cxlDone head))) s

/-- DIRECTORY_FILL: an entry missing in the partition's slice is fetched from the directory extents; a full slice gives up
its oldest entry (R250). -/
def Dev.dirFill (d : Dev) (r line : Nat) : Dev :=
  match tget d.regions r with
  | none => d
  | some reg =>
    let k := dirKey r line
    if !reg.window || d.dirCached.contains k then d
    else
      let mine := d.dirCached.filter (fun x => (tget d.regions (x / 68719476736)).any (fun y => y.partition == reg.partition))
      let cap := (d.partn reg.partition).dirWays * 65536
      let keep := if cap ≤ mine.length then (mine.getLast?).toList else []
      { d with dirCached := k :: d.dirCached.filter (fun x => !keep.contains x) }

/-- DIRECTORY_FILL. -/
def execDirectoryFill (region line : Nat) (s : State) : Host.Outcome State Fault Refusal := liveStep (fun d => d.dirFill region line) s

/-! ## BAR2 (R235) -/

/-- BAR2_DOORBELL_WRITE: a write at offset b goes to context address b of the head's doorbell context, and must fall in a
DOORBELL segment; it is then a doorbell write under R118. A read returns all ones. -/
def execBar2DoorbellWrite (head off len : Nat) (value : Option U64) (s : State) : Host.Outcome State Fault Refusal :=
  devStep (fun d =>
    d.guard ((d.head head).linkUp && decide (off < 4194304)) (fun e =>
      match value with
      | none => e.emit (.bar2Data head len (2 ^ (8 * len) - 1))
      | some v =>
        match (e.head head).doorbell with
        | none => e
        | some c =>
          match (if (e.context c).valid then segOf (e.context c) off else none) with
          | none => e
          | some g =>
            if g.kind = .doorbell ∧ g.w = true then
              e.ringDoorbell { ctx := c, off := g.targetOff + (off - g.base), len := len, value := v }
            else e)) s

/-! ## Heads (R233, R255, R379) -/

/-- Whether the device has a head: the lower half of every port, and the upper half of a bifurcated one (R233). -/
def Dev.headExists (d : Dev) (h : Nat) : Bool := decide (h < 8) && (h % 2 == 0 || bit d.sys.cfg.bifurcated (h / 2))

/-- The effect on the coherent window of a reset or removal of a head (R255): its own requests are gone with it, its lines are lost, and
transactions that wait on its snoops end at once. -/
def Dev.headLoss (d : Dev) (h : Nat) : Dev :=
  let own := fun (q : WinReq) => q.head.any (fun y => y.1 == h)
  let (k, d1) := { d with winTxns := d.winTxns.filter (fun t => !own t.req), winWaits := d.winWaits.filter (fun w => !own w.req) }.dropWindow h
    (fun _ _ => true)
  let d2 := if k = 0 then d1
    else d1.raise { code := .windowLinesLost, unit := some (.cxlHead, h), detail1 := some (BitVec.ofNat 64 k) }
  (d2.winTxns.filter (fun t => t.waiting.contains h)).foldl (fun e t => e.failTxn t [h]) d2

/-- A conventional reset of a head: its tag moves on, its window lines are lost, its link goes down and its configuration is
lost (log entry 37). Leases, binding and event log stay. -/
def Dev.headReset (d : Dev) (h : Nat) : Dev :=
  (((d.headLoss h).tagOrDefer (.head h) 2)).modHead h (fun x => { x with
    linkUp := false, cfgReady := false, d3hot := false, decoders := [], ideKeys := [] })

/-- The heads of a port. -/
def Dev.portHeads (d : Dev) (n : Nat) : List Nat := [2 * n, 2 * n + 1].filter (fun h => d.headExists h)

/-- PERST_ASSERT: the port's heads are reset. During a warm reset that comes at its step 6; RESET_N low overrides it. -/
def execPerstAssert (port : Nat) (s : State) : Host.Outcome State Fault Refusal :=
  devStep (fun d =>
    let d1 := { d with sys := { d.sys with
      perstAsserted := putBit d.sys.perstAsserted port true, trainStarted := putBit d.sys.trainStarted port false } }
    if !d1.sys.resetN then d1
    else if d1.sys.warmPhase then { d1 with sys := { d1.sys with perstPending := putBit d1.sys.perstPending port true } }
    else (d1.portHeads port).foldl (fun e h => e.headReset h) d1) s

/-- PERST_DEASSERT: link training of the port begins. -/
def execPerstDeassert (port : Nat) (s : State) : Host.Outcome State Fault Refusal :=
  devStep (fun d => { d with sys := { d.sys with
    perstAsserted := putBit d.sys.perstAsserted port false, trainStarted := putBit d.sys.trainStarted port d.sys.resetN } }) s

/-- CONFIG_RETRY_WINDOW_END: the head completes configuration requests from now on (R379). -/
def execConfigRetryWindowEnd (head : Nat) (s : State) : Host.Outcome State Fault Refusal :=
  devStep (fun d => d.guard (d.headExists head && bit d.sys.trainStarted (head / 2)) (fun e =>
    e.modHead head (fun x => { x with cfgReady := true }))) s

/-- The features that the capability structures advertise (R232, Table 10.1). -/
def cxlFeatures : List CxlFeature :=
  [.cxlIo, .cxlMem, .latencyOptimisedFlit, .multiHeaded, .hdmDecoders, .hdmH, .hdmDb, .dynamicCapacity, .ide, .getPoisonList,
   .eventRecords, .cdat]

/-- What CDAT reports: the upper bounds of Table 10.10 (R258), and the bandwidth that an x16 head at least sustains. -/
def cdatRows : List (CdatRow × Nat) :=
  [(.capacityRead, 300), (.nearRead, 200), (.fullWrite, 200), (.windowReadExtra, 150), (.expiryToFence, 10000), (.headBandwidth, 112)]

/-- CONFIG_REQUEST: a configuration request is answered with Request Retry Status until the head is ready; one that sets the
power state enters or leaves D3hot; the capability structures and CDAT are read. -/
def execConfigRequest (head : Nat) (req : CfgReq) (s : State) : Host.Outcome State Fault Refusal :=
  devStep (fun d => d.guard (d.headExists head && bit d.sys.trainStarted (head / 2)) (fun e =>
    if (e.head head).cfgReady then
      match req with
      | .power d3 => (e.modHead head (fun x => { x with d3hot := d3 })).emit (.cfgDone head)
      | .capabilities => e.emit (.capabilities head cxlFeatures)
      | .cdat => e.emit (.cdat head cdatRows)
      | .other => e.emit (.cfgDone head)
    else e.emit (.cfgRetry head))) s

/-- The widths at which a head's link trains (R232, R233): x16, or x8 where the port is bifurcated, and less by downtraining. -/
def Dev.widthOk (d : Dev) (h width : Nat) : Bool :=
  (if bit d.sys.cfg.bifurcated (h / 2) then [8, 4] else [16, 8, 4]).contains width

/-- CXL_LINK_UP: the head's link has trained, at a rate in GT/s and a width. -/
def execCxlLinkUp (link : HeadLink) (s : State) : Host.Outcome State Fault Refusal :=
  devStep (fun d => d.guard (d.headExists link.head && bit d.sys.trainStarted (link.head / 2) && d.widthOk link.head link.width) (fun e =>
    e.modHead link.head (fun x => { x with linkUp := true, removed := false, rate := link.rate, width := link.width }))) s

/-- CXL_LINK_DOWN: the link goes down; directory state and leases stay (R255). -/
def execCxlLinkDown (head : Nat) (s : State) : Host.Outcome State Fault Refusal :=
  devStep (fun d => d.modHead head (fun x => { x with linkUp := false })) s

/-- CXL_RESET of a head: its window lines are lost (R255). -/
def execCxlReset (head : Nat) (s : State) : Host.Outcome State Fault Refusal :=
  devStep (fun d => d.guard (d.headExists head) (fun e => e.headLoss head)) s

/-- HEAD_REMOVAL: the head's window lines are lost and its link is gone (R255). -/
def execHeadRemoval (head : Nat) (s : State) : Host.Outcome State Fault Refusal :=
  devStep (fun d => d.guard (d.headExists head) (fun e =>
    (e.headLoss head).modHead head (fun x => { x with linkUp := false, removed := true }))) s

/-- HDM_DECODER_COMMIT: the host commits a decoder (R232, R234, R251). -/
def execHdmDecoderCommit (head idx base size ways granularity dpaBase : Nat) (bi : Bool) (s : State) :
    Host.Outcome State Fault Refusal :=
  devStep (fun d =>
    d.guard (d.headExists head && (d.head head).linkUp && decide (idx < 8) && [1, 2, 3, 4, 6, 8, 12, 16].contains ways &&
        [256, 512, 1024, 2048, 4096, 8192, 16384].contains granularity)
      (fun e =>
        let dec : Decoder := { base := base, size := size, ways := ways, gran := granularity, dpaBase := dpaBase, bi := bi }
        e.modHead head (fun x => { x with decoders := tset x.decoders idx dec }))) s

/-! ## Dynamic capacity (R237 to R240) -/

/-- An offered extent. -/
def dcOf (x : DcExtentIn) : DcExtent :=
  { dpa := x.dpa, length := x.length, region := x.region, r := x.r, w := x.w, offset := x.offset,
    duration := if x.duration = 0 then 30 else x.duration }

/-- The conditions of R237 on one extent, given the segments that the contexts will have before it: the segments after it,
or none where it is refused. -/
def Dev.dcCheck (d : Dev) (h : Nat) (x : DcExtentIn) (ss : Tab (List Segment)) : Option (Tab (List Segment)) :=
  match (d.head h).dcContext x.dpa, tget d.regions x.region with
  | some c, some r =>
    let own := tgetD ss c (d.context c).segments
    let new := dcSegment (dcOf x)
    let after := addSegment own new
    if x.dpa % extentBytes = 0 ∧ x.length % extentBytes = 0 ∧ x.length ≠ 0 ∧ x.dpa / 4398046511104 < 8 ∧
        (x.dpa + x.length - 1) / 4398046511104 = x.dpa / 4398046511104 ∧ x.tagRsvd = false ∧ x.offset % extentBytes = 0 ∧
        x.duration ≤ 3600 ∧ (d.context c).valid = true ∧ r.partition = (d.context c).partition ∧
        x.offset + x.length ≤ r.extents.length * extentBytes ∧ r.tier ≠ .sequence ∧ overlaps own new = false ∧
        (after.filter (fun s => s.kind != .invalid)).length ≤ 8
    then some (tset ss c after) else none
  | _, _ => none

/-- Whether every extent of an add passes, with those offered before it. -/
def Dev.dcAll (d : Dev) (h : Nat) : List DcExtentIn → Tab (List Segment) → Bool
  | [], _ => true
  | x :: r, ss =>
    match d.dcCheck h x ss with
    | some ss' => Dev.dcAll d h r ss'
    | none => false

/-- Leases that can still be given. -/
def Dev.leasesLeft (d : Dev) : Nat := 65536 - (d.leases.filter (fun l => l.2.state != .free)).length

/-- DC_ADD_EXTENT: the fabric manager adds extents; Feryth takes all of them or none (R237, R241). -/
def Dev.dcAdd (d : Dev) (h : Nat) (xs : List DcExtentIn) : Dev :=
  let offered := (d.head h).offered.foldl (fun (ss : Tab (List Segment)) x =>
    match (d.head h).dcContext x.dpa with
    | some c => tset ss c (addSegment (tgetD ss c (d.context c).segments) (dcSegment x))
    | none => ss) []
  if d.headExists h && d.dcAll h xs offered && decide (xs.length + (d.head h).offered.length ≤ d.leasesLeft) then
    (xs.foldl (fun e x => (e.modHead h (fun y => { y with offered := y.offered ++ [dcOf x] })).headEvent h
      [1, BitVec.ofNat 64 x.dpa, BitVec.ofNat 64 x.length]) d).emit (.dcAdd h true)
  else d.emit (.dcAdd h false)

/-- DC_ADD_EXTENT. -/
def execDcAddExtent (head : Nat) (exts : List DcExtentIn) (s : State) : Host.Outcome State Fault Refusal :=
  devStep (fun d => d.dcAdd head exts) s

/-- Results of CXL mailbox commands (log entry 36): success, invalid input, unsupported. -/
def mboxOk : Nat := 0
/-- Invalid Input. -/
def mboxInvalid : Nat := 2
/-- Unsupported. -/
def mboxUnsupported : Nat := 3

/-- Answer a CXL mailbox command. -/
def Dev.mbox (d : Dev) (h result : Nat) (payload : List U64) : Dev := d.emit (.cxlMbox h result payload)

/-- ADD_DC_RESPONSE: a host accepts an offered extent, and its segment and lease are made, or declines it (R238). -/
def Dev.dcAccept (d : Dev) (h dpa length : Nat) (accept : Bool) : Dev :=
  match (d.head h).offered.find? (fun x => x.dpa == dpa && x.length == length) with
  | none => d.mbox h mboxInvalid []
  | some x =>
    let d1 := d.modHead h (fun y => { y with offered := y.offered.erase x })
    if !accept then d1.mbox h mboxOk []
    else match (d1.head h).dcContext dpa, d1.freeLease, tget d1.regions x.region with
      | some c, some n, some r =>
        let (first, count) := leaseRange r x.offset x.length
        let l : Lease := { state := .held, head := some h, context := c, duration := x.duration,
                           expiry := d1.now + x.duration * 1000000000, region := x.region, first := first, count := count }
        let d2 := d1.setSegments c (addSegment (d1.context c).segments (dcSegment x))
        ({ d2 with leases := tset d2.leases n l }.modHead h (fun y => { y with extents := y.extents ++ [{ x with lease := some n }] })).mbox
          h mboxOk []
      | _, _, _ => d.mbox h mboxInvalid []

/-- ADD_DC_RESPONSE. -/
def execAddDcResponse (head dpa length : Nat) (accept : Bool) (s : State) : Host.Outcome State Fault Refusal :=
  devStep (fun d => d.guard (d.headExists head) (fun e => e.dcAccept head dpa length accept)) s

/-- The parts of an extent that stay when the `n` bytes at `dpa` are released. -/
def DcExtent.cut (x : DcExtent) (dpa n : Nat) : List DcExtent :=
  (if x.dpa < dpa then [{ x with length := dpa - x.dpa }] else []) ++
  (if dpa + n < x.dpa + x.length then
    [{ x with dpa := dpa + n, length := x.dpa + x.length - (dpa + n), offset := x.offset + (dpa + n - x.dpa) }] else [])

/-- Give the parts of an extent that stay their leases: the first keeps the old one. -/
def Dev.releaseKeep (d : Dev) (h n : Nat) (l : Lease) (r : Region) : List DcExtent → Bool → Dev
  | [], _ => d
  | x :: rest, first =>
    let (a, k) := leaseRange r x.offset x.length
    let no := if first then n else d.freeLease.getD n
    Dev.releaseKeep ({ d with leases := tset d.leases no { l with first := a, count := k } }.modHead h (fun y =>
      { y with extents := y.extents ++ [{ x with lease := some no }] })) h n l r rest false

/-- Release the `n` bytes at `dpa` of a head (R240): the segment goes, and the lease of what is released ends as at expiry but
without a fence beforehand: it stands until Shutter has cleared what no other lease covers (R243, step 5). -/
def Dev.dcRelease (d : Dev) (h dpa n : Nat) : Dev :=
  match (d.head h).extents.find? (fun x => !x.released && decide (x.dpa ≤ dpa) && decide (dpa + n ≤ x.dpa + x.length)) with
  | none => d.mbox h mboxInvalid []
  | some x =>
    match (d.head h).dcContext dpa, x.lease.bind (fun k => (tget d.leases k).map (fun l => (k, l))), tget d.regions x.region with
    | some c, some (k, l), some r =>
      let parts := x.cut dpa n
      if dpa % extentBytes ≠ 0 ∨ n % extentBytes ≠ 0 ∨ n = 0 ∨ d.leasesLeft < parts.length then d.mbox h mboxInvalid []
      else
        let d1 := (d.setSegments c (cutSegments (d.context c).segments (dpa % 4398046511104) n)).modHead h (fun y =>
          { y with extents := y.extents.erase x })
        let d2 := d1.releaseKeep h k l r parts true
        let no := if parts = [] then k else d2.freeLease.getD k
        let off := x.offset + (dpa - x.dpa)
        let gone := leaseRange r off n
        let l1 := { l with state := .fenced, first := gone.1, count := gone.2 }
        let d3 := { d2 with leases := tset d2.leases no l1 }.modHead h (fun y =>
          { y with extents := y.extents ++ [{ x with dpa := dpa, length := n, offset := off, lease := some no, released := true }] })
        ((d3.leaseLoss no l1).settleLeases x.region).mbox h mboxOk []
    | _, _, _ => d.mbox h mboxInvalid []

/-- RELEASE_DC. -/
def execReleaseDc (head dpa length : Nat) (s : State) : Host.Outcome State Fault Refusal :=
  devStep (fun d => d.guard (d.headExists head) (fun e => e.dcRelease head dpa length)) s

/-- DC_FORCED_RELEASE: a forced release is an expiry at that instant (R240). -/
def execDcForcedRelease (head dpa length : Nat) (s : State) : Host.Outcome State Fault Refusal :=
  devStep (fun d =>
    ((d.head head).extents.filter (fun x => !x.released && decide (dpa < x.dpa + x.length) && decide (x.dpa < dpa + length))).foldl (fun e x =>
      match x.lease with
      | some n => e.expireLease n
      | none => e) d) s

end Sys2Proof.Machine
end

