-- ==== Sys2Proof/Machine/Mailbox.lean ====
section
/-! DEFINITION. The mailbox page, the taking and answering of Huanik commands, the runtime load, life-cycle transitions and
boot-image updates (Chapters 11 and 12). -/

namespace Sys2Proof.Machine

open Sys2Proof

/-! ## Ownership and doorbells (R290, R291, R294) -/

/-- Change the mailbox registers. -/
def State.modMbx (s : State) (f : Mbx → Mbx) : State := { s with mbx := f s.mbx }

/-- Whether a head has the mailbox (R287), and the mailbox answers: from the release of RESET_N (R380). -/
def State.hasMailbox (s : State) (h : Nat) : Bool := (h == 0 || h == 2) && s.dev.sys.resetN && !s.dev.sys.islandsOff

/-- MBX.ATTACH (R290). -/
def State.attach (s : State) (h : Nat) : State :=
  let old := s.mbx.ownerHead
  (s.modMbx (fun m => { m with epoch := m.epoch + 1, ownerHead := h, owned := true })).onDev (fun d =>
    d.raise { code := .driverAttach, detail0 := some (BitVec.ofNat 64 h), detail1 := some (BitVec.ofNat 64 old) })

/-- MBX_ATTACH: a write to MBX.ATTACH makes the writing head the owner. -/
def execMbxAttach (head : Nat) (s : State) : Host.Outcome State Fault Refusal :=
  .next (if s.hasMailbox head then s.attach head else s.onDev id)

/-- Whether a doorbell write of a head with an epoch is fenced (R291). -/
def Mbx.fences (m : Mbx) (h : Nat) (epoch : U16) : Bool := h != m.ownerHead || !m.owned || epoch != m.epoch

/-- A doorbell write: fenced, refused by its check, or done. -/
def State.mbxDoorbell (s : State) (h : Nat) (epoch : U16) (ok : Bool) (f : State → State) : State :=
  if !s.hasMailbox h then s.onDev id
  else if s.mbx.fences h epoch then (s.modMbx (fun m => { m with fenced := m.fenced + 1 })).onDev id
  else if ok then f (s.onDev id)
  else (s.modMbx (fun m => { m with refused := m.refused + 1 })).onDev id

/-- The check of a new `host_seq` (R294). -/
def Mbx.cmdOk (m : Mbx) (n : U32) : Bool := decide ((n - m.hostSeq).toNat ≤ 256) && decide ((n - m.rspHead).toNat ≤ 256)

/-- The check of a new response head (R294). -/
def Mbx.rspOk (m : Mbx) (n : U32) : Bool := decide ((n - m.rspHead).toNat ≤ 256) && decide ((m.devSeq - n).toNat ≤ 256)

/-- MBX.CMD_DOORBELL. -/
def State.cmdDoorbell (s : State) (h : Nat) (n : U32) (epoch : U16) : State :=
  s.mbxDoorbell h epoch (s.mbx.cmdOk n) (fun t => t.modMbx (fun m => { m with hostSeq := n }))

/-- MBX_CMD_DOORBELL: more commands are available. -/
def execMbxCmdDoorbell (head : Nat) (count : U32) (epoch : U16) (s : State) : Host.Outcome State Fault Refusal :=
  .next (s.cmdDoorbell head count epoch)

/-- MBX.RSP_DOORBELL. -/
def State.rspDoorbell (s : State) (h : Nat) (n : U32) (epoch : U16) : State :=
  s.mbxDoorbell h epoch (s.mbx.rspOk n) (fun t => t.modMbx (fun m => { m with rspHead := n }))

/-- MBX_RSP_DOORBELL: responses have been consumed. -/
def execMbxRspDoorbell (head : Nat) (count : U32) (epoch : U16) (s : State) : Host.Outcome State Fault Refusal :=
  .next (s.rspDoorbell head count epoch)

/-- Return event-ring entries; when space returns, EVENTS_LOST is written first (R297). -/
def Dev.freeEvents (d : Dev) (n : U32) : Dev :=
  let moved := n != d.evt.head
  let lost := d.evt.unreported
  let d1 := { d with evt := { d.evt with head := n, unreported := if moved then 0 else lost } }
  if moved && lost != 0 then
    d1.putDevEvent { code := .eventsLost, detail0 := some (BitVec.ofNat 64 lost) }
  else d1

/-- MBX.EVT_DOORBELL. -/
def State.evtDoorbell (s : State) (h : Nat) (n : U32) (epoch : U16) : State :=
  s.mbxDoorbell h epoch
    (decide ((n - s.dev.evt.head).toNat ≤ 4096) && decide ((s.dev.evt.tail - n).toNat ≤ 4096))
    (fun t => { t with dev := t.dev.freeEvents n })

/-- MBX_EVT_DOORBELL: event records have been consumed. -/
def execMbxEvtDoorbell (head : Nat) (count : U32) (epoch : U16) (s : State) : Host.Outcome State Fault Refusal :=
  .next (s.evtDoorbell head count epoch)

/-- Whether a byte of BAR4 belongs to a ring or to the staging window (R287). -/
def sramByte (a : Nat) : Bool :=
  (decide (0x100000 ≤ a) && decide (a < 0x110000)) || (decide (0x120000 ≤ a) && decide (a < 0x124000)) ||
  (decide (0x140000 ≤ a) && decide (a < 0x180000)) || (decide (0x200000 ≤ a) && decide (a < 0x400000))

/-- Write bytes into the rings and the staging window; reserved bytes ignore them. -/
def sramWrite (m : List Host.Cell) (a : Nat) : List Byte → List Host.Cell
  | [] => m
  | b :: r => sramWrite (if sramByte a then memWrite m a b else m) (a + 1) r

/-- The number of `stage` (Table 12.2). -/
def stageCode (x : Stage) : Nat :=
  match x with
  | .rom => 0 | .bootImage => 1 | .awaitRuntime => 2 | .loading => 3 | .running => 4 | .halted => 5 | .retired => 6
  | .transitionPending => 7

/-- The number of `life_cycle` (Table 12.2). -/
def lifeCode (x : LifeCycle) : Nat :=
  match x with
  | .manufactured => 0 | .provisioned => 1 | .deployed => 2 | .retired => 3

/-- MBX.STATUS (Table 12.2). -/
def Sys.status (x : Sys) : U64 :=
  BitVec.ofNat 64 (packBits [(0, 4, stageCode x.stage), (4, 3, lifeCode x.lifeCycle), (7, 1, x.bootSlotB.toNat), (8, 1, x.trial.toNat),
    (9, 2, x.trialBoots), (11, 1, x.reverted.toNat), (12, 1, x.warm.toNat), (16, 8, x.deviceGen.toNat), (24, 8, x.modeGen.toNat),
    (32, 16, x.runtimeSvn.toNat), (48, 8, x.loadStatus.toNat)])

/-- What a read of the register at an offset of the mailbox page returns (Table 12.1): write-only registers and unlisted offsets read as
zero (R6, R288). -/
def State.mbxRead (s : State) (off : Nat) : U64 :=
  let m := s.mbx
  match off with
  | 0x000 => 0x0000010100007480
  | 0x008 => Config.deviceId
  | 0x010 => s.dev.sys.status
  | 0x018 => BitVec.ofNat 64 (packBits [(0, 16, m.epoch.toNat), (16, 3, m.ownerHead), (19, 1, m.owned.toNat)])
  | 0x028 => 0x0C0808
  | 0x060 => m.hostSeq.setWidth 64
  | 0x068 => m.devSeq.setWidth 64
  | 0x070 => m.rspHead.setWidth 64
  | 0x078 => s.dev.evt.tail.setWidth 64
  | 0x080 => s.dev.evt.head.setWidth 64
  | 0x088 => s.dev.evt.lost
  | 0x090 => m.fenced
  | 0x098 => s.dev.intEnable.setWidth 64
  | 0x0A0 => s.dev.heartbeat
  | 0x0A8 => m.refused
  | _ => 0

/-- What a read of BAR4 returns: a register of the page, or eight bytes of a ring or the staging window; other bytes read as zero (R287). -/
def State.bar4Read (s : State) (off : Nat) : U64 :=
  if off < 0x1000 then s.mbxRead off
  else BitVec.ofNat 64 (natOfBytes ((List.range 8).map (fun i => if sramByte (off + i) then memRead s.dev.sram (off + i) else 0)))

/-- A write to a register of the mailbox page: every offset that is not writable ignores it, and so do reserved bits (R7, R288). -/
def State.mbxWrite (s : State) (head off : Nat) (value : U64) : State :=
  let count : U32 := value.truncate 32
  let epoch : U16 := (value >>> 32).truncate 16
  match off with
  | 0x020 => s.attach head
  | 0x040 => s.cmdDoorbell head count epoch
  | 0x048 => s.rspDoorbell head count epoch
  | 0x050 => s.evtDoorbell head count epoch
  | 0x098 => s.onDev (fun d => { d with intEnable := value.truncate 3 })
  | _ => s.onDev id

/-- REGISTER_WRITE: an access to a register of the mailbox page, or a read of BAR4. Only one aligned 8-byte access reaches a register
(R288). What another read returns no rule says: a free value (log entry 84). -/
def execRegisterWrite (head off len : Nat) (value : Option U64) (s : State) : Host.Outcome State Fault Refusal :=
  .next (
    if !s.hasMailbox head then s.onDev id
    else match value with
      | some v => if len = 8 then s.mbxWrite head off v else s.onDev id
      | none =>
        if len = 8 ∧ off % 8 = 0 then s.onDev (fun d => d.emit (.bar4Data head off (s.bar4Read off)))
        else s.onDev (fun d => let (w, e) := d.drawWord; e.emit (.bar4Data head off w)))

/-- MAILBOX_RING_WRITE: the driver writes the command ring or the staging window; a head that does not own the mailbox is
fenced (R291). -/
def execMailboxRingWrite (head off : Nat) (data : List Byte) (s : State) : Host.Outcome State Fault Refusal :=
  .next (
    if !s.hasMailbox head || decide (off < 0x100000) then s.onDev id
    else if head != s.mbx.ownerHead || !s.mbx.owned then (s.modMbx (fun m => { m with fenced := m.fenced + 1 })).onDev id
    else s.onDev (fun d => { d with sram := sramWrite d.sram off data }))

/-! ## Taking a command (R26, R262, R292 to R294, R299, R301) -/

/-- The participant of a source in the rotation of R26: a partition, or 32 for the device ring and the fabric manager. -/
def srcTurn (c : CmdSrc) : Nat :=
  match c with
  | .device => 32
  | .fm => 32
  | .part p => p

/-- Whether a partition ring has a command that Huanik can take: one waits, its response has room, and pacing lets it start. -/
def Dev.partReady (d : Dev) (p : Nat) : Bool :=
  match tget d.partMbx p with
  | none => false
  | some m =>
    m.cmdDone != m.cmdTail && decide ((m.cmdDone - m.rspHead).toNat < 64) &&
    (d.hk.paceUs == 0 || (tget d.hk.paceAt p == some (d.now, false) && (tget d.hk.paced p).isNone))

/-- Whether the device ring has a command whose response has room (R294). -/
def Mbx.ready (m : Mbx) : Bool := m.devSeq != m.hostSeq && decide ((m.devSeq - m.rspHead).toNat < 256)

/-- Whether it is the turn of participant `w` (R26): no participant that comes before it in rotation has a command. -/
def State.turnOf (s : State) (w : Nat) : Bool :=
  let t := s.dev.hk.turn
  let before := (List.range ((w + 32 - t) % 33)).map (fun i => (t + 1 + i) % 33)
  before.all (fun x => if x = 32 then !s.mbx.ready else !s.dev.partReady x)

/-- Whether Huanik takes a command now. A command of the fabric manager or of a partition waits for RUNNING; before that the
device ring alone is served (R286, R303). A creation that waits for slots holds every other command (R301). -/
def State.takes (s : State) (h : CmdHdr) : Bool :=
  s.dev.sys.resetN && !s.dev.sys.inDome && !s.dev.sys.islandsOff && s.dev.sys.stage != .retired && s.dev.hk.waitingCreate.isEmpty &&
  (match h.src with
   | .device => s.mbx.ready
   | .fm => s.dev.sys.stage == .running
   | .part p => s.dev.sys.stage == .running && s.dev.partReady p) &&
  (s.dev.sys.stage != .running || s.turnOf (srcTurn h.src))

/-- Whether a header breaks R292, R8 or R9, or its `seq` is not the count of its ring entry (R293). -/
def State.badHeader (s : State) (h : CmdHdr) : Bool :=
  h.version != 1 || h.rsvd || decide (32 ≤ h.partition) || h.bufOff % 64 != 0 || decide (2097152 < h.bufOff + h.bufLen) ||
  (match h.src with
   | .device => h.seq != s.mbx.devSeq
   | .fm => false
   | .part p => (match tget s.dev.partMbx p with
     | some m => h.seq != m.cmdDone
     | none => true))

/-- The partition that a command acts on: a partition ring's own, whatever its header says (R299). -/
def hdrTarget (h : CmdHdr) : Nat :=
  match h.src with
  | .part p => p
  | _ => h.partition

/-- The sources a command is accepted from (Table 12.7). -/
structure Sources where
  device : Bool := false
  fm : Bool := false
  part : Bool := false
deriving DecidableEq, Repr

/-- Whether a source is marked. -/
def Sources.has (a : Sources) (c : CmdSrc) : Bool :=
  match c with
  | .device => a.device
  | .fm => a.fm
  | .part _ => a.part

/-- The status with which a taken command is refused before its own checks. `target` is the partition it acts on, if it
names one: a partition ring may act only on its own (R299), and a RESETTING partition takes no command (R344). From a
request for Dome onwards every command is refused (R366; log entry 39). -/
def State.refusal (s : State) (h : CmdHdr) (opcode : Nat) (src : Sources) (target : Option Nat) : Option Status :=
  if s.badHeader h then some .format
  else if s.dev.sys.stage ≠ .running ∧ !([0x0001, 0x0002, 0x0008, 0x0010].contains opcode) then some .noResource
  else if !src.has h.src then some .rights
  else if s.dev.sys.domeReqAt.isSome then some .noResource
  else match h.src, target with
    | .part p, some t =>
      if t ≠ p then some .bounds else if (s.dev.partn p).state = .resetting then some .noResource else none
    | .part p, none => if (s.dev.partn p).state = .resetting then some .noResource else none
    | _, some t => if (s.dev.partn t).state = .resetting then some .noResource else none
    | _, none => none

/-! ## Responses (R293, R294, R299) -/

/-- A response (Table 12.4). -/
def respLine (seq : U32) (st : Status) (phase opcode ts : Nat) (outs : List U64) : Line :=
  BitVec.ofNat 512 (packBits ([(0, 32, seq.toNat), (32, 8, statusCode st), (40, 1, phase), (48, 16, opcode), (64, 64, ts)] ++
    (outs.take 6).mapIdx (fun i w => (128 + 64 * i, 64, w.toNat))))

/-- The response of a device-ring command: into the response ring, in sequence order. -/
def State.respondDev (s : State) (seq : U32) (opcode : Nat) (st : Status) (outs : List U64) : State :=
  if s.mbx.ready then
    let k := s.mbx.devSeq.toNat
    { s with
      mbx := { s.mbx with devSeq := s.mbx.devSeq + 1 }
      dev :=
        let d := { s.dev with
          sram := memWriteLine s.dev.sram (rspRing + 64 * (k % 256)) (respLine seq st (phaseOf k 256) opcode s.dev.now outs) }
        let d1 := d.emit (.response .device st outs)
        if bit d1.intEnable 0 then d1.emit (.msix 0) else d1 }
  else s

/-- The response of a partition-ring command: into the ring in the partition's memory. -/
def Dev.respondPart (d : Dev) (p : Nat) (seq : U32) (opcode : Nat) (st : Status) (outs : List U64) : Dev :=
  match tget d.partMbx p with
  | none => d
  | some m =>
    let k := m.cmdDone.toNat
    let d1 := d.quietStore m.ctx (m.rspAddr + 64 * (k % 64)) (respLine seq st (phaseOf k 64) opcode d.now outs)
    { d1 with partMbx := tset d1.partMbx p { m with cmdDone := m.cmdDone + 1 } }.emit (.response (.part p) st outs)

/-- Answer a command. Under pacing a partition's response waits for the end of its slot (R262). -/
def State.answer (s : State) (h : CmdHdr) (opcode : Nat) (st : Status) (outs : List U64) : State :=
  let s1 : State := { s with dev := { s.dev with hk := { s.dev.hk with turn := srcTurn h.src } } }
  match h.src with
  | .device => s1.respondDev h.seq opcode st outs
  | .fm => { s1 with dev := s1.dev.emit (.response .fm st outs) }
  | .part p =>
    if s1.dev.hk.paceUs = 0 then { s1 with dev := s1.dev.respondPart p h.seq opcode st outs }
    else { s1 with dev := { s1.dev with hk := { s1.dev.hk with
        paceAt := tset s1.dev.hk.paceAt p (((tget s1.dev.hk.paceAt p).map (fun x => x.1)).getD s1.dev.now, true)
        paced := tset s1.dev.hk.paced p (st, outs, h.seq, BitVec.ofNat 16 opcode) } } }

/-- The slot boundary of a partition that comes next: the first multiple of the slot, in the device timestamp, that is neither past nor
already begun (log entry 77). -/
def Dev.nextPace (d : Dev) (p : Nat) : Nat :=
  let slot := d.hk.paceUs * 1000
  let t := (d.now + slot - 1) / slot * slot
  match tget d.hk.paceAt p with
  | some x => if x.1 = t then t + slot else t
  | none => t

/-- PACE_SLOT_BOUNDARY: the response of a command that finished in the slot that ends is written, and a command may start, at the boundary
alone (R262). -/
def execPaceSlotBoundary (part : Nat) (s : State) : Host.Outcome State Fault Refusal :=
  devStep (fun d => d.guard (d.sys.stage == .running && d.hk.paceUs != 0) (fun e0 =>
    let e := e0.reach (e0.nextPace part)
    let e1 := match tget e.hk.paced part with
      | some (st, outs, seq, op) => e.respondPart part seq op.toNat st outs
      | none => e
    { e1 with hk := { e1.hk with paced := terase e1.hk.paced part, paceAt := tset e1.hk.paceAt part (e1.now, false) } })) s

/-- The result of a command's own work: its status, its outputs and the device. -/
abbrev CmdResult := Status × List U64 × Dev

/-- One Huanik command: it is taken or waits; refused or run; and answered. `target` is the partition it acts on. -/
def State.huanik (s : State) (h : CmdHdr) (opcode : Nat) (src : Sources) (target : Dev → Option Nat) (op : Dev → CmdResult) : State :=
  let s0 := s.onDev id
  if !s0.takes h then s0
  else match s0.refusal h opcode src (target s0.dev) with
    | some st => s0.answer h opcode st []
    | none =>
      let (st, outs, d) := op s0.dev
      { s0 with dev := d }.answer h opcode st outs

/-- The outcome of a Huanik command. -/
def huanikStep (h : CmdHdr) (opcode : Nat) (src : Sources) (target : Dev → Option Nat) (op : Dev → CmdResult) (s : State) :
    Host.Outcome State Fault Refusal := .next (s.huanik h opcode src target op)

/-- A command that names no partition. -/
def noTarget (_ : Dev) : Option Nat := none

/-- A command that acts on the partition of its header. -/
def hdrOwn (h : CmdHdr) (_ : Dev) : Option Nat := some (hdrTarget h)

/-- Fail with a status. -/
def Dev.fail (d : Dev) (st : Status) : CmdResult := (st, [], d)

/-- Succeed with outputs. -/
def Dev.done (d : Dev) (outs : List U64 := []) : CmdResult := (.ok, outs, d)

/-- HUANIK_NOP: the version of Huanik, which is the host's own, and `runtime_svn`. -/
def execHuanikNop (h : CmdHdr) (s : State) : Host.Outcome State Fault Refusal :=
  huanikStep h 0x0001 { device := true, fm := true, part := true } noTarget (fun d =>
    let (w, e) := d.drawWord
    e.done [w, e.sys.runtimeSvn.setWidth 64]) s

/-! ## RUNNING (R304, R347, R348, R378, R388) -/

/-- The parity of every stale range of a region has been recomputed. -/
def Region.recomputed (r : Region) : Region :=
  let f := fun (g : ParityGroup) => { g with stale := [], unprotected := [] }
  { r with parity := r.parity.map f, newParity := r.newParity.map f }

/-- Huanik runs: leases get the time of the outage, or a full duration after a cold start; stale parity is recomputed after
a warm reset that could not drain; the ports of the flash mask are enabled; and lost subchannels are rebuilt. -/
def Dev.enterRunning (d : Dev) : Dev :=
  let lease := fun (l : Lease) =>
    if l.state = .held then
      if d.sys.coldRetained then { l with expiry := d.now + l.duration * 1000000000 }
      else match d.sys.outageFrom with
        | some t => { l with expiry := l.expiry + (d.now - t) }
        | none => l
    else l
  let d1 := d.setSys (fun x => { x with stage := .running, coldRetained := false, outageFrom := none, undrained := false, heartbeatAt := d.now,
                                        runtimeLoaded := true, deadAtStart := [] })
  let d2 := { d1 with
    leases := d1.leases.map (fun x => (x.1, lease x.2))
    regions := if d.sys.undrained then d1.regions.map (fun x => (x.1, x.2.recomputed)) else d1.regions }
  let d3 := (bitsOf d.sys.cfg.swEnable).foldl (fun e n => if (e.port n).state = .disabled then e.portEnable n else e) d2
  d.sys.deadAtStart.foldl (fun e u => e.startRebuild u true none) d3

/-- RUNTIME_LOAD: a chunk of the runtime image (R304, R380). On the last, SEC's verdict on signature, version and interface
decides. -/
def Dev.runtimeChunk (d : Dev) (offset length total : Nat) (last verdict : Bool) (svn : U16) (digest : BitVec 384) : CmdResult :=
  let st := d.sys.stage
  if (offset = 0 ∧ st ≠ .awaitRuntime) ∨ (offset ≠ 0 ∧ st ≠ .loading) then d.fail .noResource
  else if offset ≠ (if offset = 0 then 0 else d.sys.loadGot) ∨ 2097152 < length ∨ length = 0 ∨ total = 0 ∨ 33554432 < total ∨
      total < offset + length ∨ (offset ≠ 0 ∧ total ≠ d.sys.loadTotal) ∨ last ≠ decide (offset + length = total) then d.fail .format
  else
    let d1 := (if offset = 0 then d.setSys (fun x => { x with stage := .loading }) else d)
    let d2 := { d1 with sys := { d1.sys with loadGot := offset + length, loadTotal := total } }
    if !last then d2.done [BitVec.ofNat 64 (offset + length)]
    else if verdict = true ∧ (d.sys.lifeCycle = .deployed → d.sys.svnFloor ≤ svn) then
      let d3 := { d2 with sys := { d2.sys with runtimeSvn := svn, runtimeDigest := digest, loadStatus := 0, loadGot := 0 } }.measure 4
      d3.enterRunning.done ((List.range 6).map (fun i => (digest >>> (64 * i)).truncate 64))
    else
      (d2.setSys (fun x => { x with
        stage := .awaitRuntime, loadStatus := BitVec.ofNat 8 (statusCode .rights), loadGot := 0 })).fail .rights

/-- RUNTIME_LOAD. -/
def execRuntimeLoad (h : CmdHdr) (offset length total : Nat) (last verdict : Bool) (svn : U16) (digest : BitVec 384) (s : State) :
    Host.Outcome State Fault Refusal :=
  huanikStep h 0x0002 { device := true } noTarget (fun d => d.runtimeChunk offset length total last verdict svn digest) s

/-! ## Boot-image update (R307 to R310) -/

/-- The standing record of the update journal. -/
def Sys.standing (x : Sys) : Option FwRecord := x.journal.getLast?

/-- `confirmed_slot`: of the standing record, or the running slot where there is none. -/
def Sys.confirmed (x : Sys) : Bool := match x.standing with
  | some r => r.confirmedB
  | none => x.bootSlotB

/-- Append a record to the update journal. -/
def Sys.record (x : Sys) (st : FwState) (slotB confirmedB : Bool) (boots : Nat) (digest : BitVec 384) : Sys :=
  let number := match x.standing with
    | some r => r.number + 1
    | none => 1
  let r : FwRecord := { number := number, state := st, slotB := slotB, confirmedB := confirmedB, trialBoots := boots, digest := digest }
  { x with journal := x.journal ++ [r] }

/-- Whether a trial is pending. -/
def Sys.trialPending (x : Sys) : Bool := x.trial || x.standing.any (fun r => r.state == .trial)

/-- The flash address of a slot (Table 12.9). -/
def slotBase (b : Bool) : Nat := if b then 0x2200000 else 0x400000

/-- FW_DOWNLOAD: the chunk at offset 0 starts a download, which must not be in progress; every chunk is written to the slot
that is not confirmed. -/
def Dev.fwDownload (d : Dev) (offset : Nat) (data : List Byte) : CmdResult :=
  let x := d.sys
  if x.trialPending ∨ (offset = 0 ∧ x.downloading) ∨ (offset ≠ 0 ∧ !x.downloading) then d.fail .noResource
  else if 31457280 < offset + data.length then d.fail .bounds
  else
    let b := !x.confirmed
    let fresh : Sys := { x.record .downloading b x.confirmed 0 0 with downloading := true }
    let y : Sys := if offset = 0 then fresh else x
    let d1 : Dev := { d with sys := { y with flash := memWriteList y.flash (slotBase b + offset) data } }
    d1.done

/-- FW_DOWNLOAD. -/
def execFwDownload (h : CmdHdr) (offset : Nat) (data : List Byte) (s : State) : Host.Outcome State Fault Refusal :=
  huanikStep h 0x0011 { device := true } noTarget (fun d => d.fwDownload offset data) s

/-- FW_VERIFY: SEC's verdict on the downloaded slot ends the download; VERIFIED is appended if it passes. -/
def Dev.fwVerify (d : Dev) (verdict : Bool) (digest : BitVec 384) : CmdResult :=
  let x := d.sys
  if !x.downloading then d.fail .noResource
  else if verdict then
    { d with sys := { x.record .verified (!x.confirmed) x.confirmed 0 digest with downloading := false } }.done
      ((List.range 6).map (fun i => (digest >>> (64 * i)).truncate 64))
  else { d with sys := { x with downloading := false } }.fail .rights

/-- FW_VERIFY. -/
def execFwVerify (h : CmdHdr) (verdict : Bool) (digest : BitVec 384) (s : State) : Host.Outcome State Fault Refusal :=
  huanikStep h 0x0012 { device := true } noTarget (fun d => d.fwVerify verdict digest) s

/-- FW_ACTIVATE: after VERIFIED, TRIAL with `trial_boots` 0. -/
def Dev.fwActivate (d : Dev) : CmdResult :=
  match d.sys.standing with
  | some r =>
    if r.state = .verified then { d with sys := d.sys.record .trial r.slotB r.confirmedB 0 r.digest }.done else d.fail .noResource
  | none => d.fail .noResource

/-- FW_ACTIVATE. -/
def execFwActivate (h : CmdHdr) (s : State) : Host.Outcome State Fault Refusal :=
  huanikStep h 0x0013 { device := true } noTarget (fun d => d.fwActivate) s

/-- FW_CONFIRM: while `trial` is 1, CONFIRMED naming the trial slot. -/
def Dev.fwConfirm (d : Dev) : CmdResult :=
  if d.sys.trial then
    let dg := match d.sys.standing with
      | some r => r.digest
      | none => 0
    (d.setSys (fun x => { x.record .confirmed x.bootSlotB x.bootSlotB 0 dg with trial := false, trialBoots := 0 })).done
  else d.fail .noResource

/-- FW_CONFIRM. -/
def execFwConfirm (h : CmdHdr) (s : State) : Host.Outcome State Fault Refusal :=
  huanikStep h 0x0014 { device := true } noTarget (fun d => d.fwConfirm) s

/-- Update-journal states as numbers (log entry 38). -/
def fwStateCode (x : FwState) : Nat :=
  match x with
  | .downloading => 1 | .verified => 2 | .trial => 3 | .confirmed => 4 | .reverted => 5

/-- The slot states: running slot, confirmed slot, trial, journal state and its slot (log entry 38). -/
def Sys.slotStates (x : Sys) : U64 :=
  BitVec.ofNat 64 (packBits [(0, 1, x.bootSlotB.toNat), (1, 1, x.confirmed.toNat), (2, 1, x.trial.toNat), (4, 2, x.trialBoots),
    (8, 3, (x.standing.map (fun r => fwStateCode r.state)).getD 0), (11, 1, (x.standing.map (fun r => r.slotB.toNat)).getD 0)])

/-- FW_INFO. -/
def execFwInfo (h : CmdHdr) (s : State) : Host.Outcome State Fault Refusal :=
  huanikStep h 0x0010 { device := true } noTarget (fun d => d.done [d.sys.slotStates]) s

/-! ## The boot ROM's steps 2 and 3 (R310, R377, R378) -/

/-- Start-up stops with `stage` HALTED (R377). -/
def Dev.startFailed (d : Dev) (step : Nat) : Dev :=
  (d.setSys (fun x => { x with stage := .halted, causeStart := true })).raise
    { code := .startFailed, detail0 := some (BitVec.ofNat 64 step) }

/-- What the boot ROM does with the standing record: the record it appends, and the slot it chooses. -/
def Sys.chooseSlot (x : Sys) : Sys × Bool :=
  match x.standing with
  | some r =>
    if r.state = .trial then
      if r.trialBoots < 3 then
        ({ x.record .trial r.slotB r.confirmedB (r.trialBoots + 1) r.digest with
           trial := true, trialBoots := r.trialBoots + 1, reverted := false }, r.slotB)
      else ({ x.record .reverted r.slotB r.confirmedB 0 r.digest with trial := false, trialBoots := 0, reverted := true }, r.confirmedB)
    else ({ x with trial := false, trialBoots := 0, reverted := false }, r.confirmedB)
  | none => ({ x with trial := false, trialBoots := 0, reverted := false }, x.straps.bootSlotB)

/-- Step 3: the slot is chosen and verified; if it fails, the other slot boots; blocks 1, 2 and 3 are taken. -/
def Dev.bootSlot (d : Dev) (b : BootFindings) : Dev :=
  let (x, want) := d.sys.chooseSlot
  let good := fun (v : Bool) => if v then b.slotBOk else b.slotAOk
  let d1 := { d with sys := { x with downloading := false } }
  if good want || good (!want) then
    let slot := if good want then want else !want
    (((d1.setSys (fun y => { y with stage := .bootImage, bootSlotB := slot, trial := y.trial && slot == want })).measure 1).measure 2).measure 3
  else d1.startFailed 3

/-- Steps 2 and 3 of Table 16.3. The flash configuration is read at a cold start; CONFIG_DEFAULTED tells that its CRC failed. -/
def Dev.bootRest (d : Dev) (b : BootFindings) (cold : Bool) : Dev :=
  let cfg : FlashCfg := if b.cfg.crcOk then
      { bifurcated := b.cfg.bifurcated, swEnable := b.cfg.swEnable, transitMode := b.cfg.transitMode, k := b.cfg.k }
    else {}
  let d1 := if cold then
      { d with sys := { d.sys with
        cfg := cfg
        startEvents := if b.cfg.crcOk then d.sys.startEvents else d.sys.startEvents ++ [{ code := .configDefaulted }]
        trainStarted := ~~~d.sys.perstAsserted } }
    else d
  d1.bootSlot b

/-! ## Life-cycle transitions (R275 to R278) -/

/-- The state that a transition enters. -/
def transTarget (t : Nat) : LifeCycle :=
  match t with
  | 0 => .provisioned
  | 1 => .deployed
  | _ => .retired

/-- Whether a token's transition runs from the present state: 1 PROVISIONED, 2 DEPLOYED, 3 RETIRED, each one step forwards
but RETIRED, which any state may enter. -/
def lifeAllows (x : LifeCycle) (target : Nat) (byOwner : Bool) : Bool :=
  match x, target with
  | .manufactured, 1 => !byOwner
  | .provisioned, 2 => !byOwner
  | .deployed, 3 => true
  | .manufactured, 3 => !byOwner
  | .provisioned, 3 => !byOwner
  | _, _ => false

/-- A RETIRED device: no memory, no keys, `stage` RETIRED (R278), the bypass closed (R332), and tenant counts reset
(Table 11.1). -/
def Dev.retire (d : Dev) : Dev :=
  let d1 := d.setSys (fun x => { x.closeBypass with stage := .retired, lifeCycle := .retired })
  { d1 with keys := [], units := d1.units.map (fun x => (x.1, { x.2 with key := {}, keySlot := none })), parts := d1.parts.map (fun p => (p.1, { p.2 with tenantCount := 0 })) }

/-- A transition whose intent fuse is burnt and whose commit fuse is not, the first in the order of Table 11.6 (R277). -/
def Sys.pendingTrans (x : Sys) : Option Nat :=
  (List.range 3).find? (fun t => (tgetD x.fuses t {}).intent && !(tgetD x.fuses t {}).commit)

/-- Journal a token, burn its transition's fuses in order, and enter its state. -/
def Dev.burn (d : Dev) (t : Nat) (owner : BitVec 384) (floor : U16) : Dev :=
  let d1 := { d with sys := { d.sys with
    fuseToken := some t, fuseOwner := owner, fuseFloor := floor
    fuses := tset d.sys.fuses t { intent := true, data := true, commit := true } } }
  if t = 2 then d1.retire
  else
    d1.setSys (fun x => { x with
      lifeCycle := transTarget t
      ownerHash := if t = 1 then owner else x.ownerHash
      svnFloor := if t = 1 then floor else x.svnFloor })

/-- LC_TRANSITION: a token that does not verify, or whose transition does not run from the present state, is refused. In a
pending transition only that same token is accepted, and the start goes on (R277). -/
def Dev.lcTransition (d : Dev) (target : Nat) (byOwner verdict : Bool) (owner : BitVec 384) (floor : U16) : CmdResult :=
  let code := fun (e : Dev) => e.done [BitVec.ofNat 64 (lifeCode e.sys.lifeCycle)]
  if d.sys.stage = .transitionPending then
    match d.sys.pendingTrans with
    | some t =>
      if verdict ∧ target = t + 1 then
        let d1 := d.burn t owner floor
        if t = 2 then code d1 else code (d1.bootRest d.sys.found (!d.sys.warm))
      else d.fail .rights
    | none => d.fail .rights
  else if verdict ∧ lifeAllows d.sys.lifeCycle target byOwner then code (d.burn (target - 1) owner floor)
  else d.fail .rights

/-- LC_TRANSITION. -/
def execLcTransition (h : CmdHdr) (target : Nat) (byOwner verdict : Bool) (ownerHash : BitVec 384) (svnFloor : U16) (s : State) :
    Host.Outcome State Fault Refusal :=
  huanikStep h 0x0008 { device := true } noTarget (fun d => d.lcTransition target byOwner verdict ownerHash svnFloor) s

end Sys2Proof.Machine
end

