-- ==== Sys2Proof/Machine/Resets.lean ====
section
/-! DEFINITION. Device-wide mode changes, hang detection, the resets of engines, data movers, queues, memory units and
partitions, slow units, and the tests of a standby (Chapter 14, R333). -/

namespace Sys2Proof.Machine

open Sys2Proof

/-! ## Device-wide mode changes (R128, R261, R262, R350 to R352) -/

/-- The units that a mode affects and that must acknowledge it: the engines and movers of the old and the new group records,
the crossbar quadrants for XB.ARB_MODE, and the management cores for MC.PACE_US and the formats (log entry 40). FAILED
engines are left out. -/
def Dev.modeUnits (d : Dev) (m : ModeIn) : List (UnitKind × Nat) :=
  let es := m.groups.foldl (fun (a : U64) g => a ||| g.2.2.1 ||| (d.group g.1 g.2.1).engines) 0
  let ms := m.groups.foldl (fun (a : U32) g => a ||| g.2.2.2 ||| (d.group g.1 g.2.1).movers) 0
  (bitsOf (es &&& ~~~d.engFailed)).map (fun n => (UnitKind.engine, n)) ++ (bitsOf ms).map (fun n => (UnitKind.mover, n)) ++
  (if m.arbMode.isSome then (List.range 4).map (fun n => (UnitKind.xbar, n)) else []) ++
  (if m.paceUs.isSome || m.formats.isSome then [(UnitKind.mgmtCore, 0)] else [])

/-- The checks of a MODE_CHANGE. -/
def Dev.modeCheck (d : Dev) (m : ModeIn) : Option Status :=
  if m.queues.any (fun q => decide (16 ≤ q.2.1) || decide (4 ≤ q.2.2.1) || q.2.2.2 == 0 || decide (256 ≤ q.2.2.2)) then some .format
  else if m.arbMode.any (fun a => decide (1 < a)) || m.paceUs.any (fun p => p != 0 && (decide (p < 50) || decide (10000 < p))) then
    some .format
  else if d.hk.staged.isSome then some .noResource
  else if m.groups.any (fun g => decide (32 ≤ g.1) || decide (16 ≤ g.2.1) || g.2.2.1 &&& ~~~(d.partn g.1).engines != 0 ||
      g.2.2.2 &&& ~~~(d.partn g.1).movers != 0) then some .bounds
  else if m.queues.any (fun q => !(d.queue q.1).exists_) then some .bounds
  else none

/-- Put a mode in force (R350, step 2). Responses held by a pacing that ends are written. -/
def Dev.applyMode (d : Dev) (m : ModeIn) : Dev :=
  let d1 := m.groups.foldl (fun e g => e.modGroup g.1 g.2.1 (fun x => { x with engines := g.2.2.1, movers := g.2.2.2 })) d
  let d2 := m.queues.foldl (fun e q => e.modQueue q.1 (fun x => { x with group := q.2.1, prioCap := q.2.2.1, weight := q.2.2.2 })) d1
  let pace := m.paceUs.getD d2.hk.paceUs
  let d3 := if pace = 0 then
      d2.hk.paced.foldl (fun e x => e.respondPart x.1 x.2.2.2.1 x.2.2.2.2.toNat x.2.1 x.2.2.1) d2
    else d2
  { d3 with hk := { d3.hk with
    formats := m.formats.getD d3.hk.formats
    arbFixed := (m.arbMode.map (fun a => a == 1)).getD d3.hk.arbFixed
    paceUs := pace
    paced := if pace = 0 then [] else d3.hk.paced
    paceAt := if pace = d2.hk.paceUs then d3.hk.paceAt else [] } }

/-- Commit a staged mode once every unit has acknowledged it. -/
def Dev.tryCommit (d : Dev) : Dev :=
  match d.hk.staged with
  | some st =>
    if st.waiting = [] then
      let d1 := { d.applyMode st.mode with hk := { (d.applyMode st.mode).hk with staged := none } }
      ((d1.setSys (fun x => { x with modeGen := x.modeGen + 1 })).measure 5).commandDone (some st.op) none .ok
    else d
  | none => d

/-- A new operation number for a long command (R295). -/
def Dev.startOp (d : Dev) (o : LongOp) : Nat × Dev :=
  let n := d.hk.opNo + 1
  (n, { d with hk := { d.hk with opNo := n, ops := d.hk.ops ++ [(n, o)] } })

/-- MODE_CHANGE: the mode is staged at every unit that it affects. The response names the operation and the mode generation to
come; an engine in reset acknowledges after its return. -/
def Dev.modeChange (d : Dev) (m : ModeIn) : CmdResult :=
  match d.modeCheck m with
  | some st => d.fail st
  | none =>
    let (n, d1) := d.startOp .modeChange
    let d2 := { d1 with hk := { d1.hk with staged := some { mode := m, waiting := d1.modeUnits m, since := d1.now, op := n } } }
    (.ok, [BitVec.ofNat 64 n, (d.sys.modeGen + 1).setWidth 64], d2.tryCommit)

/-- MODE_CHANGE. -/
def execModeChange (h : CmdHdr) (m : ModeIn) (s : State) : Host.Outcome State Fault Refusal :=
  huanikStep h 0x0601 { device := true } noTarget (fun d => d.modeChange m) s

/-- Change the units that a staged mode still waits for. -/
def Dev.modWaiting (d : Dev) (f : StagedMode → List (UnitKind × Nat)) : Dev :=
  match d.hk.staged with
  | some st => { d with hk := { d.hk with staged := some { st with waiting := f st } } }
  | none => d

/-- UNIT_MODE_ACK: a unit has stored the new mode beside the old one. -/
def execUnitModeAck (kind : UnitKind) (unit : Nat) (s : State) : Host.Outcome State Fault Refusal :=
  devStep (fun d => d.guard (!(kind == .engine && (tget d.engReset unit).isSome)) (fun e =>
    (e.modWaiting (fun st => st.waiting.filter (fun u => u != (kind, unit)))).tryCommit)) s

/-- MODE_CHANGE_TIMEOUT: 100 ms pass and a unit has not acknowledged; the change is abandoned. -/
def execModeChangeTimeout (s : State) : Host.Outcome State Fault Refusal :=
  devStep (fun d =>
    match d.hk.staged with
    | some st =>
      match st.waiting with
      | u :: _ =>
        let d1 := d.reach (st.since + 100000000)
        (({ d1 with hk := { d1.hk with staged := none } }).raise
          { code := .modeAbandoned, unit := some u, detail0 := some (BitVec.ofNat 64 (unitKindCode u.1)),
            detail1 := some (BitVec.ofNat 64 u.2) }).commandDone (some st.op) none .timeout
      | [] => d
    | none => d) s

/-! ## Hang detection (R340) -/

/-- A detector's threshold in ns: parameters 0x40 to 0x42 are in µs, 0x43 and 0x44 in ms. -/
def Dev.threshold (d : Dev) (code : Nat) : Nat := (d.param code 0).toNat * (if code ≤ 0x42 then 1000 else 1000000)

/-- UNIT_HUNG, about a descriptor held or about the unit alone. -/
def Dev.hung (d : Dev) (unit : UnitKind × Nat) (code : Nat) (tag : U8) (j : Option Job) (loc : Option EvLoc) : Dev :=
  d.raise
    { code := .unitHung, unit := some unit, loc := loc
      part := j.map Job.partition, context := j.map (fun x => dCtx x.desc), queue := j.map Job.queue
      tag := j.map (fun x => BitVec.ofNat 16 (dTag x.desc))
      detail0 := some (BitVec.ofNat 64 (d.threshold code / 1000)), detail1 := some (tag.setWidth 64) }

/-! ## Engines (R341, Table 14.3) -/

/-- Lines that an ended descriptor may have written: each line of its output is, freely, as before or as the whole operation
would have left it. -/
def Dev.partOutput (d done : Dev) (j : Job) (a n : Nat) : Dev :=
  (d.rangeLines (dCtx j.desc) a n .w).foldl (fun e x =>
    let (w, e1) := e.drawWord
    if bit w 0 then e1.putLine x.1 x.2 (done.pool.data x.1 x.2) else e1) d

/-- End a descriptor that an engine holds, with its effects of Table 14.3 (log entry 41). One that waits for its turn on its object has
none yet (R72). -/
def Dev.endDescriptor (d : Dev) (j : Job) (st : Status) : Dev :=
  let (r, i, o) := d.target j
  let d1 :=
    if !d.inTurn j then d
    else match dOpcode j.desc with
    | 0x11 => d.partOutput (d.attend j) j (field j.desc 384 64) (outTotal o j.desc)
    | 0x12 => d.partOutput (d.kvGather j) j (field j.desc 256 64) (gatherBytes o j.desc)
    | 0x13 =>
      let (w, e) := d.drawWord
      if bit w 0 then d.summaryRebuild j else e
    | 0x10 =>
      let e := d.partAppend j
      if bit j.desc 215 && hSlot (dW0 j.desc) == 0 && !d.goneWorking j && !o.flat && decide (field j.desc 192 23 < o.length) then
        let before := d.windowHomes r o.workingRoot o o.length
        (e.modObj r i (fun y => { y with length := field j.desc 192 23 })).moveWindow r i before
      else e
    | _ => d
  d1.finish j st

/-- Jobs that an engine holds. -/
def Dev.engineJobs (d : Dev) (n : Nat) : List Job :=
  d.jobs.filter (fun j => j.result.isNone && (match j.unit with
    | .engines es => es.contains n
    | _ => false))

/-- An engine is reset: its descriptors end, its tag moves on, and its self-test starts. A reset beyond the tag rate waits
(R339). An engine that is in reset or FAILED already has its tag moved on by the reset of its partition alone (R336). Causes: 0
hang, 1 self-test, 2 command, 3 partition reset. -/
def Dev.resetEngine (d : Dev) (n cause : Nat) : Dev :=
  let idle := (tget d.engReset n).isSome || bit d.engFailed n
  if idle && cause != 3 then d
  else if !d.tagFree (.engine n) then { d with deferred := d.deferred ++ [{ dom := .engine n, cause := cause }] }
  else if idle then d.incTag (.engine n)
  else
    let d1 := (d.engineJobs n).foldl (fun e j => e.endDescriptor j (if cause = 0 then .timeout else .genStale)) d
    let d2 := d1.incTag (.engine n)
    let d3 := { d2 with engReset := tset d2.engReset n cause }
    (d3.modWaiting (fun st =>
      if (d3.modeUnits st.mode).contains (.engine, n) && !st.waiting.contains (.engine, n) then st.waiting ++ [(.engine, n)]
      else st.waiting)).raise
      { code := .unitReset, unit := some (.engine, n), detail0 := some (BitVec.ofNat 64 cause),
        detail1 := some ((tgetD d2.engGen n 0).setWidth 64) }

/-- ENGINE_HANG_DETECT: an engine holds a descriptor and has made no memory access for the threshold. -/
def execEngineHangDetect (engine : Nat) (s : State) : Host.Outcome State Fault Refusal :=
  devStep (fun d =>
    match d.engineJobs engine with
    | [] => d
    | j :: js =>
      let d1 := d.reach ((j :: js).foldl (fun a x => max a x.lastAccess) 0 + d.threshold 0x40)
      ((j :: js).foldl (fun e x => e.hung (.engine, engine) 0x40 (tgetD d.engGen engine 0) (some x) none) d1).resetEngine engine 0) s

/-- ENGINE_RESET: Huanik commands the reset of an engine. -/
def execEngineReset (engine : Nat) (s : State) : Host.Outcome State Fault Refusal :=
  devStep (fun d => d.guard (d.sys.stage == .running) (fun e => e.resetEngine engine 2)) s

/-- The self-test of a reset engine ends: the engine returns to its groups, or is FAILED until the next cold start. -/
def Dev.engineBack (d : Dev) (n : Nat) (pass : Bool) : Dev :=
  match tget d.engReset n with
  | none => d
  | some cause =>
    let d1 := { d with engReset := terase d.engReset n }
    if pass then
      if cause = 1 then { d1 with pair := { d1.pair with engineFail := d1.pair.engineFail - 1 } } else d1
    else
      let d2 := { d1 with engFailed := putBit d1.engFailed n true }
      ((d2.modWaiting (fun st => st.waiting.filter (fun u => u != (.engine, n)))).raise
        { code := .unitFailed, unit := some (.engine, n), detail0 := some (BitVec.ofNat 64 (unitKindCode .engine)),
          detail1 := some (BitVec.ofNat 64 n) }).tryCommit

/-- ENGINE_RESET_DONE. -/
def execEngineResetDone (engine : Nat) (pass : Bool) (s : State) : Host.Outcome State Fault Refusal :=
  devStep (fun d => d.engineBack engine pass) s

/-- ENGINE_IDLE_SELFTEST: an engine of a STANDBY that holds no descriptor is tested; one that fails is counted and reset. -/
def execEngineIdleSelftest (engine : Nat) (pass : Bool) (s : State) : Host.Outcome State Fault Refusal :=
  liveStep (fun d =>
    d.guard (d.pair.role == .standby && d.engineJobs engine == [] && (tget d.engReset engine).isNone && !bit d.engFailed engine)
      (fun e =>
        if pass then e
        else (({ e with pair := { e.pair with engineFail := e.pair.engineFail + 1 } }).raise
          { code := .pairSelftestFail, unit := some (.engine, engine), detail0 := some (BitVec.ofNat 64 (unitKindCode .engine)),
            detail1 := some (BitVec.ofNat 64 engine) }).resetEngine engine 1)) s

/-! ## Data movers (R342) -/

/-- Jobs on the channels of a mover. -/
def Dev.moverJobs (d : Dev) (n : Nat) : List Job :=
  d.jobs.filter (fun j => j.result.isNone && (match j.unit with
    | .mover m _ => m == n
    | _ => false))

/-- A data mover is reset: no burst is finished, every occupied channel completes as an abort does, and its tag moves on. -/
def Dev.resetMover (d : Dev) (n cause : Nat) : Dev :=
  if !d.tagFree (.mover n) then { d with deferred := d.deferred ++ [{ dom := .mover n, cause := cause }] }
  else
    let d1 := (d.moverJobs n).foldl (fun e j => e.abortJob j (if cause = 0 then .timeout else .part)) d
    let d2 := d1.incTag (.mover n)
    d2.raise { code := .unitReset, unit := some (.mover, n), detail0 := some (BitVec.ofNat 64 cause),
               detail1 := some ((tgetD d2.movGen n 0).setWidth 64) }

/-- MOVER_HANG_DETECT: the running channel of a mover has completed no burst for the threshold. -/
def execMoverHangDetect (mover channel : Nat) (s : State) : Host.Outcome State Fault Refusal :=
  devStep (fun d =>
    match (d.moverJobs mover).find? (fun j => j.unit == .mover mover channel && d.runsNow j &&
        (dOpcode j.desc == 0x30 || j.chain.any (fun c => c.started))) with
    | none => d
    | some j =>
      let since := match j.chain with
        | some c => max c.lastBurst j.dispatchedAt
        | none => j.dispatchedAt
      let d1 := d.reach (since + d.threshold 0x41)
      ((d.moverJobs mover).foldl (fun e x => e.hung (.mover, mover) 0x41 (tgetD d.movGen mover 0) (some x) none) d1).resetMover mover 0) s

/-- MOVER_RESET: Huanik commands the reset of a data mover. -/
def execMoverReset (mover : Nat) (s : State) : Host.Outcome State Fault Refusal :=
  devStep (fun d => d.guard (d.sys.stage == .running) (fun e => e.resetMover mover 2)) s

/-! ## Retrains of memory units (R23, R343) -/

/-- A retrain starts: the unit's tag moves on, and its requests wait. -/
def Dev.startRetrain (d : Dev) (m : Nat) : Dev :=
  let u := d.unit m
  if !d.powered m || u.dead || u.retrain.isSome then d
  else if !d.tagFree (.memUnit m) then { d with deferred := d.deferred ++ [{ dom := .memUnit m, cause := 2 }] }
  else
    ((d.incTag (.memUnit m)).modUnit m (fun v => { v with retrain := some d.now, errTimes := [] })).raise
      { code := .unitRetrain, part := d.unitOwner m, unit := some (memUnitRef m), detail0 := some 0, detail1 := some 0 }

/-- SUBCHANNEL_RETRAIN: a memory unit is retrained. -/
def execSubchannelRetrain (m : Nat) (s : State) : Host.Outcome State Fault Refusal :=
  liveStep (fun d => d.startRetrain m) s

/-- The time that a retrain may take: 400 ms for a subchannel, 100 ms for a pseudo-channel. -/
def retrainLimit (m : Nat) : Nat := if m < 48 then 400000000 else 100000000

/-- The end of a retrain: done or failed. -/
def Dev.retrainEvent (d : Dev) (m outcome start : Nat) : Dev :=
  d.raise { code := .unitRetrain, part := d.unitOwner m, unit := some (memUnitRef m), detail0 := some (BitVec.ofNat 64 outcome),
            detail1 := some (BitVec.ofNat 64 ((d.now - start) / 1000000)) }

/-- RETRAIN_DONE: the read-back passed; RAAIMT and RAAMMT are read again (R174) and the waiting requests go on. -/
def execRetrainDone (m raaimt raammt : Nat) (s : State) : Host.Outcome State Fault Refusal :=
  liveStep (fun d =>
    match (d.unit m).retrain with
    | none => d
    | some t =>
      d.guard (decide (d.now ≤ t + retrainLimit m)) (fun e =>
        let held := (e.unit m).held
        ((e.modUnit m (fun u => { u with retrain := none, held := [], raaimt := raaimt, raammt := raammt })).retrainEvent m 1 t).rfmSweep m |>.release
          m held)) s

/-- RETRAIN_FAIL_TIMEOUT: a retrain does not finish in time. A subchannel is dead and a rebuild starts; a pseudo-channel raises
NT_DEGRADED. Waiting requests go on by the dead columns of Table 7.9. -/
def execRetrainFailTimeout (m : Nat) (s : State) : Host.Outcome State Fault Refusal :=
  liveStep (fun d =>
    match (d.unit m).retrain with
    | none => d
    | some t =>
      let d1 := d.reach (t + retrainLimit m)
      let held := (d1.unit m).held
      let d2 := (d1.modUnit m (fun u => { u with retrain := none, held := [], dead := true })).retrainEvent m 2 t
      let d3 := if m < 48 then d2.startRebuild m true none
        else d2.raise { code := .ntDegraded, part := d2.unitOwner m, unit := some (memUnitRef m) }
      d3.release m held) s

/-- MC_HANG_DETECT: a memory controller has requests queued and has issued no DRAM command for the threshold. -/
def execMcHangDetect (m rank bank : Nat) (s : State) : Host.Outcome State Fault Refusal :=
  liveStep (fun d => d.guard ((d.unit m).trained && !(d.unit m).dead && !(d.unit m).removed && (d.unit m).retrain.isNone) (fun e =>
    let e1 := e.reach (e.now + e.threshold 0x42)
    (e1.hung (memUnitRef m) 0x42 (tgetD e.unitGen m 0) none (some { rank := rank, bank := bank, column := 0, row := 0 })).startRetrain m)) s

/-- Count a command/address or write-CRC error of a subchannel: more than 64 in 1 ms retrain it. -/
def Dev.busError (d : Dev) (m : Nat) : Dev :=
  if !(d.unit m).trained then d
  else
    let ts := (d.unit m).errTimes.filter (fun t => decide (d.now < t + 1000000)) ++ [d.now]
    let d1 := d.modUnit m (fun u => { u with errTimes := ts })
    if 64 < ts.length then d1.startRetrain m else d1

/-- DDR_ALERT: an error is counted to each subchannel of the channel that reports it, or to both where neither does (R23). -/
def execDdrAlert (channel : Nat) (errA errB : Bool) (s : State) : Host.Outcome State Fault Refusal :=
  liveStep (fun d =>
    let both := !errA && !errB
    let d1 := if errA || both then d.busError (2 * channel) else d
    if errB || both then d1.busError (2 * channel + 1) else d1) s

/-! ## The cores, the crossbar and SEC (R305, R340) -/

/-- MGMT_CORE_HANG_DETECT: MBX.HEARTBEAT has not advanced for the threshold; `stage` becomes HALTED. -/
def execMgmtCoreHangDetect (s : State) : Host.Outcome State Fault Refusal :=
  devStep (fun d => d.guard (d.sys.stage == .running) (fun e =>
    let e1 := e.reach (e.sys.heartbeatAt + e.threshold 0x43)
    (e1.hung (.mgmtCore, 0) 0x43 0 none none).setSys (fun x => { x with stage := .halted, causeHalted := true }))) s

/-- XBAR_SEC_HANG_DETECT: a crossbar quadrant or SEC holds a request past the threshold: a FATAL event, and ALERT_N. -/
def execXbarSecHangDetect (sec : Bool) (quadrant : Nat) (s : State) : Host.Outcome State Fault Refusal :=
  devStep (fun d => d.guard (d.sys.resetN && !d.sys.islandsOff) (fun e =>
    (e.reach (e.now + e.threshold 0x44)).hung (if sec then (.sec, 0) else (.xbar, quadrant)) 0x44 0 none none)) s

/-! ## Queues (R127, R141, R338) -/

/-- Remove the waits of a queue without completions. -/
def Dev.dropWaits (d : Dev) (sel : Nat → Bool) : Dev :=
  (d.jobs.filter (fun j => j.waiting && sel j.queue)).foldl (fun e j => ((e.releaseHolds j).dropWaiter j.id).dropJob j.id) d

/-- Mark the mover chains of some queues for an abort (R141). -/
def Dev.abortMovers (d : Dev) (sel : Job → Bool) : Dev :=
  { d with jobs := d.jobs.map (fun j =>
      match j.unit with
      | .mover _ _ => if sel j && j.result.isNone then markAbort j else j
      | _ => j) }

/-- A queue record after its reset: counts zero, nothing fetched, ACTIVE. -/
def Queue.fresh (x : Queue) : Queue :=
  { x with state := if x.exists_ then .active else .disabled, sqTail := 0, sqHead := 0, cqTail := 0, cqHead := 0, inFlight := 0, fetched := [] }

/-- A queue reset. It waits until the tag rate allows it (R339). -/
def Dev.resetQueue (d : Dev) (q : Nat) : Dev :=
  let d1 := d.reach (d.tagAt (.queue q))
  (((d1.dropWaits (fun x => x == q)).abortMovers (fun j => j.queue == q)).incTag (.queue q)).modQueue q Queue.fresh

/-! ## Partitions (R74, R135, R344) -/

/-- What a partition reset does to an object: opens end, older versions are freed, and every handle of the latest version is
stale (R74). -/
def Dev.resetObject (d : Dev) (r i : Nat) : Dev :=
  let o := d.obj r i
  if o.state = .free then d
  else
    let d1 := d.modObj r i (fun y => { y with slots := y.slots.map (fun s => (s.1, { s.2 with openCount := 0 })) })
    o.slots.foldl (fun e s =>
      let sl := (e.obj r i).slot s.1
      if sl.state = .published ∧ o.isLatest s.1 then e.modObj r i (fun y => { y with slots := tset y.slots s.1 { sl with gen := sl.gen + 1 } })
      else e.settleSlot r i s.1 none) d1

/-- Queue records of a range after a partition reset: a tag for every queue pair, one up; counts zero. -/
def Dev.resetRange (d : Dev) (base n : Nat) : Dev :=
  let mid := (List.range n).map (fun (k : Nat) =>
    let x := d.queue (base + k)
    (base + k, { x.fresh with gen := x.gen + 1 }))
  { d with queues := d.queues.filter (fun (x : Nat × Queue) => decide (x.1 < base)) ++ mid ++
      d.queues.filter (fun (x : Nat × Queue) => decide (base + n ≤ x.1)) }

/-- Counters of a range at zero, flags clear and pairs dissolved (R135). -/
def Dev.clearTallies (d : Dev) (base n : Nat) : Dev :=
  let inside := fun (t : Nat) => decide (base ≤ t) && decide (t < base + n)
  { d with
    tallies := d.tallies.filter (fun (x : Nat × Tally) => !inside x.1)
    pairs := d.pairs.filter (fun x => !inside x.producer && !inside x.consumer) }

/-- A partition reset goes to work: its movers abort, its engines are reset, its waits end without completions, its queues are reset, and
its tallies and opens are cleared. A reset beyond the tag rate waits (R339). -/
def Dev.beginPartReset (d : Dev) (p : Nat) : Dev :=
  if (d.partn p).state ≠ .resetting then d
  else if !d.tagFree (.partition p) then { d with deferred := d.deferred ++ [{ dom := .partition p, cause := 3 }] }
  else
    let r := d.partn p
    let mine := fun (q : Nat) => decide (r.queueBase ≤ q) && decide (q < r.queueBase + r.queueCount)
    let d1 := { d with tagTimes := d.tagTimes ++ [(Domain.partition p, d.now)] }
    let d2 := (bitsOf r.engines).foldl (fun e n => e.resetEngine n 3) d1
    let d3 := ((d2.dropWaits mine).abortMovers (fun j => j.partition == p)).resetRange r.queueBase r.queueCount
    let d4 := d3.clearTallies r.tallyBase r.tallyCount
    let objs := d4.objs.filter (fun o => (tget d4.regions (o.1 / 65536)).any (fun g => g.partition == p))
    objs.foldl (fun e o => e.atOnce (fun f => f.resetObject (o.1 / 65536) (o.1 % 65536))) d4

/-- A partition reset begins: the partition is RESETTING from this moment (R263, R344). -/
def Dev.startPartReset (d : Dev) (p : Nat) : Dev :=
  if (d.partn p).state ≠ .active then d
  else (d.setPart p (fun x => { x with state := .resetting, resetAt := d.now })).beginPartReset p

/-- Whether the aborts and engine resets of a partition reset have ended. -/
def Dev.partQuiet (d : Dev) (p : Nat) : Bool :=
  !(d.deferred.any (fun x => x.dom == .partition p)) &&
  (bitsOf (d.partn p).engines).all (fun n => (tget d.engReset n).isNone && !(d.deferred.any (fun x => x.dom == .engine n))) &&
  !d.jobs.any (fun j => j.partition == p && j.result.isNone && (match j.unit with
    | .mover _ _ => true
    | _ => false))

/-- The tags of a partition and of its movers move on, and PART_RESET_DONE is raised; its engines' and queues' tags moved when
they were reset. -/
def Dev.endPartReset (d : Dev) (p : Nat) : Dev :=
  let r := d.partn p
  let d1 := (bitsOf r.movers).foldl (fun e n => e.incTag (.mover n)) (d.setPart p (fun x => { x with gen := x.gen + 1 }))
  d1.raise { code := .partResetDone, part := some p, detail0 := some ((d1.partn p).gen.setWidth 64),
             detail1 := some (BitVec.ofNat 64 ((d1.now - r.resetAt) / 1000000)) }

/-! ## Resets that waited (R339) -/

/-- TAG_INCREMENT_DEFERRED: a reset that waited for the tag rate goes on. -/
def execTagIncrementDeferred (x : Domain) (s : State) : Host.Outcome State Fault Refusal :=
  devStep (fun d =>
    match d.deferred.find? (fun r => r.dom == x) with
    | none => d
    | some r =>
      let d1 := { d with deferred := d.deferred.erase r }.reach (d.tagAt x)
      match x with
      | .engine n => d1.resetEngine n r.cause
      | .mover n => d1.resetMover n r.cause
      | .memUnit m => d1.startRetrain m
      | .partition p => d1.beginPartReset p
      | .queue q => d1.resetQueue q
      | .port n =>
        let st := (d1.port n).state
        let d2 := d1.goDown n (r.cause == 1)
        if st = .blocked ∨ st = .disabled then d2.goTo n st else d2
      | .head _ | .device => d1.incTag x) s

/-! ## Slow units (R353, R354) -/

/-- ENGINE_SLOW_WINDOW: the time per memory access of each engine of a group in the last 1 ms. An engine above four times the
median in two windows in a row is withdrawn from shared work; one that stays within twice the median for 16 is readmitted. -/
def Dev.slowWindow (d : Dev) (p g : Nat) (ticks : List (Nat × Nat)) : Dev :=
  let d0 := d.reach (d.now + 1000000)
  let mine := ticks.filter (fun t => bit (d0.group p g).engines t.1)
  let m2 := medianTwice (mine.map (fun t => t.2))
  mine.foldl (fun e t =>
    let x := e.group p g
    let slow := if 2 * m2 < t.2 then tgetD x.slowRuns t.1 0 + 1 else 0
    let good := if t.2 ≤ m2 then tgetD x.goodRuns t.1 0 + 1 else 0
    let e1 := e.modGroup p g (fun y => { y with slowRuns := tset y.slowRuns t.1 slow, goodRuns := tset y.goodRuns t.1 good })
    if 2 ≤ slow ∧ bit x.withdrawn t.1 = false then
      (e1.modGroup p g (fun y => { y with withdrawn := putBit y.withdrawn t.1 true, goodRuns := tset y.goodRuns t.1 0 })).raise
        { code := .unitSlow, part := some p, unit := some (.engine, t.1), detail0 := some (BitVec.ofNat 64 (packBits [(0, 32, 0), (32, 32, t.1)])),
          detail1 := some (BitVec.ofNat 64 (2 * t.2 / max m2 1)) }
    else if 16 ≤ good ∧ bit x.withdrawn t.1 = true then
      e1.modGroup p g (fun y => { y with withdrawn := putBit y.withdrawn t.1 false })
    else e1) d0

/-- ENGINE_SLOW_WINDOW. -/
def execEngineSlowWindow (part group : Nat) (ticks : List (Nat × Nat)) (s : State) : Host.Outcome State Fault Refusal :=
  liveStep (fun d => d.slowWindow part group ticks) s

/-- MEMORY_UNIT_SLOW: a unit with requests queued has stayed below half of its peers' median rate for 1 s; it is reported. -/
def execMemoryUnitSlow (m rate median : Nat) (s : State) : Host.Outcome State Fault Refusal :=
  liveStep (fun d => d.guard ((d.unit m).trained && (d.unitOwner m).isSome && decide (2 * rate < median)) (fun e =>
    let u := memUnitRef m
    (e.reach (e.now + 1000000000)).raise
      { code := .unitSlow, part := e.unitOwner m, unit := some u,
        detail0 := some (BitVec.ofNat 64 (packBits [(0, 32, unitKindCode u.1), (32, 32, u.2)])), detail1 := some (BitVec.ofNat 64 rate) })) s

/-! ## The patrol of a standby (R333) -/

/-- The unit and line of line `n` of the paired regions, counted over their entries in order. -/
def Dev.patrolLine (d : Dev) (n : Nat) : Option (Nat × Nat) :=
  let rec go : List (Nat × PairEntry) → Nat → Option (Nat × Nat)
    | [], _ => none
    | e :: rest, k =>
      match (if e.2.valid then tget d.regions e.2.region else none) with
      | some r => if k < r.extents.length * slotLines then d.place r (64 * k) else go rest (k - r.extents.length * slotLines)
      | none => go rest k
  go d.pair.entries n

/-- STANDBY_PATROL: the next line of the paired regions is read and acted on as Transit does; a pass starts every
`patrol_hours`. -/
def Dev.patrol (d : Dev) (x1 x2 : BitVec 640) : Dev :=
  if d.pair.role ≠ .standby ∨ d.pairLines = 0 then d
  else
    let d1 := if d.pairLines ≤ d.pair.patrolPos then
        let e := d.reach (d.pair.patrolStart + d.pair.patrolHours * 3600000000000)
        { e with pair := { e.pair with patrolPos := 0, patrolStart := e.now } }
      else d
    match d1.patrolLine d1.pair.patrolPos with
    | some (m, line) =>
      let d2 := if (d1.unit m).retrain.isSome then d1 else d1.scrubLine m line x1 x2
      { d2 with pair := { d2.pair with
        patrolPos := d2.pair.patrolPos + 1
        patrolCe := d2.pair.patrolCe + ((d2.count .diCeTotal).toNat - (d1.count .diCeTotal).toNat)
        patrolUe := d2.pair.patrolUe + ((d2.count .diUeTotal).toNat - (d1.count .diUeTotal).toNat) } }
    | none => d1

/-- STANDBY_PATROL. -/
def execStandbyPatrol (d1 d2 : BitVec 640) (s : State) : Host.Outcome State Fault Refusal := liveStep (fun d => d.patrol d1 d2) s

end Sys2Proof.Machine
end

