-- ==== Sys2Proof/Machine/Partitions.lean ====
section
/-! DEFINITION. Partitions: creation, tenant change, destruction, added units, their mailboxes and event rings, Shutter, and
the loss of device metadata (Chapter 11, R172, R344, R345). -/

namespace Sys2Proof.Machine

open Sys2Proof

/-! ## Long commands (R295) -/

/-- The partition that a long operation works on, if it works on one. -/
def Dev.opPart (d : Dev) (o : LongOp) : Option Nat :=
  match o with
  | .tenantChange p _ => some p
  | .addUnit p _ => some p
  | .regionDestroy r => (tget d.regions r).map (fun x => x.partition)
  | .migrate r => (tget d.regions r).map (fun x => x.partition)
  | .modeChange => none
  | .rebuild u => d.unitOwner u

/-- Whether a long operation runs on a partition. -/
def Dev.partBusy (d : Dev) (p : Nat) : Bool := d.hk.ops.any (fun o => d.opPart o.2 == some p)

/-- Whether a long operation runs on a region, or on the whole of its partition. -/
def Dev.regionBusy (d : Dev) (r : Nat) : Bool :=
  d.hk.ops.any (fun o =>
    match o.2 with
    | .migrate x => x == r
    | .regionDestroy x => x == r
    | .tenantChange p _ => (tget d.regions r).any (fun g => g.partition == p)
    | _ => false) ||
  (tget d.regions r).any (fun g => g.migrating || g.destroying)

/-! ## Units that enter a partition (R260, R265, R266) -/

/-- The memory units that a record names. -/
def unitsIn (sub : BitVec 48) (ps : U64) : List Nat := bitsOf sub ++ (bitsOf ps).map (fun u => 48 + u)

/-- A controller's key register is loaded from a key slot (R268). -/
def Dev.loadKey (d : Dev) (p m : Nat) : Dev :=
  d.modUnit m (fun u => { u with key := tgetD d.keys p {}, keySlot := some p })

/-- A unit is to be cleared for a partition: nothing of it is cleared yet under its key, and none of it is consumed spare. -/
def Dev.claimUnit (d : Dev) (p m : Nat) : Dev :=
  { (d.modUnit m (fun u => { u with cleared := [] })).loadKey p m with spareUsed := d.spareUsed.filter (fun x => x.1 != m) }

/-- A unit enters a partition: its Transit pass begins at its first line (R158). -/
def Dev.beginPass (d : Dev) (m : Nat) : Dev :=
  d.modUnit m (fun u => { u with transitLine := 0, passStart := d.now, passDone := false, overdue := false, shareTenths := 0 })

/-- Whether a unit is held in partition 0 as a metadata subchannel only (R30). Once partition 0 has been created, what it holds is its
own, and no other partition may name it (log entry 76). -/
def Dev.heldMeta (d : Dev) (m : Nat) : Bool :=
  !(d.metaSlots m).isEmpty && decide (m < 48) && (d.unitOwner m == some 0 && (d.partn 0).state == .free || d.unitOwner m == none)

/-- A held metadata subchannel passes from partition 0. -/
def Dev.dropMeta (d : Dev) (m : Nat) : Dev :=
  if m < 48 ∧ bit (d.partn 0).subchannels m ∧ (d.partn 0).state = .free then
    d.setPart 0 (fun x => { x with subchannels := putBit x.subchannels m false })
  else d

/-- SEC destroys the key of a slot: the slot, every key register loaded from it, and both metadata copies of the wrapped key are
overwritten (R268). -/
def Dev.destroyKey (d : Dev) (p : Nat) : Dev :=
  { d with
    keys := tset d.keys p {}
    units := d.units.map (fun x => (x.1, if x.2.keySlot == some p then { x.2 with key := {}, keySlot := none } else x.2))
    wrapped0 := tset d.wrapped0 p {}, wrapped1 := tset d.wrapped1 p {} }

/-- SEC draws a key for a slot and stores it, wrapped, in both copies of device metadata (R268, R270). -/
def Dev.drawKey (d : Dev) (p : Nat) : Dev :=
  let n := d.keyCount + 1
  let k : KeySlot := { keys := Config.xtsKeys n, draw := n }
  { d with keyCount := n, keys := tset d.keys p k, wrapped0 := tset d.wrapped0 p k, wrapped1 := tset d.wrapped1 p k }

/-- A fresh key for a partition: the old one is destroyed before the new one is drawn (R268), and the registers of `units` are loaded. -/
def Dev.newKey (d : Dev) (p : Nat) (units : List Nat) : Dev :=
  units.foldl (fun e m => e.loadKey p m) ((d.destroyKey p).drawKey p)

/-- Units that PART_ADD_UNIT is adding to a partition. -/
def Dev.addingTo (d : Dev) (p : Nat) : List Nat :=
  d.hk.ops.filterMap (fun o => match o.2 with | .addUnit q m => if q = p then some m else none | _ => none)

/-- SEC unwraps the keys of device metadata and reloads the slots, and the registers of each partition's units are loaded (R270). A device
without its derived keys cannot. -/
def Dev.reloadKeys (d : Dev) : Dev :=
  if d.sys.derivedKeys.isNone then d
  else
    let d1 := { d with keys := d.wrapped0 }
    d1.keys.foldl (fun e k => (e.addingTo k.1 ++ unitsIn (e.partn k.1).subchannels (e.partn k.1).pseudoChannels).foldl
      (fun f m => f.loadKey k.1 m) e) d1

/-! ## PART_CREATE (R21, R259, R260, R128) -/

/-- Whether two ranges meet. -/
def rangesMeet (a n b k : Nat) : Bool := decide (a < b + k) && decide (b < a + n)

/-- Whether some other partition holds what a record names. -/
def Dev.partClash (d : Dev) (p : Nat) (r : PartIn) : Bool :=
  d.parts.any (fun x => x.1 != p && x.2.state != .free &&
    (x.2.subchannels &&& r.subchannels != 0 || x.2.pseudoChannels &&& r.pseudoChannels != 0 || x.2.engines &&& r.engines != 0 ||
     x.2.movers &&& r.movers != 0 || rangesMeet x.2.queueBase x.2.queueCount r.queueBase r.queueCount ||
     rangesMeet x.2.tallyBase x.2.tallyCount r.tallyBase r.tallyCount))

/-- The directory ways of all partitions but `p`. -/
def Dev.dirWaysUsed (d : Dev) (p : Nat) : Nat :=
  ((d.parts.filter (fun x => x.1 != p && x.2.state != .free)).map (fun x => x.2.dirWays)).sum

/-- Whether a memory unit can enter a partition: it has trained and is in service, and no operation is adding it. -/
def Dev.unitUsable (d : Dev) (m : Nat) : Bool :=
  (d.unit m).trained && !(d.unit m).removed && !(d.unit m).dead &&
  !d.hk.ops.any (fun o => match o.2 with | .addUnit _ x => x == m | _ => false)

/-- PART_CREATE. -/
def Dev.partCreate (d : Dev) (p : Nat) (r : PartIn) : CmdResult :=
  let held : BitVec 48 := if p = 0 then (d.partn 0).subchannels else 0
  let subs := r.subchannels ||| held
  let units := unitsIn subs r.pseudoChannels
  if r.rsvd ∨ (r.spareSlots ≠ 0 ∧ (bitsOf r.subchannels).length < 3) then d.fail .format
  else if 262144 < r.queueBase + r.queueCount ∨ 1048576 < r.tallyBase + r.tallyCount ∨ 32 < r.dirWays then d.fail .bounds
  else if d.sys.lifeCycle = .manufactured ∧ r.diag = false then d.fail .rights
  else if (d.partn p).state ≠ .free ∨ d.partClash p r ∨ 32 < d.dirWaysUsed p + r.dirWays ∨ units.any (fun m => !d.unitUsable m) ∨
      subs = 0 ∨ r.engines = 0 ∨ r.movers = 0 ∨ r.queueCount = 0 ∨ r.tallyCount = 0 then d.fail .noResource
  else
    let d1 := units.foldl (fun e m => (if p = 0 then e else e.dropMeta m).beginPass m) d
    let d2 := (units.foldl (fun e m => e.claimUnit p m) (d1.newKey p [])).setPart p (fun x => { x with
      number := p, state := .active, diag := r.diag, clearing := true, subchannels := subs, pseudoChannels := r.pseudoChannels
      engines := r.engines, movers := r.movers, queueBase := r.queueBase, queueCount := r.queueCount
      tallyBase := r.tallyBase, tallyCount := r.tallyCount, dirWays := r.dirWays, spareSlots := r.spareSlots, rekeyed := false })
    let d3 := (List.range 16).foldl (fun e g => { e with groups := terase e.groups (groupKey p g) }) d2
    ((d3.modGroup p 0 (fun g => { g with engines := r.engines, movers := r.movers })).settleClearing (some p)).done [((d3.partn p).gen).setWidth 64]

/-- PART_CREATE. -/
def execPartCreate (h : CmdHdr) (r : PartIn) (s : State) : Host.Outcome State Fault Refusal :=
  huanikStep h 0x0101 { device := true, fm := true } (hdrOwn h) (fun d => d.partCreate (hdrTarget h) r) s

/-! ## Tenant change and destruction (R263 to R265) -/

/-- Step 1: every lease over extents of the partition's regions is fenced as at expiry (R243, steps 1 to 4). -/
def Dev.fenceLeases (d : Dev) (p : Nat) : Dev :=
  d.leases.foldl (fun e x =>
    if x.2.state = .held ∧ (tget d.regions x.2.region).any (fun r => r.partition == p) then
      e.fenceLease x.1 x.2
    else e) d

/-- Start a tenant change, or a destruction, as an operation (R263, steps 1 and 2). A reset that runs already is its step 2. -/
def Dev.startTenant (d : Dev) (p : Nat) (destroy : Bool) : Nat × Dev :=
  let (n, d1) := d.startOp (.tenantChange p destroy)
  (n, (d1.fenceLeases p).startPartReset p)

/-- PART_TENANT_CHANGE and PART_DESTROY: accepted for an existing partition on which no other long operation runs. -/
def Dev.tenantCommand (d : Dev) (p : Nat) (destroy : Bool) : CmdResult :=
  if (d.partn p).state = .free then d.fail .bounds
  else if d.partBusy p then d.fail .noResource
  else
    let (n, d1) := d.startTenant p destroy
    d1.done [BitVec.ofNat 64 n]

/-- PART_TENANT_CHANGE. -/
def execPartTenantChange (h : CmdHdr) (s : State) : Host.Outcome State Fault Refusal :=
  huanikStep h 0x0102 { device := true, fm := true } (hdrOwn h) (fun d => d.tenantCommand (hdrTarget h) false) s

/-- PART_DESTROY. -/
def execPartDestroy (h : CmdHdr) (s : State) : Host.Outcome State Fault Refusal :=
  huanikStep h 0x0103 { device := true, fm := true } (hdrOwn h) (fun d => d.tenantCommand (hdrTarget h) true) s

/-- Remove a region and everything that its records hold: objects, pages, directory entries and leases. -/
def Dev.dropRegion (d : Dev) (r : Nat) : Dev :=
  let sp := d.pages r
  let near := sp.nearCounts.map (fun c => c.1) ++ sp.windows.map (fun w => w.2) ++ (sp.freeing.filter (fun x => x.1.1)).map (fun x => x.1.2)
  let inDir := fun (k : Nat) => k / 68719476736 == r
  let d1 := (d.leases.filter (fun l => l.2.region == r && l.2.state != .free)).foldl (fun e l => e.endLease l.1 l.2) d
  { d1 with
    regions := terase d1.regions r
    objs := d1.objs.filter (fun (o : Nat × Obj) => !(o.1 / 65536 == r))
    seqPages := terase d1.seqPages r
    nearUsed := d1.nearUsed.filter (fun n => !near.contains n)
    dir := d1.dir.filter (fun (x : Nat × DirEntry) => !inDir x.1)
    dirCached := d1.dirCached.filter (fun k => !inDir k)
    winTxns := d1.winTxns.filter (fun t => t.region != r)
    winWaits := d1.winWaits.filter (fun t => t.region != r) }

/-- Release a partition from every rank table; a table that belongs to no partition is discarded (R204). -/
def Dev.releaseRanks (d : Dev) (p : Nat) : Dev :=
  let ts : Tab RankTable := d.ranks.map (fun (t : Nat × RankTable) => (t.1, { t.2 with parts := t.2.parts.filter (fun x => x != p) }))
  { d with ranks := ts.filter (fun (t : Nat × RankTable) => t.2.parts != []) }

/-- Destroy the regions, objects, contexts, windows and head bindings of a partition (R263, step 2). -/
def Dev.dropTenancy (d : Dev) (p : Nat) : Dev :=
  let rs := (d.regions.filter (fun (r : Nat × Region) => r.2.partition == p))
  let d1 := rs.foldl (fun e r => (e.commandDone r.2.migrateOp (some p) .abandoned).dropRegion r.1) d
  let mine := fun (c : Nat) => decide (c ∈ (d.ctxs.filter (fun (x : Nat × Context) => x.2.partition == p)).map (fun x => x.1))
  let d2 := (d1.keepTrans (fun t => !mine t.ctx)).releaseRanks p
  { d2 with
    ctxs := d2.ctxs.filter (fun (x : Nat × Context) => x.2.partition != p)
    wins := d2.wins.filter (fun (w : Nat × WinRec) => !mine w.2.context)
    heads := d2.heads.map (fun (h : Nat × Head) => (h.1, { h.2 with
      dcr := h.2.dcr.filter (fun b => !mine b.2)
      doorbell := if (h.2.doorbell.any mine) then none else h.2.doorbell
      offered := h.2.offered.filter (fun x => !rs.any (fun r => r.1 == x.region)) }))
    partMbx := terase d2.partMbx p
    partRings := terase d2.partRings p
    hk := { d2.hk with paced := terase d2.hk.paced p, paceAt := terase d2.hk.paceAt p }
    rebuilds := d2.rebuilds.map (fun r =>
      let keep := d2.metaSlots r.unit
      if bit (d2.partn p).subchannels r.unit then { r with
        todo := r.todo.filter (fun e => keep.contains e)
        cur := r.cur.filter (fun c => keep.contains c.1) }
      else r) }

/-- A queue record as a tenant change leaves it: DISABLED with counts zero (Table 11.3); the queue pair exists no longer. -/
def Queue.disabled (x : Queue) : Queue := { x.fresh with state := .disabled, exists_ := false }

/-- Steps 2 (its end) to 4 of R263, and the start of step 5: nothing of the tenancy is left, unit state is cleared, the key is
new, and every slot of the partition is to be cleared, those of units that are being added to it among them (R266). -/
def Dev.rekey (d : Dev) (p : Nat) : Dev :=
  let d1 := d.dropTenancy p
  let r := d1.partn p
  let units := unitsIn r.subchannels r.pseudoChannels
  let all := units ++ d1.addingTo p
  let d2 := (units.filter (fun m => decide (m < 48))).foldl (fun e u => e.settleRebuild u) (all.foldl (fun e m =>
    e.modUnit m (fun u => { u with cleared := [] })) d1)
  let inside := fun (q : Nat) => decide (r.queueBase ≤ q) && decide (q < r.queueBase + r.queueCount)
  { ((d2.newKey p all).setPart p (fun x => { x with rekeyed := true })).settleClearing (some p) with
    queues := d2.queues.map (fun (q : Nat × Queue) => if inside q.1 then (q.1, q.2.disabled) else q)
    nearUsed := d2.nearUsed.filter (fun n => !bit r.pseudoChannels (n / 18432))
    waitClear := d2.waitClear.filter (fun x => !units.contains x.1) }

/-- A unit that no partition holds any longer is powered down (R21): its contents and its key register are lost. -/
def Dev.leaveUnit (d : Dev) (m : Nat) : Dev :=
  { d.modUnit m (fun u => { u with
      cleared := [], slotDraw := [], key := {}, keySlot := none, postponed := [], raa := [], throttles := [], streams := [], acts := []
      throttleEpisode := [], held := [] }) with
    pool := d.pool.loseUnit m (d.unit m).slots }

/-- Step 5 of R263: the tenant count moves on, and the partition is ACTIVE with its subchannels to be cleared, or FREE with its
units powered down but for metadata subchannels, which return to partition 0. -/
def Dev.endTenant (d : Dev) (p op : Nat) (destroy : Bool) : Dev :=
  let r := d.partn p
  let count := r.tenantCount + 1
  if destroy then
    let kept := (bitsOf r.subchannels).filter (fun m => !(d.metaSlots m).isEmpty)
    let gone := (unitsIn r.subchannels r.pseudoChannels).filter (fun m => !kept.contains m)
    let inside := fun (q : Nat) => decide (r.queueBase ≤ q) && decide (q < r.queueBase + r.queueCount)
    let d1 := gone.foldl (fun e m => e.leaveUnit m) d
    let d2 := { d1 with
      queues := d1.queues.map (fun (q : Nat × Queue) => if inside q.1 then (q.1, { gen := q.2.gen }) else q)
      groups := (List.range 16).foldl (fun g k => terase g (groupKey p k)) d1.groups }
    let d3 := d2.setPart p (fun x => { number := x.number, gen := x.gen, tenantCount := count })
    (kept.foldl (fun e m => (e.setPart 0 (fun x => { x with subchannels := putBit x.subchannels m true })).loadKey 0 m) d3).commandDone (some op) (some p) .ok
  else
    ((d.setPart p (fun x => { x with state := .active, tenantCount := count, clearing := true, rekeyed := false })).settleClearing
      (some p)).commandDone (some op) (some p) .ok

/-- Whether every pseudo-channel of a partition has been cleared. -/
def Dev.nearCleared (d : Dev) (p : Nat) : Bool := (bitsOf (d.partn p).pseudoChannels).all (fun u => (d.uncleared (48 + u)).isEmpty)

/-- End the tenant changes whose pseudo-channels have been cleared. -/
def Dev.settleTenants (d : Dev) : Dev :=
  d.hk.ops.foldl (fun e o =>
    match o.2 with
    | .tenantChange p destroy => if (e.partn p).rekeyed && e.nearCleared p then e.endTenant p o.1 destroy else e
    | _ => e) d

/-- Creations of a partition that wait for slots are answered NO_RESOURCE when its tenancy ends. -/
def State.dropCreates (s : State) (p : Nat) : State :=
  let (gone, rest) := s.dev.hk.waitingCreate.partition (fun w => w.rec_.partition == p)
  gone.foldl (fun t w => t.answer w.hdr 0x0201 .noResource [])
    { s with dev := { s.dev with hk := { s.dev.hk with waitingCreate := rest } } }

/-- The tenant change of a partition that waits for its reset. -/
def Dev.tenantOp (d : Dev) (p : Nat) : Option (Nat × Bool) :=
  d.hk.ops.findSome? (fun o => match o.2 with | .tenantChange q destroy => if q = p then some (o.1, destroy) else none | _ => none)

/-- PARTITION_RESET_DONE: the aborts and engine resets have ended. The partition is ACTIVE again, or its tenant change goes on. -/
def execPartitionResetDone (part : Nat) (s : State) : Host.Outcome State Fault Refusal :=
  let s1 := s.onDev id
  .next (
    if (s1.dev.partn part).state = .resetting ∧ (s1.dev.partn part).rekeyed = false ∧ s1.dev.partQuiet part then
      let d1 := s1.dev.endPartReset part
      match d1.tenantOp part with
      | some _ =>
        let s2 := State.dropCreates { s1 with dev := d1 } part
        { s2 with dev := (s2.dev.rekey part).settleTenants }
      | none => { s1 with dev := d1.setPart part (fun x => { x with state := .active }) }
    else s1)

/-! ## Shutter (R48, R243, R265) -/

/-- Slots that pending creations, migrations and rebuilds wait for. -/
def Dev.wanted (d : Dev) : List (Nat × Nat) :=
  (d.hk.waitingCreate.flatMap (fun w => w.rec_.extents ++ w.rec_.parity.map (fun g => g.parity) ++ w.rec_.dirExtents) ++
   d.regions.flatMap (fun r => r.2.newExtents ++ r.2.newParity.map (fun g => g.parity))).map (fun e => (extM e, e.slot)) ++
  d.rebuilds.filterMap (fun r => r.cur.map (fun c => c.2))

/-- Whether Shutter runs on a unit: the unit lives and is not retrained, and its partition is not in the reset of a tenant change, whose step 5 clears pseudo-channels
and whose step 6 clears subchannels; or the unit is being added. -/
def Dev.shutterRuns (d : Dev) (m : Nat) : Bool :=
  (d.unit m).trained && !(d.unit m).removed && !(d.unit m).dead && (d.unit m).retrain.isNone &&
  (d.hk.ops.any (fun o => match o.2 with | .addUnit _ x => x == m | _ => false) ||
   (match d.unitOwner m with
    | some p => (d.partn p).state != .resetting || ((d.partn p).rekeyed && decide (48 ≤ m))
    | none => false))

/-- The slot that Shutter clears next on a subchannel: one that a pending request needs, else the lowest (R265). -/
def Dev.nextShutter (d : Dev) (m : Nat) : Option Nat :=
  let todo := d.uncleared m
  match d.wanted.find? (fun x => x.1 == m && todo.contains x.2) with
  | some x => some x.2
  | none => todo.head?

/-- Whether a slot that Shutter has cleared goes back to the fabric manager. -/
def Dev.slotDone (d : Dev) (m slot : Nat) : Dev :=
  let d1 := { d.modUnit m (fun u => { u with cleared := slot :: u.cleared, slotDraw := tset u.slotDraw slot u.key.draw }) with
    pool := d.pool.clear m (slot * slotLines) (if m < 48 ∨ slot < 4 then slotLines else slotLines / 2) }
  if d1.waitClear.contains (m, slot) then
    ({ d1 with waitClear := d1.waitClear.filter (fun x => x != (m, slot)) }.emit (.extentReleased m slot)).endCleared
  else d1

/-- End the additions of units that have been cleared: the unit belongs to its partition, and its first Transit pass begins (R158). -/
def Dev.settleAdds (d : Dev) : Dev :=
  d.hk.ops.foldl (fun e o =>
    match o.2 with
    | .addUnit p m =>
      if (e.uncleared m).isEmpty then
        (((e.dropMeta m).beginPass m).setPart p (fun x =>
          if m < 48 then { x with subchannels := putBit x.subchannels m true }
          else { x with pseudoChannels := putBit x.pseudoChannels (m - 48) true })).commandDone (some o.1) (some p) .ok
      else e
    | _ => e) d

/-- End the destructions of regions whose extents have been cleared. -/
def Dev.settleDestroys (d : Dev) : Dev :=
  d.hk.ops.foldl (fun e o =>
    match o.2 with
    | .regionDestroy r =>
      match tget e.regions r with
      | some x =>
        let all := x.extents ++ x.newExtents ++ x.dirExtents ++ (x.parity ++ x.newParity).map (fun g => g.parity)
        if all.any (fun y => e.waitClear.contains (extM y, y.slot)) then e
        else (e.dropRegion r).commandDone (some o.1) (some x.partition) .ok
      | none => e.commandDone (some o.1) none .ok
    | _ => e) d

/-- The extents that a creation waits for. -/
def createSlots (r : Region) : List Extent := r.extents ++ r.parity.map (fun g => g.parity) ++ r.dirExtents

/-- Finish the creations whose slots have all been cleared: the region exists, and its command is answered. -/
def State.finishCreates (s : State) : State :=
  s.dev.hk.waitingCreate.foldl (fun t w =>
    if t.dev.allCleared (createSlots w.rec_) then
      State.answer { t with dev := ({ t.dev with
          regions := tset t.dev.regions w.region { w.rec_ with created := t.dev.serial, promoted := t.dev.serial }
          serial := t.dev.serial + 1
          hk := { t.dev.hk with waitingCreate := t.dev.hk.waitingCreate.filter (fun x => x != w) } } : Dev).atOnce (fun e => e.initPages w.region) }
        w.hdr 0x0201 .ok [BitVec.ofNat 64 w.region]
    else t) s

/-- SHUTTER_SLOT_CLEARED: Shutter has cleared a slot; whatever waited for it goes on. A subchannel's slots are cleared in their
order. -/
def execShutterSlotCleared (m slot : Nat) (s : State) : Host.Outcome State Fault Refusal :=
  let s1 := s.onDev id
  .next (
    if s1.dev.sys.live && s1.dev.shutterRuns m && (s1.dev.uncleared m).contains slot && (decide (48 ≤ m) || s1.dev.nextShutter m == some slot) then
      State.finishCreates { s1 with
        dev := (((((s1.dev.slotDone m slot).settleTenants).settleAdds).settleDestroys).settleClearing (s1.dev.unitOwner m)).retryHeld m }
    else s1)

/-! ## PART_ADD_UNIT (R260, R266) -/

/-- PART_ADD_UNIT: a unit that belongs to no partition, or a held metadata subchannel, is cleared under the partition's key and
then enters it. -/
def Dev.addUnit (d : Dev) (p : Nat) (near : Bool) (unit : Nat) : CmdResult :=
  let m := if near then 48 + unit else unit
  if (d.partn p).state = .free ∨ (if near then 64 else 48) ≤ unit then d.fail .bounds
  else if ((d.unitOwner m).isSome ∧ d.heldMeta m = false) ∨ d.unitUsable m = false ∨
      d.tenantChanging p then d.fail .noResource
  else
    let (n, d1) := (d.claimUnit p m).startOp (.addUnit p m)
    d1.done [BitVec.ofNat 64 n]

/-- PART_ADD_UNIT. -/
def execPartAddUnit (h : CmdHdr) (near : Bool) (unit : Nat) (s : State) : Host.Outcome State Fault Refusal :=
  huanikStep h 0x0106 { device := true, fm := true } (hdrOwn h) (fun d => d.addUnit (hdrTarget h) near unit) s

/-! ## Partition mailboxes and event rings (R115, R299, R300) -/

/-- Whether `n` bytes at a context's address lie wholly within one REGION segment with a right (R115). -/
def Dev.ringCheck (d : Dev) (ctx addr n : Nat) (need : Right) : Option Status :=
  let c := d.context ctx
  if !c.valid then some .rights
  else match c.segments.find? (fun s => s.kind == .region && segCovers s addr n) with
    | some s => if segGrants s need then none else some .rights
    | none => some .bounds

/-- The first failure of several checks. -/
def firstFail : List (Option Status) → Option Status
  | [] => none
  | some st :: _ => some st
  | none :: r => firstFail r

/-- Whether a valid context belongs to a partition; one that does not is outside what the partition holds. -/
def Dev.ctxOf (d : Dev) (p ctx : Nat) : Option Status :=
  if (d.context ctx).valid && (d.context ctx).partition != p then some .bounds else none

/-- PART_MAILBOX: a command ring and a response ring of 64 entries in the partition's memory. -/
def Dev.partMailbox (d : Dev) (p ctx cmdAddr rspAddr : Nat) : CmdResult :=
  if cmdAddr % 64 ≠ 0 ∨ rspAddr % 64 ≠ 0 then d.fail .format
  else if (d.partn p).state = .free ∨ 65536 ≤ ctx then d.fail .bounds
  else match firstFail [d.ctxOf p ctx, d.ringCheck ctx cmdAddr (64 * 256) .r, d.ringCheck ctx rspAddr (64 * 64) .w] with
    | some st => d.fail st
    | none => { d with partMbx := tset d.partMbx p { ctx := ctx, cmdAddr := cmdAddr, rspAddr := rspAddr } }.done

/-- PART_MAILBOX. -/
def execPartMailbox (h : CmdHdr) (ctx cmdAddr rspAddr : Nat) (s : State) : Host.Outcome State Fault Refusal :=
  huanikStep h 0x0104 { device := true, fm := true } (hdrOwn h) (fun d => d.partMailbox (hdrTarget h) ctx cmdAddr rspAddr) s

/-- PART_EVENT_RING: an event ring of 2^n entries behind a control line; it replaces the partition's present ring. -/
def Dev.partEventRing (d : Dev) (p ctx addr log2 : Nat) : CmdResult :=
  if addr % 64 ≠ 0 ∨ log2 < 6 ∨ 16 < log2 then d.fail .format
  else if (d.partn p).state = .free ∨ 65536 ≤ ctx then d.fail .bounds
  else match firstFail [d.ctxOf p ctx, d.ringCheck ctx addr (64 + 64 * 2 ^ log2) .w] with
    | some st => d.fail st
    | none => { d with partRings := tset d.partRings p { ctx := ctx, addr := addr, log2 := log2 } }.done

/-- PART_EVENT_RING. -/
def execPartEventRing (h : CmdHdr) (ctx addr log2 : Nat) (s : State) : Host.Outcome State Fault Refusal :=
  huanikStep h 0x0105 { device := true, part := true } (hdrOwn h) (fun d => d.partEventRing (hdrTarget h) ctx addr log2) s

/-! ## The loss of device metadata (R172, R345) -/

/-- The partition that a lost structure belongs to. -/
def Dev.metaOwner (d : Dev) (x : MetaStruct) : Option Nat :=
  match x with
  | .region r | .object r _ | .pageCount r _ => (tget d.regions r).map (fun g => g.partition)
  | .lease l => (tget d.leases l).bind (fun y => (tget d.regions y.region).map (fun g => g.partition))
  | .queue q => if (d.queue q).exists_ then some (d.queue q).partition else none
  | .context c => if (d.context c).valid then some (d.context c).partition else none
  | .window w => (tget d.wins w).map (fun y => (d.context y.context).partition)
  | .rankTable j => (tget d.ranks j).bind (fun t => t.parts.head?)
  | .wrappedKey p => some p
  | .pair => none

/-- What becomes of a lost structure (Table 14.4). A page-count line holds the counts of 32 pages. -/
def Dev.metaLost (d : Dev) (x : MetaStruct) : Dev :=
  let owner := d.metaOwner x
  match x with
  | .region r => { d with regions := d.regions.map (fun (g : Nat × Region) => if g.1 = r then (r, { g.2 with failed := true }) else g) }
  | .object r i =>
    if (d.obj r i).state = .live then
      let d1 := d.modObj r i (fun o => { o with state := .destroying })
      d1.atOnce (fun f => (((f.obj r i).slots.map (fun s => s.1)).foldl (fun e s => e.settleSlot r i s none) f).freeWorking r i none)
    else d
  | .pageCount r p =>
    let ps := (List.range 32).map (fun k => p / 32 * 32 + k)
    d.atOnce (fun f => ps.foldl (fun e k => (e.setCount r (false, k) 65535).setUsed r k true) f)
  | .lease l => d.expireLease l
  | .queue q => (owner.map (fun p => (d.modQueue q (fun y => { gen := y.gen })).startPartReset p)).getD d
  | .context c => (owner.map (fun p => ({ d with ctxs := terase d.ctxs c }.keepTrans (fun t => t.ctx != c)).startPartReset p)).getD d
  | .window w => (owner.map (fun p => { d with wins := terase d.wins w }.startPartReset p)).getD d
  | .rankTable j =>
    match tget d.ranks j with
    | some t => t.parts.foldl (fun e p => e.startPartReset p) { d with ranks := terase d.ranks j }
    | none => d
  | .wrappedKey p =>
    if (d.partn p).state = .free ∨ (d.tenantOp p).isSome then d
    else (({ d with wrapped0 := terase d.wrapped0 p, wrapped1 := terase d.wrapped1 p }).startTenant p false).2
  | .pair => d.pairEnable false

/-- METADATA_READ: the copy in the nearer quadrant serves; a copy that is bad is rewritten from the other, and a line bad in both
is lost. -/
def execMetadataRead (idx quadrant : Nat) (holds : MetaStruct) (d0 d1 : BitVec 640) (s : State) :
    Host.Outcome State Fault Refusal :=
  liveStep (fun d =>
    match d.metaRead idx quadrant d0 d1 with
    | none => d
    | some (some w, e) => e.emit (.line .ok w)
    | some (none, e) =>
      ((e.raise { code := .metadataLost, part := e.metaOwner holds, detail1 := some (metaCode holds) }).metaLost holds).emit
        (.line .uncorrectable 0)) s

/-! ## Huanik's round (R43, R253, R288, R345) -/

/-- Make the writes of the management cores that waited at their lines, in order, up to one that must still wait. -/
def Dev.flushCore (d : Dev) : Nat → Dev
  | 0 => d
  | n + 1 =>
    match d.coreWrites with
    | [] => d
    | w :: rest =>
      let e := d.windowed (fun f =>
        let g := { f with coreWrites := rest }
        match g.locate w.ctx w.addr 64 .w with
        | .error _ => g
        | .ok (r, off) => (g.save r off w.data).2)
      if e.coreWrites.length < d.coreWrites.length then Dev.flushCore e n else e

/-- Huanik's round: the writes that waited are made, and lost metadata structures are acted on. -/
def Dev.round (d : Dev) : Dev :=
  let d1 := d.flushCore d.coreWrites.length
  d1.lostMeta.foldl (fun e x => e.metaLost x) { d1 with lostMeta := [] }

/-- MBX_HEARTBEAT_TICK: every 1 ms while RUNNING, with what Huanik does of itself (log entry 85). -/
def execMbxHeartbeatTick (s : State) : Host.Outcome State Fault Refusal :=
  devStep (fun d => d.guard (d.sys.stage == .running) (fun e =>
    let e1 := (e.reach (e.sys.heartbeatAt + 1000000)).round
    { e1 with heartbeat := e1.heartbeat + 1, sys := { e1.sys with heartbeatAt := e1.now } })) s

end Sys2Proof.Machine
end

