-- ==== Sys2Proof/Machine/RegionCommands.lean ====
section
/-! DEFINITION. Huanik's commands on regions and objects (R33, R35, R38, R44, R53, R162, R166, R249, Table 12.7). -/

namespace Sys2Proof.Machine

open Sys2Proof

/-! ## REGION_CREATE (R33, R38, R162, R166, R249, R265) -/

/-- The tier that a field value names (Table 2.2). -/
def tierOf (n : Nat) : Option Tier :=
  match n with
  | 0 => some .capacity
  | 1 => some .near
  | 2 => some .nearIfFree
  | 3 => some .sequence
  | _ => none

/-- The tier field (Table 2.2). -/
def tierCode (t : Tier) : Nat :=
  match t with
  | .capacity => 0 | .near => 1 | .nearIfFree => 2 | .sequence => 3

/-- Whether an entry names a unit that the device has. -/
def extExists (e : Extent) : Bool := if e.near then decide (e.unit < 64) else decide (e.unit < 48)

/-- Whether the memory units of a list differ. -/
def allDiffer (ms : List Nat) : Bool := ms.dedup.length == ms.length

/-- The FORMAT cases of a region's creation (R31, R33, R249). -/
def Dev.regionFormat (d : Dev) (p : Nat) (r : RegionIn) (t : Tier) : Bool :=
  let es := r.extents.map (fun x => x.ext)
  let near := t == .near
  decide (r.extentCount = 0 ∨ 16384 < r.extentCount ∨ r.width = 0 ∨ 64 < r.width ∨ 1 < r.coherence ∨ 8 < r.grainM8) ||
  r.extentCount % r.width != 0 || decide ((d.ownedUnits p near).length < r.width) || es.length != r.extentCount ||
  r.extents.any (fun x => x.rsvd) ||
  es.any (fun e => extExists e && decide (d.unitSlots (extM e) ≤ e.slot)) || es.any (fun e => e.near != near) ||
  !allDiffer (es.map (fun e => lineKey (extM e) e.slot)) ||
  (cutList r.width es.length es).any (fun s => !allDiffer (s.map (fun e => extM e))) ||
  (r.coherence == 1 && (t == .nearIfFree || t == .sequence))

/-- The total size of the coherent window, in extents (R249). -/
def Dev.windowExtents (d : Dev) : Nat :=
  ((d.regions.filter (fun (x : Nat × Region) => x.2.window)).map (fun x => x.2.extents.length)).sum +
  ((d.hk.waitingCreate.filter (fun w => w.rec_.window)).map (fun w => w.rec_.extents.length)).sum

/-- The `n` lowest free slots of a partition's own subchannels that `taken` does not hold: its directory extents (R249, log
entry 15). -/
def Dev.directoryExtents (d : Dev) (p n : Nat) (taken : List Extent) : Option (List Extent) :=
  let free := (bitsOf (d.partn p).subchannels).flatMap (fun u => (d.freeSlots p u).map (fun e => extentOf u e))
  let own := (free.filter (fun e => !taken.contains e)).take n
  if own.length = n then some own else none

/-- The lowest region number that is free (log entry 15). -/
def Dev.freeRegion (d : Dev) : Option Nat :=
  firstFree (d.regions.map (fun x => x.1) ++ d.hk.waitingCreate.map (fun w => w.region)) 0 65536

/-- Where a region goes (R38): a NEAR_IF_FREE region into near-tier slots that Huanik chooses, where there are enough. A
DURABLE one stays in the capacity tier, where its parity groups can be formed. -/
def Dev.placeTier (d : Dev) (p : Nat) (t : Tier) (durable : Bool) (width count : Nat) (given : List Extent) : List Extent × Bool :=
  if t = .nearIfFree ∧ durable = false then
    match d.chooseSlots p true width count with
    | some es => (es, true)
    | none => (given, false)
  else (given, t == .near)

/-- The record of a new region with its parity groups and directory extents, or none where a NO_RESOURCE case holds. -/
def Dev.regionRecord (d : Dev) (p : Nat) (r : RegionIn) (t : Tier) (salt : U32) : Option Region :=
  let given := r.extents.map (fun x => x.ext)
  let window := r.coherence == 1
  let (es, inNear) := d.placeTier p t r.durable r.width r.extentCount given
  if given.any (fun e => d.slotBusy p (extM e) e.slot) ||
      (window && (decide (256 < d.windowExtents + r.extentCount) || (d.partn p).dirWays == 0)) then none
  else
    (if r.durable then d.formParity p es else some []).bind (fun groups =>
      let parity := groups.map (fun g => g.parity)
      (if window then d.directoryExtents p ((r.extentCount + 31) / 32) (es ++ parity) else some []).bind (fun dirs =>
        if d.spareCovers p (es ++ parity ++ dirs) then
          some { partition := p, grainM8 := r.grainM8, width := r.width, tier := t, inNear := inNear, durable := r.durable
                 window := window, salt := salt, extents := es, listLine := d.hk.nextMetaLine, parity := groups
                 dirExtents := dirs, created := d.serial, promoted := d.serial }
        else none))

/-- A salt given, or one that Huanik draws, which is not zero (R35). -/
def Dev.drawSalt (d : Dev) (given : Option U32) : U32 × Dev :=
  match given with
  | some s => (s, d)
  | none =>
    let (w, d1) := d.drawWord
    (if (w.truncate 32 : U32) = 0 then 1 else w.truncate 32, d1)

/-- REGION_CREATE: checked in the order of R33. A region whose slots have all been cleared exists at once. Otherwise its
creation waits for them, and its response with it (R265): then the first part of the result is true. -/
def Dev.regionCreate (d : Dev) (h : CmdHdr) (r : RegionIn) : Bool × CmdResult :=
  let p := hdrTarget h
  match tierOf r.tier with
  | none => (false, d.fail .format)
  | some t =>
    if d.regionFormat p r t then (false, d.fail .format)
    else if (d.partn p).state = .free ∨
        r.extents.any (fun x => !(d.ownedUnits p x.ext.near).contains (extM x.ext) || !extExists x.ext) then (false, d.fail .bounds)
    else
      let (salt, d1) := d.drawSalt r.salt
      match d1.freeRegion, d1.regionRecord p r t salt with
      | some n, some rec_ =>
        let d2 := { d1 with hk := { d1.hk with nextMetaLine := d1.hk.nextMetaLine + listLines rec_.extents.length rec_.parity.length } }
        let made : Dev := ({ d2 with regions := tset d2.regions n rec_, serial := d2.serial + 1 } : Dev).atOnce (fun e => e.initPages n)
        let late : Dev := { d2 with hk := { d2.hk with waitingCreate := d2.hk.waitingCreate ++ [{ hdr := h, region := n, rec_ := rec_ }] } }
        if d2.allCleared (createSlots rec_) then (false, made.done [BitVec.ofNat 64 n]) else (true, late.done)
      | _, _ => (false, d.fail .noResource)

/-- REGION_CREATE. -/
def execRegionCreate (h : CmdHdr) (r : RegionIn) (s : State) : Host.Outcome State Fault Refusal :=
  let s0 := s.onDev id
  .next (
    if !s0.takes h then s0
    else match s0.refusal h 0x0201 { device := true, fm := true } (some (hdrTarget h)) with
      | some st => s0.answer h 0x0201 st []
      | none =>
        let (waits, st, outs, d) := s0.dev.regionCreate h r
        let s1 : State := { s0 with dev := d }
        if waits then s1 else s1.answer h 0x0201 st outs)

/-! ## REGION_DESTROY, REGION_MIGRATE and REGION_QUERY -/

/-- The partition that owns a region. -/
def regionOwner (region : Nat) (d : Dev) : Option Nat := (tget d.regions region).map (fun r => r.partition)

/-- Whether a lease or a segment names a region. -/
def Dev.regionNamed (d : Dev) (r : Nat) : Bool :=
  d.leases.any (fun l => l.2.state != .free && l.2.region == r) ||
  d.ctxs.any (fun c => c.2.valid && c.2.segments.any (fun x => x.kind == .region && x.targetId == r))

/-- Whether a long command runs on a region. A migration that Huanik began by itself is none. -/
def Dev.regionTaken (d : Dev) (r : Nat) : Bool :=
  d.hk.ops.any (fun o =>
    match o.2 with
    | .migrate x => x == r
    | .regionDestroy x => x == r
    | .tenantChange p _ => regionOwner r d == some p
    | _ => false)

/-- REGION_DESTROY: the region's extents are cleared and returned, and then the region ends. -/
def Dev.regionDestroy (d : Dev) (r : Nat) : CmdResult :=
  match tget d.regions r with
  | none => d.fail .bounds
  | some x =>
    if d.regionNamed r then d.fail .format
    else if d.regionTaken r then d.fail .noResource
    else
      let (n, d1) := d.startOp (.regionDestroy r)
      let all := x.extents ++ x.newExtents ++ x.dirExtents ++ (x.parity ++ x.newParity).map (fun g => g.parity)
      ({ d1 with regions := tset d1.regions r { x with destroying := true, migrating := false } }.giveBack all).done
        [BitVec.ofNat 64 n]

/-- REGION_DESTROY. -/
def execRegionDestroy (h : CmdHdr) (region : Nat) (s : State) : Host.Outcome State Fault Refusal :=
  huanikStep h 0x0202 { device := true, fm := true } (regionOwner region) (fun d => d.regionDestroy region) s

/-- Whether the inputs of a migration are malformed: the tier and width by the checks of R33, the share from 1 to 100 per
cent, and the salt only from the device ring or the fabric manager. -/
def Dev.migrateFormat (d : Dev) (x : Region) (h : CmdHdr) (width share : Nat) (t : Tier) (salt : Option U32) : Bool :=
  decide (width = 0 ∨ 64 < width ∨ 100 < share) || x.extents.length % width != 0 ||
  decide ((d.ownedUnits x.partition (t == .near)).length < width) ||
  (t == .sequence) != (x.tier == .sequence) || (x.window && t == .nearIfFree) ||
  (match h.src with
   | .part _ => salt.any (fun s => s != 0)
   | _ => false)

/-- REGION_MIGRATE: free slots for every extent are found, and the copy begins; a NEAR_IF_FREE region goes to the near tier
where it can. -/
def Dev.regionMigrate (d : Dev) (h : CmdHdr) (r width tier share : Nat) (salt : Option U32) : CmdResult :=
  match tget d.regions r, tierOf tier with
  | none, _ => d.fail .bounds
  | some _, none => d.fail .format
  | some x, some t =>
    if d.migrateFormat x h width share t salt then d.fail .format
    else if d.regionTaken r || x.migrating || x.failed then d.fail .noResource
    else
      let given : Option U32 := match h.src with
        | .part _ => none
        | _ => salt
      let (y, d1) := d.drawSalt given
      let (n, d2) := d1.startOp (.migrate r)
      let share1 := if share = 0 then 25 else share
      let try_ := fun (near : Bool) => d2.startMigration r width t near share1 y (some n)
      let won := match t with
        | .near => try_ true
        | .nearIfFree => (match try_ true with
          | some e => some e
          | none => try_ false)
        | _ => try_ false
      match won with
      | some e => e.done [BitVec.ofNat 64 n]
      | none => d.fail .noResource

/-- REGION_MIGRATE. -/
def execRegionMigrate (h : CmdHdr) (region width tier share : Nat) (salt : Option U32) (s : State) :
    Host.Outcome State Fault Refusal :=
  huanikStep h 0x0203 { device := true, fm := true, part := true } (regionOwner region)
    (fun d => d.regionMigrate h region width tier share salt) s

/-- The region record as four 64-bit words (Table 2.2); salts only for Huanik's own use and the fabric manager (R35). -/
def regionWords (n : Nat) (r : Region) (salts : Bool) : List U64 :=
  let salt := fun (x : U32) => if salts then x.toNat else 0
  let all := packBits [(0, 16, n), (16, 15, r.extents.length), (32, 5, r.partition), (37, 4, r.grainM8), (41, 7, r.width),
    (48, 3, tierCode r.tier), (51, 1, r.inNear.toNat), (52, 1, r.durable.toNat), (53, 2, r.window.toNat), (55, 1, r.migrating.toNat),
    (56, 7, r.newWidth), (64, 32, salt r.salt), (96, 32, r.listLine), (128, 32, r.cursor), (160, 32, r.newListLine),
    (192, 32, salt r.newSalt), (224, 3, tierCode r.newTier)]
  (List.range 4).map (fun i => BitVec.ofNat 64 (all / 2 ^ (64 * i)))

/-- REGION_QUERY. -/
def execRegionQuery (h : CmdHdr) (region : Nat) (s : State) : Host.Outcome State Fault Refusal :=
  huanikStep h 0x0204 { device := true, fm := true, part := true } (regionOwner region) (fun d =>
    match tget d.regions region with
    | some r => d.done (regionWords region r (h.src == .fm))
    | none => d.fail .bounds) s

/-! ## OBJECT_CREATE (R51 to R53, R76) -/

/-- The record of a new object, its computed fields by Table 3.1, R77 and *Attention operations*. -/
def objectOf (o : ObjIn) : Obj :=
  let x : Obj := { flat := o.flat, state := .live, gqM1 := o.gqM1, layersM1 := o.layersM1, kvFormat := o.kvFormat, headDim := o.headDim
                   kvHeadsM1 := o.kvHeadsM1, chunks := o.chunks, flatPages := o.flatPages, parentIndex := 0xFFFF }
  if o.flat then x
  else
    let kb := x.heads * x.headBytes
    let sb := x.heads * (2 * x.dim + 4)
    let pages := fun (b : Nat) => (x.layers * 64 * b + 65535) / 65536
    { x with kvBlockBytes := kb, summaryBlockBytes := sb, kvChunkPages := pages kb, sumChunkPages := pages sb }

/-- The FORMAT cases of an object's creation (R53, R76). -/
def Dev.objectFormat (d : Dev) (o : ObjIn) (r : Region) : Bool :=
  let x := objectOf o
  r.tier != .sequence || o.rsvd ||
  (if o.flat then decide (o.flatPages = 0 ∨ 268435456 < o.flatPages ∨ o.gqM1 ≠ 0 ∨ o.layersM1 ≠ 0 ∨ o.kvFormat ≠ 0 ∨ o.headDim ≠ 0 ∨
      o.kvHeadsM1 ≠ 0 ∨ o.chunks ≠ 0)
   else decide (o.chunks = 0 ∨ 1024 < o.chunks ∨ o.flatPages ≠ 0 ∨ 268435456 < o.chunks * x.chunkPages ∨ 5 ≤ o.kvFormat) ||
      !bit d.hk.formats o.kvFormat)

/-- OBJECT_CREATE: the lowest free index, an empty root in a free page, and the working handle. -/
def Dev.objectCreate (d : Dev) (o : ObjIn) : CmdResult :=
  match tget d.regions o.region with
  | none => d.fail .bounds
  | some r =>
    let taken := (d.objs.filter (fun x => decide (x.1 / 65536 = o.region) && x.2.state != .free)).map (fun x => x.1 % 65536)
    if d.objectFormat o r then d.fail .format
    else if r.destroying then d.fail .noResource
    else match firstFree taken 0 65536, d.newRoot o.region with
      | some i, some (root, d1) =>
        let d3 := (d.atOnce (fun _ => d1)).modObj o.region i (fun old => { objectOf o with
          gen := old.gen, workingRoot := root, slots := old.slots.map (fun (x : Nat × PlateSlot) => (x.1, { gen := x.2.gen })) })
        d3.done [makeHandle o.region i 0 0 (d3.obj o.region i).gen]
      | _, _ => d.fail .noResource

/-- OBJECT_CREATE. -/
def execObjectCreate (h : CmdHdr) (o : ObjIn) (s : State) : Host.Outcome State Fault Refusal :=
  huanikStep h 0x0205 { device := true, part := true } (regionOwner o.region) (fun d => d.objectCreate o) s

end Sys2Proof.Machine
end

