-- ==== Sys2Proof/Machine/AddressCommands.lean ====
section
/-! DEFINITION. Huanik's commands on contexts, windows, rank tables, head bindings, routing versions, ports and leases (R189,
R193, R204, R208, R209, R222 to R224, R236, R241, R242, Table 12.7). -/

namespace Sys2Proof.Machine

open Sys2Proof

/-! ## Rank tables (R204) -/

/-- Whether the rank table of a job belongs to a partition. -/
def Dev.jobOf (d : Dev) (job p : Nat) : Bool := (tget d.ranks job).any (fun t => t.parts.contains p)

/-- Whether a valid window record, or a valid context with a REMOTE segment, of a partition names a job. A window is of the partition that
its context's record names, which freeing the context leaves in the record. -/
def Dev.jobNamed (d : Dev) (job p : Nat) : Bool :=
  d.wins.any (fun w => w.2.job == job && (d.context w.2.context).partition == p) ||
  d.ctxs.any (fun c => c.2.valid && c.2.partition == p && c.2.job == job && c.2.segments.any (fun s => s.kind == .remote))

/-- RANK_TABLE_LOAD: set entries and add the partition, or with no entries release it. -/
def Dev.rankTableLoad (d : Dev) (p job : Nat) (entries : List RankIn) : CmdResult :=
  if 65536 ≤ job ∨ entries.any (fun e => decide (65536 ≤ e.rank ∨ 65536 ≤ e.endpoint)) then d.fail .format
  else if (d.partn p).state = .free then d.fail .bounds
  else if entries = [] then
    if d.jobNamed job p then d.fail .format
    else match tget d.ranks job with
      | none => d.done
      | some t =>
        let rest := t.parts.filter (fun x => x != p)
        let kept : Dev := { d with ranks := if rest = [] then terase d.ranks job else tset d.ranks job { t with parts := rest } }
        kept.done
  else if (tget d.ranks job).isNone ∧ 4096 ≤ d.ranks.length then d.fail .noResource
  else
    let t := tgetD d.ranks job { parts := [], entries := [] }
    let es := entries.foldl (fun (acc : Tab Nat) e => if e.valid then tset acc e.rank e.endpoint else terase acc e.rank) t.entries
    let t1 : RankTable := { parts := if t.parts.contains p then t.parts else t.parts ++ [p], entries := es }
    let loaded : Dev := { d with ranks := tset d.ranks job t1 }
    loaded.done

/-- RANK_TABLE_LOAD. -/
def execRankTableLoad (h : CmdHdr) (job : Nat) (entries : List RankIn) (s : State) : Host.Outcome State Fault Refusal :=
  huanikStep h 0x0303 { device := true, fm := true } (hdrOwn h) (fun d => d.rankTableLoad (hdrTarget h) job entries) s

/-! ## Windows (R208) -/

/-- The partition of a valid context. -/
def ctxOwner (c : Nat) (d : Dev) : Option Nat := if (d.context c).valid then some (d.context c).partition else none

/-- WINDOW_WRITE: the record is written, or freed where its `valid` is 0; R208 exempts neither from its checks. -/
def Dev.windowWrite (d : Dev) (n : Nat) (w : WindowIn) : CmdResult :=
  if 16383 < n ∨ w.rsvd ∨ w.rankHi < w.rankLo ∨
      (w.valid ∧ d.wins.any (fun x => x.1 != n && x.2.job == w.job && x.2.window == w.window)) then d.fail .format
  else if (d.context w.context).valid = false ∨ d.jobOf w.job (d.context w.context).partition = false then d.fail .bounds
  else
    let r : WinRec := { job := w.job, window := w.window, rankLo := w.rankLo, rankHi := w.rankHi, context := w.context }
    let put : Dev := { d with wins := if w.valid then tset d.wins n r else terase d.wins n }
    put.done

/-- WINDOW_WRITE. -/
def execWindowWrite (h : CmdHdr) (record : Nat) (w : WindowIn) (s : State) : Host.Outcome State Fault Refusal :=
  huanikStep h 0x0302 { device := true, fm := true } (ctxOwner w.context) (fun d => d.windowWrite record w) s

/-! ## Contexts (R209) -/

/-- Whether some two segments of a list that are not INVALID overlap. -/
def segmentsMeet : List Segment → Bool
  | [] => false
  | x :: r => (x.kind != .invalid && overlaps r x) || segmentsMeet r

/-- The FORMAT cases of a segment. -/
def segmentFormat (x : Segment) : Bool :=
  x.base % 64 != 0 || x.rsvd || x.kind == .reserved ||
  (x.kind != .invalid && (x.lines == 0 || x.targetOff % 64 != 0)) || (x.kind == .doorbell && x.targetId != 0)

/-- Whether the aperture line at a byte offset holds a doorbell of a partition (R117). -/
def doorbellLine (r : Partition) (p off : Nat) : Bool :=
  if off < 0x200000 then rangesMeet (off / 8) 8 r.queueBase r.queueCount
  else if off < 0x200100 then p / 8 == (off - 0x200000) / 64
  else p / 8 == (off - 0x200100) / 64

/-- The BOUNDS cases of a segment of a context of partition `p`. -/
def Dev.segmentBounds (d : Dev) (p job : Nat) (x : Segment) : Bool :=
  match x.kind with
  | .region =>
    match tget d.regions x.targetId with
    | some r => r.partition != p || r.destroying || decide (r.extents.length * extentBytes < x.targetOff + 64 * x.lines)
    | none => true
  | .doorbell =>
    decide (0x200200 < x.targetOff + 64 * x.lines) ||
    (List.range x.lines).any (fun i => !doorbellLine (d.partn p) p (x.targetOff + 64 * i))
  | .remote => !d.jobOf job p
  | _ => false

/-- CONTEXT_WRITE: the whole record is refused or written, and the context's translations are invalidated. -/
def Dev.contextWrite (d : Dev) (c : ContextIn) : CmdResult :=
  if c.rsvd ∨ 5 < c.tc ∨ 8 < c.segments.length ∨ c.segments.any segmentFormat ∨ segmentsMeet c.segments then d.fail .format
  else if 65536 ≤ c.context ∨ (c.valid ∧ (d.partn c.partition).state = .free) ∨
      c.segments.any (d.segmentBounds c.partition c.job) then d.fail .bounds
  else
    let x : Context := { valid := c.valid, partition := c.partition, job := c.job, tc := c.tc, segments := c.segments }
    let put : Dev := { d with ctxs := tset d.ctxs c.context x }
    (put.keepTrans (fun e => e.ctx != c.context)).done

/-- CONTEXT_WRITE. -/
def execContextWrite (h : CmdHdr) (c : ContextIn) (s : State) : Host.Outcome State Fault Refusal :=
  huanikStep h 0x0301 { device := true, fm := true } (fun _ => some c.partition) (fun d => d.contextWrite c) s

/-! ## Head bindings (R236) -/

/-- HEAD_BIND: every context named belongs to one partition and to no binding of another head. -/
def Dev.headBind (d : Dev) (b : HeadBindIn) : CmdResult :=
  let cs := b.dcr.map (fun x => x.2) ++ b.doorbell.toList
  let parts := cs.map (fun c => (d.context c).partition)
  if b.rsvd ∨ b.dcr.any (fun x => decide (7 < x.1)) ∨ !allDiffer (b.dcr.map (fun x => x.1)) then d.fail .format
  else if d.headExists b.head = false ∨ cs.any (fun c => !(d.context c).valid) ∨ 1 < parts.dedup.length ∨
      d.heads.any (fun x => x.1 != b.head && x.2.contexts.any (fun c => cs.contains c)) then d.fail .bounds
  else
    let touched := cs ++ (d.head b.head).contexts
    let dcr := b.dcr.foldl (fun (t : Tab Nat) x => tset t x.1 x.2) []
    ((d.modHead b.head (fun x => { x with dcr := dcr, doorbell := b.doorbell })).keepTrans (fun e => !touched.contains e.ctx)).done

/-- HEAD_BIND. -/
def execHeadBind (h : CmdHdr) (b : HeadBindIn) (s : State) : Host.Outcome State Fault Refusal :=
  huanikStep h 0x0307 { device := true, fm := true }
    (fun d => (b.dcr.map (fun x => x.2) ++ b.doorbell.toList).findSome? (fun c => ctxOwner c d)) (fun d => d.headBind b) s

/-! ## Routing versions (R222 to R224) -/

/-- Change a routing version. -/
def Routing.setVersion (r : Routing) (v : Bool) (x : RtVersion) : Routing := if v then { r with v1 := x } else { r with v0 := x }

/-- Run a command on a routing version, 0 or 1. -/
def Dev.onVersion (d : Dev) (n : Nat) (f : Bool → CmdResult) : CmdResult :=
  match n with
  | 0 => f false
  | 1 => f true
  | _ => d.fail .format

/-- ROUTE_LOAD: an INVALID version takes its entries and becomes LOADED. -/
def Dev.routeLoad (d : Dev) (v : Bool) (es : List RouteIn) : CmdResult :=
  if es.any (fun e => e.rsvd || decide (65536 ≤ e.dest ∨ 32 ≤ e.escapePort)) then d.fail .format
  else if (d.rt.version v).state ≠ .invalid then d.fail .noResource
  else
    let routes := es.foldl (fun (t : Tab Route) e => if e.valid then tset t e.dest { spray := e.spray, escapePort := e.escapePort } else terase t e.dest) []
    (d.modRt (fun r => r.setVersion v { state := .loaded, routes := routes })).done

/-- ROUTE_LOAD. -/
def execRouteLoad (h : CmdHdr) (version : Nat) (entries : List RouteIn) (s : State) : Host.Outcome State Fault Refusal :=
  huanikStep h 0x0304 { device := true, fm := true } noTarget (fun d => d.onVersion version (fun v => d.routeLoad v entries)) s

/-- ROUTE_FLIP: a LOADED version becomes ACTIVE; an ACTIVE other becomes DRAINING, an INVALID other stays (Table 9.10). -/
def Dev.routeFlip (d : Dev) (v : Bool) : CmdResult :=
  let x := d.rt.version v
  let y := d.rt.version (!v)
  if x.state ≠ .loaded ∨ (y.state ≠ .active ∧ y.state ≠ .invalid) then d.fail .noResource
  else
    let other : RtVersion := if y.state = .active then { y with state := .draining } else y
    (d.settleExcluded.modRt (fun r => (r.setVersion v { x with state := .active }).setVersion (!v) other)).settleExcluded.done

/-- ROUTE_FLIP. -/
def execRouteFlip (h : CmdHdr) (version : Nat) (s : State) : Host.Outcome State Fault Refusal :=
  huanikStep h 0x0305 { device := true, fm := true } noTarget (fun d => d.onVersion version d.routeFlip) s

/-- The drain count of a version on a port: the packets of its epoch queued for egress. -/
def Port.drain (p : Port) (v : Bool) : Nat := (p.egress.filter (fun e => e.p.epoch == v)).length

/-- ROUTE_RETIRE: a DRAINING version whose drain counts are all zero becomes INVALID. -/
def Dev.routeRetire (d : Dev) (v : Bool) : CmdResult :=
  if (d.rt.version v).state ≠ .draining ∨ d.ports.any (fun p => p.2.drain v != 0) then d.fail .noResource
  else (d.settleExcluded.modRt (fun r => r.setVersion v {})).settleExcluded.done

/-- ROUTE_RETIRE. -/
def execRouteRetire (h : CmdHdr) (version : Nat) (s : State) : Host.Outcome State Fault Refusal :=
  huanikStep h 0x0306 { device := true, fm := true } noTarget (fun d => d.onVersion version d.routeRetire) s

/-! ## Ports (R189, R193, R196) -/

/-- Run a command on a port of the device. -/
def portCommand (h : CmdHdr) (port : Nat) (op : Dev → CmdResult) (s : State) : Host.Outcome State Fault Refusal :=
  huanikStep h 0x0701 { device := true, fm := true } noTarget (fun d => if 32 ≤ port then d.fail .bounds else op d) s

/-- PORT_CONTROL, enable: a DISABLED, ABSENT or BLOCKED port enters DETECT; any other is unchanged. -/
def execPortControlEnable (h : CmdHdr) (port : Nat) (s : State) : Host.Outcome State Fault Refusal :=
  portCommand h port (fun d => (d.portEnable port).done) s

/-- PORT_CONTROL, disable. -/
def execPortControlDisable (h : CmdHdr) (port : Nat) (s : State) : Host.Outcome State Fault Refusal :=
  portCommand h port (fun d => (d.portDisable port).done) s

/-- PORT_CONTROL, retrain: an ACTIVE port enters RETRAIN; any other is unchanged. -/
def execPortControlRetrain (h : CmdHdr) (port : Nat) (s : State) : Host.Outcome State Fault Refusal :=
  portCommand h port (fun d => (if (d.port port).state = .active then d.enterRetrain port else d).done) s

/-- PORT_CONTROL, SWn.CREDIT_ADV: the advertisement of the next training. -/
def execPortControlCreditAdv (h : CmdHdr) (port : Nat) (adv : List (Nat × Nat)) (s : State) : Host.Outcome State Fault Refusal :=
  portCommand h port (fun d => if creditsOk adv then (d.modPort port (fun x => { x with creditAdv := adv })).done else d.fail .format) s

/-! ## Leases (R241, R242) -/

/-- LEASE_CREATE: a lease of a context over extents of a region of the context's partition. -/
def Dev.leaseCreate (d : Dev) (ctx region first count duration : Nat) : CmdResult :=
  if count = 0 ∨ 16384 < count ∨ duration = 0 ∨ 3600 < duration then d.fail .format
  else match tget d.regions region with
    | none => d.fail .bounds
    | some r =>
      if (d.context ctx).valid = false ∨ (d.context ctx).partition ≠ r.partition ∨ r.extents.length < first + count then d.fail .bounds
      else if r.destroying then d.fail .noResource
      else match d.freeLease with
        | none => d.fail .noResource
        | some n =>
          let l : Lease := { state := .held, head := none, context := ctx, duration := duration
                             expiry := d.now + duration * 1000000000, region := region, first := first, count := count }
          let made : Dev := { d with leases := tset d.leases n l }
          made.done [BitVec.ofNat 64 n]

/-- LEASE_CREATE. -/
def execLeaseCreate (h : CmdHdr) (ctx region first count duration : Nat) (s : State) : Host.Outcome State Fault Refusal :=
  huanikStep h 0x0501 { device := true, fm := true } (regionOwner region) (fun d => d.leaseCreate ctx region first count duration) s

/-- The partition whose region a lease covers. -/
def leaseOwner (lease : Nat) (d : Dev) : Option Nat := (tget d.leases lease).bind (fun l => regionOwner l.region d)

/-- Run a command on a lease: BOUNDS where it is FREE, LEASE_EXPIRED where it is FENCED or CLEARING. -/
def Dev.onLease (d : Dev) (lease : Nat) (f : Lease → CmdResult) : CmdResult :=
  match tget d.leases lease with
  | none => d.fail .bounds
  | some l =>
    match l.state with
    | .free => d.fail .bounds
    | .held => f l
    | .fenced | .clearing => d.fail .leaseExpired

/-- LEASE_RENEW: only before the expiry. -/
def execLeaseRenew (h : CmdHdr) (lease : Nat) (s : State) : Host.Outcome State Fault Refusal :=
  huanikStep h 0x0502 { device := true, fm := true, part := true } (leaseOwner lease) (fun d =>
    d.onLease lease (fun l =>
      if d.now < l.expiry then (d.renewLease lease).done [BitVec.ofNat 64 (d.now + l.duration * 1000000000)] else d.fail .leaseExpired)) s

/-- LEASE_QUERY. -/
def execLeaseQuery (h : CmdHdr) (lease : Nat) (s : State) : Host.Outcome State Fault Refusal :=
  huanikStep h 0x0503 { device := true, fm := true, part := true } (leaseOwner lease) (fun d =>
    d.onLease lease (fun l => d.done [BitVec.ofNat 64 l.expiry])) s

end Sys2Proof.Machine
end

