-- ==== Sys2Proof/Machine/CxlMailbox.lean ====
section
/-! DEFINITION. The CXL primary mailbox of a head (R306), the SPDM responder (R272 to R274) and IDE keys (R271). -/

namespace Sys2Proof.Machine

open Sys2Proof

/-! ## CXL mailbox commands

Result codes and payload layouts stand in log entry 36. -/

/-- A mailbox command of a head that the device has. -/
def Dev.cxlCmd (d : Dev) (h : Nat) (f : Dev → Dev) : Dev :=
  d.guard (d.headExists h && d.sys.resetN && !d.sys.islandsOff) f

/-- The words of MBX.IDENT (Table 12.1). -/
def identWord : U64 := BitVec.ofNat 64 (packBits [(0, 32, 0x7480), (32, 4, Config.stepping.toNat), (40, 8, 1)])

/-- CXL_IDENTIFY: part, stepping and device identifier. -/
def execCxlIdentify (head : Nat) (s : State) : Host.Outcome State Fault Refusal :=
  devStep (fun d => d.cxlCmd head (fun e => e.mbox head mboxOk [identWord, Config.deviceId])) s

/-- GET_EVENT_RECORDS: the head's records of one log, oldest first. -/
def execGetEventRecords (head log : Nat) (s : State) : Host.Outcome State Fault Refusal :=
  devStep (fun d => d.cxlCmd head (fun e =>
    let rs := (e.head head).events.filter (fun x => x.log == log)
    if 5 ≤ log then e.mbox head mboxInvalid []
    else e.mbox head mboxOk (BitVec.ofNat 64 rs.length :: rs.flatMap (fun x => BitVec.ofNat 64 x.handle :: x.payload)))) s

/-- CLEAR_EVENT_RECORDS: the named records of one log, or all of them. -/
def execClearEventRecords (head log : Nat) (handles : List Nat) (all : Bool) (s : State) : Host.Outcome State Fault Refusal :=
  devStep (fun d => d.cxlCmd head (fun e =>
    let has := fun (n : Nat) => (e.head head).events.any (fun x => x.log == log && x.handle == n)
    if 5 ≤ log || (!all && !handles.all has) then e.mbox head mboxInvalid []
    else (e.modHead head (fun y => { y with
      events := y.events.filter (fun x => x.log != log || (!all && !handles.contains x.handle)) })).mbox head mboxOk [])) s

/-- GET_EVENT_INTERRUPT_POLICY. -/
def execGetEventInterruptPolicy (head : Nat) (s : State) : Host.Outcome State Fault Refusal :=
  devStep (fun d => d.cxlCmd head (fun e => e.mbox head mboxOk [(e.head head).intPolicy.setWidth 64])) s

/-- SET_EVENT_INTERRUPT_POLICY. -/
def execSetEventInterruptPolicy (head : Nat) (policy : U32) (s : State) : Host.Outcome State Fault Refusal :=
  devStep (fun d => d.cxlCmd head (fun e => (e.modHead head (fun y => { y with intPolicy := policy })).mbox head mboxOk [])) s

/-- GET_FW_INFO: two slots, the active slot, the slot of a pending activation. -/
def execGetFwInfo (head : Nat) (s : State) : Host.Outcome State Fault Refusal :=
  devStep (fun d => d.cxlCmd head (fun e => e.mbox head mboxOk [2, BitVec.ofNat 64 (1 + e.sys.bootSlotB.toNat), e.sys.slotStates])) s

/-- The CXL result of a Huanik status. -/
def mboxOf (st : Status) : Nat := if st = .ok then mboxOk else mboxInvalid

/-- Whether a head carries the firmware commands (Table 12.8). -/
def fwHead (h : Nat) : Bool := h == 0 || h == 2

/-- Finish a mailbox command with the result of a Huanik operation. -/
def Dev.mboxResult (r : CmdResult) (h : Nat) : Dev := r.2.2.mbox h (mboxOf r.1) r.2.1

/-- Transfer FW: a chunk as FW_DOWNLOAD takes it; the last one is followed by FW_VERIFY. The first chunk starts at 0. -/
def Dev.transferFw (d : Dev) (h offset : Nat) (data : List Byte) (first last verdict : Bool) : Dev :=
  if !fwHead h then d.mbox h mboxUnsupported []
  else if d.sys.stage ≠ .running ∨ (first ≠ decide (offset = 0)) then d.mbox h mboxInvalid []
  else
    let r := d.fwDownload offset data
    if r.1 ≠ .ok ∨ !last then Dev.mboxResult r h
    else Dev.mboxResult (r.2.2.fwVerify verdict (Config.digest 3 d.sys.journal.length)) h

/-- TRANSFER_FW. -/
def execTransferFw (head offset : Nat) (data : List Byte) (first last verdict : Bool) (s : State) :
    Host.Outcome State Fault Refusal :=
  devStep (fun d => d.cxlCmd head (fun e => e.transferFw head offset data first last verdict)) s

/-- ACTIVATE_FW: offline activation of the downloaded slot is FW_ACTIVATE; online activation is refused. -/
def execActivateFw (head slot : Nat) (online : Bool) (s : State) : Host.Outcome State Fault Refusal :=
  devStep (fun d => d.cxlCmd head (fun e =>
    if !fwHead head then e.mbox head mboxUnsupported []
    else if online || e.sys.stage != .running ||
        !(e.sys.standing.any (fun r => slot == 1 + r.slotB.toNat)) then e.mbox head mboxInvalid []
    else Dev.mboxResult e.fwActivate head)) s

/-- GET_TIMESTAMP: the device timestamp with the recorded offset. -/
def execGetTimestamp (head : Nat) (s : State) : Host.Outcome State Fault Refusal :=
  devStep (fun d => d.cxlCmd head (fun e => e.mbox head mboxOk [BitVec.ofNat 64 e.now + (e.head head).tsOffset])) s

/-- SET_TIMESTAMP: an offset is recorded; the device timestamp does not change. -/
def execSetTimestamp (head : Nat) (t : U64) (s : State) : Host.Outcome State Fault Refusal :=
  devStep (fun d => d.cxlCmd head (fun e =>
    (e.modHead head (fun y => { y with tsOffset := t - BitVec.ofNat 64 e.now })).mbox head mboxOk [])) s

/-- The opcodes of Table 12.8 that a head carries. -/
def cxlOpcodes (h : Nat) : List Nat :=
  [0x0001, 0x0100, 0x0101, 0x0102, 0x0103, 0x0200] ++ (if fwHead h then [0x0201, 0x0202] else []) ++
  [0x0300, 0x0301, 0x0400, 0x0401, 0x4000, 0x4200, 0x4201, 0x4202, 0x4300, 0x4800, 0x4801, 0x4802, 0x4803]

/-- A correction-log entry of unit `m` as four words (Table 7.3). -/
def logWords (m : Nat) (e : LogEntry) : List U64 :=
  [BitVec.ofNat 64 (packBits [(0, 7, if m < 48 then m else m - 48), (7, 1, if m < 48 then 0 else 1), (8, 2, e.rank), (10, 5, e.bank),
    (15, 7, e.column), (22, 20, e.row), (42, 6, e.position), (48, 2, e.source), (50, 1, e.persistent.toNat)]),
   BitVec.ofNat 64 e.hits.toNat, BitVec.ofNat 64 e.firstSeen, BitVec.ofNat 64 e.lastSeen]

/-- The words of a supported log: 0 the command effects log, 1 the correction log of every unit. -/
def Dev.cxlLog (d : Dev) (h log : Nat) : Option (List U64) :=
  match log with
  | 0 => some ((cxlOpcodes h).map (fun x => BitVec.ofNat 64 x))
  | 1 => some (d.units.flatMap (fun u => u.2.log.flatMap (logWords u.1)))
  | _ => none

/-- GET_SUPPORTED_LOGS: each log with its size in bytes. -/
def execGetSupportedLogs (head : Nat) (s : State) : Host.Outcome State Fault Refusal :=
  devStep (fun d => d.cxlCmd head (fun e =>
    e.mbox head mboxOk ([0, 1].flatMap (fun l => [BitVec.ofNat 64 l, BitVec.ofNat 64 (8 * ((e.cxlLog head l).getD []).length)])))) s

/-- GET_LOG: part of a supported log. -/
def execGetLog (head log offset length : Nat) (s : State) : Host.Outcome State Fault Refusal :=
  devStep (fun d => d.cxlCmd head (fun e =>
    match e.cxlLog head log with
    | some ws =>
      if offset % 8 = 0 ∧ length % 8 = 0 ∧ offset + length ≤ 8 * ws.length then
        e.mbox head mboxOk ((ws.drop (offset / 8)).take (length / 8))
      else e.mbox head mboxInvalid []
    | none => e.mbox head mboxInvalid [])) s

/-- IDENTIFY_MEMORY_DEVICE: the capacity in units of 256 MiB, all of it volatile. -/
def execIdentifyMemoryDevice (head : Nat) (s : State) : Host.Outcome State Fault Refusal :=
  devStep (fun d => d.cxlCmd head (fun e =>
    let n := (e.units.filter (fun u => u.2.trained && !u.2.dead)).foldl (fun a u => a + u.2.slots) 0
    e.mbox head mboxOk [BitVec.ofNat 64 n, BitVec.ofNat 64 n, 0])) s

/-- GET_HEALTH_INFO: a health word that no rule gives, the junction temperature and the corrections of the device. -/
def execGetHealthInfo (head : Nat) (s : State) : Host.Outcome State Fault Refusal :=
  devStep (fun d => d.cxlCmd head (fun e =>
    let (w, e1) := e.drawWord
    e1.mbox head mboxOk [w, BitVec.ofNat 64 e.pow.tj, e.count .diCeTotal])) s

/-- GET_ALERT_CONFIGURATION. -/
def execGetAlertConfiguration (head : Nat) (s : State) : Host.Outcome State Fault Refusal :=
  devStep (fun d => d.cxlCmd head (fun e =>
    let a := (e.head head).alertCfg
    e.mbox head mboxOk [a.setWidth 64, (a >>> 64).setWidth 64])) s

/-- SET_ALERT_CONFIGURATION. -/
def execSetAlertConfiguration (head : Nat) (cfg : U128) (s : State) : Host.Outcome State Fault Refusal :=
  devStep (fun d => d.cxlCmd head (fun e => (e.modHead head (fun y => { y with alertCfg := cfg })).mbox head mboxOk [])) s

/-- Whether the line at a region offset holds poison. -/
def Dev.poisonedAt (d : Dev) (r off : Nat) : Bool :=
  match tget d.regions r with
  | some reg => match d.place reg off with
    | some (m, line) => (d.pool.fault m line).poison
    | none => false
  | none => false

/-- The DPAs of a head's extents whose lines hold poison, ascending within each extent. -/
def Dev.poisonList (d : Dev) (h : Nat) : List Nat :=
  if d.pool.faults.any (fun f => f.2.poison) || !d.pool.lost.isEmpty then
    ((d.head h).extents.flatMap (fun x =>
      ((List.range (x.length / 64)).filter (fun k => d.poisonedAt x.region (x.offset + 64 * k))).map (fun k => x.dpa + 64 * k))).take 256
  else []

/-- GET_POISON_LIST: up to 256 poisoned lines of the head. -/
def execGetPoisonList (head : Nat) (s : State) : Host.Outcome State Fault Refusal :=
  devStep (fun d => d.cxlCmd head (fun e =>
    let ps := e.poisonList head
    e.mbox head mboxOk (BitVec.ofNat 64 ps.length :: ps.map (fun a => BitVec.ofNat 64 a)))) s

/-- GET_DC_CONFIGURATION: 8 DC regions of 4 TiB, block size 256 MiB, and whether each is bound (Table 10.1). -/
def execGetDcConfiguration (head : Nat) (s : State) : Host.Outcome State Fault Refusal :=
  devStep (fun d => d.cxlCmd head (fun e =>
    e.mbox head mboxOk (8 :: (List.range 8).flatMap (fun i =>
      [BitVec.ofNat 64 (i * 4398046511104), 4398046511104, 268435456,
       if (tget (e.head head).dcr i).isSome then 1 else 0])))) s

/-- GET_DC_EXTENT_LIST: each accepted extent with its DPA, length and tag (Table 10.3). -/
def execGetDcExtentList (head : Nat) (s : State) : Host.Outcome State Fault Refusal :=
  devStep (fun d => d.cxlCmd head (fun e =>
    let xs := (e.head head).extents.filter (fun x => !x.released)
    let tag := fun (x : DcExtent) =>
      packBits [(0, 16, x.region), (16, 1, x.r.toNat), (17, 1, x.w.toNat), (32, 64, x.offset), (96, 32, x.duration)]
    e.mbox head mboxOk (BitVec.ofNat 64 xs.length :: xs.flatMap (fun x =>
      [BitVec.ofNat 64 x.dpa, BitVec.ofNat 64 x.length, BitVec.ofNat 64 (tag x), BitVec.ofNat 64 (tag x / 18446744073709551616)])))) s

/-- CXL_MAILBOX_UNSUPPORTED: an opcode that Table 12.8 does not carry. -/
def execCxlMailboxUnsupported (head opcode : Nat) (s : State) : Host.Outcome State Fault Refusal :=
  devStep (fun d => d.cxlCmd head (fun e =>
    e.guard (!(cxlOpcodes head).contains opcode) (fun x => x.mbox head mboxUnsupported []))) s

/-! ## SPDM and IDE -/

/-- Whether a path reaches SEC: DOE on every head, MCTP over VDM on heads 0 and 2, and the sideband. -/
def Dev.spdmPath (d : Dev) (p : SpdmPath) : Bool :=
  match p with
  | .doe h => d.headExists h
  | .mctpVdm h => fwHead h && d.headExists h
  | .sideband => true

/-- The measurement blocks reported; block 4 exists once an image has been loaded (Table 11.4). -/
def measured (i : Nat) : Bool := (decide (1 ≤ i) && decide (i ≤ 5)) || (decide (16 ≤ i) && decide (i < 48))

/-- A partition record in the layout of Table 11.1. -/
def partRecord (p : Partition) : Line :=
  BitVec.ofNat 512 (packBits
    [ (0, 5, p.number), (8, 2, match p.state with
        | .free => 0
        | .active => 1
        | .resetting => 2),
      (10, 1, p.diag.toNat), (11, 1, p.clearing.toNat), (16, 8, p.gen.toNat), (32, 32, p.tenantCount.toNat),
      (64, 48, p.subchannels.toNat), (128, 64, p.pseudoChannels.toNat), (192, 64, p.engines.toNat), (256, 32, p.movers.toNat),
      (288, 18, p.queueBase), (306, 19, p.queueCount), (328, 20, p.tallyBase), (348, 21, p.tallyCount), (372, 6, p.dirWays),
      (384, 8, p.spareSlots) ])

/-- The content of a measurement block: a raw record, or SEC's digest of what it measures (log entry 6). -/
def Dev.measurement (d : Dev) (i : Nat) : List Nat :=
  if i = 2 then [lifeCode d.sys.lifeCycle, d.sys.svnFloor.toNat, d.sys.ownerHash.toNat]
  else if i = 4 then [if d.sys.runtimeLoaded then d.sys.runtimeDigest.toNat else 0]
  else if 16 ≤ i then [(partRecord (d.partn (i - 16))).toNat]
  else [(Config.digest i (tgetD d.sys.measCounts i 0)).toNat]

/-- Answer an SPDM request: the code of the response, then its content. GET_DIGESTS, FINISH and END_SESSION come with the
capabilities CERT and KEY_EX. Signatures, nonces and certificate bytes are SEC's (log entry 6). -/
def Dev.spdm (d : Dev) (path : SpdmPath) (req : SpdmReq) : Dev :=
  let ok := fun (e : Dev) (xs : List Nat) => e.emit (.spdm path xs)
  let signed := fun (e : Dev) (xs : List Nat) =>
    let (w, e1) := e.drawWord
    ok e1 (xs ++ [w.toNat])
  match req with
  | .getVersion => ok d [0x04, 0x12, 0x13]
  | r =>
    if d.sys.lifeCycle = .retired then d.emit (.spdmError path)
    else match r with
      | .getVersion => ok d [0x04, 0x12, 0x13]
      | .getCapabilities => ok d [0x61]
      | .negotiateAlgorithms => ok d [0x63]
      | .getCertificate slot => if slot = 0 ∧ d.sys.lifeCycle ≠ .manufactured then signed d [0x02, 0] else d.emit (.spdmError path)
      | .challenge => if d.sys.lifeCycle ≠ .manufactured then signed d [0x03] else d.emit (.spdmError path)
      | .getMeasurement i =>
        if measured i then signed d ([0x60, i, tgetD d.sys.measCounts i 0 % 4294967296] ++ d.measurement i) else d.emit (.spdmError path)
      | .keyExchange => if d.sys.lifeCycle ≠ .manufactured then signed d [0x64] else d.emit (.spdmError path)
      | .other code =>
        if d.sys.lifeCycle = .manufactured then d.emit (.spdmError path)
        else match code.toNat with
          | 0x81 => signed d [0x01]
          | 0xE5 => signed d [0x65]
          | 0xEC => ok d [0x6C]
          | _ => d.emit (.spdmError path)

/-- SPDM_REQUEST: answered by SEC from the first mailbox exchange of the boot ROM onwards; in Dome the sideband answers not
ready (R367). -/
def execSpdmRequest (path : SpdmPath) (req : SpdmReq) (s : State) : Host.Outcome State Fault Refusal :=
  devStep (fun d =>
    if d.sys.inDome ∧ path = .sideband then d.emit .pldmNotReady
    else d.guard (d.sys.resetN && !d.sys.islandsOff && d.spdmPath path) (fun e => e.spdm path req)) s

/-- IDE_KM_KEY_PROG: keys go into key set 0 or 1 of a stream: the link stream, a selective stream or CXL.cachemem. Only a
secured session may program them. -/
def execIdeKmKeyProg (head stream keySet : Nat) (secured : Bool) (s : State) : Host.Outcome State Fault Refusal :=
  devStep (fun d => d.cxlCmd head (fun e =>
    e.guard (secured && decide (stream < 6) && decide (keySet < 2) && e.sys.lifeCycle != .retired) (fun x =>
      x.modHead head (fun y => { y with
        ideKeys := (y.ideKeys.filter (fun k => k != (stream, keySet))) ++ [(stream, keySet)] })))) s

end Sys2Proof.Machine
end

