-- ==== Sys2Proof/Machine/QueueCommands.lean ====
section
/-! DEFINITION. Huanik's commands on queue pairs and tally counters (R113, R115, R127, R131, R141, R412, Table 12.7). -/

namespace Sys2Proof.Machine

open Sys2Proof

/-! ## Queue pairs -/

/-- The partition whose queue range holds a queue pair (R113). -/
def queueOwner (q : Nat) (d : Dev) : Option Nat :=
  (d.parts.find? (fun x => x.2.state != .free && decide (x.2.queueBase ≤ q) && decide (q < x.2.queueBase + x.2.queueCount))).map (fun x => x.1)

/-- The FORMAT cases of a queue's creation. -/
def queueFormat (x : QueueIn) : Bool :=
  decide (x.weight = 0 ∨ 255 < x.weight ∨ x.sqLog2 < 6 ∨ 16 < x.sqLog2 ∨ x.cqLog2 < 6 ∨ 16 < x.cqLog2 ∨ 15 < x.group ∨ 3 < x.prioCap ∨
    x.sqBase % 64 ≠ 0 ∨ x.cqBase % 64 ≠ 0)

/-- QUEUE_CREATE: an ACTIVE queue pair whose counts are zero; its tag goes on from where it stands. -/
def Dev.queueCreate (d : Dev) (x : QueueIn) : CmdResult :=
  if queueFormat x then d.fail .format
  else match queueOwner x.queue d with
    | none => d.fail .bounds
    | some p =>
      if (d.queue x.queue).exists_ then d.fail .noResource
      else match firstFail [d.ctxOf p x.context, d.ringCheck x.context x.sqBase (64 * 2 ^ x.sqLog2) .r,
          d.ringCheck x.context x.cqBase (32 * 2 ^ x.cqLog2) .w] with
        | some st => d.fail st
        | none =>
          (d.modQueue x.queue (fun y => {
            gen := y.gen, exists_ := true, partition := p, anyContext := x.anyContext, context := x.context, sqLog2 := x.sqLog2
            cqLog2 := x.cqLog2, group := x.group, prioCap := x.prioCap, state := .active, weight := x.weight
            sqBase := x.sqBase, cqBase := x.cqBase })).done

/-- QUEUE_CREATE. -/
def execQueueCreate (h : CmdHdr) (q : QueueIn) (s : State) : Host.Outcome State Fault Refusal :=
  huanikStep h 0x0401 { device := true, part := true } (queueOwner q.queue) (fun d => d.queueCreate q) s

/-- Run a command on a queue pair that exists, and answer its `queue_gen`. -/
def Dev.onQueue (d : Dev) (q : Nat) (f : Dev) : CmdResult :=
  if (d.queue q).exists_ then f.done [((f.queue q).gen).setWidth 64] else d.fail .bounds

/-- QUEUE_RESET: waits end, movers abort, the tag moves on, the counts are zero, and the queue is ACTIVE. -/
def execQueueReset (h : CmdHdr) (queue : Nat) (s : State) : Host.Outcome State Fault Refusal :=
  huanikStep h 0x0402 { device := true, part := true } (queueOwner queue) (fun d => d.onQueue queue (d.resetQueue queue)) s

/-- QUEUE_ABORT: the queue's mover chains are aborted (R141). -/
def execQueueAbort (h : CmdHdr) (queue : Nat) (s : State) : Host.Outcome State Fault Refusal :=
  huanikStep h 0x0403 { device := true, part := true } (queueOwner queue)
    (fun d => d.onQueue queue (d.abortMovers (fun j => j.queue == queue))) s

/-- QUEUE_DESTROY: a queue reset, after which the queue pair does not exist. -/
def execQueueDestroy (h : CmdHdr) (queue : Nat) (s : State) : Host.Outcome State Fault Refusal :=
  huanikStep h 0x0404 { device := true, part := true } (queueOwner queue)
    (fun d => d.onQueue queue ((d.resetQueue queue).modQueue queue (fun y => { gen := y.gen }))) s

/-! ## Tally counters -/

/-- The partition whose tally range holds a counter. -/
def tallyOwner (t : Nat) (d : Dev) : Option Nat := (d.parts.find? (fun x => x.2.state != .free && tallyIn x.2 t)).map (fun x => x.1)

/-- Whether two values meet the bound of a pair. -/
def pairHolds (p c k : Nat) : Bool := decide (c ≤ p) && decide (p ≤ c + k)

/-- TALLY_PAIR (R412). -/
def Dev.tallyPair (d : Dev) (p c k : Nat) : CmdResult :=
  if tallyOwner p d = none ∨ tallyOwner c d ≠ tallyOwner p d then d.fail .bounds
  else if p = c ∨ (pairOf d.pairs p).isSome ∨ (pairOf d.pairs c).isSome ∨ k = 0 ∨ 4294967296 < k ∨
      pairHolds (d.tally p).value.toNat (d.tally c).value.toNat k = false then d.fail .format
  else
    let joined : Dev := { d with pairs := d.pairs ++ [{ producer := p, consumer := c, k := k }] }
    (joined.abandonWaits [p, c]).done

/-- TALLY_PAIR. -/
def execTallyPair (h : CmdHdr) (producer consumer k : Nat) (s : State) : Host.Outcome State Fault Refusal :=
  huanikStep h 0x0405 { device := true, part := true } (tallyOwner producer) (fun d => d.tallyPair producer consumer k) s

/-- TALLY_UNPAIR: the pair is dissolved; values and flags stay (R412). -/
def Dev.tallyUnpair (d : Dev) (t : Nat) : CmdResult :=
  if tallyOwner t d = none then d.fail .bounds
  else match pairOf d.pairs t with
    | none => d.fail .format
    | some x =>
      let parted : Dev := { d with pairs := d.pairs.filter (fun y => y != x) }
      (parted.abandonWaits [x.producer, x.consumer]).done

/-- TALLY_UNPAIR. -/
def execTallyUnpair (h : CmdHdr) (tally : Nat) (s : State) : Host.Outcome State Fault Refusal :=
  huanikStep h 0x0406 { device := true, part := true } (tallyOwner tally) (fun d => d.tallyUnpair tally) s

/-- Whether a new value of a counter keeps the bound of its pair (R131). -/
def Dev.tallyFits (d : Dev) (t v : Nat) : Bool :=
  match pairOf d.pairs t with
  | none => true
  | some x => if x.producer = t then pairHolds v (d.tally x.consumer).value.toNat x.k else pairHolds (d.tally x.producer).value.toNat v x.k

/-- TALLY_SET: the value, with its flags clear (R131, R412). -/
def Dev.tallySet (d : Dev) (t : Nat) (v : U64) : CmdResult :=
  if tallyOwner t d = none then d.fail .bounds
  else if d.tallyFits t v.toNat then ((d.setTally t ({ value := v } : Tally)).abandonWaits [t]).done
  else d.fail .format

/-- TALLY_SET. -/
def execTallySet (h : CmdHdr) (tally : Nat) (value : U64) (s : State) : Host.Outcome State Fault Refusal :=
  huanikStep h 0x0407 { device := true, part := true } (tallyOwner tally) (fun d => d.tallySet tally value) s

end Sys2Proof.Machine
end

