-- ==== Sys2Proof/Machine/ParamCommands.lean ====
section
/-! DEFINITION. PARAM_SET (R312, Table 12.12), and the rows of it that have a behaviour of their own (R226 to R229, R313, R315,
R327, R366). -/

namespace Sys2Proof.Machine

open Sys2Proof

/-! ## Ranges -/

/-- The number of indices that a parameter takes (Table 12.12); 0 for a `param` that is not in the table. -/
def paramCount (code : Nat) : Nat :=
  match code with
  | 0x0001 | 0x0002 | 0x0003 | 0x0010 | 0x0011 | 0x0012 | 0x0022 | 0x0023 | 0x0030 | 0x0040 | 0x0041 | 0x0042 | 0x0043 | 0x0044
  | 0x0050 | 0x0051 | 0x0052 | 0x0053 | 0x0054 | 0x0055 | 0x0060 | 0x0061 | 0x0062 | 0x0063 | 0x0064 | 0x0065 | 0x0066 | 0x0067
  | 0x0068 => 1
  | 0x0020 | 0x0021 | 0x0025 | 0x0026 => 32
  | 0x0031 | 0x0032 => 8
  | 0x0024 | 0x0069 | 0x006A => 1024
  | 0x0027 => 4096
  | _ => 0

/-- The lowest and highest value of a parameter that is a plain number (Table 12.12). -/
def Dev.paramRange (d : Dev) (code : Nat) : Nat × Nat :=
  match code with
  | 0x0001 => (0, 0xFFFE)
  | 0x0002 => (1, 4096)
  | 0x0003 => (0, 1)
  | 0x0010 => (1, 168)
  | 0x0011 => (1, 4294967295)
  | 0x0012 => (10, 100)
  | 0x0020 => (5, 200)
  | 0x0021 => (100, 10000)
  | 0x0022 => (10, 1000)
  | 0x0023 => (10, 10000)
  | 0x0026 => (0, 999999)
  | 0x0030 => (1, 255)
  | 0x0031 => (1, 255)
  | 0x0032 => (1, 100)
  | 0x0040 => (100, 100000)
  | 0x0041 => (100, 100000)
  | 0x0042 => (20, 10000)
  | 0x0043 => (10, 1000)
  | 0x0044 => (1, 100)
  | 0x0050 => (300, 450)
  | 0x0051 => ((d.param 0x0050 0).toNat, 520)
  | 0x0052 => (0, 1)
  | 0x0053 => (85, 100)
  | 0x0054 => (0, 1)
  | 0x0055 => (1, 1)
  | 0x0060 => (0, 1)
  | 0x0061 => (5, 500)
  | 0x0062 => (10, 100)
  | 0x0063 => (0, 0xFFFF)
  | 0x0065 => (0, 0xFFFF)
  | 0x0066 => (0, 4095)
  | 0x0067 => (1, 1)
  | 0x0068 => (1, 24)
  | 0x0069 => (0, 0x1FFFF)
  | _ => (0, 18446744073709551615)

/-- The bits of a parameter's value that its register has: reserved register bits ignore what is written to them (R7). -/
def paramBits (code : Nat) (v : U64) : U64 :=
  match code with
  | 0x0024 => v &&& 0xFFFFFFFF7FFF07FF
  | 0x0025 => v &&& 3
  | 0x0027 => v &&& 0xFFFFFFFF0FFFFFFF
  | _ => v

/-- Whether a value of SWn.POLICE is outside its range: a rate or a depth of Table 9.11, or bits beyond the register's 32. -/
def policeBad (v : U64) : Bool :=
  field v 32 32 != 0 || (decide (1000 < field v 0 11) && field v 0 11 != 0x7FF) ||
  decide (field v 16 15 < 64 ∨ 16384 < field v 16 15)

/-- Whether a gate entry breaks Table 9.12, or makes a cycle of its schedule longer than 1,000,000 ns (R228). -/
def Dev.gateEntryBad (d : Dev) (idx : Nat) (v : U64) : Bool :=
  field v 32 32 != 0 || decide (1000000 < field v 0 20) ||
  decide (1000000 < cycleOf ((d.setParam 0x0027 idx v).schedule (idx / 128) (decide (64 ≤ idx % 128))))

/-- Whether a paired-region value names a region that may not be paired (R315). -/
def Dev.pairEntryBad (d : Dev) (v : U64) : Bool :=
  bit v 16 && (tget d.regions (field v 0 16)).any (fun r => r.window || r.tier == .sequence)

/-- The FORMAT cases of PARAM_SET (R312). -/
def Dev.paramBad (d : Dev) (code idx : Nat) (v : U64) : Bool :=
  decide (paramCount code ≤ idx) || decide (v.toNat < (d.paramRange code).1 ∨ (d.paramRange code).2 < v.toNat) ||
  (match code with
   | 0x0024 => policeBad v
   | 0x0027 => d.gateEntryBad idx v
   | 0x0069 => d.pairEntryBad v
   | 0x006A => v.toNat % 64 != 0
   | _ => false)

/-! ## Values -/

/-- The pair's entry of an index. -/
def Dev.pairEntry (d : Dev) (idx : Nat) : PairEntry := tgetD d.pair.entries idx {}

/-- The present value of a parameter, wherever it is held; zero for one that only triggers an action. -/
def Dev.paramOld (d : Dev) (code idx : Nat) : U64 :=
  match code with
  | 0x0003 => if d.transitOn then 1 else 0
  | 0x0055 => 0
  | 0x0060 => if d.pair.enable then 1 else 0
  | 0x0061 => BitVec.ofNat 64 d.pair.discMs
  | 0x0062 => BitVec.ofNat 64 d.pair.resyncShare
  | 0x0063 => BitVec.ofNat 64 d.pair.partnerEp
  | 0x0064 => d.pair.partnerId
  | 0x0065 => BitVec.ofNat 64 d.pair.mirrorJob
  | 0x0066 => BitVec.ofNat 64 d.pair.mirrorWindow
  | 0x0067 => 0
  | 0x0068 => BitVec.ofNat 64 d.pair.patrolHours
  | 0x0069 => BitVec.ofNat 64 (packBits [(0, 16, (d.pairEntry idx).region), (16, 1, (d.pairEntry idx).valid.toNat)])
  | 0x006A => BitVec.ofNat 64 (d.pairEntry idx).partnerAddr
  | _ => d.param code idx

/-- The NO_RESOURCE cases: a pair field that may change only while OFFLINE (R313), transit mode in a pool of more than 64 devices
(R226; log entry 42), and an entry of the gate schedule in force while `gate_en` is 1 (R229). -/
def Dev.paramHeld (d : Dev) (code idx : Nat) (v : U64) : Bool :=
  match code with
  | 0x0063 | 0x0064 | 0x0065 | 0x0066 => d.pair.role != .offline
  | 0x0003 => v == 1 && decide (64 < (d.param 0x0002 0).toNat)
  | 0x0027 =>
    let n := idx / 128
    let c := d.param 0x0025 n
    bit c 0 && (if (d.port n).gateOn then (d.port n).gateB else bit c 1) == decide (64 ≤ idx % 128)
  | _ => false

/-- A request for Dome: doorbells and commands are refused from now on (R366). -/
def Dev.domeAsk (d : Dev) : Dev :=
  if d.sys.domeReqAt.isSome then d else { d with sys := { d.sys with domeReqAt := some d.now } }

/-- What a parameter's new value does. -/
def Dev.paramApply (d : Dev) (code idx : Nat) (v : U64) : Dev :=
  match code with
  | 0x0003 => (d.setParam code idx v).measure 5
  | 0x0024 => (d.setParam code idx v).modPort (idx / 32) (fun p => { p with
      buckets := tset p.buckets (idx % 32) { level := 640 * field v 16 15, at_ := d.now } })
  | 0x0025 =>
    let d1 := d.setParam code idx v
    if bit v 0 then d1 else ((d1.settleWaits idx).modPort idx (fun p => { p with gateOn := false })).settleWaits idx
  | 0x0055 => d.domeAsk
  | 0x0060 => d.pairEnable (v == 1)
  | 0x0061 => d.modPair (fun p => { p with discMs := v.toNat })
  | 0x0062 => d.modPair (fun p => { p with resyncShare := v.toNat })
  | 0x0063 => d.modPair (fun p => { p with partnerEp := v.toNat })
  | 0x0064 => d.modPair (fun p => { p with partnerId := v })
  | 0x0065 => d.modPair (fun p => { p with mirrorJob := v.toNat })
  | 0x0066 => d.modPair (fun p => { p with mirrorWindow := v.toNat })
  | 0x0067 => if d.pair.role = .standby then d.takeControl .pairTakeover true .unsynced else d
  | 0x0068 => d.modPair (fun p => { p with patrolHours := v.toNat })
  | 0x0069 => d.modPair (fun p => { p with
      entries := tmod p.entries idx {} (fun e => { e with region := field v 0 16, valid := bit v 16 }) })
  | 0x006A => d.modPair (fun p => { p with entries := tmod p.entries idx {} (fun e => { e with partnerAddr := v.toNat }) })
  | _ => d.setParam code idx v

/-- PARAM_SET of any parameter. -/
def Dev.paramSet (d : Dev) (code idx : Nat) (value : U64) : CmdResult :=
  let v := paramBits code value
  if d.paramBad code idx v then d.fail .format
  else if d.paramHeld code idx v then d.fail .noResource
  else (d.paramApply code idx v).done [d.paramOld code idx]

/-- PARAM_SET. -/
def execParamSet (h : CmdHdr) (param index : Nat) (value : U64) (s : State) : Host.Outcome State Fault Refusal :=
  huanikStep h 0x0702 { device := true, fm := true } noTarget (fun d => d.paramSet param index value) s

/-- POLICE_SET: SWn.POLICE[p] is set, and its bucket holds its depth (R227). -/
def execPoliceSet (h : CmdHdr) (index : Nat) (value : U64) (s : State) : Host.Outcome State Fault Refusal :=
  huanikStep h 0x0702 { device := true, fm := true } noTarget (fun d => d.paramSet 0x0024 index value) s

/-- GATE_CTRL_SET: SWn.GATE_CTRL (R229). -/
def execGateCtrlSet (h : CmdHdr) (index : Nat) (value : U64) (s : State) : Host.Outcome State Fault Refusal :=
  huanikStep h 0x0702 { device := true, fm := true } noTarget (fun d => d.paramSet 0x0025 index value) s

/-- GATE_ENTRY_SET: an entry of a gate schedule (R228, R229). -/
def execGateEntrySet (h : CmdHdr) (index : Nat) (value : U64) (s : State) : Host.Outcome State Fault Refusal :=
  huanikStep h 0x0702 { device := true, fm := true } noTarget (fun d => d.paramSet 0x0027 index value) s

/-- PAIR_ENABLE_SET: `enable` of the pair record (R313). -/
def execPairEnableSet (h : CmdHdr) (value : U64) (s : State) : Host.Outcome State Fault Refusal :=
  huanikStep h 0x0702 { device := true, fm := true } noTarget (fun d => d.paramSet 0x0060 0 value) s

/-- FORCE_CLAIM: a STANDBY device takes control (R327). -/
def execForceClaim (h : CmdHdr) (value : U64) (s : State) : Host.Outcome State Fault Refusal :=
  huanikStep h 0x0702 { device := true, fm := true } noTarget (fun d => d.paramSet 0x0067 0 value) s

/-- DOME_REQ: PWR.DOME_REQ (R366). -/
def execDomeReq (h : CmdHdr) (value : U64) (s : State) : Host.Outcome State Fault Refusal :=
  huanikStep h 0x0702 { device := true, fm := true } noTarget (fun d => d.paramSet 0x0055 0 value) s

end Sys2Proof.Machine
end

