-- ==== Sys2Proof/Machine/DiagCommands.lean ====
section
/-! DEFINITION. REBUILD_START, the reading of logs and counters, and the diagnostic operations (R43, R154, R155, R167, R176, R177,
R202, R231, R338, R369, Table 12.7). -/

namespace Sys2Proof.Machine

open Sys2Proof

/-! ## REBUILD_START (R167) -/

/-- REBUILD_START: the rebuild of a readable subchannel, as an operation. -/
def Dev.rebuildCommand (d : Dev) (u : Nat) : CmdResult :=
  if 48 ≤ u ∨ (d.unitOwner u).isNone then d.fail .bounds
  else if (d.unit u).dead ∨ (d.unit u).removed ∨ (d.unit u).trained = false ∨ d.rebuilds.any (fun r => r.unit == u) then d.fail .noResource
  else
    let (n, d1) := d.startOp (.rebuild u)
    (d1.startRebuild u false (some n)).done [BitVec.ofNat 64 n]

/-- REBUILD_START. -/
def execRebuildStart (h : CmdHdr) (unit : Nat) (s : State) : Host.Outcome State Fault Refusal :=
  huanikStep h 0x0801 { device := true } noTarget (fun d => d.rebuildCommand unit) s

/-! ## Into the staging window -/

/-- Write words where a command's payload lies, as far as `buf_len` reaches; the response holds their length in bytes, after any
other outputs (log entry 38). -/
def Dev.stage (d : Dev) (h : CmdHdr) (ws : List U64) (outs : List U64 := []) : CmdResult :=
  let bs := (ws.flatMap (bytesOf 8)).take h.bufLen
  let put : Dev := { d with sram := memWriteList d.sram (staging + h.bufOff) bs }
  put.done (outs ++ [BitVec.ofNat 64 (8 * ws.length)])

/-- LOG_READ: a unit's correction log (Table 7.3). -/
def execLogRead (h : CmdHdr) (m : Nat) (s : State) : Host.Outcome State Fault Refusal :=
  huanikStep h 0x0802 { device := true, fm := true } noTarget (fun d =>
    if 112 ≤ m then d.fail .bounds else d.stage h ((d.unit m).log.flatMap (logWords m))) s

/-- LOG_CLEAR: one unit's correction log and its counters DI.UNIT_CE and DI.UNIT_NEW are cleared (R154). -/
def execLogClear (h : CmdHdr) (m : Nat) (s : State) : Host.Outcome State Fault Refusal :=
  huanikStep h 0x0803 { device := true, fm := true } noTarget (fun d =>
    if 112 ≤ m then d.fail .bounds else 
      let e := d.modUnit m (fun u => { u with log := [] })
      ({ e with ctr := [Ctr.diUnitCe m, .diUnitNew m].foldl (fun c x => if ctrGet c x = 0 then c else ctrPut c x 0) e.ctr } : Dev).done) s

/-! ## Register blocks -/

/-- The traffic classes. -/
def classes : List Nat := List.range 8

/-- The counters of a port (R202, R231), then its drain counts. -/
def portCounters (n : Nat) : List Ctr :=
  [.swFecCorr n, .swFecUncorr n, .swTagFail n, .swNakTx n, .swNakRx n, .swReplayed n, .swRepeats n, .swRetrains n, .swDowns n] ++
  classes.map (.swCreditLeak n) ++ [.swDownDropped n] ++ classes.map (.swCreditStall n) ++ classes.map (.swTxPkts n) ++
  classes.map (.swRxPkts n) ++ classes.map (.swTxUnits n) ++ classes.map (.swRxUnits n) ++
  classes.flatMap (fun t => (List.range 16).map (.swQdepthHist n t)) ++ classes.flatMap (fun t => (List.range 16).map (.swQdelayHist n t)) ++
  (List.range 32).map (.swPoliceDrop n) ++ classes.map (.swGateHold n) ++ [.swExcluded n, .swEscaped n]

/-- What Huanik reports of a region's members (R43): the region, and in bits [63:16] 256 times the ratio of its busiest member's queue
depth, as last sampled, to the mean; 0 where every queue is empty (log entry 38). -/
def Dev.depthRatio (d : Dev) (r : Nat) (reg : Region) : U64 :=
  let ds := ((reg.extents.map extM).dedup).map (fun m => (d.unit m).depth)
  BitVec.ofNat 64 (packBits [(0, 16, r), (16, 48, 256 * ds.foldl max 0 * ds.length / ds.sum)])

/-- The words of a register block. The numbers of the blocks are the model's own (log entry 38): 0 doorbells, 1 data integrity, 2
resets, 3 routing, 4 CXL, 5 power, 6 PAIR, 7 queue depths of memory units, 8 the queue-depth ratio of each region, 32 + n port n. -/
def Dev.counterBlock (d : Dev) (k : Nat) : Option (List U64) :=
  let read := fun (cs : List Ctr) => cs.map d.count
  match k with
  | 0 => some (read [.dbRejected, .dbInactive])
  | 1 => some (read ([.diCeTotal, .diUeTotal, .diUeRecon, .diPoisonReads, .diTransient] ++ (List.range 112).map .diUnitCe ++
      (List.range 112).map .diUnitNew))
  | 2 => some (read ((List.range 7).map .rstStaleReplies ++ [.rstStaleCompletions]))
  | 3 => some (read [.rtSpoof, .rtLate, .rtReorderFull, .rtMalformedDrop, .rtNoticeIgnored, .rtLostDeclared, .rtResent, .rtUnmatched,
      .rtTransitDrop, .rtHopDrop, .rtEpochDrop])
  | 4 => some (read ((List.range 8).flatMap (fun h => (List.range 16).map (.cxRefused h))))
  | 5 => some ([BitVec.ofNat 64 d.pow.drawMw, BitVec.ofNat 64 d.pow.tj, d.count .pwrEnergyUj, BitVec.ofNat 64 d.pow.enginePoint,
      BitVec.ofNat 64 d.pow.lentMw, d.count .pwrBoostCount, d.count .pwrBoostNs, d.count .pwrThrottleNs,
      BitVec.ofNat 64 (d.sys.trips.toNat + 65536 * d.sys.tripIsland.toNat)] ++
      d.pow.islandMw.map (fun x => BitVec.ofNat 64 x.2) ++ d.pow.islandTemp.map (fun x => BitVec.ofNat 64 x.2))
  | 6 => some ((List.range 8).map (fun i => BitVec.ofNat 64 (field (hbLine d.ownHb) (64 * i) 64)))
  | 7 => some (read ((List.range 112).flatMap (fun m => (List.range 16).map (.unitQdepthHist m))))
  | 8 => some (d.regions.map (fun x => d.depthRatio x.1 x.2))
  | _ =>
    if 32 ≤ k ∧ k < 64 then
      some (read (portCounters (k - 32)) ++ [BitVec.ofNat 64 ((d.port (k - 32)).drain false), BitVec.ofNat 64 ((d.port (k - 32)).drain true)])
    else none

/-- COUNTERS_READ. -/
def execCountersRead (h : CmdHdr) (block : Nat) (s : State) : Host.Outcome State Fault Refusal :=
  huanikStep h 0x0804 { device := true, fm := true } noTarget (fun d =>
    match (d.ports.foldl (fun e x => e.settleWaits x.1) d).settleExcluded.counterBlock block with
    | some ws => d.stage h ws
    | none => d.fail .bounds) s

/-! ## Diagnostic operations (R176, R177) -/

/-- Whether an extent's slot is in raw mode. -/
def Dev.rawSlot (d : Dev) (x : Extent) : Bool := d.pool.rawExtents.any (fun e => extIs e (extM x) x.slot)

/-- The checks common to the diagnostic operations: the slot exists, and a partition whose `diag` is 1 holds it. -/
def Dev.diagCheck (d : Dev) (x : Extent) (line : Nat) : Option Status :=
  if !extExists x || decide (d.unitSlots (extM x) ≤ x.slot) || decide (slotLines ≤ line) then some .bounds
  else match d.unitOwner (extM x) with
    | some p => if (d.partn p).diag && !d.metaAll.contains (extM x, x.slot) then none else some .rights
    | none => some .rights

/-- Run a diagnostic operation: NO_RESOURCE where the extent is not in the state that it needs. -/
def diagStep (h : CmdHdr) (x : Extent) (line : Nat) (ok : Dev → Bool) (op : Dev → CmdResult) (s : State) :
    Host.Outcome State Fault Refusal :=
  huanikStep h 0x0805 { device := true } noTarget (fun d =>
    match d.diagCheck x line with
    | some st => d.fail st
    | none => if ok d then op d else d.fail .noResource) s

/-- A line of an extent, as a line of its unit. -/
def extLine (x : Extent) (line : Nat) : Nat := x.slot * slotLines + line

/-- INJECT_FLIP: error bits are laid over the stored word. -/
def execInjectFlip (h : CmdHdr) (ext : Extent) (line : Nat) (mask : BitVec 640) (s : State) : Host.Outcome State Fault Refusal :=
  diagStep h ext line (fun d => !d.rawSlot ext) (fun d =>
    if ext.near ∧ mask >>> 576 ≠ 0 then d.fail .format
    else
      let f := d.pool.fault (extM ext) (extLine ext line)
      let put : Dev := { d with pool := d.pool.setFault (extM ext) (extLine ext line) { f with mask := f.mask ^^^ mask } }
      put.done) s

/-- RAW_MODE, enter: for an extent assigned to the partition and in no region, a parity group, a directory or a consumed spare
slot, and with no pool page in use. -/
def execRawModeEnter (h : CmdHdr) (ext : Extent) (s : State) : Host.Outcome State Fault Refusal :=
  let m := extM ext
  diagStep h ext 0 (fun d => !(d.rawSlot ext || d.heldExtents.any (fun e => extIs e m ext.slot) || d.spareUsed.contains (m, ext.slot) ||
      (decide (48 ≤ m) && d.poolUse (m - 48) ext.slot != 0))) (fun d =>
    let put : Dev := { d with pool := { d.pool with rawExtents := d.pool.rawExtents ++ [ext] } }
    put.done) s

/-- RAW_WRITE: data and check bytes exactly as given; the near tier has 8 check bytes. -/
def execRawWrite (h : CmdHdr) (ext : Extent) (line : Nat) (data : Line) (check : BitVec 128) (s : State) :
    Host.Outcome State Fault Refusal :=
  diagStep h ext line (fun d => d.rawSlot ext) (fun d =>
    if ext.near ∧ check >>> 64 ≠ 0 then d.fail .format
    else
      let put : Dev := { d with pool := { d.pool with raw := tset d.pool.raw (lineKey (extM ext) (extLine ext line)) (data, check) } }
      put.done) s

/-- A syndrome class as RAW_READ reports it: 0 valid, 1 one position with its number in bits [15:8], 2 uncorrectable, 3 poison
(log entry 38). -/
def classWord (c : WordClass) (at_ : Nat) : U64 :=
  match c with
  | .valid => 0
  | .wrong => 0
  | .corrected p => BitVec.ofNat 64 (1 + 256 * p)
  | .miscorrected => BitVec.ofNat 64 (1 + 256 * at_)
  | .uncorrectable => 2
  | .poison => 3

/-- The class of a word that RAW_WRITE gave (R144, R147, R176): poison within one position of the pattern; valid where the check bytes
are those of the data; an error at one position where only the check bytes of that position differ; otherwise what the decoder
reaches, which the check-bit function decides (log entry 5). -/
def givenClass (near : Bool) (w : BitVec 640) : WordClass :=
  let syn := (w >>> 512).setWidth 128 ^^^ (if near then (Config.checkBits near (w.setWidth 512)).setWidth 64 |>.setWidth 128 else Config.checkBits near (w.setWidth 512))
  if (errPositions near (w ^^^ Config.poisonPattern near)).length ≤ 1 then .poison
  else match errPositions near (syn.setWidth 640 <<< 512) with
    | [] => .valid
    | [p] => .corrected p
    | _ =>
      match Config.syndromeClass near syn with
      | 0 => .valid
      | p + 1 => if p < (if near then 36 else 10) then .corrected p else .uncorrectable

/-- The stored word of a line and its syndrome class. Where a word is miscorrected, the position that the decoder names is free
(R144). -/
def Dev.rawWord (d : Dev) (m line : Nat) : (BitVec 640 × U64) × Dev :=
  let near := decide (48 ≤ m)
  let w := d.rawStored m line
  match tget d.pool.raw (lineKey m line) with
  | some _ => ((w, classWord (givenClass near w) 0), d)
  | none =>
    match classify near (d.pool.fault m line) 0 with
    | .miscorrected => let (p, e) := d.drawWord; ((w, classWord .miscorrected (p.toNat % (if near then 36 else 10))), e)
    | c => ((w, classWord c 0), d)

/-- RAW_READ: the syndrome class, and the stored word into the staging window. -/
def execRawRead (h : CmdHdr) (ext : Extent) (line : Nat) (s : State) : Host.Outcome State Fault Refusal :=
  diagStep h ext line (fun d => d.rawSlot ext) (fun d =>
    let ((w, c), e) := d.rawWord (extM ext) (extLine ext line)
    e.stage h ((List.range (if ext.near then 9 else 10)).map (fun i => BitVec.ofNat 64 (field w (64 * i) 64))) [c]) s

/-- RAW_MODE, exit: Shutter clears the extent before it can be mapped. Until then its lines hold what was stored last (R177). -/
def execRawModeExit (h : CmdHdr) (ext : Extent) (s : State) : Host.Outcome State Fault Refusal :=
  let m := extM ext
  diagStep h ext 0 (fun d => d.rawSlot ext) (fun d =>
    let d1 := d.modUnit m (fun u => { u with cleared := u.cleared.filter (fun e => e != ext.slot) })
    let put : Dev := { d1 with pool := { d1.pool with rawExtents := d1.pool.rawExtents.filter (fun e => !extIs e m ext.slot) } }
    put.done) s

end Sys2Proof.Machine
end

