-- ==== Sys2Proof/Machine/Islands.lean ====
section
/-! DEFINITION. What a reset of the islands ends and what it keeps (R326, R346, R374, Table 14.6), and the tags that a device
reset moves (R336). -/

namespace Sys2Proof.Machine

open Sys2Proof

/-! ## What each kind of unit keeps -/

/-- A memory unit keeps its training, its slots, its log and Transit's progress. -/
def MemUnit.restarted (u : MemUnit) : MemUnit :=
  { u with
    retrain := none, held := [], errTimes := [], postponed := [], raa := [], throttles := [], streams := []
    acts := [], throttleEpisode := [], lockWaiters := [], calibratedAt := [], key := {}, keySlot := none, depth := 0 }

/-- A Swearis link goes DOWN (Table 14.6); a port that is DISABLED stays so. -/
def Port.restarted (p : Port) (now : Nat) : Port :=
  { state := if p.state = .disabled then .disabled else .down, since := now, partnerId := p.partnerId }

/-- The pair record after a start: a device that may serve begins as STANDBY, and one that was ACTIVE needs a full resync
(R326). The pair's machinery starts afresh. -/
def Pair.restarted (p : Pair) : Pair :=
  let was := p.enable && p.role == .active
  { enable := p.enable
    role := if p.enable then .standby else .offline
    sync := if was then .unsynced else p.sync
    fullResync := p.fullResync || was
    split := p.split
    discMs := p.discMs, resyncShare := p.resyncShare, partnerEp := p.partnerEp, mirrorJob := p.mirrorJob
    mirrorWindow := p.mirrorWindow, patrolHours := p.patrolHours, partnerId := p.partnerId
    claim := p.claim, seenClaim := p.seenClaim, seenId := p.seenId, entries := p.entries
    pendingPages := p.pendingPages }

/-- A dispatch group keeps its members. -/
def Group.restarted (g : Group) : Group := { engines := g.engines, movers := g.movers }

/-- Huanik is lost; what device metadata records of its work stays: long operations but a mode change not yet recorded, and the
mode in force (R352; log entry 44). -/
def Huanik.restarted (h : Huanik) : Huanik :=
  { opNo := h.opNo
    ops := h.ops.filter (fun o => match o.2 with
      | .modeChange => false
      | _ => true)
    formats := h.formats, arbFixed := h.arbFixed, paceUs := h.paceUs, nextMetaLine := h.nextMetaLine }

/-! ## The reset of every island but AON -/

/-- Every descriptor in flight ends, with the effects of Table 14.3 and no completion; holds are released, one descriptor after the other, so
that the last to hold a version lets it go (R74). -/
def Dev.endJobs (d : Dev) : Dev :=
  let mine := d.jobs.filter (fun j => j.result.isNone && (match j.unit with
    | .engines _ => true
    | _ => false))
  let d1 := mine.foldl (fun e j => e.endDescriptor j .genStale) d
  { d1.atOnce (fun f => f.jobs.foldl (fun e j => (e.releaseHolds j).dropJob j.id) f) with jobs := [] }

/-- Writes that wait behind a retrain are drained (R346, step 2). -/
def Dev.drainHeld (d : Dev) : Dev :=
  d.units.foldl (fun e u => e.release u.1 (u.2.held.filter (fun q => match q with
    | .read _ _ _ => false
    | _ => true))) { d with units := d.units.map (fun u => (u.1, { u.2 with retrain := none })) }

/-- Every head is reset, and its window lines are lost (R255). The events wait for the ring of the next start. -/
def Dev.resetHeads (d : Dev) : Dev :=
  (List.range 8).foldl (fun e h =>
    let (k, e1) := e.dropWindow h (fun _ _ => true)
    let ev : Event := { code := .windowLinesLost, unit := some (.cxlHead, h), detail1 := some (BitVec.ofNat 64 k) }
    let e2 : Dev := if k = 0 then e1 else { e1 with sys := { e1.sys with startEvents := e1.sys.startEvents ++ [ev] } }
    if (tget e2.heads h).isSome then
      e2.modHead h (fun x => { x with linkUp := false, cfgReady := false, d3hot := false, decoders := [], ideKeys := [] })
    else e2) d

/-- Ports that carry traffic go DOWN; requests to remote units complete with LINK_DOWN (R198, R346, step 1). -/
def Dev.downPorts (d : Dev) : Dev :=
  (d.ports.filter (fun x => x.2.state == .active || x.2.state == .retrain)).foldl (fun e x => e.goDown x.1 false) d

/-- The islands are reset: what Table 14.6 keeps is kept, and everything else starts afresh. Tags do not move here. -/
def Dev.resetIslands (d : Dev) (drained : Bool) : Dev :=
  let down : Dev := { d.downPorts with portGen := d.portGen }
  let d0 := if drained then down.drainHeld else down
  let d1 := d0.endJobs.resetHeads
  { d1 with
    evt := {}, sram := [], intEnable := 0, heartbeat := 0
    pool := { d1.pool with rawExtents := [] }
    keys := []
    units := d1.units.map (fun x => (x.1,
      { x.2.restarted with cleared := x.2.cleared.filter (fun e => !d1.pool.rawExtents.any (fun y => extIs y x.1 e)) }))
    partRings := [], partMbx := []
    groups := d1.groups.map (fun x => (x.1, x.2.restarted))
    queues := d1.queues.map (fun x => (x.1, x.2.fresh))
    tallies := []
    cxlTrans := [], dirCached := [], winTxns := [], winWaits := [], copies := [], cur := none, stream := .other, coreWrites := []
    ports := d1.ports.map (fun x => (x.1, x.2.restarted d1.now))
    rt := {}
    tagTimes := [], engReset := []
    deferred := d1.deferred.filter (fun r => match r.dom with
      | .partition _ => true
      | _ => false)
    pair := d1.pair.restarted, hk := d1.hk.restarted
    again := false, wantFront := [], winDone := [] }

/-- MBX counts and ownership after a reset (R287). -/
def State.resetMbx (s : State) : State := { s with mbx := {} }

/-! ## Tags -/

/-- A table of tags, every one of `n` instances moved on. -/
def bumpAll (t : Tab U8) (n : Nat) : Tab U8 := (List.range n).map (fun i => (i, tgetD t i 0 + 1))

/-- A reset of the device moves its tag and that of every instance of every domain (R336). -/
def Dev.bumpTags (d : Dev) : Dev :=
  { d with
    sys := { d.sys with deviceGen := d.sys.deviceGen + 1 }
    parts := (List.range 32).map (fun (p : Nat) => let x := d.partn p; (p, { x with gen := x.gen + 1 }))
    engGen := bumpAll d.engGen 64, movGen := bumpAll d.movGen 32, unitGen := bumpAll d.unitGen 112
    portGen := bumpAll d.portGen 32, headGen := bumpAll d.headGen 8
    queues := d.queues.map (fun x => (x.1, { x.2 with gen := x.2.gen + 1 }))
    queueGen0 := d.queueGen0 + 1 }

/-- A cold start sets every tag to zero (R336). -/
def Dev.zeroTags (d : Dev) : Dev :=
  { d with
    sys := { d.sys with deviceGen := 0 }
    parts := d.parts.map (fun x => (x.1, { x.2 with gen := 0 }))
    engGen := [], movGen := [], unitGen := [], portGen := [], headGen := []
    queues := d.queues.map (fun x => (x.1, { x.2 with gen := 0 })), queueGen0 := 0, tagTimes := [] }

/-- The configuration and partition records are measured afresh (Table 16.3, step 5). -/
def Dev.measureConfig (d : Dev) : Dev := (List.range 32).foldl (fun e p => e.measure (16 + p)) (d.measure 5)

/-- The events of a start are written, in the order raised, once the ring exists (R391). -/
def Dev.flushStart (d : Dev) : Dev :=
  let evs := d.sys.startEvents
  evs.foldl (fun e x => e.raise x) { d with sys := { d.sys with startEvents := [] } }

/-- Keep an event for the ring of this start (R391). -/
def Dev.startRaise (d : Dev) (e : Event) : Dev := { d with sys := { d.sys with startEvents := d.sys.startEvents ++ [e] } }

end Sys2Proof.Machine
end

