-- ==== Sys2Proof/Machine/Startup.lean ====
section
/-! DEFINITION. Warm resets, the reset and power pins, and the boot sequence with training and the finding of device metadata
(R346 to R348, R371 to R391, R402). -/

namespace Sys2Proof.Machine

open Sys2Proof

/-! ## ALERT_N (R400) -/

/-- Whether ALERT_N is driven low: a cause of R400 holds. -/
def Sys.alertLow (x : Sys) : Bool := x.resetN && (x.causeHalted || x.causeStart || x.causeFatal || x.causeTrip)

/-! ## Step 1 of the boot sequence (R277, R278, R377) -/

/-- Steps 1 to 3: the SEC self-test; a pending transition is rolled forward from its journalled token, or holds the start; a
RETIRED device stops; then the slot is chosen. -/
def Dev.boot (d : Dev) (b : BootFindings) (cold : Bool) : Dev :=
  let d0 : Dev := { d with sys := { d.sys with stage := .rom, found := b } }
  if !b.secOk then d0.startFailed 1
  else match d0.sys.pendingTrans with
    | some t =>
      if t = 2 then d0.burn t d0.sys.fuseOwner d0.sys.fuseFloor
      else if b.tokenOk ∧ d0.sys.fuseToken = some t then
        (d0.burn t d0.sys.fuseOwner d0.sys.fuseFloor).bootRest b cold
      else d0.setSys (fun x => { x with stage := .transitionPending })
    | none => if d0.sys.lifeCycle = .retired then d0.retire else d0.bootRest b cold

/-! ## Warm reset (R346 to R348, R402) -/

/-- A warm reset up to step 5: the islands are reset, the tags move on, and the boot image runs. -/
def Dev.warmStart (d : Dev) (drained : Bool) (b : BootFindings) : Dev :=
  let d1 := ({ d with sys := d.sys.closeBypass }.resetIslands drained).bumpTags.reloadKeys
  let d2 : Dev := { d1 with sys := { d1.sys with
    warm := true, warmPhase := true, selfRefresh := true, undrained := d1.sys.undrained || !drained
    outageFrom := some (d1.sys.outageFrom.getD d.now), startedAt := d.now
    runtimeSvn := 0, loadStatus := 0, loadGot := 0, loadTotal := 0, causeHalted := false, domeReqAt := none } }
  d2.boot b false

/-- Whether WARM_N starts a warm reset: RESET_N is high, and the present start, if any, has reached AWAIT_RUNTIME. -/
def Sys.warmAllowed (x : Sys) : Bool := x.live

/-- WARM_RESET: WARM_N is asserted, or Huanik has halted and the driver asks through the sideband. -/
def execWarmReset (sideband drained : Bool) (b : BootFindings) (s : State) : Host.Outcome State Fault Refusal :=
  let s0 := s.onDev id
  .next (
    if s0.dev.sys.warmAllowed && (!sideband || s0.dev.sys.causeHalted) then
      { s0 with dev := s0.dev.warmStart drained b }.resetMbx
    else s0)

/-- Step 6: PERST_N of a port asserted meanwhile resets its heads; the units were retrained; `stage` becomes AWAIT_RUNTIME. -/
def Dev.warmDone (d : Dev) : Dev :=
  let d1 := (bitsOf d.sys.perstPending).foldl (fun e n => (e.portHeads n).foldl (fun f h => f.headReset h) e) d
  let d2 := d1.setSys (fun x => { x with
    perstPending := 0, warmPhase := false, stage := .awaitRuntime, causeFatal := false, selfRefresh := false })
  let (w, d3) := (d2.measureConfig.flushStart).drawWord
  d3.raise { code := .warmResetDone, detail0 := some (d3.sys.deviceGen.setWidth 64), detail1 := some w }

/-- WARM_RESET_DONE. -/
def execWarmResetDone (s : State) : Host.Outcome State Fault Refusal :=
  devStep (fun d => d.guard (d.sys.warmPhase && d.sys.stage == .bootImage) Dev.warmDone) s

/-! ## RESET_N and the rails (R371 to R374) -/

/-- RESET_N goes low: the islands are reset, and AON sets RETAIN if the memory is in self-refresh or goes there (R374). Causes of
ALERT_N end (R400), and every output goes to high impedance. After a trip the memory is lost. -/
def Dev.coldAssert (d : Dev) : Dev :=
  let x := d.sys
  let d1 := d.resetIslands false
  { d1 with
    ports := d1.ports.map (fun p => (p.1, { p.2 with state := .disabled }))
    units := d1.units.map (fun u => (u.1, { u.2 with trained := false }))
    sys := { d1.sys with
      resetN := false, stage := .rom
      retain := !x.islandsOff && !x.railFault && x.vddAon && !d.tap.scanned
      selfRefresh := !x.islandsOff && !x.railFault && x.vddAon
      srPending := !x.islandsOff && !x.railFault && x.vddAon && !x.selfRefresh
      inDome := false, islandsOff := false, domeReqAt := none, warmPhase := false, perstPending := 0, trainStarted := 0
      causeHalted := false, causeStart := false, causeFatal := false, causeTrip := false, therm := false
      outputsHiZ := true, mringByp := .hiZ, startEvents := [] } }

/-- RESET_N_ASSERT. -/
def execResetNAssert (s : State) : Host.Outcome State Fault Refusal :=
  let s0 := s.onDev id
  .next (if s0.dev.sys.resetN then { s0 with dev := s0.dev.coldAssert }.resetMbx else s0)

/-- POWER_GOOD_DEASSERT: treated as the assertion of RESET_N (R373). -/
def execPowerGoodDeassert (s : State) : Host.Outcome State Fault Refusal :=
  let s0 := s.onDev (fun d => { d with sys := { d.sys with powerGood := false } })
  .next (if s0.dev.sys.resetN then { s0 with dev := s0.dev.coldAssert }.resetMbx else s0)

/-- SELF_REFRESH_TIMEOUT: self-refresh entry did not complete within 20 µs. -/
def execSelfRefreshTimeout (s : State) : Host.Outcome State Fault Refusal :=
  devStep (fun d => d.guard d.sys.srPending (fun e =>
    let e1 := e.reach (e.now + 20000)
    { e1 with sys := { e1.sys with retain := false, selfRefresh := false, srPending := false } })) s

/-- What is left when VDD_AON is gone: flash, fuses, the life cycle they give, and the board's pins. -/
def Sys.powerless (x : Sys) : Sys :=
  { lifeCycle := x.lifeCycle, flash := x.flash, journal := x.journal, fuses := x.fuses, fuseToken := x.fuseToken
    fuseOwner := x.fuseOwner, fuseFloor := x.fuseFloor, svnFloor := x.svnFloor, ownerHash := x.ownerHash
    perstAsserted := x.perstAsserted, bootSlotB := x.bootSlotB, downloading := x.downloading }

/-- Every rail is down: nothing but flash, fuses and the clock that the model counts by is left. -/
def Dev.powerless (d : Dev) : Dev := { now := d.now, free := d.free, out := d.out, sys := d.sys.powerless, keyCount := d.keyCount }

/-- MEMORY_RAIL_FAULT: VDDQ_DDR (0) or VDD_HBM (1) leaves its range, or VDD_AON (2) is lost: RETAIN is cleared (R374). -/
def execMemoryRailFault (rail : Nat) (s : State) : Host.Outcome State Fault Refusal :=
  let s0 := s.onDev id
  let d := s0.dev
  .next (
    if rail = 2 then
      { s0 with dev := { d.powerless with sys := { d.sys.powerless with vddAon := false } } }.resetMbx
    else { s0 with dev := { d with sys := { d.sys with retain := false, railFault := true } } })

/-- POWER_UP: VDD_AON comes up with RETAIN clear and PWR.TRIP_RECORD at zero; the device is off until RESET_N is released. -/
def execPowerUp (s : State) : Host.Outcome State Fault Refusal :=
  let s0 := s.onDev Dev.powerless
  .next s0.resetMbx

/-! ## The release of RESET_N (R376 to R380, R383, R408) -/

/-- Whether memory unit logs, counters and Transit start afresh (R154, R155, R158, R383). -/
def MemUnit.cold (u : MemUnit) (now : Nat) : MemUnit :=
  { u with
    recent := [], rateAlarm := false, log := [], transitLine := 0, transitPass := 0, passStart := now, passDone := false
    shareTenths := 0, overdue := false }

/-- A cold start begins: straps are sampled, the TAP is reset, tags, counters, logs and the timestamp start from zero, and a trip
is reported. -/
def Dev.coldStart (d : Dev) (st : Straps) (b : BootFindings) : Dev :=
  let x := d.sys
  let trip : List Event := if x.tripRaise then
      [{ code := .thermalTrip, detail0 := some (x.tripIsland.setWidth 64),
         detail1 := some (BitVec.ofNat 64 (x.trips.toNat + 65536 * x.tripIsland.toNat)) }]
    else []
  let d1 := d.zeroTags
  let d2 : Dev := { d1 with
    now := 0, ctr := [], tap := {}, engFailed := 0, hourStart := 0, peerMedian := (0, 0), pow := {}
    units := d1.units.map (fun u => (u.1, u.2.cold 0))
    sys := { d1.sys with
      resetN := true, powerGood := true, railFault := false, srPending := false, outputsHiZ := false
      straps := st, mringByp := if st.mringEn then .low else .hiZ
      warm := false, warmPhase := false, tripRaise := false, startedAt := 0, outageFrom := none, coldRetained := false
      measCounts := [], runtimeLoaded := false, runtimeDigest := 0, runtimeSvn := 0, loadStatus := 0, loadGot := 0, loadTotal := 0
      modeGen := 0, undrained := false, deadAtStart := [], heartbeatAt := 0, startEvents := trip } }
  d2.boot b true

/-- RESET_N_RELEASE. -/
def execResetNRelease (st : Straps) (b : BootFindings) (s : State) : Host.Outcome State Fault Refusal :=
  let s0 := s.onDev id
  .next (if s0.dev.sys.vddAon && !s0.dev.sys.resetN then { s0 with dev := s0.dev.coldStart st b }.resetMbx else s0)

/-- WARM_N_PULSE: a pulse below 1 µs is ignored, and one of 10 µs or more is recognised (Table 17.8); between them either may
happen. In Dome it begins a wake, which DOME_WAKE carries out. -/
def execWarmNPulse (ns : Nat) (drained : Bool) (b : BootFindings) (s : State) : Host.Outcome State Fault Refusal :=
  let s0 := s.onDev id
  let (w, e) := s0.dev.drawWord
  let d := if decide (1000 ≤ ns) && decide (ns < 10000) then e else s0.dev
  let seen := decide (10000 ≤ ns) || (decide (1000 ≤ ns) && bit w 0)
  .next (if seen && d.sys.warmAllowed then { s0 with dev := d.warmStart drained b }.resetMbx else { s0 with dev := d })

end Sys2Proof.Machine
end

