-- ==== Sys2Proof/Machine/Training.lean ====
section
/-! DEFINITION. Steps 4 to 6 of the boot sequence: training, and device metadata found, repaired and placed (R29, R30,
R382 to R388). -/

namespace Sys2Proof.Machine

open Sys2Proof

/-! ## Training (R382, R383) -/

/-- The slots and ranks with which a unit trained, where it did. -/
def trainedAs (t : TrainFindings) (m : Nat) : Option (Nat × Nat) := (t.trained.find? (fun x => x.1 == m)).map (fun x => x.2)

/-- The units after training. A dead subchannel whose rebuild has not ended stays dead (log entry 73). On a RETAINED start a subchannel that was in use and fails is dead, and a pseudo-channel in use
that fails is out of service. -/
def Dev.trainUnits (d : Dev) (t : TrainFindings) (retained : Bool) : Dev :=
  (List.range 112).foldl (fun e m =>
    let u := e.unit m
    match trainedAs t m with
    | some (slots, nr) =>
      let v : MemUnit := { u with trained := true, dead := retained && e.rebuilds.any (fun r => r.unit == m && r.dead), removed := false, slots := slots, nr := nr, raaimt := t.raaimt, raammt := t.raammt
                                  cleared := if retained then u.cleared else [] }
      let e1 : Dev := { e with units := tset e.units m v }
      if !retained || t.full.contains m then { e1 with pool := e1.pool.loseUnit m slots } else e1
    | none =>
      let used := retained && (e.unitOwner m).isSome
      let e1 := (e.modUnit m (fun v => { v with trained := used, dead := used })).startRaise
        { code := .trainFailed, detail0 := some (BitVec.ofNat 64 (if m < 48 then m else m - 48)), detail1 := some (if m < 48 then 0 else 1) }
      if 48 ≤ m then e1.startRaise { code := .ntDegraded, part := e1.unitOwner m, unit := some (memUnitRef m) }
      else if used then { e1 with sys := { e1.sys with deadAtStart := e1.sys.deadAtStart ++ [m] } }
      else e1) d

/-- Engines that fail their self-test are FAILED until the next cold start (R341). -/
def Dev.testEngines (d : Dev) (ok : U64) : Dev :=
  (bitsOf (~~~ok)).foldl (fun e n => e.startRaise
    { code := .unitFailed, unit := some (.engine, n), detail0 := some (BitVec.ofNat 64 (unitKindCode .engine)),
      detail1 := some (BitVec.ofNat 64 n) }) { d with engFailed := ~~~ok }

/-- The n of R29: the lowest for which DDRnA and DDR(n+12)A both trained. -/
def metaPair (t : TrainFindings) : Option Nat :=
  (List.range 12).find? (fun n => (trainedAs t (2 * n)).isSome && (trainedAs t (2 * (n + 12))).isSome)

/-! ## Finding the metadata (R384, R385) -/

/-- Headers that are valid (R384). -/
def validHeaders (t : TrainFindings) : List FoundHeader := t.headers.filter (fun h => h.tagOk)

/-- Valid headers on subchannels that trained and kept their contents. -/
def readableHeaders (t : TrainFindings) : List FoundHeader :=
  (validHeaders t).filter (fun h => (trainedAs t h.unit).isSome && !t.full.contains h.unit)

/-- The highest `seq` of a list of headers. -/
def topSeq (hs : List FoundHeader) : Nat := hs.foldl (fun a h => max a h.seq.toNat) 0

/-- What a start is: RETAINED, or BLANK with its cause (R375, Table 16.5, Table 16.7). -/
def Dev.startCause (d : Dev) (t : TrainFindings) : Option Nat :=
  if !d.sys.retain then some 0
  else if (validHeaders t) = [] then some 1
  else if (readableHeaders t) = [] || !t.metaReadable then some 2
  else none

/-- Copy a metadata copy slot by slot. -/
def Dev.copyMeta (d : Dev) (src dst : List (Nat × Nat)) : Dev :=
  (src.zip dst).foldl (fun e x =>
    { e with pool := e.pool.copyLines x.1.1 (x.1.2 * slotLines) x.2.1 (x.2.2 * slotLines) slotLines }) d

/-- Slots of a unit as metadata places. -/
def placesOf (unit : Nat) (slots : List Nat) : List (Nat × Nat) := slots.map (fun s => (unit, s))

/-- Slots 0 to k − 1 of a unit. -/
def targetPlaces (unit k : Nat) : List (Nat × Nat) := placesOf unit (List.range k)

/-- Whether slots of a unit hold no extent, no consumed spare and no line of the other copy (R386). -/
def Dev.placesFree (d : Dev) (ps : List (Nat × Nat)) (other : List (Nat × Nat)) : Bool :=
  ps.all (fun x => !(d.usedSlots x.1).contains x.2 && !d.spareUsed.contains x && !other.contains x)

/-- Slots that metadata no longer takes are cleared before use. -/
def Dev.unclear (d : Dev) (ps : List (Nat × Nat)) : Dev :=
  ps.foldl (fun e x => if e.metaAll.contains x then e else e.modUnit x.1 (fun u => { u with cleared := u.cleared.filter (fun s => s != x.2) })) d

/-- The missing copy's places: the unit that the header names with the slots it had, or the target of R386 if that unit has not
trained (log entry 48). -/
def Dev.missingPlaces (d : Dev) (t : TrainFindings) (h : FoundHeader) (n : Nat) : List (Nat × Nat) :=
  let had := if h.copy1 then d.metaPlace.copy0 else d.metaPlace.copy1
  if (trainedAs t h.otherUnit).isSome then
    if had.all (fun x => x.1 == h.otherUnit) && had.length == h.k then had else placesOf h.otherUnit h.slots
  else targetPlaces (if h.copy1 then 2 * n else 2 * (n + 12)) h.k

/-- Put the metadata of the highest `seq` in use: both copies, or one with the other rebuilt from it (R385). -/
def Dev.useHeaders (d : Dev) (t : TrainFindings) (n : Nat) : Dev :=
  let top := topSeq (readableHeaders t)
  let best := (readableHeaders t).filter (fun h => h.seq.toNat == top)
  let places := fun (h : FoundHeader) => placesOf h.unit (h.slots.take h.k)
  let put := fun (k : Nat) (c0 c1 : List (Nat × Nat)) =>
    ({ d with metaPlace := { present := true, copy0 := c0, copy1 := c1, k := k, seq := BitVec.ofNat 64 (top + 1) } } : Dev)
  let d1 := match best.find? (fun h => !h.copy1), best.find? (fun h => h.copy1) with
    | some a, some b => put a.k (places a) (places b)
    | some a, none =>
      let c := d.missingPlaces t a n
      (put a.k (places a) c).copyMeta (places a) c
    | none, some b =>
      let c := d.missingPlaces t b n
      (put b.k c (places b)).copyMeta (places b) c
    | none, none => d
  d1.unclear (((readableHeaders t).filter (fun h => h.seq.toNat != top)).flatMap places)

/-- Bring one copy to its target, or report that it cannot go there (R386). -/
def Dev.placeCopy (d : Dev) (copy1 : Bool) (target : Nat) : Dev :=
  let (now, other) := if copy1 then (d.metaPlace.copy1, d.metaPlace.copy0) else (d.metaPlace.copy0, d.metaPlace.copy1)
  let want := targetPlaces target d.metaPlace.k
  if now = want then d
  else if d.placesFree want other then
    let mp := d.metaPlace
    let mp1 : MetaPlace := { mp with
      copy0 := if copy1 then mp.copy0 else want, copy1 := if copy1 then want else mp.copy1, seq := mp.seq + 1 }
    let d1 := d.copyMeta now want
    ({ d1 with metaPlace := mp1 }).unclear now
  else
    d.startRaise { code := .metadataDisplaced, detail0 := some (BitVec.ofNat 64 ((now.map (fun x => x.1)).headD 0)),
                   detail1 := some (BitVec.ofNat 64 target) }

/-- Partition 0 holds every metadata subchannel that no tenant partition owns (R30). -/
def Dev.holdMeta (d : Dev) : Dev :=
  let d0 := if (d.partn 0).state = .free then d.modPart 0 (fun x => { x with subchannels := 0 }) else d
  (d0.metaAll.map (fun x => x.1)).foldl (fun e m =>
    if (e.unitOwner m).isSome then e
    else
      let e1 := e.modPart 0 (fun x => { x with subchannels := putBit x.subchannels m true })
      let e2 := if (tget e1.keys 0).isSome then e1 else e1.newKey 0 []
      if bit (d.partn 0).subchannels m then e2.loadKey 0 m else (e2.claimUnit 0 m).beginPass m) d0

/-! ## The two kinds of start (R375, R387, R388) -/

/-- Stale parity is to be recomputed: until then its ranges do not reconstruct (R165, R388). -/
def Region.coldStale (r : Region) : Region :=
  let f := fun (g : ParityGroup) => { g with unprotected := (g.unprotected ++ g.stale.map (fun x => x.1)).dedup }
  { r with parity := r.parity.map f, newParity := r.newParity.map f }

/-- A RETAINED start: the metadata in use, the placement of R29, and what R388 says of leases and parity. -/
def Dev.retainedStart (d : Dev) (t : TrainFindings) (n : Nat) : Dev :=
  let d1 := ((((d.trainUnits t true).testEngines t.enginesOk).useHeaders t n).placeCopy false (2 * n)).placeCopy true (2 * (n + 12))
  let d2 : Dev := { d1 with regions := d1.regions.map (fun x => (x.1, x.2.coldStale)), sys := { d1.sys with coldRetained := true } }
  let (w, d3) := d2.reloadKeys.holdMeta.drawWord
  d3.startRaise { code := .startRetained, detail0 := some d3.metaPlace.seq, detail1 := some w }

/-- A BLANK start: no partition, region, object, lease, context or window; settings at their reset values; fresh metadata. -/
def Dev.blankStart (d : Dev) (t : TrainFindings) (n cause : Nat) : Dev :=
  let d0 : Dev := { d with
    params := [], pool := {}, units := [], parts := [], keys := [], wrapped0 := [], wrapped1 := [], groups := [], queues := [], tallies := [], pairs := [], objs := []
    seqPages := [], nearUsed := [], regions := [], waitClear := [], rebuilds := [], spareUsed := [], ctxs := [], wins := [], ranks := []
    cxlTrans := [], leases := [], dir := [], deferred := [], pair := {}, hk := {}
    heads := d.heads.map (fun x => (x.1, { x.2 with dcr := [], doorbell := none, offered := [], extents := [] })) }
  let d1 := (d0.trainUnits t false).testEngines t.enginesOk
  let k := d1.sys.cfg.k
  let d2 : Dev := { d1 with metaPlace :=
    { present := true, copy0 := targetPlaces (2 * n) k, copy1 := targetPlaces (2 * (n + 12)) k, k := k, seq := 1 } }
  let d3 : Dev := { d2 with pool := (d2.pool.clear (2 * n) 0 (k * slotLines)).clear (2 * (n + 12)) 0 (k * slotLines) }
  let (w, d4) := d3.holdMeta.drawWord
  d4.startRaise { code := .startBlank, detail0 := some (BitVec.ofNat 64 cause), detail1 := some w }

/-- Steps 4 to 6: training, metadata, and `stage` AWAIT_RUNTIME with the events of the start written. -/
def Dev.train (d : Dev) (t : TrainFindings) : Dev :=
  match metaPair t with
  | none => d.startFailed 4
  | some n =>
    let d1 := match d.startCause t with
      | none => d.retainedStart t n
      | some c => d.blankStart t n c
    let d2 := d1.measureConfig.setSys (fun x => { x with stage := .awaitRuntime, selfRefresh := false })
    { d2 with pow := { d2.pow with lastGrant := d2.now } }.flushStart

/-- Channels of which a subchannel was trained in full: DDRn_RESET_N was asserted for it, before either subchannel of the channel came into
service (R23, R382). -/
def Dev.resetChannels (d : Dev) (t : TrainFindings) : List Nat :=
  (List.range 24).filter (fun n => [2 * n, 2 * n + 1].any (fun m => (trainedAs t m).isSome && ((d.startCause t).isSome || t.full.contains m)))

/-- TRAINING_DONE. Banks whose activation counts stand at the trigger read from the DRAM get their RFM command (R174). -/
def execTrainingDone (t : TrainFindings) (s : State) : Host.Outcome State Fault Refusal :=
  devStep (fun d => d.guard (d.sys.resetN && !d.sys.warmPhase && d.sys.stage == .bootImage) (fun e =>
    (List.range 48).foldl (fun f m => f.rfmSweep m) (((e.resetChannels t).foldl (fun f n => f.emit (.ddrReset n)) e).train t))) s

end Sys2Proof.Machine
end

