-- ==== Sys2Proof/Machine/Power.lean ====
section
/-! DEFINITION. Power grants, boost, temperature, the adaptive loops, Dome and the sideband (Chapter 15). -/

namespace Sys2Proof.Machine

open Sys2Proof

/-- Change the power state. -/
def Dev.modPow (d : Dev) (f : Power → Power) : Dev := { d with pow := f d.pow }

/-! ## Draw (R356, R369) -/

/-- Islands are numbered in the order of Table 1.5; the engines are islands 0 to 63 (log entry 38). -/
def islandCount : Nat := 136

/-- DRAW_SAMPLE: the draw of every island is sampled, every 10 µs from the last grant. -/
def execDrawSample (islands : List Nat) (s : State) : Host.Outcome State Fault Refusal :=
  devStep (fun d => d.guard (d.sys.live) (fun e =>
    (e.reach (e.pow.lastGrant + 10000 * (e.pow.samples.length + 1))).modPow (fun p => { p with samples := p.samples ++ [islands] }))) s

/-- The sum of a sample over the islands other than engines. -/
def baseOf (sample : List Nat) : Nat := (sample.drop 64).sum

/-- The draw of island `i` summed over samples. -/
def islandSum (samples : List (List Nat)) (i : Nat) : Nat := (samples.map (fun x => lgetD x i 0)).sum

/-- The energy, draws and history at the end of a grant period. -/
def Dev.measureDraw (d : Dev) : Dev :=
  let p := d.pow
  let n := p.samples.length
  let draw := (p.samples.map List.sum).sum / n
  let pj := p.energyPj + draw * (d.now - p.lastGrant)
  (d.bump .pwrEnergyUj (pj / 1000000)).modPow (fun q => { q with
    drawMw := draw
    islandMw := (List.range islandCount).map (fun i => (i, islandSum p.samples i / n))
    energyPj := pj % 1000000
    hist := (draw :: q.hist).take 10000 })

/-! ## Operating points (R357, R358, Table 15.3) -/

/-- The operating points, in MHz, with the power of an engine in mW. -/
def points : List (Nat × Nat) := [(800, 550), (1200, 950), (1600, 1450), (1800, 1720), (2000, 2030), (2200, 2550), (2400, 3200)]

/-- The point below a frequency, down to 0.8 GHz. -/
def pointBelow (f : Nat) : Nat := ((points.map (fun x => x.1)).filter (fun g => decide (g < f))).getLast?.getD 800

/-- The point above a frequency, up to 2.0 GHz. -/
def pointAbove (f : Nat) : Nat := min 2000 (((points.map (fun x => x.1)).find? (fun g => decide (f < g))).getD 2000)

/-- Engines that hold a dispatched descriptor; every other one is idle (R130). -/
def Dev.busy (d : Dev) (n : Nat) : Bool := !(d.engineJobs n).isEmpty

/-- The limit in force in mW: PWR.BOOST_LIMIT in an episode (R356). -/
def Dev.limitMw (d : Dev) : Nat := 1000 * (if d.pow.episode.isSome then (d.param 0x0051 0).toNat else (d.param 0x0050 0).toNat)

/-- Whether engines at `power` mW fit the pool of `owned` engines, `busy` of them busy (R358): the base is 102 per cent of the
mean of `base` over `n` samples, and each idle engine keeps 0.55 W. -/
def fits (lim base n owned busy power : Nat) : Bool :=
  decide (busy * power * 6400 * n + 64 * (owned - busy) * 550 * 100 * n + owned * 102 * base ≤ owned * lim * 100 * n)

/-- The highest point up to `cap` that fits, if any. -/
def bestPoint (cap lim base n owned busy : Nat) : Option Nat :=
  ((points.filter (fun x => decide (x.1 ≤ cap) && fits lim base n owned busy x.2)).map (fun x => x.1)).getLast?

/-- The highest frequency that the ceiling and an episode allow. -/
def Power.cap (p : Power) : Nat :=
  let top := if p.episode.isSome then 2400 else 2000
  if p.throttled then min p.ceiling top else top

/-- How many of a list of engines are busy. -/
def Dev.busyOf (d : Dev) (es : List Nat) : Nat := (es.filter (fun n => d.busy n)).length

/-- The frequency that each busy engine of a list runs at from a grant on. -/
def Dev.runAt (d : Dev) (es : List Nat) (f : Nat) : Tab Nat := (es.filter (fun n => d.busy n)).map (fun n => (n, f))

/-- The point an engine runs at, none while it is clock-gated: one that receives a descriptor between grants runs at 0.8 GHz (R358). -/
def Dev.engineAt (d : Dev) (n : Nat) : Option Nat :=
  match tget d.pow.engineMhz n with
  | some f => some f
  | none => if d.busy n then some 800 else none

/-- The grant: the point of the busy engines, or of each partition's under PWR.LEND_SCOPE PARTITION, idle engines clock-gated, and whether
some budget was not met (R358). The register PWR.ENGINE_POINT shows one value, which the spec does not give for several partitions. -/
def Dev.grant (d : Dev) : Bool × Dev :=
  let p := d.pow
  let n := p.samples.length
  let base := (p.samples.map baseOf).sum
  if d.param 0x0054 0 = 1 then
    let owners := (List.range 32).filter (fun k => (d.partn k).engines != 0)
    let pts := owners.map (fun k =>
      let es := bitsOf (d.partn k).engines
      (k, bestPoint p.cap d.limitMw base n es.length (d.busyOf es)))
    let (w, d1) := d.drawWord
    (pts.any (fun x => x.2.isNone), d1.modPow (fun q => { q with
      points := pts.map (fun x => (x.1, x.2.getD 800)), enginePoint := w.toNat
      engineMhz := pts.flatMap (fun x => d.runAt (bitsOf (d.partn x.1).engines) (x.2.getD 800)) }))
  else
    let f := bestPoint p.cap d.limitMw base n 64 (d.busyOf (List.range 64))
    (f.isNone, d.modPow (fun q => { q with points := [], enginePoint := f.getD 800, engineMhz := d.runAt (List.range 64) (f.getD 800) }))

/-! ## Boost (R361, R362) -/

/-- Why an episode ends at this grant, in the order of R362, if it does. -/
def Dev.boostEnd (d : Dev) : Option Nat :=
  match d.pow.episode with
  | none => none
  | some t =>
    if t + 250000000 ≤ d.now then some 0
    else if d.pow.endCause.isSome then d.pow.endCause
    else if d.pow.rowThrottleSeen then some 2
    else if d.param 0x0052 0 = 0 ∨ d.param 0x0054 0 = 1 then some 3
    else none

/-- End the episode, if it is to end. -/
def Dev.endBoost (d : Dev) : Dev :=
  match d.boostEnd, d.pow.episode with
  | some c, some t =>
    (d.modPow (fun p => { p with episode := none, lastEnd := some d.now, endCause := none, rowThrottleSeen := false })).raise
      { code := .boostEnd, detail0 := some (BitVec.ofNat 64 c), detail1 := some (BitVec.ofNat 64 ((d.now - t) / 1000)) }
  | _, _ => d

/-- Whether an episode starts at this grant. The draw is averaged over the periods recorded in the last second. -/
def Dev.boostStarts (d : Dev) : Bool :=
  let p := d.pow
  let lim := (d.param 0x0050 0).toNat
  let boost := (d.param 0x0051 0).toNat
  p.episode.isNone && d.param 0x0052 0 == 1 && d.param 0x0054 0 == 0 &&
  p.lastEnd.all (fun t => decide (t + 1000000000 ≤ d.now)) &&
  decide (p.tj + 40 < 8 * (d.param 0x0053 0).toNat) &&
  decide (0 < d.busyOf (List.range 64)) &&
  decide (4 * p.hist.sum + 1000 * (boost - lim) * p.hist.length ≤ 4000 * lim * p.hist.length)

/-- Start an episode, if its conditions hold. -/
def Dev.startBoost (d : Dev) : Dev :=
  if d.boostStarts then
    (d.bump .pwrBoostCount).modPow (fun p => { p with episode := some d.now, endCause := none, rowThrottleSeen := false })
  else d

/-! ## The ceiling (Table 15.5) -/

/-- The highest point that busy engines run at. -/
def Power.present (p : Power) : Nat :=
  if p.points = [] then (if p.enginePoint = 0 then p.ceiling else p.enginePoint) else p.points.foldl (fun a x => max a x.2) 0

/-- What a grant does to the throttle ceiling. -/
def Dev.moveCeiling (d : Dev) : Dev :=
  let p := d.pow
  if !p.throttled then d
  else if 800 ≤ p.tj then d.modPow (fun q => { q with ceiling := pointBelow p.present })
  else if 776 ≤ p.tj then d
  else
    let c := pointAbove p.ceiling
    if c = 2000 then
      ({ d with pow := { p with ceiling := 2000, throttled := false }, sys := { d.sys with therm := false } }).raise
        { code := .thermalThrottleCleared, detail0 := some (BitVec.ofNat 64 p.hottest), detail1 := some (BitVec.ofNat 64 p.tj) }
    else d.modPow (fun q => { q with ceiling := c })

/-! ## Budget not met (R360) -/

/-- Count grants with and without enough budget: the issue rate is halved at every tenth in a row without, and restored a step
per ten with the draw 5 per cent below the limit. -/
def Dev.countUnmet (d : Dev) (unmet : Bool) : Dev :=
  let p := d.pow
  let lim := d.limitMw
  if unmet then
    let run := p.unmetRun + 1
    let d1 := d.modPow (fun q => { q with
      unmetRun := run, belowRun := 0, unmetRaised := true, issueDiv := if run % 10 = 0 then min 8 (2 * p.issueDiv) else p.issueDiv })
    if p.unmetRaised then d1
    else d1.raise { code := .powerLimitUnmet, detail0 := some (BitVec.ofNat 64 p.drawMw), detail1 := some (BitVec.ofNat 64 lim) }
  else
    let below := if 100 * p.drawMw ≤ 95 * lim then p.belowRun + 1 else 0
    d.modPow (fun q => { q with
      unmetRun := 0, unmetRaised := false, belowRun := below % 10
      issueDiv := if below = 10 then max 1 (p.issueDiv / 2) else p.issueDiv })

/-- A grant, 100 µs after the last (R358). -/
def Dev.powerGrant (d : Dev) : Dev :=
  let d0 := d.reach (d.pow.lastGrant + 100000)
  let dt := d0.now - d.pow.lastGrant
  let d1 := if d0.pow.episode.isSome then d0.bump .pwrBoostNs dt else d0
  let d2 := if d1.pow.ceiling < 2000 then d1.bump .pwrThrottleNs dt else d1
  let d3 := ((d2.measureDraw.endBoost).startBoost).moveCeiling
  let (unmet, d4) := d3.grant
  let (w, d5) := (d4.countUnmet unmet).drawWord
  d5.modPow (fun p => { p with lentMw := w.toNat, lastGrant := d0.now, samples := [] })

/-- POWER_GRANT. A grant follows samples of its period. -/
def execPowerGrant (s : State) : Host.Outcome State Fault Refusal :=
  devStep (fun d => d.guard (d.sys.live && !d.pow.samples.isEmpty) Dev.powerGrant) s

/-! ## Temperature (R364, R365) -/

/-- The hottest of a list of temperatures: its index and value. -/
def hottestOf (temps : List Nat) : Nat × Nat :=
  (temps.zipIdx).foldl (fun a x => if a.2 < x.1 then (x.2, x.1) else a) (0, 0)

/-- The island of a sensor: each HBM stack counts to its controller (log entry 38). -/
def sensorIsland (i : Nat) : Nat := if islandCount ≤ i then 88 + (i - islandCount) else i

/-- A trip: AON removes power from every other island, asserts THERM_N and ALERT_N, closes the bypass and records it; memory
contents are lost. -/
def Dev.trip (d : Dev) (island : Nat) : Dev :=
  let d1 := d.resetIslands false
  { d1 with
    ports := d1.ports.map (fun p => (p.1, { p.2 with state := .disabled }))
    units := d1.units.map (fun u => (u.1, { u.2 with trained := false }))
    sys := { d1.sys.closeBypass with
      stage := .rom, islandsOff := true, therm := true, causeTrip := true, retain := false, selfRefresh := false, warmPhase := false
      domeReqAt := none, trips := d1.sys.trips + 1, tripIsland := BitVec.ofNat 16 island, tripRaise := true } }

/-- Junction sensors are sampled: Table 15.5. -/
def Dev.sampleTemps (d : Dev) (temps : List Nat) : Dev :=
  let (i, tj) := hottestOf temps
  let island := sensorIsland i
  let d1 := d.modPow (fun p => { p with
    islandTemp := (temps.take islandCount).mapIdx (fun k t => (k, t)), tj := tj, hottest := island
    endCause := if p.episode.isSome && decide (8 * (d.param 0x0053 0).toNat ≤ tj) then some 1 else p.endCause
    thermalDiv := if tj < 840 then 1 else p.thermalDiv })
  if 920 ≤ tj then d1.trip island
  else if 800 ≤ tj ∧ d1.pow.throttled = false then
    (({ d1 with sys := { d1.sys with therm := true } }).modPow (fun p => { p with throttled := true })).raise
      { code := .thermalThrottle, detail0 := some (BitVec.ofNat 64 island), detail1 := some (BitVec.ofNat 64 tj) }
  else d1

/-- THERMAL_SAMPLE. -/
def execThermalSample (temps : List Nat) (s : State) : Host.Outcome State Fault Refusal :=
  let s0 := s.onDev id
  let x := s0.dev.sys
  .next (
    if x.resetN && !x.inDome && !x.islandsOff then
      let d := s0.dev.sampleTemps temps
      if d.sys.islandsOff then { s0 with dev := d }.resetMbx else { s0 with dev := d }
    else s0)

/-- THERMAL_LIMIT_STEP: at 105 °C with the ceiling at 0.8 GHz, the issue rate is halved, 1 ms after the last time. -/
def execThermalLimitStep (s : State) : Host.Outcome State Fault Refusal :=
  liveStep (fun d => d.guard (decide (840 ≤ d.pow.tj) && d.pow.ceiling == 800 && d.pow.throttled && decide (d.pow.thermalDiv < 8)) (fun e =>
    let e1 := e.reach (e.pow.limitAt + 1000000)
    (e1.modPow (fun p => { p with thermalDiv := 2 * p.thermalDiv, limitAt := e1.now })).raise
      { code := .thermalLimit, detail0 := some (BitVec.ofNat 64 e.pow.hottest), detail1 := some (BitVec.ofNat 64 (2 * e.pow.thermalDiv)) })) s

/-! ## Adaptive loops (R363, Table 15.4) -/

/-- A regulator's range, in mV. -/
def clampMv (v : Nat) : Nat := min 850 (max 650 v)

/-- VOLTAGE_LOOP_TICK: each island's regulator follows its monitors, and VDD_CORE the highest need. -/
def execVoltageLoopTick (needMv : List Nat) (s : State) : Host.Outcome State Fault Refusal :=
  liveStep (fun d =>
    let vs := needMv.map clampMv
    let core := vs.foldl max 650
    let d1 := d.modPow (fun p => { p with voltages := vs.mapIdx (fun i v => (i, v)), vddCoreMv := core })
    if core = d.pow.vddCoreMv then d1 else d1.emit (.avs core)) s

/-- DRAM_CALIBRATION: a rank is calibrated, 128 ms after the last time. -/
def execDramCalibration (m rank : Nat) (s : State) : Host.Outcome State Fault Refusal :=
  liveStep (fun d => d.guard ((d.unit m).trained && !(d.unit m).dead && !(d.unit m).removed && decide (rank < 2 ^ (d.unit m).nr)) (fun e =>
    let e1 := match tget (e.unit m).calibratedAt rank with
      | some t => e.reach (t + 128000000)
      | none => e
    e1.modUnit m (fun u => { u with calibratedAt := tset u.calibratedAt rank e1.now }))) s

/-! ## Dome (R366 to R368, R372) -/

/-- The first check of R366 that fails, but the last. -/
def Dev.domeBar (d : Dev) : Option Nat :=
  if d.pair.enable ∧ d.pair.role = .active then some 0
  else if d.dir.any (fun x => x.2.state == .e || x.2.state == .m) then some 1
  else if ((List.range 8).filter (fun h => d.headExists h)).any (fun h => !(d.head h).d3hot && (d.head h).linkUp) then some 2
  else none

/-- The steps of R366 in order: ports DOWN, bypass closed, memory in self-refresh, islands off. -/
def Dev.enterDome (d : Dev) : Dev :=
  let d1 := (d.ports.filter (fun x => x.2.state == .active || x.2.state == .retrain)).foldl (fun e x => e.goDown x.1 false) d
  let d2 := { d1 with sys := d1.sys.closeBypass }.resetIslands true
  let d3 : Dev := { d2 with sys := { d2.sys with
    stage := .rom, inDome := true, domeEntered := d.now, domeReqAt := none, selfRefresh := true
    outageFrom := some (d2.sys.outageFrom.getD d.now) } }
  let (w, d4) := d3.drawWord
  d4.emit (.event { code := .domeEnter, detail0 := some w })

/-- DOME_ENTRY: Dome was asked for, every check passes, and no descriptor is in flight. DOME_ENTER is raised when no ring has
power (log entry 49). -/
def execDomeEntry (s : State) : Host.Outcome State Fault Refusal :=
  let s0 := s.onDev id
  let d := s0.dev
  .next (
    if d.sys.live && d.sys.domeReqAt.isSome && d.domeBar.isNone && d.jobs.isEmpty then { s0 with dev := d.enterDome }.resetMbx
    else s0)

/-- DOME_REFUSED: a check fails, or descriptors remain in flight 100 ms after the request; nothing else changes. -/
def execDomeRefused (s : State) : Host.Outcome State Fault Refusal :=
  liveStep (fun d =>
    match d.sys.domeReqAt with
    | none => d
    | some t =>
      let refuse := fun (e : Dev) (c : Nat) =>
        ({ e with sys := { e.sys with domeReqAt := none } }).raise { code := .domeRefused, detail0 := some (BitVec.ofNat 64 c) }
      match d.domeBar with
      | some c => refuse d c
      | none => if d.jobs.isEmpty then d else refuse (d.reach (t + 100000000)) 3) s

/-- A wake from Dome (Table 15.6): the state that a warm reset leaves, and `stage` AWAIT_RUNTIME. Transit's pass clocks stood
still. If the resident stage does not match its digest, the slot is chosen as at a warm reset. -/
def Dev.wake (d : Dev) (digestOk : Bool) (b : BootFindings) : Dev :=
  let gone := d.now - d.sys.domeEntered
  let d1 := d.bumpTags.reloadKeys
  let d2 : Dev := { d1 with
    units := d1.units.map (fun u => (u.1, { u.2 with passStart := u.2.passStart + gone }))
    sys := { d1.sys with
      inDome := false, selfRefresh := false, warm := false, startedAt := d.now
      runtimeSvn := 0, loadStatus := 0, loadGot := 0, loadTotal := 0, causeHalted := false, causeFatal := false }
    pow := { d1.pow with lastGrant := d1.now, samples := [] } }
  let d3 := if digestOk then (d2.setSys (fun x => { x with stage := .bootImage })).measure 3 else d2.bootSlot b
  if d3.sys.stage = .bootImage then
    let d4 := (d3.setSys (fun x => { x with stage := .awaitRuntime })).measureConfig.flushStart
    let (w, d5) := d4.drawWord
    d5.raise { code := .domeWake, detail0 := some w }
  else d3

/-- DOME_WAKE: by the DOME effecter or by WARM_N. -/
def execDomeWake (byWarmN digestOk : Bool) (b : BootFindings) (s : State) : Host.Outcome State Fault Refusal :=
  devStep (fun d => d.guard (d.sys.inDome && (!byWarmN || d.sys.resetN)) (fun e => e.wake digestOk b)) s

/-- WAKE_RAIL_TIMEOUT: the wake ends, with both tiers still in self-refresh. -/
def execWakeRailTimeout (s : State) : Host.Outcome State Fault Refusal :=
  devStep (fun d => d.guard d.sys.inDome (fun e =>
    let e1 := e.reach (e.now + 5000000)
    ({ e1 with sys := { e1.sys with inDome := false, stage := .halted, causeStart := true } }).raise { code := .startFailed })) s

/-! ## The sideband (R356, R367, R369) -/

/-- The registers of Table 15.7, as their PLDM sensors number them (log entry 38). -/
def Dev.sensor (d : Dev) (reg idx : Nat) : Option Nat :=
  match reg with
  | 0 => some d.pow.drawMw
  | 1 => if idx < islandCount then some (tgetD d.pow.islandMw idx 0) else none
  | 2 => if idx < islandCount then some (tgetD d.pow.islandTemp idx 0) else none
  | 3 => some d.pow.tj
  | 4 => some (d.count .pwrEnergyUj).toNat
  | 5 => some d.pow.enginePoint
  | 6 => some d.pow.lentMw
  | 7 => some (d.count .pwrBoostCount).toNat
  | 8 => some (d.count .pwrBoostNs).toNat
  | 9 => some (d.count .pwrThrottleNs).toNat
  | 10 => some (d.sys.trips.toNat + 65536 * d.sys.tripIsland.toNat)
  | _ => none

/-- A PLDM request. In Dome only AON's own temperature, the power state and the DOME effecter are answered; a wake is DOME_WAKE's
work. A value out of range is refused, as PARAM_SET refuses it. -/
def Dev.pldm (d : Dev) (r : PldmReq) : Dev :=
  match r with
  | .readAonTemp => d.emit (.pldm [tgetD d.pow.islandTemp 135 0])
  | .readPowerState => d.emit (.pldm [if d.sys.inDome then 1 else 0])
  | .domeEffecter enter =>
    if enter then (if d.sys.live then d.domeAsk else d).emit (.pldm []) else d.emit (.pldm [])
  | .readSensor reg idx =>
    if d.sys.inDome then d.emit .pldmNotReady
    else match d.sensor reg idx with
      | some v => d.emit (.pldm [v])
      | none => d.emit .pldmNotReady
  | .writePwr param value =>
    if d.sys.inDome then d.emit .pldmNotReady
    else if param < 0x0050 ∨ 0x0055 < param ∨ 18446744073709551616 ≤ value ∨ d.paramBad param 0 (BitVec.ofNat 64 value) then
      d.emit .pldmNotReady
    else (d.paramApply param 0 (BitVec.ofNat 64 value)).emit (.pldm [])

/-- PLDM_REQUEST. -/
def execPldmRequest (req : PldmReq) (s : State) : Host.Outcome State Fault Refusal :=
  devStep (fun d => d.guard (d.sys.resetN && !d.sys.islandsOff && d.sys.stage != .retired) (fun e => e.pldm req)) s

/-! ## Queue depths (R43) -/

/-- QUEUE_DEPTH_SAMPLE: the queue depths of memory units are noted and go into their histograms, in the buckets of R231 (log entry 38). -/
def execQueueDepthSample (depths : List (Nat × Nat)) (s : State) : Host.Outcome State Fault Refusal :=
  liveStep (fun d => depths.foldl (fun e x =>
    if x.1 < 112 ∧ (e.unit x.1).trained = true then
      (e.modUnit x.1 (fun u => { u with depth := x.2 })).bump (.unitQdepthHist x.1 (depthBucket x.2))
    else e) d) s

end Sys2Proof.Machine
end

