-- ==== Sys2Proof/Machine/Tap.lean ====
section
/-! DEFINITION. The TAP and boundary scan (R283, R284, R405 to R408). -/

namespace Sys2Proof.Machine

open Sys2Proof

/-- The length of the boundary register (R407). -/
def boundaryCells : Nat := 7296

/-- IDCODE (R406): bit 0, the manufacturer, the part and the stepping. -/
def idcodeValue : Nat := 1 + 2 * 0x2B9 + 4096 * 0x7480 + 268435456 * Config.stepping.toNat

/-- The TAP in Test-Logic-Reset selects IDCODE, as IEEE 1149.1 lays down (log entry 7); the pins are the device's again. -/
def Dev.tapIdle (d : Dev) (i : TapInstr) : Dev :=
  { d with
    tap := { d.tap with instr := i, driving := false }
    sys := { d.sys with outputsHiZ := !d.sys.resetN } }

/-- Whether an instruction that takes the pins has its effect now: in DEPLOYED only while RESET_N is low (R284). -/
def Dev.scanAllowed (d : Dev) : Bool := d.sys.lifeCycle != .deployed || !d.sys.resetN

/-- BYPASS: the one-bit register is selected. -/
def Dev.tapBypass (d : Dev) : Dev := (d.tapIdle .bypass).emit (.tdo 1 0)

/-- An instruction that takes the pins: it clears RETAIN (R408). Not allowed, it acts as BYPASS. -/
def Dev.scan (d : Dev) (i : TapInstr) (hiZ : Bool) (f : Dev → Dev) : Dev :=
  if d.scanAllowed then
    f { d with
      tap := { d.tap with instr := i, driving := !hiZ, scanned := true }
      sys := { d.sys with retain := false, outputsHiZ := hiZ } }
  else d.tapBypass

/-- The boundary register takes new cells. -/
def Dev.putCells (d : Dev) (cells : Nat) : Dev := { d with tap := { d.tap with boundary := cells % 2 ^ boundaryCells } }

/-- TAP_RESET: TRST_N low, or five TCK cycles with TMS high. -/
def execTapReset (s : State) : Host.Outcome State Fault Refusal := devStep (fun d => d.tapIdle .idcode) s

/-- EXTEST: the pins are driven from the boundary register. -/
def execExtest (cells : Nat) (s : State) : Host.Outcome State Fault Refusal :=
  devStep (fun d => d.scan .extest false (fun e => e.putCells cells)) s

/-- IDCODE: the identification register is selected and read out. -/
def execIdcode (s : State) : Host.Outcome State Fault Refusal :=
  devStep (fun d => (d.tapIdle .idcode).emit (.tdo 32 idcodeValue)) s

/-- SAMPLE/PRELOAD: the pins are sampled and read out, and the boundary register is preloaded; the pins stay the device's. -/
def execSamplePreload (pins preload : Nat) (s : State) : Host.Outcome State Fault Refusal :=
  devStep (fun d => ((d.tapIdle .samplePreload).putCells preload).emit (.tdo boundaryCells (pins % 2 ^ boundaryCells))) s

/-- CLAMP: the pins are held from the boundary register, with the bypass register selected. -/
def execClamp (s : State) : Host.Outcome State Fault Refusal :=
  devStep (fun d => d.scan .clamp false (fun e => e.emit (.tdo 1 0))) s

/-- HIGHZ: every output goes to high impedance, with the bypass register selected. -/
def execHighz (s : State) : Host.Outcome State Fault Refusal :=
  devStep (fun d => d.scan .highz true (fun e => e.emit (.tdo 1 0))) s

/-- EXTEST_PULSE: AC-coupled pairs are driven with a pulse (IEEE 1149.6). -/
def execExtestPulse (cells : Nat) (s : State) : Host.Outcome State Fault Refusal :=
  devStep (fun d => d.scan .extestPulse false (fun e => e.putCells cells)) s

/-- EXTEST_TRAIN: AC-coupled pairs are driven with a pulse train (IEEE 1149.6). -/
def execExtestTrain (cells : Nat) (s : State) : Host.Outcome State Fault Refusal :=
  devStep (fun d => d.scan .extestTrain false (fun e => e.putCells cells)) s

/-- BYPASS, and every other code (R405). -/
def execBypass (s : State) : Host.Outcome State Fault Refusal := devStep Dev.tapBypass s

end Sys2Proof.Machine
end

