-- ==== Sys2Proof/Machine/Dispatch.lean ====
section
/-! DEFINITION. Dispatch: one arm per command. -/

namespace Sys2Proof.Machine

open Sys2Proof

/-- The effect of a command on everything but the queue of waiting commands. -/
def exec (i : Instr) (s : State) : Host.Outcome State Fault Refusal :=
  match i with
  | .queueDoorbell w => Sys2Proof.Machine.execQueueDoorbell w s
  | .apertureReservedWrite w => Sys2Proof.Machine.execApertureReservedWrite w s
  | .partMailboxDoorbell w => Sys2Proof.Machine.execPartMailboxDoorbell w s
  | .partEventRingDoorbell w => Sys2Proof.Machine.execPartEventRingDoorbell w s
  | .descriptorFetch queue => Sys2Proof.Machine.execDescriptorFetch queue s
  | .dispatch part group => Sys2Proof.Machine.execDispatch part group s
  | .completionWrite job => Sys2Proof.Machine.execCompletionWrite job s
  | .copy job => Sys2Proof.Machine.execCopy job s
  | .fill job => Sys2Proof.Machine.execFill job s
  | .chainElementFetch job => Sys2Proof.Machine.execChainElementFetch job s
  | .moverBurstDone job => Sys2Proof.Machine.execMoverBurstDone job s
  | .moverAbort job => Sys2Proof.Machine.execMoverAbort job s
  | .kvAppend job => Sys2Proof.Machine.execKvAppend job s
  | .attend job => Sys2Proof.Machine.execAttend job s
  | .kvGather job => Sys2Proof.Machine.execKvGather job s
  | .summaryRebuild job => Sys2Proof.Machine.execSummaryRebuild job s
  | .plateOpen job => Sys2Proof.Machine.execPlateOpen job s
  | .plateClose job => Sys2Proof.Machine.execPlateClose job s
  | .plateCloseDestroy job => Sys2Proof.Machine.execPlateCloseDestroy job s
  | .platePublish job => Sys2Proof.Machine.execPlatePublish job s
  | .plateFork job => Sys2Proof.Machine.execPlateFork job s
  | .pageFreeBackground region => Sys2Proof.Machine.execPageFreeBackground region s
  | .reduceWrite job => Sys2Proof.Machine.execReduceWrite job s
  | .atomic job => Sys2Proof.Machine.execAtomic job s
  | .lockAcquire job => Sys2Proof.Machine.execLockAcquire job s
  | .lockRelease job => Sys2Proof.Machine.execLockRelease job s
  | .lockOwnerRecheck job => Sys2Proof.Machine.execLockOwnerRecheck job s
  | .lockWaitTimeout job => Sys2Proof.Machine.execLockWaitTimeout job s
  | .tallyAdd job => Sys2Proof.Machine.execTallyAdd job s
  | .tallyWait job => Sys2Proof.Machine.execTallyWait job s
  | .tallyWaitSatisfied job => Sys2Proof.Machine.execTallyWaitSatisfied job s
  | .tallyWaitTimeout job => Sys2Proof.Machine.execTallyWaitTimeout job s
  | .nop job => Sys2Proof.Machine.execNop job s
  | .lineRead m line d1 d2 => Sys2Proof.Machine.execLineRead m line d1 d2 s
  | .lineWrite m line data => Sys2Proof.Machine.execLineWrite m line data s
  | .readModifyWrite m line data en d1 d2 => Sys2Proof.Machine.execReadModifyWrite m line data en d1 d2 s
  | .metadataWrite idx data => Sys2Proof.Machine.execMetadataWrite idx data s
  | .metadataRead idx quadrant holds d0 d1 => Sys2Proof.Machine.execMetadataRead idx quadrant holds d0 d1 s
  | .translationCacheFill port ctx addr => Sys2Proof.Machine.execTranslationCacheFill port ctx addr s
  | .directoryFill region line => Sys2Proof.Machine.execDirectoryFill region line s
  | .parityRangeClean region group range => Sys2Proof.Machine.execParityRangeClean region group range s
  | .parityRecomputeDone region group range => Sys2Proof.Machine.execParityRecomputeDone region group range s
  | .transitPassStart m => Sys2Proof.Machine.execTransitPassStart m s
  | .transitLineCheck m d1 d2 => Sys2Proof.Machine.execTransitLineCheck m d1 d2 s
  | .transitEscalate m => Sys2Proof.Machine.execTransitEscalate m s
  | .ceRateHourRollover => Sys2Proof.Machine.execCeRateHourRollover s
  | .rebuildStart h unit => Sys2Proof.Machine.execRebuildStart h unit s
  | .rebuildPageCopied unit => Sys2Proof.Machine.execRebuildPageCopied unit s
  | .refreshDue m rank readsQueued => Sys2Proof.Machine.execRefreshDue m rank readsQueued s
  | .refreshCatchup m rank => Sys2Proof.Machine.execRefreshCatchup m rank s
  | .rowThrottleWindowEnd m bank => Sys2Proof.Machine.execRowThrottleWindowEnd m bank s
  | .dramTempCrossing m above raaimt raammt => Sys2Proof.Machine.execDramTempCrossing m above raaimt raammt s
  | .migratePageCopied region => Sys2Proof.Machine.execMigratePageCopied region s
  | .nearPromote part => Sys2Proof.Machine.execNearPromote part s
  | .summaryPageMove region object page toNear => Sys2Proof.Machine.execSummaryPageMove region object page toNear s
  | .summaryOldPageFree region => Sys2Proof.Machine.execSummaryOldPageFree region s
  | .shutterSlotCleared m slot => Sys2Proof.Machine.execShutterSlotCleared m slot s
  | .leaseExpiry lease => Sys2Proof.Machine.execLeaseExpiry lease s
  | .dataFrameReceive port f c => Sys2Proof.Machine.execDataFrameReceive port f c s
  | .controlFrameReceive port f c => Sys2Proof.Machine.execControlFrameReceive port f c s
  | .paramFrameReceive port b c => Sys2Proof.Machine.execParamFrameReceive port b c s
  | .nakResendTimeout port => Sys2Proof.Machine.execNakResendTimeout port s
  | .replayTimeout port => Sys2Proof.Machine.execReplayTimeout port s
  | .ackTimer port => Sys2Proof.Machine.execAckTimer port s
  | .packetTransmit port tc => Sys2Proof.Machine.execPacketTransmit port tc s
  | .linkRekey port => Sys2Proof.Machine.execLinkRekey port s
  | .detectSuccess port => Sys2Proof.Machine.execDetectSuccess port s
  | .trainingStateTimeout port => Sys2Proof.Machine.execTrainingStateTimeout port s
  | .backoffExpiry port => Sys2Proof.Machine.execBackoffExpiry port s
  | .equaliseDone port => Sys2Proof.Machine.execEqualiseDone port s
  | .alignDone port => Sys2Proof.Machine.execAlignDone port s
  | .absentSignalDetect port => Sys2Proof.Machine.execAbsentSignalDetect port s
  | .partnerSignalLost port => Sys2Proof.Machine.execPartnerSignalLost port s
  | .frameAlignmentLost port => Sys2Proof.Machine.execFrameAlignmentLost port s
  | .eyeMarginLow port => Sys2Proof.Machine.execEyeMarginLow port s
  | .retrainTimeout port => Sys2Proof.Machine.execRetrainTimeout port s
  | .downExpiry port => Sys2Proof.Machine.execDownExpiry port s
  | .portControlEnable h port => Sys2Proof.Machine.execPortControlEnable h port s
  | .portControlDisable h port => Sys2Proof.Machine.execPortControlDisable h port s
  | .portControlRetrain h port => Sys2Proof.Machine.execPortControlRetrain h port s
  | .portControlCreditAdv h port adv => Sys2Proof.Machine.execPortControlCreditAdv h port adv s
  | .readRequest port p => Sys2Proof.Machine.execReadRequest port p s
  | .writeRequest port p => Sys2Proof.Machine.execWriteRequest port p s
  | .writePartialRequest port p => Sys2Proof.Machine.execWritePartialRequest port p s
  | .atomicRequest port p => Sys2Proof.Machine.execAtomicRequest port p s
  | .mirrorWriteReceive port p => Sys2Proof.Machine.execMirrorWriteReceive port p s
  | .malformedDrop port p => Sys2Proof.Machine.execMalformedDrop port p s
  | .replyReceive port p => Sys2Proof.Machine.execReplyReceive port p s
  | .lossDeclaration flow => Sys2Proof.Machine.execLossDeclaration flow s
  | .lostNoticeReceive port p => Sys2Proof.Machine.execLostNoticeReceive port p s
  | .replyLostReceive port p => Sys2Proof.Machine.execReplyLostReceive port p s
  | .skipReceive port p => Sys2Proof.Machine.execSkipReceive port p s
  | .requestTimeout tag => Sys2Proof.Machine.execRequestTimeout tag s
  | .sendRecordExpiry flow seq => Sys2Proof.Machine.execSendRecordExpiry flow seq s
  | .sprayLatencyWindow ties => Sys2Proof.Machine.execSprayLatencyWindow ties s
  | .escapeToTc7 port tc => Sys2Proof.Machine.execEscapeToTc7 port tc s
  | .transitForward port p => Sys2Proof.Machine.execTransitForward port p s
  | .gateEntryBoundary port => Sys2Proof.Machine.execGateEntryBoundary port s
  | .telemetrySample port => Sys2Proof.Machine.execTelemetrySample port s
  | .routeLoad h version entries => Sys2Proof.Machine.execRouteLoad h version entries s
  | .routeFlip h version => Sys2Proof.Machine.execRouteFlip h version s
  | .routeRetire h version => Sys2Proof.Machine.execRouteRetire h version s
  | .cxlMemRead head hpa => Sys2Proof.Machine.execCxlMemRead head hpa s
  | .cxlMemWrite head hpa data en => Sys2Proof.Machine.execCxlMemWrite head hpa data en s
  | .bar2DoorbellWrite head off len value => Sys2Proof.Machine.execBar2DoorbellWrite head off len value s
  | .windowReadShared head hpa => Sys2Proof.Machine.execWindowReadShared head hpa s
  | .windowReadOwnership head hpa => Sys2Proof.Machine.execWindowReadOwnership head hpa s
  | .windowMeminv head hpa => Sys2Proof.Machine.execWindowMeminv head hpa s
  | .windowWriteback head hpa data => Sys2Proof.Machine.execWindowWriteback head hpa data s
  | .windowCleanEviction head hpa => Sys2Proof.Machine.execWindowCleanEviction head hpa s
  | .windowOtherAccess region line acc => Sys2Proof.Machine.execWindowOtherAccess region line acc s
  | .windowBusyRetry region line => Sys2Proof.Machine.execWindowBusyRetry region line s
  | .bisnpResponse region line head ans wb => Sys2Proof.Machine.execBisnpResponse region line head ans wb s
  | .biTimeout region line => Sys2Proof.Machine.execBiTimeout region line s
  | .perstAssert port => Sys2Proof.Machine.execPerstAssert port s
  | .perstDeassert port => Sys2Proof.Machine.execPerstDeassert port s
  | .configRetryWindowEnd head => Sys2Proof.Machine.execConfigRetryWindowEnd head s
  | .cxlReset head => Sys2Proof.Machine.execCxlReset head s
  | .headRemoval head => Sys2Proof.Machine.execHeadRemoval head s
  | .cxlLinkDown head => Sys2Proof.Machine.execCxlLinkDown head s
  | .dcAddExtent head exts => Sys2Proof.Machine.execDcAddExtent head exts s
  | .addDcResponse head dpa length accept => Sys2Proof.Machine.execAddDcResponse head dpa length accept s
  | .releaseDc head dpa length => Sys2Proof.Machine.execReleaseDc head dpa length s
  | .dcForcedRelease head dpa length => Sys2Proof.Machine.execDcForcedRelease head dpa length s
  | .cxlIdentify head => Sys2Proof.Machine.execCxlIdentify head s
  | .getEventRecords head log => Sys2Proof.Machine.execGetEventRecords head log s
  | .clearEventRecords head log handles all => Sys2Proof.Machine.execClearEventRecords head log handles all s
  | .getEventInterruptPolicy head => Sys2Proof.Machine.execGetEventInterruptPolicy head s
  | .setEventInterruptPolicy head policy => Sys2Proof.Machine.execSetEventInterruptPolicy head policy s
  | .getFwInfo head => Sys2Proof.Machine.execGetFwInfo head s
  | .transferFw head offset data first last verdict => Sys2Proof.Machine.execTransferFw head offset data first last verdict s
  | .activateFw head slot online => Sys2Proof.Machine.execActivateFw head slot online s
  | .getTimestamp head => Sys2Proof.Machine.execGetTimestamp head s
  | .setTimestamp head t => Sys2Proof.Machine.execSetTimestamp head t s
  | .getSupportedLogs head => Sys2Proof.Machine.execGetSupportedLogs head s
  | .getLog head log offset length => Sys2Proof.Machine.execGetLog head log offset length s
  | .identifyMemoryDevice head => Sys2Proof.Machine.execIdentifyMemoryDevice head s
  | .getHealthInfo head => Sys2Proof.Machine.execGetHealthInfo head s
  | .getAlertConfiguration head => Sys2Proof.Machine.execGetAlertConfiguration head s
  | .setAlertConfiguration head cfg => Sys2Proof.Machine.execSetAlertConfiguration head cfg s
  | .getPoisonList head => Sys2Proof.Machine.execGetPoisonList head s
  | .getDcConfiguration head => Sys2Proof.Machine.execGetDcConfiguration head s
  | .getDcExtentList head => Sys2Proof.Machine.execGetDcExtentList head s
  | .cxlMailboxUnsupported head opcode => Sys2Proof.Machine.execCxlMailboxUnsupported head opcode s
  | .spdmRequest path req => Sys2Proof.Machine.execSpdmRequest path req s
  | .ideKmKeyProg head stream keySet secured => Sys2Proof.Machine.execIdeKmKeyProg head stream keySet secured s
  | .mbxAttach head => Sys2Proof.Machine.execMbxAttach head s
  | .mbxCmdDoorbell head count epoch => Sys2Proof.Machine.execMbxCmdDoorbell head count epoch s
  | .mbxRspDoorbell head count epoch => Sys2Proof.Machine.execMbxRspDoorbell head count epoch s
  | .mbxEvtDoorbell head count epoch => Sys2Proof.Machine.execMbxEvtDoorbell head count epoch s
  | .registerWrite head off len value => Sys2Proof.Machine.execRegisterWrite head off len value s
  | .mbxHeartbeatTick => Sys2Proof.Machine.execMbxHeartbeatTick s
  | .paceSlotBoundary part => Sys2Proof.Machine.execPaceSlotBoundary part s
  | .huanikNop h => Sys2Proof.Machine.execHuanikNop h s
  | .runtimeLoad h offset length total last verdict svn digest => Sys2Proof.Machine.execRuntimeLoad h offset length total last verdict svn digest s
  | .lcTransition h target byOwner verdict ownerHash svnFloor => Sys2Proof.Machine.execLcTransition h target byOwner verdict ownerHash svnFloor s
  | .fwInfo h => Sys2Proof.Machine.execFwInfo h s
  | .fwDownload h offset data => Sys2Proof.Machine.execFwDownload h offset data s
  | .fwVerify h verdict digest => Sys2Proof.Machine.execFwVerify h verdict digest s
  | .fwActivate h => Sys2Proof.Machine.execFwActivate h s
  | .fwConfirm h => Sys2Proof.Machine.execFwConfirm h s
  | .partCreate h r => Sys2Proof.Machine.execPartCreate h r s
  | .partTenantChange h => Sys2Proof.Machine.execPartTenantChange h s
  | .partDestroy h => Sys2Proof.Machine.execPartDestroy h s
  | .partMailbox h ctx cmdAddr rspAddr => Sys2Proof.Machine.execPartMailbox h ctx cmdAddr rspAddr s
  | .partEventRing h ctx addr log2 => Sys2Proof.Machine.execPartEventRing h ctx addr log2 s
  | .partAddUnit h near unit => Sys2Proof.Machine.execPartAddUnit h near unit s
  | .regionCreate h r => Sys2Proof.Machine.execRegionCreate h r s
  | .regionDestroy h region => Sys2Proof.Machine.execRegionDestroy h region s
  | .regionMigrate h region width tier share salt => Sys2Proof.Machine.execRegionMigrate h region width tier share salt s
  | .regionQuery h region => Sys2Proof.Machine.execRegionQuery h region s
  | .objectCreate h o => Sys2Proof.Machine.execObjectCreate h o s
  | .contextWrite h c => Sys2Proof.Machine.execContextWrite h c s
  | .windowWrite h record w => Sys2Proof.Machine.execWindowWrite h record w s
  | .rankTableLoad h job entries => Sys2Proof.Machine.execRankTableLoad h job entries s
  | .headBind h b => Sys2Proof.Machine.execHeadBind h b s
  | .queueCreate h q => Sys2Proof.Machine.execQueueCreate h q s
  | .queueReset h queue => Sys2Proof.Machine.execQueueReset h queue s
  | .queueAbort h queue => Sys2Proof.Machine.execQueueAbort h queue s
  | .queueDestroy h queue => Sys2Proof.Machine.execQueueDestroy h queue s
  | .tallyPair h producer consumer k => Sys2Proof.Machine.execTallyPair h producer consumer k s
  | .tallyUnpair h tally => Sys2Proof.Machine.execTallyUnpair h tally s
  | .tallySet h tally value => Sys2Proof.Machine.execTallySet h tally value s
  | .leaseCreate h ctx region first count duration => Sys2Proof.Machine.execLeaseCreate h ctx region first count duration s
  | .leaseRenew h lease => Sys2Proof.Machine.execLeaseRenew h lease s
  | .leaseQuery h lease => Sys2Proof.Machine.execLeaseQuery h lease s
  | .modeChange h m => Sys2Proof.Machine.execModeChange h m s
  | .unitModeAck kind unit => Sys2Proof.Machine.execUnitModeAck kind unit s
  | .modeChangeTimeout => Sys2Proof.Machine.execModeChangeTimeout s
  | .paramSet h param index value => Sys2Proof.Machine.execParamSet h param index value s
  | .policeSet h index value => Sys2Proof.Machine.execPoliceSet h index value s
  | .gateCtrlSet h index value => Sys2Proof.Machine.execGateCtrlSet h index value s
  | .gateEntrySet h index value => Sys2Proof.Machine.execGateEntrySet h index value s
  | .pairEnableSet h value => Sys2Proof.Machine.execPairEnableSet h value s
  | .forceClaim h value => Sys2Proof.Machine.execForceClaim h value s
  | .domeReq h value => Sys2Proof.Machine.execDomeReq h value s
  | .logRead h m => Sys2Proof.Machine.execLogRead h m s
  | .logClear h m => Sys2Proof.Machine.execLogClear h m s
  | .countersRead h block => Sys2Proof.Machine.execCountersRead h block s
  | .injectFlip h ext line mask => Sys2Proof.Machine.execInjectFlip h ext line mask s
  | .rawModeEnter h ext => Sys2Proof.Machine.execRawModeEnter h ext s
  | .rawWrite h ext line data check => Sys2Proof.Machine.execRawWrite h ext line data check s
  | .rawRead h ext line => Sys2Proof.Machine.execRawRead h ext line s
  | .rawModeExit h ext => Sys2Proof.Machine.execRawModeExit h ext s
  | .heartbeatSend => Sys2Proof.Machine.execHeartbeatSend s
  | .heartbeatReceive port p hb => Sys2Proof.Machine.execHeartbeatReceive port p hb s
  | .ringMessageReceive hb hops crcOk => Sys2Proof.Machine.execRingMessageReceive hb hops crcOk s
  | .heartbeatPeriod => Sys2Proof.Machine.execHeartbeatPeriod s
  | .discrepancyTimer => Sys2Proof.Machine.execDiscrepancyTimer s
  | .pairTakeover => Sys2Proof.Machine.execPairTakeover s
  | .mirrorHoldEnd => Sys2Proof.Machine.execMirrorHoldEnd s
  | .resyncStart => Sys2Proof.Machine.execResyncStart s
  | .resyncPageDone => Sys2Proof.Machine.execResyncPageDone s
  | .returnRequest => Sys2Proof.Machine.execReturnRequest s
  | .returnTimeout => Sys2Proof.Machine.execReturnTimeout s
  | .returnRetry => Sys2Proof.Machine.execReturnRetry s
  | .handoffTimeout => Sys2Proof.Machine.execHandoffTimeout s
  | .ringWholeTimer => Sys2Proof.Machine.execRingWholeTimer s
  | .mringLockLoss => Sys2Proof.Machine.execMringLockLoss s
  | .mringLockGain => Sys2Proof.Machine.execMringLockGain s
  | .standbyPatrol d1 d2 => Sys2Proof.Machine.execStandbyPatrol d1 d2 s
  | .engineIdleSelftest engine pass => Sys2Proof.Machine.execEngineIdleSelftest engine pass s
  | .portLoopbackTest failing => Sys2Proof.Machine.execPortLoopbackTest failing s
  | .engineHangDetect engine => Sys2Proof.Machine.execEngineHangDetect engine s
  | .moverHangDetect mover channel => Sys2Proof.Machine.execMoverHangDetect mover channel s
  | .mcHangDetect m rank bank => Sys2Proof.Machine.execMcHangDetect m rank bank s
  | .mgmtCoreHangDetect => Sys2Proof.Machine.execMgmtCoreHangDetect s
  | .xbarSecHangDetect sec quadrant => Sys2Proof.Machine.execXbarSecHangDetect sec quadrant s
  | .engineReset engine => Sys2Proof.Machine.execEngineReset engine s
  | .engineResetDone engine pass => Sys2Proof.Machine.execEngineResetDone engine pass s
  | .moverReset mover => Sys2Proof.Machine.execMoverReset mover s
  | .tagIncrementDeferred d => Sys2Proof.Machine.execTagIncrementDeferred d s
  | .subchannelRetrain m => Sys2Proof.Machine.execSubchannelRetrain m s
  | .retrainDone m raaimt raammt => Sys2Proof.Machine.execRetrainDone m raaimt raammt s
  | .retrainFailTimeout m => Sys2Proof.Machine.execRetrainFailTimeout m s
  | .partitionResetDone part => Sys2Proof.Machine.execPartitionResetDone part s
  | .warmReset sideband drained b => Sys2Proof.Machine.execWarmReset sideband drained b s
  | .warmResetDone => Sys2Proof.Machine.execWarmResetDone s
  | .engineSlowWindow part group ticks => Sys2Proof.Machine.execEngineSlowWindow part group ticks s
  | .memoryUnitSlow m rate median => Sys2Proof.Machine.execMemoryUnitSlow m rate median s
  | .powerGrant => Sys2Proof.Machine.execPowerGrant s
  | .drawSample islands => Sys2Proof.Machine.execDrawSample islands s
  | .thermalSample temps => Sys2Proof.Machine.execThermalSample temps s
  | .thermalLimitStep => Sys2Proof.Machine.execThermalLimitStep s
  | .voltageLoopTick needMv => Sys2Proof.Machine.execVoltageLoopTick needMv s
  | .dramCalibration m rank => Sys2Proof.Machine.execDramCalibration m rank s
  | .domeEntry => Sys2Proof.Machine.execDomeEntry s
  | .domeRefused => Sys2Proof.Machine.execDomeRefused s
  | .domeWake byWarmN digestOk b => Sys2Proof.Machine.execDomeWake byWarmN digestOk b s
  | .wakeRailTimeout => Sys2Proof.Machine.execWakeRailTimeout s
  | .pldmRequest req => Sys2Proof.Machine.execPldmRequest req s
  | .powerGoodDeassert => Sys2Proof.Machine.execPowerGoodDeassert s
  | .resetNAssert => Sys2Proof.Machine.execResetNAssert s
  | .selfRefreshTimeout => Sys2Proof.Machine.execSelfRefreshTimeout s
  | .memoryRailFault rail => Sys2Proof.Machine.execMemoryRailFault rail s
  | .resetNRelease st b => Sys2Proof.Machine.execResetNRelease st b s
  | .trainingDone t => Sys2Proof.Machine.execTrainingDone t s
  | .warmNPulse ns drained b => Sys2Proof.Machine.execWarmNPulse ns drained b s
  | .tapReset => Sys2Proof.Machine.execTapReset s
  | .extest cells => Sys2Proof.Machine.execExtest cells s
  | .idcode => Sys2Proof.Machine.execIdcode s
  | .samplePreload pins preload => Sys2Proof.Machine.execSamplePreload pins preload s
  | .clamp => Sys2Proof.Machine.execClamp s
  | .highz => Sys2Proof.Machine.execHighz s
  | .extestPulse cells => Sys2Proof.Machine.execExtestPulse cells s
  | .extestTrain cells => Sys2Proof.Machine.execExtestTrain cells s
  | .bypass => Sys2Proof.Machine.execBypass s
  | .ddrAlert channel errA errB => Sys2Proof.Machine.execDdrAlert channel errA errB s
  | .cxlLinkUp link => Sys2Proof.Machine.execCxlLinkUp link s
  | .configRequest head req => Sys2Proof.Machine.execConfigRequest head req s
  | .hdmDecoderCommit head idx base size ways granularity dpaBase bi => Sys2Proof.Machine.execHdmDecoderCommit head idx base size ways granularity dpaBase bi s
  | .mailboxRingWrite head off data => Sys2Proof.Machine.execMailboxRingWrite head off data s
  | .queueDepthSample depths => Sys2Proof.Machine.execQueueDepthSample depths s
  | .powerUp => Sys2Proof.Machine.execPowerUp s

end Sys2Proof.Machine
end

