-- ==== Sys2Proof/Machine/Step.lean ====
section
/-! DEFINITION. One step of Feryth: the front command of the queue, or idling. -/

namespace Sys2Proof.Machine

open Sys2Proof

/-- A step takes the command at the front of the queue and runs it on the state with the queue's rest. On an empty
queue the device idles and its clock advances (log entry 8). -/
def step (s : State) : Host.Outcome State Fault Refusal :=
  match s.pending with
  | [] => .next (idle s)
  | c :: rest => exec c (s.withQueue rest)

/-- The state with the command that the word spells put at the front of its queue (log entry 10): unchanged where the
word spells none, which is every word. -/
def State.withFetchWord (s : State) (nbits w : Nat) : State :=
  match decodeTableWord nbits w with
  | some c => s.withQueue (c :: s.pending)
  | none => s

end Sys2Proof.Machine
end

