-- ==== Sys2Proof/Safety.lean ====
section
/-! DEFINITION. What counts as a safe step, and the conditions in which claims are stated. -/

namespace Sys2Proof.Safety

open Sys2Proof Sys2Proof.Machine

/-- A step that answers a next state. -/
def SafeStep (s : State) : Prop := ∃ t, step s = .next t

/-- Descriptor `j` of opcode `op` was dispatched as job `i` and has no result yet (R126). -/
abbrev Running (d : Dev) (i : Nat) (j : Job) (op : Nat) : Prop := d.job i = some j ∧ j.result = none ∧ dOpcode j.desc = op

/-- The device as a command that runs a descriptor finds it: no outputs yet, and nothing to be made again. -/
def ready (d : Dev) : Dev :=
  { d with out := [], again := false, wantFront := [], winDone := [], cur := none, stream := .other }

/-- The device as the operation of descriptor `i`, job `j`, finds it: its accesses are made in the job's name (R73, R175). -/
def under (d : Dev) (i : Nat) (j : Job) : Dev := { ready d with cur := some i, stream := j.stream }

/-- Job `j` with its result, which COMPLETION_WRITE will write (R121). -/
def withResult (j : Job) (st : Status) (result : U64) (residue : U32) : Job :=
  { j with result := some { status := st, result := result, residue := residue }, waiting := false }

/-- The device with job `j` ended, and nothing else changed. -/
def ended (d : Dev) (j : Job) (st : Status) (result : U64) (residue : U32) : Dev := d.putJob (withResult j st result residue)

/-- Nothing waits at the memory controllers, and no bank comes within `n` activations of the count at which a stream is throttled (R153,
R175, R343). -/
abbrev Calm (d : Dev) (n : Nat) : Prop :=
  d.units.all (fun u => u.2.retrain.isNone && u.2.held.isEmpty && u.2.throttles.isEmpty &&
    (u.2.raaimt == 0 || u.2.raammt == 0 || (decide (n < u.2.raammt) && u.2.raa.all (fun b => decide (b.2 + n < u.2.raammt))))) = true

/-- Offset `off` of region `r` is served by line `line` of memory unit `m`, outside the coherent window, and the stored word of
that line is valid (R36, R148). -/
abbrev ValidLine (d : Dev) (r off m line : Nat) : Prop :=
  (tget d.regions r).any (fun reg => !reg.window && d.place reg off == some (m, line)) = true ∧
  (d.unit m).dead = false ∧ d.pool.fault m line = {}

/-- Nothing holds a write at region `r`: it lies outside the coherent window, is not paired and does not migrate, and no rebuild runs. -/
abbrev FreeToWrite (d : Dev) (r : Nat) : Prop :=
  d.paired r = false ∧ (tget d.regions r).any (fun reg => !reg.window && !reg.migrating) = true ∧ d.rebuilds = []

/-- The lines of `n` offsets of region `r` from byte `off` on are lines `u 0`, `u 1`, … of the arrays. -/
abbrev Lines (d : Dev) (r off n : Nat) (u : Nat → Nat × Nat) : Prop :=
  ∀ k, k < n → ((tget d.regions r).bind fun reg => d.place reg (off + 64 * k)) = some (u k)

/-- The device after the rows of `n` lines are activated, in order (R174). -/
def activated (d : Dev) (n : Nat) (u : Nat → Nat × Nat) : Dev := (List.range n).foldl (fun e k => e.activate (u k).1 (u k).2) d

/-- The device after `n` lines are written, in order, each with its row activated (R150, R174). -/
def written (d : Dev) (n : Nat) (u : Nat → Nat × Nat) (x : Nat → Line) : Dev :=
  (List.range n).foldl (fun e k => e.writeLine (u k).1 (u k).2 (x k)) d

/-- Work that took device `d` to `e` met nothing that it must wait for and mirrored no write (R253, R317). -/
abbrev Undisturbed (d e : Dev) : Prop := e.again = false ∧ e.winDone = [] ∧ e.pair.nextMirror = d.pair.nextMirror

/-- A CXL access of head `h` at host address `hpa`, which needs the rights `needs`, reaches offset `off` of region `r`, whose record is `reg`;
the device is `e` once the port has its translation (R15, R232, R234, R244). -/
abbrev Reaches (d : Dev) (h hpa : Nat) (needs : List Right) (r off : Nat) (reg : Region) (e : Dev) : Prop :=
  d.memOpen h = true ∧ (ready d).cxlLocate h hpa needs = (.ok (r, off), e) ∧ tget e.regions r = some reg ∧ Undisturbed d e

/-- No request for a window line is under way or waits (R253). -/
abbrev FreeWindow (d : Dev) : Prop := d.winTxns = [] ∧ d.winWaits = []

/-- Line `line` of window region `r` is line `l` of memory unit `m`, whose stored word is valid (R148, R249). -/
abbrev GoodWindowLine (d : Dev) (r line m l : Nat) : Prop :=
  d.winPlace r line = some (m, l) ∧ (d.unit m).dead = false ∧ d.pool.fault m l = {}

/-- A command source that Huanik may serve now: its ring has a command whose response has room, and a partition's ring acts on that
partition alone, which does not reset (R294, R299, R344). -/
def srcReady (s : State) (c : CmdSrc) (target : Option Nat) : Bool :=
  match c with
  | .device => s.mbx.ready
  | .fm => true
  | .part p => s.dev.partReady p && (s.dev.partn p).state != .resetting && target.all (fun t => t == p)

/-- A command with header `h`, accepted from the sources `src` and acting on partition `target`, is taken and passes the checks that
come before its own: Huanik runs, no creation waits, Dome is not requested, it is the turn of the command's source, its header is well
formed, its source is one that Table 12.7 marks, and the partition it acts on does not reset (R26, R292, R294, R299, R301, R366). -/
abbrev Accepts (s : State) (h : CmdHdr) (src : Sources) (target : Option Nat) : Prop :=
  (s.dev.sys.stage = .running ∧ s.dev.sys.resetN = true ∧ s.dev.sys.inDome = false ∧ s.dev.sys.islandsOff = false) ∧
  s.dev.hk.waitingCreate = [] ∧ s.dev.sys.domeReqAt = none ∧ s.turnOf (srcTurn h.src) = true ∧ s.badHeader h = false ∧
  src.has h.src = true ∧ srcReady s h.src target = true ∧ target.all (fun t => (s.dev.partn t).state != .resetting) = true

/-- The header and the opcode of a Huanik command (Table 12.7). -/
def commandOf (i : Instr) : Option (CmdHdr × Nat) :=
  match i with
  | .rebuildStart h _ => some (h, 0x0801)
  | .portControlEnable h _ => some (h, 0x0701)
  | .portControlDisable h _ => some (h, 0x0701)
  | .portControlRetrain h _ => some (h, 0x0701)
  | .portControlCreditAdv h _ _ => some (h, 0x0701)
  | .routeLoad h _ _ => some (h, 0x0304)
  | .routeFlip h _ => some (h, 0x0305)
  | .routeRetire h _ => some (h, 0x0306)
  | .huanikNop h => some (h, 0x0001)
  | .runtimeLoad h _ _ _ _ _ _ _ => some (h, 0x0002)
  | .lcTransition h _ _ _ _ _ => some (h, 0x0008)
  | .fwInfo h => some (h, 0x0010)
  | .fwDownload h _ _ => some (h, 0x0011)
  | .fwVerify h _ _ => some (h, 0x0012)
  | .fwActivate h => some (h, 0x0013)
  | .fwConfirm h => some (h, 0x0014)
  | .partCreate h _ => some (h, 0x0101)
  | .partTenantChange h => some (h, 0x0102)
  | .partDestroy h => some (h, 0x0103)
  | .partMailbox h _ _ _ => some (h, 0x0104)
  | .partEventRing h _ _ _ => some (h, 0x0105)
  | .partAddUnit h _ _ => some (h, 0x0106)
  | .regionCreate h _ => some (h, 0x0201)
  | .regionDestroy h _ => some (h, 0x0202)
  | .regionMigrate h _ _ _ _ _ => some (h, 0x0203)
  | .regionQuery h _ => some (h, 0x0204)
  | .objectCreate h _ => some (h, 0x0205)
  | .contextWrite h _ => some (h, 0x0301)
  | .windowWrite h _ _ => some (h, 0x0302)
  | .rankTableLoad h _ _ => some (h, 0x0303)
  | .headBind h _ => some (h, 0x0307)
  | .queueCreate h _ => some (h, 0x0401)
  | .queueReset h _ => some (h, 0x0402)
  | .queueAbort h _ => some (h, 0x0403)
  | .queueDestroy h _ => some (h, 0x0404)
  | .tallyPair h _ _ _ => some (h, 0x0405)
  | .tallyUnpair h _ => some (h, 0x0406)
  | .tallySet h _ _ => some (h, 0x0407)
  | .leaseCreate h _ _ _ _ _ => some (h, 0x0501)
  | .leaseRenew h _ => some (h, 0x0502)
  | .leaseQuery h _ => some (h, 0x0503)
  | .modeChange h _ => some (h, 0x0601)
  | .paramSet h _ _ _ => some (h, 0x0702)
  | .policeSet h _ _ => some (h, 0x0702)
  | .gateCtrlSet h _ _ => some (h, 0x0702)
  | .gateEntrySet h _ _ => some (h, 0x0702)
  | .pairEnableSet h _ => some (h, 0x0702)
  | .forceClaim h _ => some (h, 0x0702)
  | .domeReq h _ => some (h, 0x0702)
  | .logRead h _ => some (h, 0x0802)
  | .logClear h _ => some (h, 0x0803)
  | .countersRead h _ => some (h, 0x0804)
  | .injectFlip h _ _ _ => some (h, 0x0805)
  | .rawModeEnter h _ => some (h, 0x0805)
  | .rawWrite h _ _ _ _ => some (h, 0x0805)
  | .rawRead h _ _ => some (h, 0x0805)
  | .rawModeExit h _ => some (h, 0x0805)
  | _ => none

/-- The device does `f`, and the command is answered with a status and output words (R293, R294). -/
def answered (s : State) (h : CmdHdr) (opcode : Nat) (st : Status) (outs : List U64) (f : Dev → Dev) : State :=
  (s.onDev f).answer h opcode st outs

/-- Head `h` exists, and its CXL mailbox answers. -/
abbrev MailboxUp (d : Dev) (h : Nat) : Prop := d.headExists h = true ∧ d.sys.resetN = true ∧ d.sys.islandsOff = false

/-- A DIAG operation on a line of an extent passes its checks (R176). -/
abbrev DiagOpen (d : Dev) (x : Extent) (line : Nat) (raw : Bool) : Prop := d.diagCheck x line = none ∧ d.rawSlot x = raw

/-- The device with words written where a command's payload lies, as far as its buffer reaches. -/
def staged (d : Dev) (h : CmdHdr) (ws : List U64) : Dev :=
  { d with sram := memWriteList d.sram (staging + h.bufOff) ((ws.flatMap (bytesOf 8)).take h.bufLen) }

/-- Packet `p` is for this device and may be taken from port `n`: the islands run, the packet is next in its class, and the crossbar grants
it (R20, R24, R181). -/
abbrev Arrives (d : Dev) (n : Nat) (p : Packet) : Prop := p.dstEp = d.selfEp ∧ d.mayTake n p = true

/-- Packet `p`, which arrives by port `n`, is the next of its flow, whose later packets have not come (R216), and is not of the unnumbered
TC7 traffic. -/
abbrev NextOfFlow (d : Dev) (n : Nat) (p : Packet) (x : FlowRx) : Prop :=
  Arrives d n p ∧ (p.tc ≠ 7 ∨ p.escaped = true) ∧ d.flow { src := p.srcEp, dst := p.dstEp, tc := p.flowTc } = some x ∧
  p.sync = false ∧ p.flowSeq = x.e ∧ x.held = [] ∧ x.gone = [] ∧ x.missing = []

/-- The device after packet `p` of port `n` has had its turn at the crossbar (R24) and left the link buffer (R191), and the port by which
its sender reaches this device is known (R224). -/
def arrived (d : Dev) (n : Nat) (p : Packet) : Dev :=
  (((ready d).grantLines n p).takeRx n p).modRt (fun r => { r with lastPort := tset r.lastPort p.srcEp n })

/-- The device after packet `p` of port `n`, the next of flow `x`, has arrived and been put in order (R216). -/
def inOrder (d : Dev) (n : Nat) (p : Packet) (x : FlowRx) : Dev := (arrived d n p).putFlow { x with e := x.e + 1 }

/-- The device that serves request `p` of port `n` in context `c`: the port has the translation, and the accesses are the request's (R15,
R175). -/
def serving (d : Dev) (n : Nat) (p : Packet) (x : FlowRx) (c : Nat) : Dev :=
  { (inOrder d n p x).transFill n c p.addr.toNat with stream := .port n c }

/-- Packet `p` is a notice for this device, which TC7 carries unnumbered (R206). -/
abbrev Notice (d : Dev) (n : Nat) (p : Packet) : Prop := Arrives d n p ∧ p.tc = 7 ∧ p.escaped = false

/-- Request `p` passes the first ingress steps (R207, R208, R210) into context `c`, which no policing holds back (R227). -/
abbrev Admitted (d : Dev) (n : Nat) (p : Packet) (c : Nat) : Prop :=
  d.rankEp p.job p.srcRank = some p.srcEp ∧ badRequest p = false ∧ d.windowCtx p.job p.window p.srcRank = some c ∧
  (d.context c).valid = true ∧ (d.partn (d.context c).partition).state = .active ∧
  field (d.param 0x0024 (32 * n + (d.context c).partition)) 0 11 = 0x7FF

/-- Request `p`, the next of flow `x` at port `n`, is admitted to context `c`, where segment `g` covers it and grants right `w`; the
device that serves it is `e` (Table 9.7). -/
abbrev Served (d : Dev) (n : Nat) (p : Packet) (x : FlowRx) (c : Nat) (g : Segment) (w : Right) (e : Dev) : Prop :=
  NextOfFlow d n p x ∧ Admitted d n p c ∧ e = serving d n p x c ∧ Undisturbed d e ∧ segOf (e.context c) p.addr.toNat = some g ∧
  segGrants g w = true ∧ segCovers g p.addr.toNat (64 * costOf p) = true

/-- What a latency window of spray set `v` measured: the latencies of its ACTIVE ports, sorted, and the runs of each (R215). -/
def measuredRuns (d : Dev) (v : U32) : List (Nat × Nat) × List SprayRun :=
  let act := (bitsOf v).filter (fun n => d.portActive n)
  let known := (act.filterMap (fun n => (d.port n).latency.map (fun l => (n, l)))).foldl (fun acc x => insertLat x acc) []
  (known, act.map (fun n =>
    let x := (d.rt.sprays.find? (fun x => x.spray == v && x.port == n)).getD { spray := v, port := n }
    { x.window (d.port n).latency (twiceMedian known) with lat := (d.port n).latency.or x.lat }))

/-- The device with every port's latencies of the window gone. -/
def restarted (d : Dev) : Dev :=
  { d with ports := d.ports.map (fun (x : Nat × Port) => (x.1, { x.2 with latSum := 0, latCount := 0 })) }

/-- The device with every wait for credit, gate and spray set counted up to now (R202, R230, R231). -/
def counted (d : Dev) : Dev := (d.ports.foldl (fun e x => e.settleWaits x.1) d).settleExcluded

/-- The device with mode `m` in force, its generation moved on and its operation ended; nothing is staged (R128, R350). -/
def inForce (d : Dev) (m : ModeIn) (op : Nat) : Dev :=
  let e := m.queues.foldl (fun e q => e.modQueue q.1 fun y => { y with group := q.2.1, prioCap := q.2.2.1, weight := q.2.2.2 })
    (m.groups.foldl (fun e g => e.modGroup g.1 g.2.1 fun y => { y with engines := g.2.2.1, movers := g.2.2.2 }) d)
  let pace := m.paceUs.getD d.hk.paceUs
  let f : Dev := { e with hk := { e.hk with
    formats := m.formats.getD e.hk.formats, arbFixed := (m.arbMode.map (fun a => a == 1)).getD e.hk.arbFixed
    paceUs := pace, paceAt := if pace = d.hk.paceUs then e.hk.paceAt else [], staged := none } }
  ((f.setSys fun y => { y with modeGen := y.modeGen + 1 }).measure 5).commandDone (some op) none .ok

/-- The orders of R294 between the counts of the command and response rings: the commands answered are no more than those
submitted, and neither runs more than 256 ahead of the responses consumed. -/
def MailboxOrder (m : Mbx) : Prop :=
  (m.devSeq - m.rspHead).toNat ≤ (m.hostSeq - m.rspHead).toNat ∧ (m.hostSeq - m.rspHead).toNat ≤ 256

/-- The arrays, the mailbox window and the flash are in the canonical form of a byte memory (log entry 1). -/
def Canonical (d : Dev) : Prop := memWf d.pool.cells = true ∧ memWf d.sram = true ∧ memWf d.sys.flash = true

/-- Every byte of the arrays reads as before. -/
def ArraysKept (d e : Dev) : Prop := ∀ a, memRead e.pool.cells a = memRead d.pool.cells a

end Sys2Proof.Safety
end

