-- ==== Sys2Proof/Certificates/Slice0/Obligations.lean ====
section
/-! DEFINITION. Claims about Feryth for the provers, from the numbered rules of the spec. -/

open Sys2Proof Sys2Proof.Machine Sys2Proof.Safety

/-! ## The whole machine -/

/-- A step runs the command at the front of the queue on the state with the queue's rest, in which nothing but the queue differs. On an empty
queue the outputs go and the clock moves on by one nanosecond (DESIGN CHOICE, log entry 8). -/
def Obligations.StepRunsFrontCommand : Prop :=
  (∀ (c : Instr) (rest : List Instr) (s : State), s.pending = c :: rest → step s = exec c (s.withQueue rest)) ∧
  (∀ (rest : List Instr) (s : State),
    (s.withQueue rest).pending = rest ∧ (s.withQueue rest).mbx = s.mbx ∧ (s.withQueue rest).dev = s.dev) ∧
  (∀ s : State, s.pending = [] →
    step s = .next { s with dev := { s.dev with out := [], now := s.dev.now + 1 } })

/-- The state at reset, where the spec gives it: all counts of the mailbox are 0 and nobody owns the device (R287, Table 12.1);
`stage` is ROM (Table 12.2); the tags are 0 (R336); PWR.LIMIT is 450 W and PWR.BOOST_LIMIT 520 W (Table 15.2); every doorbell is
inactive, since no queue pair exists (R113); every port is DISABLED (R193); no partition is ACTIVE (R259); RETAIN is clear and
MRING_BYP_N is at high impedance (R373, R374). The TAP's selected instruction is the model's choice (log entry 7), and the other
values that no rule gives are those of log entry 2. -/
def Obligations.ResetState : Prop :=
  State.reset.mbx = {} ∧ State.reset.dev.sys.stage = .rom ∧ State.reset.dev.sys.deviceGen = 0 ∧
  (∀ q, (State.reset.dev.queue q).exists_ = false) ∧ (∀ n, (State.reset.dev.port n).state = .disabled) ∧
  (∀ p, (State.reset.dev.partn p).state = .free ∧ (State.reset.dev.partn p).gen = 0) ∧
  (∀ c, State.reset.dev.count c = 0) ∧ (∀ t, State.reset.dev.tally t = {}) ∧
  State.reset.dev.param 0x0050 0 = 450 ∧ State.reset.dev.param 0x0051 0 = 520 ∧
  State.reset.dev.sys.retain = false ∧ State.reset.dev.sys.mringByp = .hiZ ∧ State.reset.dev.tap.instr = .idcode ∧
  State.reset.dev.pair.role = .offline ∧ (∀ m line, State.reset.dev.pool.fault m line = {})

/-- At reset the counts of the mailbox are in the order of R294 and every byte memory is in canonical form. -/
def Obligations.ResetMeetsInvariants : Prop := MailboxOrder State.reset.mbx ∧ Canonical State.reset.dev

/-- Every step keeps MBX.RSP_HEAD ≤ MBX.DEV_SEQ ≤ MBX.HOST_SEQ in the order of R114, and never more than 256 commands outstanding
beyond MBX.RSP_HEAD (R294). -/
def Obligations.MailboxOrderKept : Prop :=
  ∀ s t : State, MailboxOrder s.mbx → step s = .next t → MailboxOrder t.mbx

/-- A command never touches the commands that wait behind it; a step never refuses; and only an access to a line that no trained
memory unit has can fault (R28). -/
def Obligations.OnlyAbsentLinesStop : Prop :=
  (∀ (c : Instr) (s t : State), exec c s = .next t → t.pending = s.pending) ∧
  (∀ (c : Instr) (s : State) (r : Refusal), exec c s ≠ .refused r) ∧
  (∀ (c : Instr) (s : State) (f : Fault), exec c s = .fault f →
    (∃ m line d1 d2, c = .lineRead m line d1 d2) ∨ (∃ m line x, c = .lineWrite m line x) ∨
    (∃ m line x en d1 d2, c = .readModifyWrite m line x en d1 d2))

/-- The driver's ownership (`driver_epoch`, `owner_head`, `owned`) changes only by a write to MBX.ATTACH or by a reset of the
islands (R287, R290). -/
def Obligations.OwnerChangesOnlyByAttachOrReset : Prop :=
  ∀ (c : Instr) (s t : State), exec c s = .next t →
    (t.mbx.epoch = s.mbx.epoch ∧ t.mbx.ownerHead = s.mbx.ownerHead ∧ t.mbx.owned = s.mbx.owned) ∨
    (∃ h, c = .mbxAttach h) ∨ (∃ h off len v, c = .registerWrite h off len v) ∨ t.mbx = {}

/-! ## Queues -/

/-- QUEUE_DOORBELL accepted (R118): a single aligned 8-byte write, from a context the queue allows, to an ACTIVE or PARKED queue,
with counts that pass their checks, sets `sq_tail` and `cq_head` and nothing else.
APERTURE_RESERVED_WRITE (R117): it is discarded, counted in DB.REJECTED and reported with BOUNDS.
PART_MAILBOX_DOORBELL (R299) and PART_EVENT_RING_DOORBELL (R300), accepted: they set that ring's two counts, or its head.
No Dome is requested and the partition does not reset in any of the four.

A queue doorbell write that is refused changes no count (R118): one that is not a single aligned 8-byte write is counted in
DB.REJECTED and reported with FORMAT; one from a context that the queue does not allow, with RIGHTS; one to a queue that is
DISABLED or ERROR is counted in DB.INACTIVE; and one that fails a count check sets the queue to ERROR and raises QUEUE_ERROR with
FORMAT. -/
def Obligations.Doorbells : Prop :=
  (∀ (s : State) (w : DbWrite) (q : Nat) (x : Queue), w.off = 8 * q → q < 262144 → w.len = 8 → s.dev.queue q = x → x.exists_ = true →
    s.dev.sys.domeReqAt = none → (s.dev.partn x.partition).state ≠ .resetting →
    (w.ctx = x.context ∨ (x.anyContext = true ∧ (s.dev.context w.ctx).partition = x.partition)) →
    (x.state = .active ∨ x.state = .parked) →
    (w.value.truncate 32 - x.sqHead).toNat ≤ 2 ^ x.sqLog2 → (w.value.truncate 32 - x.sqTail).toNat ≤ 2 ^ x.sqLog2 →
    (x.cqTail - (w.value >>> 32).truncate 32).toNat ≤ 2 ^ x.cqLog2 →
    ((w.value >>> 32).truncate 32 - x.cqHead).toNat ≤ 2 ^ x.cqLog2 →
    exec (.queueDoorbell w) s = .next (s.onDev fun d => d.modQueue q fun y =>
      { y with sqTail := w.value.truncate 32, cqHead := (w.value >>> 32).truncate 32 })) ∧
  (∀ (s : State) (w : DbWrite), s.dev.sys.domeReqAt = none → 0x200200 ≤ w.off →
    exec (.apertureReservedWrite w) s = .next (s.onDev fun d => (d.bump .dbRejected).raise
      { code := .doorbellRejected, context := some w.ctx, detail0 := some (BitVec.ofNat 64 w.off), detail1 := some (statusWord .bounds) })) ∧
  (∀ (s : State) (w : DbWrite) (p : Nat) (m : PartMbx), w.off = 0x200000 + 8 * p → p < 32 → w.len = 8 →
    tget s.dev.partMbx p = some m → s.dev.sys.domeReqAt = none → (s.dev.partn p).state ≠ .resetting → w.ctx = m.ctx →
    (w.value.truncate 32 - m.cmdDone).toNat ≤ 64 → (w.value.truncate 32 - m.cmdTail).toNat ≤ 64 →
    (m.cmdDone - (w.value >>> 32).truncate 32).toNat ≤ 64 → ((w.value >>> 32).truncate 32 - m.rspHead).toNat ≤ 64 →
    exec (.partMailboxDoorbell w) s = .next (s.onDev fun d =>
      let m' := { m with cmdTail := w.value.truncate 32, rspHead := (w.value >>> 32).truncate 32 }
      { d with partMbx := tset d.partMbx p m' })) ∧
  (∀ (s : State) (w : DbWrite) (p : Nat) (g : PartRing), w.off = 0x200100 + 8 * p → p < 32 → w.len = 8 →
    tget s.dev.partRings p = some g → s.dev.sys.domeReqAt = none → (s.dev.partn p).state ≠ .resetting →
    (s.dev.context w.ctx).valid = true → (s.dev.context w.ctx).partition = p → w.value >>> 32 = 0 →
    (g.tail - w.value.truncate 32).toNat ≤ 2 ^ g.log2 → (w.value.truncate 32 - g.head).toNat ≤ 2 ^ g.log2 → g.unreported = 0 →
    exec (.partEventRingDoorbell w) s = .next (s.onDev fun d =>
      let g' := { g with head := w.value.truncate 32 }
      { d with partRings := tset d.partRings p g' })) ∧
  (∀ (s : State) (w : DbWrite) (q : Nat) (x : Queue), w.off / 8 = q → q < 262144 → s.dev.queue q = x → x.exists_ = true →
    s.dev.sys.domeReqAt = none → (s.dev.partn x.partition).state ≠ .resetting →
    (w.off % 8 ≠ 0 ∨ w.len ≠ 8) →
    exec (.queueDoorbell w) s = .next (s.onDev fun d => (d.bump .dbRejected).raise
      { code := .doorbellRejected, part := some x.partition, context := some w.ctx, queue := some q,
        detail0 := some (BitVec.ofNat 64 w.off), detail1 := some (statusWord .format) })) ∧
  (∀ (s : State) (w : DbWrite) (q : Nat) (x : Queue), w.off / 8 = q → q < 262144 → s.dev.queue q = x → x.exists_ = true →
    s.dev.sys.domeReqAt = none → (s.dev.partn x.partition).state ≠ .resetting →
    w.off % 8 = 0 → w.len = 8 → w.ctx ≠ x.context →
    (x.anyContext = false ∨ (s.dev.context w.ctx).partition ≠ x.partition) →
    exec (.queueDoorbell w) s = .next (s.onDev fun d => (d.bump .dbRejected).raise
      { code := .doorbellRejected, part := some x.partition, context := some w.ctx, queue := some q,
        detail0 := some (BitVec.ofNat 64 w.off), detail1 := some (statusWord .rights) })) ∧
  (∀ (s : State) (w : DbWrite) (q : Nat) (x : Queue), w.off / 8 = q → q < 262144 → s.dev.queue q = x → x.exists_ = true →
    s.dev.sys.domeReqAt = none → (s.dev.partn x.partition).state ≠ .resetting →
    w.off % 8 = 0 → w.len = 8 → w.ctx = x.context → (x.state = .disabled ∨ x.state = .error) →
    exec (.queueDoorbell w) s = .next (s.onDev fun d => d.bump .dbInactive)) ∧
  (∀ (s : State) (w : DbWrite) (q : Nat) (x : Queue), w.off / 8 = q → q < 262144 → s.dev.queue q = x → x.exists_ = true →
    s.dev.sys.domeReqAt = none → (s.dev.partn x.partition).state ≠ .resetting →
    w.off % 8 = 0 → w.len = 8 → w.ctx = x.context → (x.state = .active ∨ x.state = .parked) →
    (2 ^ x.sqLog2 < (w.value.truncate 32 - x.sqHead).toNat ∨ 2 ^ x.cqLog2 < (x.cqTail - (w.value >>> 32).truncate 32).toNat) →
    exec (.queueDoorbell w) s = .next (s.onDev fun d => (d.modQueue q fun y => { y with state := .error }).raise
      { code := .queueError, part := some x.partition, context := some x.context, queue := some q,
        detail0 := some (BitVec.ofNat 64 q), detail1 := some (statusWord .format) }))

/-- DESCRIPTOR_FETCH (R126): a live, ACTIVE queue with a descriptor waiting and room in its completion ring copies its head
descriptor from its ring, reserves one completion entry and counts the descriptor in `in_flight`.
DISPATCH (R129): where one queue of weight 1 of the group is ready and one unit can take its head descriptor, which passes the checks of
R410, the descriptor becomes a job stamped with the queue's and the mode's generations, with the holds of R61 and, for a reader, the
version that it sees (R73); a TALLY_WAIT waits and parks its queue from then on (R134); and the level and the queue are recorded for the
next choice. -/
def Obligations.FetchAndDispatch : Prop :=
  (∀ (s : State) (q : Nat) (x : Queue) (r off m line : Nat), s.dev.sys.live = true → s.dev.queue q = x → x.exists_ = true →
    x.state = .active → x.sqHead ≠ x.sqTail → x.inFlight + (x.cqTail - x.cqHead).toNat < 2 ^ x.cqLog2 →
    s.dev.locate x.context (x.sqBase + 64 * (x.sqHead.toNat % 2 ^ x.sqLog2)) 64 .r = .ok (r, off) → ValidLine s.dev r off m line →
    Calm s.dev 1 →
    exec (.descriptorFetch q) s = .next (s.onDev fun d => (((ready d).activate m line).modQueue q fun y => { y with
      sqHead := y.sqHead + 1, inFlight := y.inFlight + 1 }).modQueue q fun y => { y with
      fetched := y.fetched ++
        [{ desc := d.lineData m line, slotAddr := x.sqBase + 64 * (x.sqHead.toNat % 2 ^ x.sqLog2) }] })) ∧
  (∀ (s : State) (p g q l : Nat) (x : Queue) (f : Fetched) (rest : List Fetched) (u : JobUnit), s.dev.sys.live = true →
    s.dev.readyQueues p g = [(q, l)] → s.dev.queue q = x → x.partition = p → x.group = g → x.fetched = f :: rest → x.weight = 1 →
    s.dev.ready x = true → s.dev.descCheck x f.desc = none → s.dev.takeUnit (s.dev.group p g) f.desc = some u →
    exec (.dispatch p g) s = .next (s.onDev fun d =>
      { (d.modGroup p g fun y => { y with
          lastDispatch := tset y.lastDispatch l d.now, lastServed := tset y.lastServed l q }).modQueue q
            (fun y => { y with fetched := rest, state := if dOpcode f.desc = 0x41 then .parked else y.state }) with
        nextJob := d.nextJob + 1
        jobs := d.jobs ++
          [{ id := d.nextJob, queue := q, queueGen := x.gen, modeGen := d.sys.modeGen, partition := p, desc := f.desc,
             slotAddr := f.slotAddr, unit := u, dispatchedAt := d.now, lastAccess := d.now, holds := descHolds f.desc,
             snap := d.snapshotOf f.desc, waiting := dOpcode f.desc == 0x41, result := none }] }))

/-- COMPLETION_WRITE (R121, R125, R126): the completion of a job without holds, from a queue of the job's generation, is written
as one 32-byte write within one line at its entry; `cq_tail` advances, the reservation ends and the job is gone. Its tally, if
enabled and of its partition, is signalled after that; a NOP that completes OK then renews the leases of its context (R242). Every byte of
the line outside the completion stays. -/
def Obligations.CompletionWritten : Prop :=
  ∀ (s : State) (i : Nat) (j : Job) (res : Result) (x : Queue) (r off m line : Nat),
    s.dev.job i = some j → j.id = i → j.result = some res → j.holds = [] → j.before = none →
    s.dev.pair.mirrors = [] → s.dev.queue j.queue = x → x.gen = j.queueGen →
    s.dev.locate x.context (x.cqBase + 32 * (x.cqTail.toNat % 2 ^ x.cqLog2)) 32 .w = .ok (r, off) → off % 32 = 0 →
    ValidLine s.dev r (off / 64 * 64) m line → FreeToWrite s.dev r → Calm s.dev 1 →
    exec (.completionWrite i) s = .next (s.onDev fun d =>
      let record := completionBytes (dTag j.desc) res.status j.queueGen res.residue res.result d.now j.modeGen
        (phaseOf x.cqTail.toNat (2 ^ x.cqLog2))
      let written := ((((ready d).dropJob i).activate m line).putLine m line (mergeBytes (d.lineData m line)
          (BitVec.ofNat 512 (natOfBytes record * 2 ^ (8 * (off % 64)))) (BitVec.ofNat 64 ((2 ^ 32 - 1) * 2 ^ (off % 64))))).modQueue
        j.queue (fun y => { y with cqTail := y.cqTail + 1, inFlight := y.inFlight - 1 })
      let signalled := if dTallyEn j.desc = true ∧ tallyIn (d.partn j.partition) (dTally j.desc) = true then
          written.signalTally (dTally j.desc) j.partition
        else written
      if dOpcode j.desc = 0x7F ∧ res.status = .ok then signalled.renewByNop (dCtx j.desc) else signalled)

/-- A completion whose recorded `queue_gen` differs from the queue's present one is not written and does not signal its tally; it
is counted in RST.STALE_COMPLETIONS, and the descriptor's effects on memory stand (R338). -/
def Obligations.StaleCompletionDropped : Prop :=
  ∀ (s : State) (i : Nat) (j : Job) (res : Result), s.dev.job i = some j → j.id = i → j.result = some res → j.holds = [] →
    j.before = none → s.dev.pair.mirrors = [] → (s.dev.queue j.queue).gen ≠ j.queueGen →
    exec (.completionWrite i) s = .next (s.onDev fun d => ((ready d).dropJob i).bump .rstStaleCompletions)

/-- Completion signalling (R132): an add that saturates or is refused sets the counter's flag and raises TALLY_SATURATED; one that
is neither only adds. The descriptor's own record, with its status, is not changed. -/
def Obligations.TallySignalled : Prop :=
  ∀ (d : Dev) (t p : Nat),
    (((d.tallyAfter t 1).2 = .ok → d.signalTally t p = d.setTally t (d.tallyAfter t 1).1)) ∧
    ((d.tallyAfter t 1).2 ≠ .ok → d.signalTally t p = (d.setTally t (d.tallyAfter t 1).1).raise
      { code := .tallySaturated, part := some p, detail0 := some (BitVec.ofNat 64 t), detail1 := some (statusWord (d.tallyAfter t 1).2) } ∧
      (((d.tallyAfter t 1).1.ovf = true ∨ (d.tallyAfter t 1).1.unf = true))) ∧
    (∀ u, u ≠ t → (d.signalTally t p).tallies = (d.setTally t (d.tallyAfter t 1).1).tallies ∧
      (d.setTally t (d.tallyAfter t 1).1).tally u = d.tally u) ∧
    (d.signalTally t p).jobs = d.jobs

/-- NOP completes OK with `result` and `residue` 0 (R123). TALLY_ADD adds to a counter of the partition and returns its value and
flags, first clearing the flags where bit 148 asks for it, and ends BOUNDS at a counter outside the partition's range (R133). TALLY_WAIT
waits and parks its queue (R134); at a counter outside the range it ends BOUNDS. A pending wait ends OK with the counter's value once
the counter is at or above its target, and with TIMEOUT when its limit passes; its queue returns to ACTIVE (R134). -/
def Obligations.DispatcherDescriptors : Prop :=
  (∀ (s : State) (i : Nat) (j : Job), Running s.dev i j 0x7F →
    exec (.nop i) s = .next (s.onDev fun d => ended (ready d) j .ok 0 0)) ∧
  (∀ (s : State) (i : Nat) (j : Job) (t : Nat), Running s.dev i j 0x40 → t = field j.desc 128 20 →
    tallyIn (s.dev.partn j.partition) t = true →
    exec (.tallyAdd i) s = .next (s.onDev fun d =>
      let cleared := if bit j.desc 148 then (ready d).setTally t { value := (d.tally t).value } else ready d
      let after := cleared.tallyAfter t (BitVec.ofNat 64 (field j.desc 192 64)).toInt
      ended (cleared.setTally t after.1) j after.2 after.1.value (tallyFlags after.1))) ∧
  (∀ (s : State) (i : Nat) (j : Job) (t : Nat), Running s.dev i j 0x40 → t = field j.desc 128 20 →
    tallyIn (s.dev.partn j.partition) t = false →
    exec (.tallyAdd i) s = .next (s.onDev fun d => ended (ready d) j .bounds 0 0)) ∧
  (∀ (s : State) (i : Nat) (j : Job), Running s.dev i j 0x41 → tallyIn (s.dev.partn j.partition) (field j.desc 128 20) = true →
    exec (.tallyWait i) s = .next (s.onDev fun d =>
      ((ready d).putJob { j with waiting := true }).modQueue j.queue fun y =>
        { y with state := if y.state = .active ∧ y.gen = j.queueGen then .parked else y.state })) ∧
  (∀ (s : State) (i : Nat) (j : Job), Running s.dev i j 0x41 → tallyIn (s.dev.partn j.partition) (field j.desc 128 20) = false →
    (s.dev.queue j.queue).state = .parked →
    exec (.tallyWait i) s = .next (s.onDev fun d =>
      (ended (ready d) j .bounds 0 0).modQueue j.queue fun y => { y with state := .active })) ∧
  (∀ (s : State) (i : Nat) (j : Job) (v : Tally), Running s.dev i j 0x41 → j.waiting = true → s.dev.tally (field j.desc 128 20) = v →
    field j.desc 192 64 ≤ v.value.toNat → (s.dev.queue j.queue).state = .parked →
    exec (.tallyWaitSatisfied i) s = .next (s.onDev fun d =>
      (ended d j .ok v.value (tallyFlags v)).modQueue j.queue fun y => { y with state := .active })) ∧
  (∀ (s : State) (i : Nat) (j : Job) (v : Tally), Running s.dev i j 0x41 → j.waiting = true → s.dev.tally (field j.desc 128 20) = v →
    field j.desc 256 32 ≠ 0 → (s.dev.queue j.queue).state = .parked →
    exec (.tallyWaitTimeout i) s = .next (s.onDev fun d =>
      (ended { d with now := max d.now (j.dispatchedAt + field j.desc 256 32 * 1000) } j .timeout v.value (tallyFlags v)).modQueue
        j.queue fun y => { y with state := .active }))

/-! ## Data movers, atomics and locks -/

/-- COPY and FILL (R136 to R138): the first channel of its mover starts its chain with the ring's element, whose ranges pass their check:
between ranges of regions its first burst begins; into a flat object its pages are made its own first (R68), or it waits for its turn on
the object (R72). CHAIN_ELEMENT_FETCH (R137): the next element is read under the ring descriptor's context and, well formed and checked,
begins. Nothing is moved yet. -/
def Obligations.ChainsBegin : Prop :=
  (∀ (s : State) (i n : Nat) (j : Job) (c : Chain) (a b : Nat × Nat), Running s.dev i j 1 → j.chain = none →
    s.dev.runsNow j = true → s.dev.elemRanges (dCtx j.desc) j.desc = none → bit j.desc 480 = false → bit j.desc 481 = false →
    c = { started := true, turn := true, elem := j.desc, elemAddr := j.slotAddr, lastBurst := s.dev.now } →
    s.dev.burstSize (dCtx j.desc) c = n → s.dev.srcSide (dCtx j.desc) { c with burst := n } = .ok (some (.region a.1 a.2)) →
    s.dev.dstSide (dCtx j.desc) { c with burst := n } = .ok (.region b.1 b.2) →
    exec (.copy i) s = .next (s.onDev fun d => (ready d).putJob { j with chain := some { c with burst := n } })) ∧
  (∀ (s : State) (i n : Nat) (j : Job) (c : Chain) (b : Nat × Nat), Running s.dev i j 2 → j.chain = none →
    s.dev.runsNow j = true → s.dev.elemRanges (dCtx j.desc) j.desc = none → bit j.desc 481 = false →
    c = { started := true, turn := true, elem := j.desc, elemAddr := j.slotAddr, lastBurst := s.dev.now } →
    s.dev.burstSize (dCtx j.desc) c = n → s.dev.dstSide (dCtx j.desc) { c with burst := n } = .ok (.region b.1 b.2) →
    exec (.fill i) s = .next (s.onDev fun d => (ready d).putJob { j with chain := some { c with burst := n } })) ∧
  (∀ (s : State) (i k : Nat) (j : Job) (c : Chain) (o : Obj) (e : Dev), Running s.dev i j 2 → j.chain = none →
    s.dev.runsNow j = true → s.dev.elemRanges (dCtx j.desc) j.desc = none → bit j.desc 481 = true →
    (descHolds j.desc).all (fun h => j.holds.contains h) = true →
    c = { started := true, turn := false, elem := j.desc, elemAddr := j.slotAddr, lastBurst := s.dev.now } →
    s.dev.inTurn { j with chain := some c } = true →
    s.dev.obj (hRegion (field j.desc 416 64)) (hIndex (field j.desc 416 64)) = o → o.state = .live →
    o.gen.toNat = hObjGen (field j.desc 416 64) →
    (under s.dev i j).exclusiveAll (hRegion (field j.desc 416 64)) (hIndex (field j.desc 416 64)) (elemPages j.desc) = ((.ok, k), e) →
    Undisturbed s.dev e →
    exec (.fill i) s = .next { s with dev := (e.putJob { j with chain := some { c with
      turn := true, burst := min 4096 (field j.desc 256 32) } }).atRest }) ∧
  (∀ (s : State) (i : Nat) (j : Job) (c : Chain), Running s.dev i j 2 → j.chain = none →
    s.dev.runsNow j = true → s.dev.elemRanges (dCtx j.desc) j.desc = none → bit j.desc 481 = true →
    (descHolds j.desc).all (fun h => j.holds.contains h) = true →
    c = { started := true, turn := false, elem := j.desc, elemAddr := j.slotAddr, lastBurst := s.dev.now } →
    s.dev.inTurn { j with chain := some c } = false →
    exec (.fill i) s = .next (s.onDev fun d => (ready d).putJob { j with chain := some c })) ∧
  (∀ (s : State) (i n : Nat) (j : Job) (c c' : Chain) (r off m line : Nat) (x : Line) (b : Nat × Nat), Running s.dev i j 1 →
    j.chain = some c → c.started = true → c.needFetch = true → c.abort = false → c.outstanding = [] → c.fail = none → c.done < 65536 →
    s.dev.side (dCtx j.desc) false 0 (field c.elem 288 64) 64 .r = .ok (.region r off) → ValidLine s.dev r off m line →
    Calm s.dev 1 → s.dev.lineData m line = x →
    dOpcode x = 2 → field x 8 4 = 1 → field x 12 116 = 0 → s.dev.elemCheck (dCtx j.desc) x = none → bit x 481 = false →
    c' = { c with started := true, turn := true, elem := x, elemAddr := field c.elem 288 64, moved := 0, needFetch := false,
                  reading := false, lastBurst := s.dev.now, buffer := [] } →
    s.dev.burstSize (dCtx j.desc) c' = n → s.dev.dstSide (dCtx j.desc) { c' with burst := n } = .ok (.region b.1 b.2) →
    exec (.chainElementFetch i) s = .next (s.onDev fun d =>
      ((under d i j).activate m line).atRest.putJob { j with chain := some { c' with burst := n } }))

/-- MOVER_BURST_DONE (R138): a burst between ranges of regions that ends the last element of a chain, whose lines are all good, moves its
lines and ends the chain OK, with the number of elements done as `result` and residue 0 (Table 6.12). A FILL stores its 8-byte pattern in
every line of the burst's destination; a COPY stores the source's lines, read before any is written.
MOVER_ABORT (R141): a channel marked for abort with nothing outstanding ends its present burst, if one has begun, and then ends PARTIAL
with the element's address as `result` and its bytes not moved as residue, and MOVER_ABORT is raised. -/
def Obligations.BurstsAndAborts : Prop :=
  (∀ (s : State) (i n r off : Nat) (j : Job) (c : Chain) (u : Nat → Nat × Nat), Running s.dev i j 2 → j.chain = some c →
    c.started = true → c.turn = true → c.needFetch = false → c.outstanding = [] → c.reading = false → c.abort = false →
    dOpcode c.elem = 2 → c.burst = 64 * n → c.moved + 64 * n = field c.elem 256 32 → field c.elem 288 64 = 0 → c.badLines = 0 →
    s.dev.dstSide (dCtx j.desc) c = .ok (.region r off) → FreeToWrite s.dev r → Calm s.dev n → Lines s.dev r off n u →
    s.dev.regions.any (fun x => x.2.durable || x.2.window) = false →
    exec (.moverBurstDone i) s = .next (s.onDev fun d =>
      let c' := { c with done := c.done + 1, moved := c.moved + 64 * n, lastBurst := d.now, buffer := [],
                         firstBad := field c.elem 192 64 + c.moved }
      (ended (written (under d i j) n u fun _ => fillLine c.elem) { j with chain := some c' } .ok (BitVec.ofNat 64 (c.done + 1)) 0).atRest)) ∧
  (∀ (s : State) (i n r off r' off' : Nat) (j : Job) (c : Chain) (u v : Nat → Nat × Nat), Running s.dev i j 1 →
    j.chain = some c → c.started = true → c.turn = true → c.needFetch = false → c.outstanding = [] → c.reading = false →
    c.abort = false → dOpcode c.elem = 1 → c.burst = 64 * n → c.moved + 64 * n = field c.elem 256 32 → field c.elem 288 64 = 0 →
    c.badLines = 0 → s.dev.srcSide (dCtx j.desc) c = .ok (some (.region r' off')) →
    s.dev.dstSide (dCtx j.desc) c = .ok (.region r off) → FreeToWrite s.dev r → Calm s.dev (2 * n) → Lines s.dev r off n u →
    s.dev.regions.any (fun x => x.2.durable || x.2.window) = false →
    (∀ k, k < n → ValidLine s.dev r' (off' + 64 * k) (v k).1 (v k).2) →
    exec (.moverBurstDone i) s = .next (s.onDev fun d =>
      let c' := { c with done := c.done + 1, moved := c.moved + 64 * n, lastBurst := d.now, buffer := [],
                         firstBad := field c.elem 192 64 + c.moved }
      (ended (written (activated (under d i j) n v) n u fun k => d.lineData (v k).1 (v k).2)
        { j with chain := some c' } .ok (BitVec.ofNat 64 (c.done + 1)) 0).atRest)) ∧
  (∀ (s : State) (i : Nat) (j : Job) (c : Chain), s.dev.job i = some j → j.id = i → j.result = none →
    (dOpcode j.desc = 1 ∨ dOpcode j.desc = 2) → j.chain = some c → c.abort = true → c.outstanding = [] → c.started = true →
    (c.turn = false ∨ c.needFetch = true) →
    exec (.moverAbort i) s = .next (s.onDev fun d =>
      ((ended (under d i j) j .part (BitVec.ofNat 64 c.elemAddr) (BitVec.ofNat 32 (field c.elem 256 32 - c.moved))).moverAborted j
        .part).atRest)) ∧
  (∀ (s : State) (i n r off : Nat) (j : Job) (c : Chain) (u : Nat → Nat × Nat), Running s.dev i j 2 → j.id = i → j.chain = some c →
    c.abort = true → c.outstanding = [] → c.started = true → c.turn = true → c.needFetch = false → c.reading = false →
    dOpcode c.elem = 2 → c.burst = 64 * n → c.moved + 64 * n ≠ field c.elem 256 32 → c.badLines = 0 →
    s.dev.dstSide (dCtx j.desc) c = .ok (.region r off) → FreeToWrite s.dev r → Calm s.dev n → Lines s.dev r off n u →
    s.dev.regions.any (fun x => x.2.durable || x.2.window) = false →
    exec (.moverAbort i) s = .next (s.onDev fun d =>
      let c' := { c with moved := c.moved + 64 * n, lastBurst := d.now, buffer := [], firstBad := field c.elem 192 64 + c.moved }
      let j' := { j with chain := some c' }
      ((ended ((written (under d i j) n u fun _ => fillLine c.elem).putJob j') j' .part (BitVec.ofNat 64 c.elemAddr)
        (BitVec.ofNat 32 (field c.elem 256 32 - c'.moved))).moverAborted j' .part).atRest))

/-- REDUCE_WRITE (R97): the next line of the destination becomes the combination of itself with the source's line; after the last the
descriptor completes OK with the number of lines as residue. ATOMIC (R248): the operation is applied to the 4 or 8
bytes at the address, and `result` is the old value; the other bytes of the line stay.

LOCK_ACQUIRE (R281): a free lock is taken: the line names the queue, its generation and the context, its acquisition count
rises by one and is the `result`; a lock held by a live owner makes the descriptor wait, behind those that came before, and parks its
queue. LOCK_RELEASE (R282): the owner clears the held bit. LOCK_OWNER_RECHECK: a waiter whose owner is no longer live takes the
lock with ABANDONED. LOCK_WAIT_TIMEOUT: a waiter whose limit passes completes TIMEOUT, and its queue returns to ACTIVE. -/
def Obligations.AtomicsAndLocks : Prop :=
  (∀ (s : State) (i : Nat) (j : Job) (c : Chain) (r off r' off' : Nat) (u v : Nat × Nat), Running s.dev i j 0x30 →
    j.chain.getD {} = c → c.abort = false → c.outstanding = [] → c.buffer = [] → s.dev.runsNow j = true →
    s.dev.side (dCtx j.desc) false 0 (field j.desc 128 64 + c.moved) 64 .r = .ok (.region r' off') →
    s.dev.side (dCtx j.desc) false 0 (field j.desc 192 64 + c.moved) 64 .w = .ok (.region r off) → FreeToWrite s.dev r →
    ValidLine s.dev r' off' v.1 v.2 → ValidLine s.dev r off u.1 u.2 → Calm s.dev 3 →
    exec (.reduceWrite i) s = .next (s.onDev fun d =>
      let c' := { c with started := true, moved := c.moved + 64, buffer := [], lastBurst := d.now }
      let e := (((under d i j).activate v.1 v.2).activate u.1 u.2).writeLine u.1 u.2
        (reduceLine (field j.desc 280 3) (d.lineData u.1 u.2) (d.lineData v.1 v.2))
      (if c.moved + 64 = 64 * field j.desc 256 24 then
        ended e { j with chain := some c' } .ok 0 (BitVec.ofNat 32 (field j.desc 256 24))
      else e.putJob { j with chain := some c' }).atRest)) ∧
  (∀ (s : State) (i : Nat) (j : Job) (n r off m line : Nat) (x : Line), Running s.dev i j 0x31 →
    n = (if bit j.desc 196 then 8 else 4) → s.dev.locate (dCtx j.desc) (field j.desc 128 64) n .a = .ok (r, off) →
    FreeToWrite s.dev r → ValidLine s.dev r off m line → ValidLine s.dev r (off / 64 * 64) m line → Calm s.dev 2 →
    s.dev.lineData m line = x →
    exec (.atomic i) s = .next (s.onDev fun d =>
      let old := field x (8 * (off % 64)) (8 * n)
      let new := atomicNew (8 * n) (field j.desc 192 4) old (field j.desc 256 64 % 2 ^ (8 * n)) (field j.desc 320 64 % 2 ^ (8 * n))
      (ended (((under d i j).activate m line).writeLine m line (mergeBytes x (BitVec.ofNat 512 (new * 2 ^ (8 * (off % 64))))
        (BitVec.ofNat 64 ((2 ^ n - 1) * 2 ^ (off % 64))))) j .ok (BitVec.ofNat 64 old) 0).atRest)) ∧
  (∀ (s : State) (i : Nat) (j : Job) (r off m line : Nat) (x : Line), Running s.dev i j 0x32 → j.waiting = false →
    s.dev.locate (dCtx j.desc) (field j.desc 128 64) 64 .a = .ok (r, off) → FreeToWrite s.dev r → ValidLine s.dev r off m line →
    Calm s.dev 2 → s.dev.lineData m line = x → lockRsvOk x = true → bit x 0 = false → (s.dev.queue j.queue).state = .active →
    exec (.lockAcquire i) s = .next (s.onDev fun d =>
      let y := lockTaken x j.queue j.queueGen (dCtx j.desc)
      (ended (((under d i j).activate m line).writeLine m line y) j .ok (BitVec.ofNat 64 (field y 64 64)) 0).atRest)) ∧
  (∀ (s : State) (i : Nat) (j : Job) (r off m line : Nat) (x : Line), Running s.dev i j 0x32 → j.id = i → j.waiting = false →
    s.dev.locate (dCtx j.desc) (field j.desc 128 64) 64 .a = .ok (r, off) → FreeToWrite s.dev r → ValidLine s.dev r off m line →
    Calm s.dev 1 → s.dev.lineData m line = x → lockRsvOk x = true → bit x 0 = true → s.dev.ownerLive x = true →
    (s.dev.unit m).lockWaiters.length < 256 → field j.desc 192 32 ≠ 0 → (s.dev.queue j.queue).gen = j.queueGen →
    exec (.lockAcquire i) s = .next (s.onDev fun d =>
      let w : LockWaiter := { job := i, line := lockKey r off }
      (((((under d i j).activate m line).modUnit m fun u => { u with lockWaiters := u.lockWaiters ++ [w] }).putJob
        { j with waiting := true }).modQueue j.queue fun y =>
          { y with state := if y.state = .active ∧ y.gen = j.queueGen then .parked else y.state }).atRest)) ∧
  (∀ (s : State) (i : Nat) (j : Job) (r off m line : Nat) (x : Line), Running s.dev i j 0x33 →
    s.dev.locate (dCtx j.desc) (field j.desc 128 64) 64 .a = .ok (r, off) → FreeToWrite s.dev r → ValidLine s.dev r off m line →
    Calm s.dev 2 → s.dev.lineData m line = x → lockRsvOk x = true → bit x 0 = true → field x 8 18 = j.queue →
    field x 32 8 = j.queueGen.toNat → (s.dev.unit m).lockWaiters = [] →
    exec (.lockRelease i) s = .next (s.onDev fun d =>
      (ended (((under d i j).activate m line).writeLine m line (x &&& ~~~1#512)) j .ok 0 0).atRest)) ∧
  (∀ (s : State) (i : Nat) (j : Job) (r off m line : Nat) (x : Line), Running s.dev i j 0x32 → j.id = i → j.waiting = true →
    s.dev.locate (dCtx j.desc) (field j.desc 128 64) 64 .a = .ok (r, off) → FreeToWrite s.dev r → ValidLine s.dev r off m line →
    Calm s.dev 2 → s.dev.lineData m line = x → bit x 0 = true → s.dev.ownerLive x = false →
    (s.dev.queue j.queue).state = .parked →
    exec (.lockOwnerRecheck i) s = .next (s.onDev fun d =>
      let y := lockTaken x j.queue j.queueGen (dCtx j.desc)
      let e := (((under d i j).activate m line).dropWaiter i).writeLine m line y
      ((ended e j .abandoned (BitVec.ofNat 64 (field y 64 64)) 0).modQueue j.queue fun z => { z with state := .active }).atRest)) ∧
  (∀ (s : State) (i : Nat) (j : Job), Running s.dev i j 0x32 → j.id = i → j.waiting = true →
    (s.dev.queue j.queue).state = .parked →
    exec (.lockWaitTimeout i) s = .next (s.onDev fun d =>
      let e := { d with
        now := max d.now (j.dispatchedAt + field j.desc 192 32 * 1000)
        units := d.units.map (fun u => (u.1, { u.2 with lockWaiters := u.2.lockWaiters.filter (fun w => w.job != i) })) }
      (ended e j .timeout 0 0).modQueue j.queue fun z => { z with state := .active }))

/-! ## Sequences and Plates -/

/-- KV_APPEND (R82, R83): in its turn on the object, once its pages are exclusive and its lines are made, they are stored, the length
becomes the end of the rows where bit 215 asks for it, the recent window follows, and the descriptor completes OK with the length and the
rows; until then what the version was before is kept for readers (R73).
ATTEND (R85 to R91): over a shape that fits, finite queries and readable blocks, the output buffer is written whole, outputs then
log-sum-exp values, and the descriptor completes OK with L and the number of blocks read.
KV_GATHER (R92, R93): the rows read are written and the residue counts their lines.
SUMMARY_REBUILD (R94, R95): in its turn, the named summary lines are made afresh, and the residue counts the block summaries computed. -/
def Obligations.SequenceDescriptors : Prop :=
  (∀ (s : State) (i : Nat) (j : Job) (r k : Nat) (o : Obj) (e : Dev) (v : View) (all : Tab Line) (len : Nat) (before : List Nat)
      (stored : Dev), Running s.dev i j 0x10 → s.dev.inTurn j = true → r = hRegion (dW0 j.desc) → k = hIndex (dW0 j.desc) →
    s.dev.obj r k = o → (under s.dev i j).appendLines j = .ok (e, v, all) →
    len = (if bit j.desc 215 then field j.desc 192 23 + field j.desc 216 16 else o.length) →
    before = s.dev.windowHomes r o.workingRoot o o.length →
    stored = ((((e.putJob { j with before := some (s.dev.workingNow r o) }).putLines r v all).modObj r k
      (fun y => { y with length := len })).moveWindow r k before) →
    Undisturbed s.dev stored →
    exec (.kvAppend i) s =
      .next { s with dev := (ended stored ((stored.job j.id).getD j) .ok (BitVec.ofNat 64 len) (BitVec.ofNat 32 (field j.desc 216 16))).atRest }) ∧
  (∀ (s : State) (i : Nat) (j : Job) (sn : Snapshot) (o : Obj) (qb : List Byte) (d1 d2 d3 : Dev) (k : Nat)
      (outs : List (List F32 × F32)) (blocks : Nat), Running s.dev i j 0x11 → j.snap = some sn →
    s.dev.obj (hRegion (dW0 j.desc)) (hIndex (dW0 j.desc)) = o → o.flat = false →
    (attendOps j.desc sn.length).layer < o.layers → field j.desc 204 4 = o.gqM1 →
    localTokens (attendOps j.desc sn.length) ≤ sn.length →
    (under s.dev i j).readBytes (dCtx j.desc) (field j.desc 320 64) (queryBytes o j.desc) = (.ok, qb, d1) →
    (bf16s qb).any (fun f => !f.finite) = false →
    d1.attendAll (hRegion (dW0 j.desc)) sn.view o (attendOps j.desc sn.length)
      ((List.range o.heads).map (fun h => (h, ((chunksOf o.dim (attendHeads o * (attendOps j.desc sn.length).n) (bf16s qb)).drop
        (h * (attendOps j.desc sn.length).g * (attendOps j.desc sn.length).n)).take
          ((attendOps j.desc sn.length).g * (attendOps j.desc sn.length).n)))) = ((.ok, k), (outs, blocks), d2) →
    d2.writeBytes (dCtx j.desc) (field j.desc 384 64) (padTo (outTotal o j.desc) (padTo (outBytes o j.desc)
      (outs.flatMap (fun p => p.1.flatMap (fun y => if bit j.desc 211 then bytesOf 2 (bf16 (ofF32 y)) else bytesOf 4 y))) ++
      outs.flatMap (fun p => bytesOf 4 p.2))) = (.ok, d3) → Undisturbed s.dev d3 →
    exec (.attend i) s =
      .next { s with dev := (ended d3 j .ok (BitVec.ofNat 64 (attendOps j.desc sn.length).len) (BitVec.ofNat 32 blocks)).atRest }) ∧
  (∀ (s : State) (i : Nat) (j : Job) (sn : Snapshot) (o : Obj) (bs : List Byte) (d1 d2 : Dev) (k : Nat), Running s.dev i j 0x12 →
    j.snap = some sn → s.dev.obj (hRegion (dW0 j.desc)) (hIndex (dW0 j.desc)) = o → o.flat = false →
    field j.desc 192 23 + field j.desc 216 16 ≤ sn.length → field j.desc 232 8 + field j.desc 240 8 + 1 ≤ o.layers →
    (if bit j.desc 215 = true then
        (under s.dev i j).gatherRaw (hRegion (dW0 j.desc)) sn.view o
          (rawBlocks (field j.desc 232 8) (field j.desc 240 8 + 1) (field j.desc 192 23) (field j.desc 216 16))
      else (under s.dev i j).gatherRows (hRegion (dW0 j.desc)) sn.view o
          (gatherOrder o (field j.desc 232 8) (field j.desc 240 8 + 1) (field j.desc 192 23) (field j.desc 216 16))) = ((.ok, k), bs, d1) →
    d1.writeBytes (dCtx j.desc) (field j.desc 256 64) bs = (.ok, d2) → Undisturbed s.dev d2 →
    exec (.kvGather i) s = .next { s with dev := (ended d2 j .ok 0 (BitVec.ofNat 32 ((bs.length + 63) / 64))).atRest }) ∧
  (∀ (s : State) (i : Nat) (j : Job) (r : Nat) (o : Obj) (d1 d2 stored : Dev) (k k' : Nat) (ps : List (Nat × List Byte))
      (ls named : List Nat) (slots : List (Nat × Nat)), Running s.dev i j 0x13 → s.dev.inTurn j = true →
    r = hRegion (dW0 j.desc) → s.dev.obj r (hIndex (dW0 j.desc)) = o → o.state = .live → o.gen.toNat = hObjGen (dW0 j.desc) →
    hSlot (dW0 j.desc) = 0 → o.flat = false → field j.desc 192 16 + field j.desc 208 16 ≤ o.chunks * 64 →
    field j.desc 224 8 + (field j.desc 232 8 + 1) ≤ o.layers →
    ls = (List.range (field j.desc 232 8 + 1)).map (fun l => field j.desc 224 8 + l) →
    named = (ls.flatMap (fun l => namedLines o l (field j.desc 192 16) (field j.desc 208 16))).dedup →
    slots = ls.flatMap (fun l => (sharingBlocks o l (field j.desc 192 16) (field j.desc 208 16)).map (fun b => (l, b))) →
    (under s.dev i j).exclusiveAll r (hIndex (dW0 j.desc)) (((named.map (fun l => l / 1024)).dedup).map (fun p => (p, true))) =
      ((.ok, k'), d1) →
    d1.rebuildSlots r (d1.viewOf r o.workingRoot) o slots = ((.ok, k), ps, d2) →
    stored = d2.putLines r (d1.viewOf r o.workingRoot)
      (named.map (fun l => (l, (tgetD (ps.foldl (fun p q => addBytes p q.1 q.2) []) l (0, 0)).1))) →
    Undisturbed s.dev stored →
    exec (.summaryRebuild i) s = .next { s with dev := (ended stored j .ok 0 (BitVec.ofNat 32 slots.length)).atRest })

/-- PLATE_OPEN opens the version asked for, or the latest, and returns its handle and its number. PLATE_CLOSE takes one open from a
version that stays published and returns the opens that remain. PLATE_CLOSE with `destroy` makes the object DESTROYING; its working
version stays while a descriptor, the closing one included, holds it. PLATE_PUBLISH puts a copy of the working root into the lowest free
slot as the next version. PLATE_FORK makes a new LIVE object of the working version at the lowest free index, with window copies of its
own recent window (R64, R65, R39, Table 3.7). PAGE_FREE_BACKGROUND frees a data page whose count reached zero, once the descriptor that
started it is gone, and that no descriptor in flight reads (R69). -/
def Obligations.PlateDescriptors : Prop :=
  (∀ (s : State) (i : Nat) (j : Job) (r k t : Nat) (o : Obj) (sl : PlateSlot), Running s.dev i j 0x20 → r = hRegion (dW0 j.desc) →
    k = hIndex (dW0 j.desc) → s.dev.obj r k = o →
    o.slots.find? (fun x => x.2.state == .published &&
      x.2.version.toNat == (if field j.desc 192 32 = 0 then o.latestVersion.toNat else field j.desc 192 32) &&
      (if field j.desc 192 32 = 0 then o.latestVersion.toNat else field j.desc 192 32) != 0) = some (t, sl) → sl.openCount < 65535 →
    exec (.plateOpen i) s = .next (s.onDev fun d =>
      let sl' := { sl with openCount := sl.openCount + 1 }
      ended ((ready d).modObj r k fun y => { y with slots := tset y.slots t sl' }) j .ok (makeHandle r k t sl.gen o.gen) sl.version)) ∧
  (∀ (s : State) (i : Nat) (j : Job) (r k t : Nat) (o : Obj), Running s.dev i j 0x21 → bit j.desc 224 = false →
    r = hRegion (dW0 j.desc) → k = hIndex (dW0 j.desc) → t = hSlot (dW0 j.desc) → t ≠ 0 → s.dev.obj r k = o →
    (o.slot t).state = .published → (2 ≤ (o.slot t).openCount ∨ ((o.slot t).openCount = 1 ∧ o.state = .live ∧ (o.slot t).version = o.latestVersion)) →
    exec (.plateClose i) s = .next (s.onDev fun d =>
      let sl' := { o.slot t with openCount := (o.slot t).openCount - 1 }
      ended ((ready d).modObj r k fun y => { y with slots := tset y.slots t sl' }) j .ok 0
        (BitVec.ofNat 32 ((o.slot t).openCount - 1)))) ∧
  (∀ (s : State) (i : Nat) (j : Job) (r k : Nat) (o : Obj), Running s.dev i j 0x21 → bit j.desc 224 = true → s.dev.inTurn j = true →
    r = hRegion (dW0 j.desc) → k = hIndex (dW0 j.desc) → hSlot (dW0 j.desc) = 0 → s.dev.obj r k = o → o.state = .live →
    o.gen.toNat = hObjGen (dW0 j.desc) → o.slots = [] → s.dev.held r k 0 none = true →
    exec (.plateCloseDestroy i) s = .next (s.onDev fun d =>
      ended ((ready d).modObj r k fun y => { y with state := .destroying }) j .ok 0 0)) ∧
  (∀ (s : State) (i : Nat) (j : Job) (r k t root : Nat) (o : Obj) (d1 : Dev), Running s.dev i j 0x22 → s.dev.inTurn j = true →
    r = hRegion (dW0 j.desc) → k = hIndex (dW0 j.desc) → hSlot (dW0 j.desc) = 0 → s.dev.obj r k = o → o.state = .live →
    o.gen.toNat = hObjGen (dW0 j.desc) → o.latestVersion ≠ 0xFFFFFFFE →
    o.slots.any (fun x => x.2.state == .published && x.2.version == o.latestVersion) = false →
    (List.range 16).find? (fun x => x != 0 && (o.slot x).state == .free) = some t →
    (under s.dev i j).copyRoot r k o.workingRoot = some (root, d1) → Undisturbed s.dev d1 →
    exec (.platePublish i) s = .next (
      let sl : PlateSlot := { version := o.latestVersion + 1, root := root, state := .published, gen := (o.slot t).gen,
                              openCount := if bit j.desc 225 then 1 else 0, length := o.length }
      let d2 := d1.modObj r k fun y => { y with slots := tset y.slots t sl, latestVersion := o.latestVersion + 1 }
      { s with dev := (ended d2 j .ok (makeHandle r k t (o.slot t).gen o.gen) (o.latestVersion + 1)).atRest })) ∧
  (∀ (s : State) (i : Nat) (j : Job) (r k n root : Nat) (o : Obj) (d1 d2 : Dev), Running s.dev i j 0x23 → s.dev.inTurn j = true →
    r = hRegion (dW0 j.desc) → k = hIndex (dW0 j.desc) → hSlot (dW0 j.desc) = 0 → s.dev.obj r k = o → o.state = .live →
    o.gen.toNat = hObjGen (dW0 j.desc) →
    firstFree ((s.dev.objs.filter (fun x => decide (x.1 / 65536 = r) && x.2.state != .free)).map (fun x => x.1 % 65536)) 0 65536 = some n →
    (under s.dev i j).copyRoot r k o.workingRoot = some (root, d1) →
    d2 = (d1.modObj r n fun old => { o with
        gen := (d1.obj r n).gen, state := .live, pinned := false, length := o.length, workingRoot := root, workingFreed := false,
        latestVersion := 0, parentIndex := k, parentGen := o.gen, nearFullRaised := false,
        slots := old.slots.map (fun x => (x.1, { gen := x.2.gen })) }).moveWindow r n [] → Undisturbed s.dev d2 →
    exec (.plateFork i) s = .next
      { s with dev := (ended d2 j .ok (makeHandle r n 0 0 (d1.obj r n).gen) (BitVec.ofNat 32 o.length)).atRest }) ∧
  (∀ (s : State) (r h : Nat) (by_ : Option Nat) (e : Dev), s.dev.sys.live = true → (s.dev.pages r).freeing = [((false, h), by_)] →
    by_.any (fun i => (s.dev.job i).isSome) = false → s.dev.pageRead r (false, h) = false →
    tget (s.dev.pages r).maps h = none → tget (s.dev.pages r).windows h = none →
    e = (((ready s.dev).modPages r fun p => { p with freeing := [] }).modPages r fun p =>
      { p with maps := terase p.maps h, windows := terase p.windows h }).setUsed r h false → Undisturbed s.dev e →
    exec (.pageFreeBackground r) s = .next { s with dev := e })

/-! ## Memory and data integrity -/

/-- The outcome of a demand read (R148, Table 7.2) of a line of a unit that is neither dead nor in a retrain, by the errors over its stored
word: a valid word; one position in error, which is corrected and logged but not rewritten; poison with at most one position in error; two
positions on the first read and a valid word, or one position, on the second, which is TRANSIENT; two positions on both reads of a line of
no parity group, which is rewritten as poison and reported; and two positions on both reads of a line that its parity group
reconstructs, which is rewritten, reported and answered, as a line that held the poison pattern is (R147; its data is that of log entry
74). On a dead unit a line of no group is poison, and one that its group cannot reconstruct is uncorrectable (R171, Table 7.9). -/
def Obligations.DemandReadOutcomes : Prop :=
  (∀ (d : Dev) (m line : Nat) (f : LineFault) (x1 x2 : BitVec 640), (d.unit m).dead = false → (d.unit m).retrain = none →
    d.pool.fault m line = f → errPositions (decide (48 ≤ m)) (f.mask ^^^ x1) = [] → f.poison = false →
    d.demandRead m line x1 x2 = (.ok, d.lineData m line, d)) ∧
  (∀ (d : Dev) (m line p : Nat) (f : LineFault) (x1 x2 : BitVec 640), (d.unit m).dead = false → (d.unit m).retrain = none →
    d.pool.fault m line = f → errPositions (decide (48 ≤ m)) (f.mask ^^^ x1) = [p] → f.poison = false →
    d.demandRead m line x1 x2 = (.ok, d.lineData m line, d.logCorrection m line p 0)) ∧
  (∀ (d : Dev) (m line : Nat) (f : LineFault) (x1 x2 : BitVec 640), (d.unit m).dead = false → (d.unit m).retrain = none →
    d.pool.fault m line = f → (errPositions (decide (48 ≤ m)) (f.mask ^^^ x1)).length ≤ 1 → f.poison = true →
    d.demandRead m line x1 x2 = (.poison, 0, d.bump .diPoisonReads)) ∧
  (∀ (d : Dev) (m line : Nat) (f : LineFault) (x1 x2 : BitVec 640), (d.unit m).dead = false → (d.unit m).retrain = none →
    d.pool.fault m line = f → (errPositions (decide (48 ≤ m)) (f.mask ^^^ x1)).length = 2 →
    errPositions (decide (48 ≤ m)) (f.mask ^^^ x2) = [] → f.poison = false →
    d.demandRead m line x1 x2 = (.ok, d.lineData m line, (d.bump .diTransient).logTransient m line)) ∧
  (∀ (d : Dev) (m line p : Nat) (f : LineFault) (x1 x2 : BitVec 640), (d.unit m).dead = false → (d.unit m).retrain = none →
    d.pool.fault m line = f → (errPositions (decide (48 ≤ m)) (f.mask ^^^ x1)).length = 2 →
    errPositions (decide (48 ≤ m)) (f.mask ^^^ x2) = [p] → f.poison = false →
    d.demandRead m line x1 x2 = (.ok, d.lineData m line, (d.bump .diTransient).logCorrection m line p 2)) ∧
  (∀ (d : Dev) (m line : Nat) (f : LineFault) (x1 x2 : BitVec 640), (d.unit m).dead = false → (d.unit m).retrain = none →
    d.pool.fault m line = f → (errPositions (decide (48 ≤ m)) (f.mask ^^^ x1)).length = 2 →
    (errPositions (decide (48 ≤ m)) (f.mask ^^^ x2)).length = 2 → d.lineGroup m line = none →
    d.demandRead m line x1 x2 =
      (let e := { d.bump .diUeTotal with pool := d.pool.poisonLine m line }
       (.uncorrectable, 0, e.raise (e.lineEvent .ueDemand (e.unitOwner m) m line)))) ∧
  (∀ (d e : Dev) (m line : Nat) (f : LineFault) (w : Line) (x1 x2 : BitVec 640), (d.unit m).dead = false → (d.unit m).retrain = none →
    d.pool.fault m line = f → (errPositions (decide (48 ≤ m)) (f.mask ^^^ x1)).length = 2 →
    (errPositions (decide (48 ≤ m)) (f.mask ^^^ x2)).length = 2 →
    (d.bump .diUeTotal).canReconstruct m line = true → (d.bump .diUeTotal).reconstruct m line = (w, e) →
    d.demandRead m line x1 x2 =
      (let e1 := { e with pool := if f.poison then e.pool.poisonLine m line else e.pool.store m line w }
       (.ok, w, (e1.bump .diUeRecon).raise (e1.lineEvent .ueReconstructed (e1.unitOwner m) m line)))) ∧
  (∀ (d : Dev) (m line : Nat) (x1 x2 : BitVec 640), (d.unit m).dead = true → d.lineGroup m line = none →
    d.demandRead m line x1 x2 = (.poison, 0, d.bump .diPoisonReads)) ∧
  (∀ (d : Dev) (m line : Nat) (x1 x2 : BitVec 640), (d.unit m).dead = true → (d.lineGroup m line).isSome = true →
    d.canReconstruct m line = false →
    d.demandRead m line x1 x2 = (.uncorrectable, 0, d))

/-- LINE_READ, LINE_WRITE and READ_MODIFY_WRITE of a line that a trained unit of a partition has, whose slot is cleared and where nothing
holds the access (R153, R267, R343): the row is activated, and the read's answer is given, a window copy's after it is read again from its
home where it is bad (R149), a free line where a reset left its parity unknown; the line is stored and acknowledged; or the enabled bytes
are merged into a line that reads OK, and the read's status is acknowledged. In raw mode the stored word's data is read, and a write keeps
free check bits beside it (R176). An access that must wait is kept at its controller; a unit of no partition serves none (R20, R21). A
line that no trained unit has faults (R28), which is the model's stop. -/
def Obligations.LineAccesses : Prop :=
  (∀ (s : State) (m line : Nat) (x1 x2 : BitVec 640) (a : Dev) (y : Nat × Nat), s.dev.sys.live = true →
    s.dev.lineExists m line = true → s.dev.unitServes m = true → s.dev.awaitsClear m line = false → s.dev.mustWait m line false = false →
    { s.dev with out := [] }.activate m line = a → a.isRaw m line = false → a.metaIndex m line = none → a.lineServed m line = y →
    exec (.lineRead m line x1 x2) s = .next (
      let answer := a.copyRead y.1 y.2 x1 x2
      { s with dev := if answer.1 = .ok ∧ answer.2.2.parityUnknown y.1 y.2 = true then
        answer.2.2.drawLine.2.emit (.line .ok answer.2.2.drawLine.1)
      else answer.2.2.emit (.line answer.1 answer.2.1) })) ∧
  (∀ (d e e' : Dev) (m line : Nat) (h : Nat × Nat) (st st' : Status) (w w' : Line) (x1 x2 : BitVec 640),
    d.demandRead m line x1 x2 = (st, w, e) → (st = .poison ∨ st = .uncorrectable) → e.windowHome m line = some h →
    e.demandRead h.1 h.2 0 0 = (st', w', e') →
    d.copyRead m line x1 x2 =
      (st', w', if st' = .ok then e'.putLine m line w' else { e' with pool := e'.pool.poisonLine m line })) ∧
  (∀ (s : State) (m line : Nat) (x1 x2 : BitVec 640) (a : Dev), s.dev.sys.live = true →
    s.dev.lineExists m line = true → s.dev.unitServes m = true → s.dev.mustWait m line false = false →
    { s.dev with out := [] }.activate m line = a → s.dev.isRaw m line = true → a.isRaw m line = true →
    exec (.lineRead m line x1 x2) s = .next { s with dev := a.emit (.line .ok ((a.rawStored m line).setWidth 512)) }) ∧
  (∀ (s : State) (m line : Nat) (x : Line) (a : Dev) (y : Nat × Nat), s.dev.sys.live = true → s.dev.lineExists m line = true →
    s.dev.unitServes m = true → (s.dev.lineHeld m line).1 = false → s.dev.awaitsClear m line = false →
    s.dev.mustWait m line true = false → { s.dev with out := [] }.activate m line = a → a.isRaw m line = false →
    a.metaIndex m line = none → a.lineServed m line = y →
    exec (.lineWrite m line x) s = .next { s with dev := (a.putLine y.1 y.2 x).emit (.lineAck .ok) }) ∧
  (∀ (s : State) (m line : Nat) (x : Line) (a : Dev), s.dev.sys.live = true → s.dev.lineExists m line = true →
    s.dev.unitServes m = true → (s.dev.lineHeld m line).1 = false → s.dev.mustWait m line true = false →
    { s.dev with out := [] }.activate m line = a → s.dev.isRaw m line = true → a.isRaw m line = true →
    exec (.lineWrite m line x) s = .next { s with dev := { a.drawWord.2 with
      pool := { a.pool with raw := tset a.pool.raw (lineKey m line) (x, a.drawWord.1.setWidth 128) } }.emit (.lineAck .ok) }) ∧
  (∀ (s : State) (m line : Nat) (x : Line), s.dev.sys.live = true → s.dev.lineExists m line = true → s.dev.unitServes m = true →
    s.dev.lineHeld m line = (false, none) → (s.dev.awaitsClear m line = true ∨ s.dev.mustWait m line true = true) →
    exec (.lineWrite m line x) s = .next (s.onDev fun d =>
      (d.modUnit m fun u => { u with held := u.held ++ [.write line x] }).emit .lineWaits)) ∧
  (∀ (s : State) (m line : Nat) (x : Line), s.dev.sys.live = true → s.dev.lineExists m line = true → s.dev.unitServes m = false →
    exec (.lineWrite m line x) s = .next (s.onDev fun d => d)) ∧
  (∀ (s : State) (m line : Nat) (x : Line) (en : U64) (x1 x2 : BitVec 640) (a : Dev) (y : Nat × Nat), s.dev.sys.live = true →
    s.dev.lineExists m line = true → s.dev.unitServes m = true → (s.dev.lineHeld m line).1 = false →
    s.dev.awaitsClear m line = false → s.dev.mustWait m line true = false → { s.dev with out := [] }.activate m line = a →
    a.isRaw m line = false → a.metaIndex m line = none → a.lineServed m line = y →
    exec (.readModifyWrite m line x en x1 x2) s = .next (
      let old := a.demandRead y.1 y.2 x1 x2
      { s with dev := if old.1 = .ok then (old.2.2.putLine y.1 y.2 (mergeBytes old.2.1 x en)).emit (.lineAck .ok)
        else old.2.2.emit (.lineAck old.1) })) ∧
  (∀ (s : State) (m line : Nat) (x : Line) (en : U64) (x1 x2 : BitVec 640), s.dev.lineExists m line = false →
    exec (.lineRead m line x1 x2) s = .fault .absentLine ∧ exec (.lineWrite m line x) s = .fault .absentLine ∧
    exec (.readModifyWrite m line x en x1 x2) s = .fault .absentLine)

/-- A full-line write stores a new valid word and so clears poison. A write narrower than a line does not clear poison (R150). -/
def Obligations.FullWriteClearsPoison : Prop :=
  (∀ (s : State) (m line : Nat) (x : Line), s.dev.sys.live = true → s.dev.lineExists m line = true → s.dev.unitServes m = true →
    s.dev.awaitsClear m line = false → s.dev.mustWait m line true = false → s.dev.isRaw m line = false →
    s.dev.metaIndex m line = none → s.dev.rebuilds = [] → (s.dev.lineHeld m line).1 = false → memWf s.dev.pool.cells = true →
    ∃ t, exec (.lineWrite m line x) s = .next t ∧ t.dev.pool.fault m line = {} ∧ t.dev.pool.data m line = x) ∧
  (∀ (s : State) (m line : Nat) (x : Line) (en : U64), s.dev.sys.live = true → s.dev.lineExists m line = true →
    s.dev.unitServes m = true → s.dev.awaitsClear m line = false → s.dev.mustWait m line true = false → s.dev.isRaw m line = false →
    s.dev.metaIndex m line = none → s.dev.rebuilds = [] → (s.dev.lineHeld m line).1 = false →
    (s.dev.unit m).retrain = none → (s.dev.unit m).dead = false → s.dev.pool.fault m line = { poison := true } →
    ((s.dev.unit m).raaimt = 0 ∨ s.dev.partRings = []) →
    ∃ t, exec (.readModifyWrite m line x en 0 0) s = .next t ∧ t.dev.pool = s.dev.pool ∧ .lineAck .poison ∈ t.dev.out)

/-- METADATA_WRITE writes both mirror copies and is acknowledged. METADATA_READ of a line good in the copy that serves answers what that
line holds; one that neither copy gives is METADATA_LOST, with Huanik's action on the structure (R172, R345).
TRANSLATION_CACHE_FILL (R15): a miss reads the line of the extent table and installs the entry of the extent that a context's address
reaches; a hit makes its entry the one used last. -/
def Obligations.MetadataAndTranslation : Prop :=
  (∀ (s : State) (idx : Nat) (x : Line) (a b : Nat × Nat), s.dev.sys.live = true → s.dev.metaLine false idx = some a →
    s.dev.metaLine true idx = some b →
    exec (.metadataWrite idx x) s = .next (s.onDev fun d =>
      { d with pool := (d.pool.store a.1 a.2 x).store b.1 b.2 x }.emit (.lineAck .ok))) ∧
  (∀ (s : State) (idx q : Nat) (k : MetaStruct) (x1 : BitVec 640) (a b : Nat × Nat), s.dev.sys.live = true →
    s.dev.metaLine false idx = some a → s.dev.metaLine true idx = some b → (a.1 / 12 = q ∨ b.1 / 12 ≠ q) →
    (s.dev.unit a.1).dead = false → s.dev.pool.fault a.1 a.2 = {} →
    exec (.metadataRead idx q k 0 x1) s = .next (s.onDev fun d => d.emit (.line .ok (d.metaData idx a.1 a.2)))) ∧
  (∀ (s : State) (idx q : Nat) (k : MetaStruct) (x0 x1 : BitVec 640) (e : Dev), s.dev.sys.live = true →
    { s.dev with out := [] }.metaRead idx q x0 x1 = some (none, e) →
    exec (.metadataRead idx q k x0 x1) s = .next { s with dev :=
      ((e.raise { code := .metadataLost, part := e.metaOwner k, detail1 := some (metaCode k) }).metaLost k).emit (.line .uncorrectable 0) }) ∧
  (∀ (s : State) (n c a : Nat) (g : Segment) (r : Region) (x : TransEntry) (w : Line) (e : Dev), s.dev.sys.live = true → n < 36 →
    (s.dev.context c).valid = true → segOf (s.dev.context c) a = some g → g.kind = .region → tget s.dev.regions g.targetId = some r →
    r.migrating = false →
    x = ⟨c, g.targetId, (decomposeIdx (grainBytes r.grainM8) r.width r.salt.toNat (g.targetOff + (a - g.base))).1⟩ →
    (s.dev.transOf n).contains x = false → (s.dev.transOf n).length < 4096 →
    { s.dev with out := [] }.metaRead (r.listLine + x.ext / 16) (if n < 32 then n / 8 else n - 32) 0 0 = some (some w, e) →
    exec (.translationCacheFill n c a) s = .next { s with dev := e.setTrans n (x :: s.dev.transOf n) }) ∧
  (∀ (s : State) (n c a : Nat) (g : Segment) (r : Region) (x : TransEntry), s.dev.sys.live = true → n < 36 →
    (s.dev.context c).valid = true → segOf (s.dev.context c) a = some g → g.kind = .region → tget s.dev.regions g.targetId = some r →
    r.migrating = false →
    x = ⟨c, g.targetId, (decomposeIdx (grainBytes r.grainM8) r.width r.salt.toNat (g.targetOff + (a - g.base))).1⟩ →
    (s.dev.transOf n).contains x = true →
    exec (.translationCacheFill n c a) s = .next (s.onDev fun d => d.setTrans n (x :: (d.transOf n).erase x)))

/-- PARITY_RANGE_CLEAN: one second after its last write a stale range is clean again. PARITY_RECOMPUTE_DONE: the parity of a range left
unprotected is made anew from its members, and the range is protected (R165). -/
def Obligations.ParityRanges : Prop :=
  (∀ (s : State) (r g k t : Nat) (reg : Region) (pg : ParityGroup), s.dev.sys.live = true → tget s.dev.regions r = some reg →
    reg.durable = true → reg.newParity = [] → reg.parity[g]? = some pg → tget pg.stale k = some t → pg.unprotected.contains k = false →
    exec (.parityRangeClean r g k) s = .next (s.onDev fun d =>
      let reg' := { reg with parity := reg.parity.mapIdx fun i x => if i = g then { x with stale := terase x.stale k } else x }
      { d with now := max d.now (t + 1000000000), regions := tset d.regions r reg' })) ∧
  (∀ (s : State) (r g k : Nat) (reg : Region) (pg : ParityGroup), s.dev.sys.live = true → tget s.dev.regions r = some reg →
    reg.durable = true → reg.newParity = [] → reg.parity[g]? = some pg → pg.unprotected.contains k = true →
    exec (.parityRecomputeDone r g k) s = .next (s.onDev fun d =>
      let reg' := { reg with parity := reg.parity.mapIdx fun i x =>
        if i = g then { x with stale := terase x.stale k, unprotected := x.unprotected.filter (fun y => y != k) } else x }
      { d.recomputeRange r g k with regions := tset d.regions r reg' }))

/-- Transit (R158 to R160): a pass starts at the end of the last one's time, or at once where that one was overdue; a check of a line moves
the cursor on, and the last line of the unit ends the pass; a valid line stays, one in error at one position is corrected in place and
logged, and one uncorrectable twice, of no parity group, outside metadata and the spare slots, becomes poison and raises UE_SCRUB; at 50,
75 and 90 per cent of its pass time an unfinished unit gets its share; one unfinished at the end is overdue and SCRUB_OVERDUE is raised.
CE_RATE_HOUR_ROLLOVER restarts DI.UNIT_NEW, changes no other counter and takes each tier's median (R156).

Refresh and row disturbance (R173 to R175): a refresh due while reads are queued is postponed until 8 are due; then, or with no read
queued, it is issued with those postponed, which a catch-up also issues; a throttle window ends, or repeats at half the stream's rate
of the last 64 µs while the bank's count is at or above RAAIMT; a crossing of 85 °C takes the thresholds read from the DRAM, and banks that
stand at the new trigger get their RFM command. -/
def Obligations.TransitAndRefresh : Prop :=
  (∀ (s : State) (m : Nat), s.dev.sys.live = true → s.dev.transitRuns m = true → (s.dev.unit m).passDone = true →
    exec (.transitPassStart m) s = .next (s.onDev fun d =>
      let t := if (d.unit m).overdue then d.now else max d.now ((d.unit m).passStart + (d.param 0x0010 0).toNat * 3600000000000)
      { d with now := t }.modUnit m fun v => { v with
        transitLine := 0, transitPass := v.transitPass + 1, passStart := t, passDone := false, overdue := false, shareTenths := 0 })) ∧
  (∀ (s : State) (m l : Nat) (x1 x2 : BitVec 640) (e : Dev), s.dev.sys.live = true → s.dev.transitRuns m = true →
    (s.dev.unit m).passDone = false → (s.dev.unit m).transitLine = l → { s.dev with out := [] }.scrubLine m l x1 x2 = e →
    exec (.transitLineCheck m x1 x2) s = .next { s with dev := e.modUnit m fun u => { u with
      transitLine := l + 1
      passDone := decide (s.dev.unitLines m ≤ l + 1)
      shareTenths := if s.dev.unitLines m ≤ l + 1 then 0 else u.shareTenths } }) ∧
  (∀ (d : Dev) (m l : Nat) (x2 : BitVec 640), d.isRaw m l = false → d.pool.fault m l = {} → d.scrubLine m l 0 x2 = d) ∧
  (∀ (d : Dev) (m l p : Nat) (x1 x2 : BitVec 640), d.isRaw m l = false →
    errPositions (decide (48 ≤ m)) ((d.pool.fault m l).mask ^^^ x1) = [p] → (d.pool.fault m l).poison = false →
    d.scrubLine m l x1 x2 = (let e := d.logCorrection m l p 1; { e with pool := e.pool.setFault m l {} })) ∧
  (∀ (d : Dev) (m l : Nat) (x1 x2 : BitVec 640), d.isRaw m l = false →
    (errPositions (decide (48 ≤ m)) ((d.pool.fault m l).mask ^^^ x1)).length = 2 →
    (errPositions (decide (48 ≤ m)) ((d.pool.fault m l).mask ^^^ x2)).length = 2 →
    d.metaIndex m l = none → d.lineGroup m l = none → d.isSpare m (l / slotLines) = false →
    d.scrubLine m l x1 x2 = (let e := { d.bump .diUeTotal with pool := d.pool.poisonLine m l }
      e.raise (e.lineEvent .ueScrub (e.unitOwner m) m l))) ∧
  (∀ (s : State) (m old pct new : Nat), s.dev.sys.live = true → s.dev.transitRuns m = true → (s.dev.unit m).passDone = false →
    (s.dev.unit m).shareTenths = old →
    ((old < 5 ∧ pct = 50 ∧ new = 5) ∨ (5 ≤ old ∧ old < 10 ∧ pct = 75 ∧ new = 10) ∨ (10 ≤ old ∧ old < 20 ∧ pct = 90 ∧ new = 20)) →
    exec (.transitEscalate m) s = .next (s.onDev fun d =>
      { d with now := max d.now ((d.unit m).passStart + (d.param 0x0010 0).toNat * 3600000000000 * pct / 100) }.modUnit m fun v =>
        { v with shareTenths := new, overdue := v.overdue })) ∧
  (∀ (s : State) (m : Nat), s.dev.sys.live = true → s.dev.transitRuns m = true → (s.dev.unit m).passDone = false →
    20 ≤ (s.dev.unit m).shareTenths → (s.dev.unit m).shareTenths < 50 →
    exec (.transitEscalate m) s = .next (s.onDev fun d =>
      let e := { d with now := max d.now ((d.unit m).passStart + (d.param 0x0010 0).toNat * 3600000000000) }.modUnit m fun v =>
        { v with shareTenths := 50, overdue := true }
      e.raise (e.lineEvent .scrubOverdue (e.unitOwner m) m (d.unit m).transitLine))) ∧
  (∀ (s : State), s.dev.sys.live = true →
    ∃ t, exec .ceRateHourRollover s = .next t ∧ (∀ m, m < 112 → t.dev.count (.diUnitNew m) = 0) ∧
      (∀ c, (∀ m, c ≠ .diUnitNew m) → t.dev.count c = s.dev.count c) ∧
      t.dev.peerMedian =
        (let last := fun (near : Bool) => (s.dev.units.filter (fun u => u.2.trained && decide (48 ≤ u.1) == near)).map
           (fun u => (s.dev.count (.diUnitNew u.1)).toNat)
         (medianTwice (last false), medianTwice (last true))) ∧
      t.dev.hourStart = max s.dev.now (s.dev.hourStart + 3600000000000) ∧ t.dev.now = t.dev.hourStart ∧
      t.dev.units = s.dev.units.map (fun u => (u.1, { u.2 with rateAlarm := false }))) ∧
  (∀ (s : State) (m k n : Nat), s.dev.sys.live = true → s.dev.powered m = true → tgetD (s.dev.unit m).postponed k 0 = n → n + 1 < 8 →
    exec (.refreshDue m k true) s = .next (s.onDev fun d => d.modUnit m fun u => { u with postponed := tset u.postponed k (n + 1) })) ∧
  (∀ (s : State) (m k n : Nat) (queued : Bool), s.dev.sys.live = true → s.dev.powered m = true →
    tgetD (s.dev.unit m).postponed k 0 = n → (queued = false ∨ 8 ≤ n + 1) →
    exec (.refreshDue m k queued) s = .next (s.onDev fun d => (d.modUnit m fun u => { u with
      postponed := tset u.postponed k 0
      raa := u.raa.map (fun x => if x.1 / 32 = k then (x.1, x.2 - (n + 1) * u.raaimt) else x) }).emit (.refresh m k (n + 1)))) ∧
  (∀ (s : State) (m k n : Nat), s.dev.sys.live = true → s.dev.powered m = true → tgetD (s.dev.unit m).postponed k 0 = n → n ≠ 0 →
    exec (.refreshCatchup m k) s = .next (s.onDev fun d => (d.modUnit m fun u => { u with
      postponed := tset u.postponed k 0
      raa := u.raa.map (fun x => if x.1 / 32 = k then (x.1, x.2 - n * u.raaimt) else x) }).emit (.refresh m k n))) ∧
  (∀ (s : State) (m b : Nat) (t : Throttle), s.dev.sys.live = true → (s.dev.unit m).throttles.find? (fun x => x.bank == b) = some t →
    tgetD (s.dev.unit m).raa b 0 < (s.dev.unit m).raaimt → (s.dev.unit m).held = [] →
    exec (.rowThrottleWindowEnd m b) s = .next (s.onDev fun d => { d with now := max d.now t.until_ }.modUnit m fun u => { u with
      throttles := u.throttles.filter (fun x => x.bank != b)
      throttleEpisode := u.throttleEpisode.filter (fun x => x != b) })) ∧
  (∀ (s : State) (m b : Nat) (t : Throttle), s.dev.sys.live = true → (s.dev.unit m).throttles.find? (fun x => x.bank == b) = some t →
    (s.dev.unit m).raaimt ≤ tgetD (s.dev.unit m).raa b 0 → (s.dev.unit m).held = [] →
    exec (.rowThrottleWindowEnd m b) s = .next (s.onDev fun d => { d with now := max d.now t.until_ }.modUnit m fun u => { u with
      throttles := u.throttles.map (fun (x : Throttle) => if x.bank == b then
        { x with until_ := t.until_ + 64000, left := streamRate u b t.stream (max d.now t.until_) / 2 } else x) })) ∧
  (∀ (s : State) (m a b : Nat) (h : Bool), s.dev.sys.live = true → (s.dev.unit m).trained = true →
    exec (.dramTempCrossing m h a b) s = .next (s.onDev fun d =>
      (d.modUnit m fun u => { u with hot := h, raaimt := a, raammt := b }).rfmSweep m))

/-- REBUILD_PAGE_COPIED copies the page at the cursor into the cleared spare slot and advances the cursor (R169).
MIGRATE_PAGE_COPIED does the same from the old to the new placement of a region; after the last page the new extents, salt, width
and tier are in force, the region's translations are gone, and the old extents wait to be cleared (R45 to R48). Both have their chain on a
mover first, and wait for those before it (R139). NEAR_PROMOTE takes the oldest NEAR_IF_FREE region that can go back to the near tier
there by a migration, where the pool keeps 1 GiB (R40). SUMMARY_OLD_PAGE_FREE frees the old copy of a moved summary page once no earlier
descriptor reads it (R41). SUMMARY_PAGE_MOVE copies a summary page to the other tier with an idle mover and changes every map entry that
names it at once; the old page stays for the descriptors that read it (R41). -/
def Obligations.PagesMove : Prop :=
  (∀ (s : State) (u p slot v f : Nat) (b : Rebuild) (d0 e : Dev), s.dev.sys.live = true → s.dev.rebuilds = [b] → b.unit = u →
    b.started = true → b.cur = some (slot, v, f) → (s.dev.unit u).retrain = none → (s.dev.unit v).cleared.contains f = true →
    b.cursor + 1 < 4096 → (s.dev.unitOwner u).getD 0 = p → { s.dev with out := [] }.haveCopy p true u = d0 →
    d0.copyRuns p true u = true → (d0.rebuildPage u slot v f b.cursor).endCopy true u = e → e.rebuilds = [b] → (e.unit u).held = [] →
    exec (.rebuildPageCopied u) s = .next { s with dev := { e with rebuilds := [{ b with cursor := b.cursor + 1 }] } }) ∧
  (∀ (s : State) (u p slot v f : Nat) (b : Rebuild) (d0 : Dev), s.dev.sys.live = true → s.dev.rebuilds = [b] → b.unit = u →
    b.started = true → b.cur = some (slot, v, f) → (s.dev.unit u).retrain = none → (s.dev.unit v).cleared.contains f = true →
    (s.dev.unitOwner u).getD 0 = p → { s.dev with out := [] }.haveCopy p true u = d0 → d0.copyRuns p true u = false →
    (s.dev.unit u).held = [] →
    exec (.rebuildPageCopied u) s = .next { s with dev := d0 }) ∧
  (∀ (s : State) (r : Nat) (reg : Region) (d0 e : Dev), s.dev.sys.live = true → tget s.dev.regions r = some reg → reg.migrating = true →
    s.dev.allCleared (reg.newExtents ++ reg.newParity.map ParityGroup.parity) = true → reg.cursor + 1 < reg.extents.length * 4096 →
    { s.dev with out := [] }.haveCopy reg.partition false r = d0 → d0.copyRuns reg.partition false r = true →
    (d0.migratePage reg reg.cursor).endCopy false r = e → tget e.regions r = some reg →
    e.units.all (fun u => u.2.held.isEmpty) = true →
    exec (.migratePageCopied r) s = .next { s with dev := { e with regions := tset e.regions r { reg with cursor := reg.cursor + 1 } } }) ∧
  (∀ (s : State) (r : Nat) (reg : Region) (d0 e : Dev), s.dev.sys.live = true → tget s.dev.regions r = some reg → reg.migrating = true →
    s.dev.allCleared (reg.newExtents ++ reg.newParity.map ParityGroup.parity) = true → reg.cursor + 1 = reg.extents.length * 4096 →
    { s.dev with out := [] }.haveCopy reg.partition false r = d0 → d0.copyRuns reg.partition false r = true →
    (d0.migratePage reg reg.cursor).endCopy false r = e → tget e.regions r = some reg →
    e.units.all (fun u => u.2.held.isEmpty) = true →
    ∃ t reg', exec (.migratePageCopied r) s = .next t ∧ tget t.dev.regions r = some reg' ∧ reg'.extents = reg.newExtents ∧
      reg'.salt = reg.newSalt ∧ reg'.width = reg.newWidth ∧ reg'.tier = reg.newTier ∧ reg'.migrating = false ∧
      (∀ n, ∀ x ∈ (t.dev.port n).trans, x.region ≠ r) ∧
      (∀ x ∈ reg.extents, (extM x, x.slot) ∈ t.dev.waitClear)) ∧
  (∀ (s : State) (p r : Nat) (reg : Region) (rest : List (Nat × Region)) (e : Dev), s.dev.sys.live = true →
    s.dev.demoted p = (r, reg) :: rest → reg.extents.length * 4096 + 16384 ≤ s.dev.poolLeft p →
    { s.dev with out := [] }.startMigration r reg.width .nearIfFree true 25 reg.salt none = some e →
    exec (.nearPromote p) s = .next { s with dev := e }) ∧
  (∀ (s : State) (r k : Nat) (js : List Nat) (e : Dev), s.dev.sys.live = true → (s.dev.pages r).moved = [(false, k, js)] →
    (∀ i ∈ js, s.dev.job i = none) → ((ready s.dev).modPages r fun p => { p with moved := [] }).setUsed r k false = e →
    Undisturbed s.dev e →
    exec (.summaryOldPageFree r) s = .next { s with dev := e }) ∧
  (∀ (s : State) (r i p : Nat) (near : Bool) (reg : Region) (o : Obj) (old new : Bool × Nat) (d1 d2 d3 e : Dev),
    s.dev.sys.live = true → tget s.dev.regions r = some reg → s.dev.idleMover reg.partition = true →
    s.dev.obj r i = o → o.state ≠ .free → o.flat = false → o.chunkPages ≠ 0 → o.kvChunkPages ≤ p % o.chunkPages →
    s.dev.mappedPage r i p = some old → old.1 ≠ near →
    (if near = true then ((ready s.dev).takeNear reg.partition).map (fun x => ((true, x.1), x.2))
      else ((ready s.dev).takePage r).map (fun x => ((false, x.1), x.2))) = some (new, d1) →
    d1.copyPage r old new = d2 → (d2.setCount r new ((d2.pages r).count old)).setCount r old 0 = d3 →
    (((d3.pages r).maps.flatMap (fun m => (m.2.filter (fun y => y.2 == old)).map (fun y => (m.1, y.1)))).foldl
      (fun f y => f.setEntry r y.1 y.2 new) d3).modPages r (fun g => { g with moved := g.moved ++ [(old.1, old.2,
        (d2.jobs.filter (fun j => j.snap.any (fun s => s.names r old) || j.before.any (fun s => s.names r old))).map (fun j => j.id))] }) = e →
    Undisturbed s.dev e →
    exec (.summaryPageMove r i p near) s = .next { s with dev := e })

/-! ## CXL heads and the coherent window -/

/-- CXL_MEM_READ and CXL_MEM_WRITE of a line outside the window that the head's binding reaches, whose word is valid and whose memory
holds nothing up (R232, R244, R245): the data goes to the host; a full write stores the line; a partial one merges its enabled bytes into
it; a region that is not paired is written at once, and the write is completed. Each activates its row.
BAR2_DOORBELL_WRITE in a writable DOORBELL segment of the head's doorbell context is a doorbell write of that context, and a read of BAR2
gives all ones (R235).
A CXL.mem request that does not end OK is answered by Table 10.5, counted in CXn.REFUSED and reported at most once a
millisecond for a head and status (R244): a read gets poisoned data, a write its completion. -/
def Obligations.CxlMemAccesses : Prop :=
  (∀ (s : State) (h hpa r off m line : Nat) (reg : Region) (e : Dev), Reaches s.dev h hpa [.r] r off reg e →
    ValidLine e r off m line → Calm e 1 →
    exec (.cxlMemRead h hpa) s =
      .next { s with dev := ((e.activate m line).emit (.cxlData h (e.lineData m line) false)).atRest }) ∧
  (∀ (s : State) (h hpa r off m line : Nat) (reg : Region) (e : Dev) (x : Line), Reaches s.dev h hpa [.w] r off reg e →
    ValidLine e r off m line → FreeToWrite e r → Calm e 1 →
    exec (.cxlMemWrite h hpa x (BitVec.allOnes 64)) s =
      .next { s with dev := ((e.writeLine m line x).emit (.cxlDone h)).atRest }) ∧
  (∀ (s : State) (h hpa r off m line : Nat) (reg : Region) (e : Dev) (x : Line) (en : U64), Reaches s.dev h hpa [.w] r off reg e →
    ValidLine e r off m line → FreeToWrite e r → Calm e 1 → en ≠ BitVec.allOnes 64 →
    exec (.cxlMemWrite h hpa x en) s = .next { s with dev :=
      (((e.activate m line).putLine m line (mergeBytes (e.lineData m line) x en)).emit (.cxlDone h)).atRest }) ∧
  (∀ (s : State) (h off len c : Nat) (v : U64) (g : Segment), (s.dev.head h).linkUp = true → off < 4194304 →
    (s.dev.head h).doorbell = some c → (s.dev.context c).valid = true → segOf (s.dev.context c) off = some g → g.kind = .doorbell →
    g.w = true →
    exec (.bar2DoorbellWrite h off len (some v)) s = .next (s.onDev fun d =>
      d.ringDoorbell { ctx := c, off := g.targetOff + (off - g.base), len := len, value := v })) ∧
  (∀ (s : State) (h off len : Nat), (s.dev.head h).linkUp = true → off < 4194304 →
    exec (.bar2DoorbellWrite h off len none) s = .next (s.onDev fun d => d.emit (.bar2Data h len (2 ^ (8 * len) - 1)))) ∧
  (∀ (s : State) (h hpa : Nat) (e : Status), s.dev.memOpen h = true → (ready s.dev).cxlLocate h hpa [.r] = (.error e, ready s.dev) →
    tget (s.dev.head h).lastRefused (statusCode e) = none →
    exec (.cxlMemRead h hpa) s = .next (s.onDev fun d =>
      ((((ready d).bump (.cxRefused h (statusCode e))).modHead h
        (fun x => { x with lastRefused := tset x.lastRefused (statusCode e) d.now })).raise
        { code := .cxlAccessRefused, unit := some (.cxlHead, h), detail0 := some (BitVec.ofNat 64 hpa),
          detail1 := some (statusWord e) }).emit (.cxlData h 0 true))) ∧
  (∀ (s : State) (h hpa t : Nat) (x : Line) (en : U64) (e : Status), s.dev.memOpen h = true →
    (ready s.dev).cxlLocate h hpa [.w] = (.error e, ready s.dev) → tget (s.dev.head h).lastRefused (statusCode e) = some t →
    s.dev.now < t + 1000000 →
    exec (.cxlMemWrite h hpa x en) s = .next (s.onDev fun d =>
      ((ready d).bump (.cxRefused h (statusCode e))).emit (.cxlDone h)))

/-- Requests of a caching head for a window line in no transaction whose memory holds nothing up (R252, R253, Table 10.8):
WINDOW_READ_SHARED of a line in I grants E; WINDOW_READ_OWNERSHIP of a line in I grants M; WINDOW_MEMINV by the forwarder of a line nobody
else shares grants M without data. A line that another head owns is first asked for: the request becomes a transaction that waits on a
snoop of the owner. A request for a line in a transaction waits. On a line outside the window each of the three is a plain read. -/
def Obligations.WindowRequests : Prop :=
  (∀ (s : State) (h hpa r off m l : Nat) (reg : Region) (e : Dev), Reaches s.dev h hpa [.r] r off reg e → reg.window = true →
    FreeWindow e → e.dirOf r (off / 64) = {} → GoodWindowLine e r (off / 64) m l → Calm e 1 →
    exec (.windowReadShared h hpa) s = .next { s with dev :=
      (((e.activate m l).setDir r (off / 64) { state := .e, holder := h }).emit (.cxlGrant h .e (some (e.lineData m l)))).atRest }) ∧
  (∀ (s : State) (h hpa r off m l : Nat) (reg : Region) (e : Dev), Reaches s.dev h hpa [.r, .w] r off reg e → reg.window = true →
    FreeWindow e → e.dirOf r (off / 64) = {} → GoodWindowLine e r (off / 64) m l → Calm e 1 →
    exec (.windowReadOwnership h hpa) s = .next { s with dev :=
      (((e.activate m l).setDir r (off / 64) { state := .m, holder := h }).emit (.cxlGrant h .m (some (e.lineData m l)))).atRest }) ∧
  (∀ (s : State) (h hpa r off : Nat) (reg : Region) (e : Dev) (x : DirEntry), h < 8 → Reaches s.dev h hpa [.w] r off reg e →
    reg.window = true → FreeWindow e → e.dirOf r (off / 64) = x → x.state = .f → x.holder = h → x.sharers = putBit 0 h true → Calm e 1 →
    exec (.windowMeminv h hpa) s = .next { s with dev :=
      ((e.setDir r (off / 64) { state := .m, holder := h }).emit (.cxlGrant h .m none)).atRest }) ∧
  (∀ (s : State) (h g hpa r off : Nat) (reg : Region) (e : Dev) (x : DirEntry), Reaches s.dev h hpa [.r] r off reg e →
    reg.window = true → FreeWindow e → e.dirOf r (off / 64) = x → (x.state = .e ∨ x.state = .m) → x.holder = g → g ≠ h → Calm e 1 →
    exec (.windowReadShared h hpa) s = .next { s with dev :=
      ({ e with winTxns := [{ region := r, line := off / 64, req := .readShared h, waiting := [g], started := e.now,
                              who := (e.cur, e.stream) }] }.emit (.biSnoop g .data r (off / 64))).atRest }) ∧
  (∀ (s : State) (h hpa r off : Nat) (reg : Region) (e : Dev), Reaches s.dev h hpa [.r] r off reg e → reg.window = true →
    e.winTxns.any (fun t => t.region == r && t.line == off / 64) = true →
    exec (.windowReadShared h hpa) s = .next (
      let w : WinWait := { region := r, line := off / 64, req := .readShared h, who := (e.cur, e.stream) }
      { s with dev := { e with winWaits := e.winWaits ++ [w] }.atRest })) ∧
  (∀ (s : State) (h hpa r off m l : Nat) (reg : Region) (e : Dev) (i : Instr) (needs : List Right), reg.window = false →
    ((i = .windowReadShared h hpa ∧ needs = [.r]) ∨ (i = .windowReadOwnership h hpa ∧ needs = [.r, .w]) ∨
      (i = .windowMeminv h hpa ∧ needs = [.w])) →
    Reaches s.dev h hpa needs r off reg e → ValidLine e r off m l → Calm e 1 →
    exec i s = .next { s with dev := ((e.activate m l).emit (.cxlData h (e.lineData m l) false)).atRest })

/-- WINDOW_WRITEBACK by the owner of a line in no transaction stores the line, frees it and is completed. WINDOW_CLEAN_EVICTION by the
forwarder leaves the line S for the other sharers, and is completed. WINDOW_OTHER_ACCESS reads a line in I from memory or stores it, and
refuses an atomic whose offset is not aligned before it has any effect (R248). DIRECTORY_FILL brings an entry into a slice with room
(Table 10.8, R250). -/
def Obligations.WindowReleases : Prop :=
  (∀ (s : State) (h hpa r off m l : Nat) (x : Line) (reg : Region) (e : Dev) (y : DirEntry), Reaches s.dev h hpa [.w] r off reg e →
    reg.window = true → FreeWindow e → e.dirOf r (off / 64) = y → (y.state = .e ∨ y.state = .m) → y.holder = h →
    e.paired r = false → reg.migrating = false → e.rebuilds = [] → e.winPlace r (off / 64) = some (m, l) → Calm e 1 →
    exec (.windowWriteback h hpa x) s = .next { s with dev :=
      (((e.writeLine m l x).setDir r (off / 64) {}).emit (.cxlDone h)).atRest }) ∧
  (∀ (s : State) (h g hpa r off : Nat) (reg : Region) (e : Dev) (y : DirEntry), h < 8 → g < 8 → g ≠ h →
    Reaches s.dev h hpa [.r] r off reg e → reg.window = true → FreeWindow e → off / 64 < 68719476736 → Calm e 1 →
    y.state = .f → y.holder = h → y.sharers = putBit (putBit 0 h true) g true → e.dir = [(dirKey r (off / 64), y)] →
    exec (.windowCleanEviction h hpa) s = .next { s with dev :=
      ({ e with dir := [(dirKey r (off / 64), { y with state := .s, sharers := putBit y.sharers h false })] }.emit (.cxlDone h)).atRest }) ∧
  (∀ (s : State) (r line m l : Nat) (reg : Region), s.dev.sys.live = true → tget s.dev.regions r = some reg → reg.window = true →
    reg.failed = false → GoodWindowLine s.dev r line m l → FreeWindow s.dev → s.dev.dirOf r line = {} → Calm s.dev 1 →
    exec (.windowOtherAccess r line .read) s = .next (s.onDev fun d => (d.activate m l).emit (.line .ok (d.lineData m l)))) ∧
  (∀ (s : State) (r line m l : Nat) (reg : Region) (x : Line), s.dev.sys.live = true → tget s.dev.regions r = some reg →
    reg.window = true → reg.failed = false → s.dev.winPlace r line = some (m, l) → FreeWindow s.dev → s.dev.dirOf r line = {} →
    s.dev.paired r = false → reg.migrating = false → s.dev.rebuilds = [] → Calm s.dev 1 →
    exec (.windowOtherAccess r line (.write x (BitVec.allOnes 64))) s =
      .next (s.onDev fun d => ((d.writeLine m l x).setDir r line {}).emit (.lineAck .ok))) ∧
  (∀ (s : State) (r line offset m l : Nat) (reg : Region) (op : U8) (x y : U64), s.dev.sys.live = true →
    tget s.dev.regions r = some reg → reg.window = true → reg.failed = false → s.dev.winPlace r line = some (m, l) →
    offset % (if op.toNat / 16 % 2 = 1 then 8 else 4) ≠ 0 →
    exec (.windowOtherAccess r line (.atomic op offset x y)) s = .next (s.onDev fun d => d.emit (.line .format 0))) ∧
  (∀ (s : State) (r line : Nat) (reg : Region), s.dev.sys.live = true → tget s.dev.regions r = some reg → reg.window = true →
    s.dev.dirCached = [] → 0 < (s.dev.partn reg.partition).dirWays →
    exec (.directoryFill r line) s = .next (s.onDev fun d => { d with dirCached := [dirKey r line] }))

/-- BISNP_RESPONSE: the last answer of a read's transaction, with the owner's data, stores that data and grants F to the reader
beside the old owner. BI_TIMEOUT: a snoop unanswered by its head's limit ends the transaction, a host's read with poisoned data, and the
line's state stays (R254); the event names the line by its region and number (log entry 83). WINDOW_BUSY_RETRY: a request that finds its
line busy ages and goes behind the others, and at its limit the line is reserved for it (R253). -/
def Obligations.WindowTransactions : Prop :=
  (∀ (s : State) (h g r line m l : Nat) (x : Line) (reg : Region) (t : WinTxn) (e : DirEntry), h ≠ g → s.dev.winTxns = [t] →
    t.region = r → t.line = line → t.waiting = [h] → t.req = .readShared g → s.dev.dirOf r line = e → e.state = .m → e.holder = h →
    tget s.dev.regions r = some reg → s.dev.paired r = false → reg.migrating = false → s.dev.rebuilds = [] →
    s.dev.winPlace r line = some (m, l) → (s.dev.unit m).dead = false → Calm s.dev 2 →
    exec (.bisnpResponse r line h .keepsShared (some x)) s = .next (s.onDev fun d =>
      let w := ({ d.writeLine m l x with winTxns := [] } : Dev).activate m l
      (w.setDir r line { state := .f, holder := g, sharers := putBit (putBit 0 h true) g true }).emit
        (.cxlGrant g .f (some (w.lineData m l))))) ∧
  (∀ (s : State) (h g r line : Nat) (t : WinTxn), s.dev.winTxns = [t] → t.region = r → t.line = line → t.waiting = [h] →
    t.req = .readShared g →
    exec (.biTimeout r line) s = .next (s.onDev fun d =>
      let e := (d.reach (t.started + (d.param 0x0032 h).toNat * 1000000)).raise
        { code := .biTimeout, part := (tget d.regions r).map (fun y => y.partition), unit := some (.cxlHead, h),
          detail0 := some (BitVec.ofNat 64 (dirKey r line)), detail1 := some (statusWord .timeout) }
      ({ e with winTxns := [] }).cxlRefuse g .timeout true (dirKey r line) none)) ∧
  (∀ (s : State) (r line h : Nat) (t : WinTxn) (w : WinWait), s.dev.winTxns = [t] → t.region = r → t.line = line →
    s.dev.winWaits = [w] → w.region = r → w.line = line → w.req = .readOwn h → w.who.1 = none →
    exec (.windowBusyRetry r line) s = .next (s.onDev fun d =>
      let w' := { w with age := w.age + 1, reserved := w.reserved || decide ((d.param 0x0031 h).toNat ≤ w.age + 1) }
      { d with winWaits := [w'] })) ∧
  (∀ (s : State) (r line h m l : Nat) (w : WinWait), s.dev.winTxns = [] → s.dev.winWaits = [w] → w.region = r → w.line = line →
    w.req = .readOwn h → w.who.1 = none → s.dev.dirOf r line = {} → GoodWindowLine s.dev r line m l → Calm s.dev 1 →
    exec (.windowBusyRetry r line) s = .next (s.onDev fun d =>
      (({ d with winWaits := [] }.activate m l).setDir r line { state := .m, holder := h }).emit
        (.cxlGrant h .m (some (d.lineData m l)))))

/-- Heads (R232, R233, R255, R258, R379): PERST_ASSERT takes down the port's heads, whose tags move on; while RESET_N is low only the pin
changes; PERST_DEASSERT starts training; a head completes configuration requests from the end of the retry window, and answers them with
Request Retry Status before; the capability structures and the upper bounds that CDAT reports are read; its link trains, at a rate and a
width that it has, and goes down; HDM_DECODER_COMMIT sets a decoder.
A CXL Reset of a head and its removal lose the window lines that it owns (R255): they become I, and WINDOW_LINES_LOST counts them;
a removed head's link is gone as well. Leases stay. -/
def Obligations.Heads : Prop :=
  (∀ (s : State) (n : Nat), n < 4 → s.dev.sys.resetN = true → s.dev.sys.warmPhase = false → bit s.dev.sys.cfg.bifurcated n = false →
    s.dev.dir = [] → FreeWindow s.dev → s.dev.tagFree (.head (2 * n)) = true →
    exec (.perstAssert n) s = .next (s.onDev fun d =>
      let e := { d with sys := { d.sys with
        perstAsserted := putBit d.sys.perstAsserted n true, trainStarted := putBit d.sys.trainStarted n false } }
      (e.incTag (.head (2 * n))).modHead (2 * n) (fun x =>
        { x with linkUp := false, cfgReady := false, d3hot := false, decoders := [], ideKeys := [] }))) ∧
  (∀ (s : State) (n : Nat), s.dev.sys.resetN = false →
    exec (.perstAssert n) s = .next (s.onDev fun d => { d with sys := { d.sys with
      perstAsserted := putBit d.sys.perstAsserted n true, trainStarted := putBit d.sys.trainStarted n false } })) ∧
  (∀ (s : State) (n : Nat), exec (.perstDeassert n) s = .next (s.onDev fun d => { d with sys := { d.sys with
      perstAsserted := putBit d.sys.perstAsserted n false, trainStarted := putBit d.sys.trainStarted n d.sys.resetN } })) ∧
  (∀ (s : State) (h : Nat), s.dev.headExists h = true → bit s.dev.sys.trainStarted (h / 2) = true →
    exec (.configRetryWindowEnd h) s = .next (s.onDev fun d => d.modHead h fun x => { x with cfgReady := true })) ∧
  (∀ (s : State) (h : Nat), s.dev.headExists h = true → bit s.dev.sys.trainStarted (h / 2) = true →
    (s.dev.head h).cfgReady = true →
    (∀ b, exec (.configRequest h (.power b)) s =
      .next (s.onDev fun d => (d.modHead h fun x => { x with d3hot := b }).emit (.cfgDone h))) ∧
    exec (.configRequest h .capabilities) s = .next (s.onDev fun d => d.emit (.capabilities h cxlFeatures)) ∧
    exec (.configRequest h .cdat) s = .next (s.onDev fun d => d.emit (.cdat h [(.capacityRead, 300), (.nearRead, 200),
      (.fullWrite, 200), (.windowReadExtra, 150), (.expiryToFence, 10000), (.headBandwidth, 112)])) ∧
    exec (.configRequest h .other) s = .next (s.onDev fun d => d.emit (.cfgDone h))) ∧
  (∀ (s : State) (h : Nat) (q : CfgReq), s.dev.headExists h = true → bit s.dev.sys.trainStarted (h / 2) = true →
    (s.dev.head h).cfgReady = false →
    exec (.configRequest h q) s = .next (s.onDev fun d => d.emit (.cfgRetry h))) ∧
  (∀ (s : State) (h rate w : Nat), s.dev.headExists h = true → bit s.dev.sys.trainStarted (h / 2) = true →
    (w = 8 ∨ w = 4 ∨ (w = 16 ∧ bit s.dev.sys.cfg.bifurcated (h / 2) = false)) →
    exec (.cxlLinkUp { head := h, rate := rate, width := w }) s = .next (s.onDev fun d => d.modHead h fun x =>
      { x with linkUp := true, removed := false, rate := rate, width := w })) ∧
  (∀ (s : State) (h : Nat), exec (.cxlLinkDown h) s = .next (s.onDev fun d => d.modHead h fun x => { x with linkUp := false })) ∧
  (∀ (s : State) (h i base size ways gran dpa : Nat) (bi : Bool), s.dev.headExists h = true → (s.dev.head h).linkUp = true → i < 8 →
    ways ∈ [1, 2, 3, 4, 6, 8, 12, 16] → gran ∈ [256, 512, 1024, 2048, 4096, 8192, 16384] →
    exec (.hdmDecoderCommit h i base size ways gran dpa bi) s = .next (s.onDev fun d =>
      let dec : Decoder := { base := base, size := size, ways := ways, gran := gran, dpaBase := dpa, bi := bi }
      d.modHead h fun x => { x with decoders := tset x.decoders i dec })) ∧
  (∀ (s : State) (h k : Nat) (e : DirEntry), s.dev.headExists h = true → s.dev.dir = [(k, e)] → (e.state = .e ∨ e.state = .m) → e.holder = h →
    FreeWindow s.dev →
    exec (.cxlReset h) s = .next (s.onDev fun d => { d with dir := [] }.raise
      { code := .windowLinesLost, unit := some (.cxlHead, h), detail1 := some 1 })) ∧
  (∀ (s : State) (h k : Nat) (e : DirEntry), s.dev.headExists h = true → s.dev.dir = [(k, e)] → (e.state = .e ∨ e.state = .m) → e.holder = h →
    FreeWindow s.dev →
    exec (.headRemoval h) s = .next (s.onDev fun d => ({ d with dir := [] }.raise
      { code := .windowLinesLost, unit := some (.cxlHead, h), detail1 := some 1 }).modHead h
        (fun x => { x with linkUp := false, removed := true })))

/-- Dynamic capacity and leases (R237 to R243, R75): the fabric manager's extents that all pass are offered and recorded in the head's event
log, and otherwise none is; a host's acceptance makes the segment and a HELD lease, and a refusal drops the offer; a release of a
whole extent takes its segment away at once and ends its lease, which is CLEARING until Shutter has cleared its extents; a forced release
expires the lease at once; a lease that expires is fenced, reported, and, held by nobody else, its extents wait to be cleared; the objects
of its region are destroyed. -/
def Obligations.DynamicCapacity : Prop :=
  (∀ (s : State) (h : Nat) (x : DcExtentIn), s.dev.headExists h = true → (s.dev.head h).offered = [] → s.dev.dcAll h [x] [] = true →
    1 ≤ s.dev.leasesLeft →
    exec (.dcAddExtent h [x]) s = .next (s.onDev fun d =>
      (((d.modHead h fun y => { y with offered := y.offered ++ [dcOf x] }).headEvent h
        [1, BitVec.ofNat 64 x.dpa, BitVec.ofNat 64 x.length])).emit (.dcAdd h true))) ∧
  (∀ (s : State) (h : Nat) (xs : List DcExtentIn), (s.dev.head h).offered = [] → s.dev.dcAll h xs [] = false →
    exec (.dcAddExtent h xs) s = .next (s.onDev fun d => d.emit (.dcAdd h false))) ∧
  (∀ (s : State) (h dpa len c n : Nat) (x : DcExtent) (r : Region), s.dev.headExists h = true → (s.dev.head h).offered = [x] →
    x.dpa = dpa → x.length = len → (s.dev.head h).dcContext dpa = some c → s.dev.freeLease = some n → tget s.dev.regions x.region = some r →
    exec (.addDcResponse h dpa len true) s = .next (s.onDev fun d =>
      let l : Lease :=
        { state := .held, head := some h, context := c, duration := x.duration, expiry := d.now + x.duration * 1000000000
          region := x.region, first := (leaseRange r x.offset x.length).1, count := (leaseRange r x.offset x.length).2 }
      let e := (d.modHead h fun y => { y with offered := [] }).setSegments c (addSegment (d.context c).segments (dcSegment x))
      ({ e with leases := tset e.leases n l }.modHead h fun y => { y with extents := y.extents ++ [{ x with lease := some n }] }).emit
        (.cxlMbox h 0 []))) ∧
  (∀ (s : State) (h dpa len : Nat) (x : DcExtent), s.dev.headExists h = true → (s.dev.head h).offered = [x] → x.dpa = dpa → x.length = len →
    exec (.addDcResponse h dpa len false) s = .next (s.onDev fun d =>
      (d.modHead h fun y => { y with offered := [] }).emit (.cxlMbox h 0 []))) ∧
  (∀ (s : State) (h c k : Nat) (x : DcExtent) (l : Lease) (r : Region), s.dev.headExists h = true → (s.dev.head h).extents = [x] →
    x.released = false → x.lease = some k → s.dev.leases = [(k, l)] → (s.dev.head h).dcContext x.dpa = some c →
    tget s.dev.regions x.region = some r → r.width ≠ 0 →
    x.dpa % 268435456 = 0 → x.length % 268435456 = 0 → x.length ≠ 0 →
    ∃ t, exec (.releaseDc h x.dpa x.length) s = .next t ∧ (t.dev.head h).extents = [{ x with released := true }] ∧
      (t.dev.context c).segments = cutSegments (s.dev.context c).segments (x.dpa % 4398046511104) x.length ∧
      (tget t.dev.leases k).any (fun y => y.state == .clearing) = true ∧ .cxlMbox h 0 [] ∈ t.dev.out) ∧
  (∀ (s : State) (h n : Nat) (x : DcExtent), (s.dev.head h).extents = [x] → x.released = false → x.lease = some n → x.length ≠ 0 →
    exec (.dcForcedRelease h x.dpa x.length) s = .next (s.onDev fun d => d.expireLease n)) ∧
  (∀ (s : State) (n : Nat) (l : Lease) (r : Region), s.dev.sys.live = true → s.dev.sys.outageFrom = none → s.dev.sys.coldRetained = false →
    s.dev.leases = [(n, l)] → l.state = .held → l.head = none → tget s.dev.regions l.region = some r → r.migrating = false →
    l.count ≠ 0 → l.first + l.count ≤ r.extents.length → s.dev.jobs = [] →
    ∃ t, exec (.leaseExpiry n) s = .next t ∧ tget t.dev.leases n = some { l with state := .clearing } ∧
      t.dev.now = max s.dev.now l.expiry ∧
      (∀ i, l.first ≤ i → i < l.first + l.count → (r.extents[i]?).any (fun y => t.dev.waitClear.contains (extM y, y.slot)) = true) ∧
      (∀ k, k < 65536 → (t.dev.obj l.region k).state = .free) ∧
      .event { code := .leaseExpired, part := some r.partition, detail0 := some (BitVec.ofNat 64 n),
               detail1 := some (statusWord .leaseExpired) } ∈ t.dev.out)

/-! ## Swearis links -/

/-- A port's way through training (R193, R194, Table 8.4). A detected partner takes DETECT to EQUALISE; EQUALISE ends in ALIGN, ALIGN in
PARAM with the first HELLO; a retrain goes through the same steps without leaving RETRAIN. A bound that passes, or a partner's signal lost,
leads to BACKOFF; after a backoff the next attempt begins, and after the sixteenth the port is ABSENT and SW_ABSENT is raised. 1 ms of
signal on an ABSENT port starts over, and so does the end of DOWN while Huanik's islands run.

RETRAIN and DOWN (R196 to R199). An ACTIVE port that loses frame alignment, or whose eye margin is low, enters RETRAIN and is counted;
the ninth entry within 10 s takes it DOWN and raises SW_FLAPPING. A retrain whose partner's signal is lost, or that takes 60 ms, ends in
DOWN. On a port that holds nothing and whose tag may move on, entering DOWN moves the tag on, counts in SWn.DOWNS, and leaves the link
state of a fresh link-up. -/
def Obligations.LinkStates : Prop :=
  (∀ (s : State) (n : Nat), (s.dev.port n).state = .detect →
    exec (.detectSuccess n) s = .next (s.onDev fun d => d.modPort n fun x => { x with state := .equalise, since := d.now })) ∧
  (∀ (s : State) (n : Nat), (s.dev.port n).state = .equalise →
    exec (.equaliseDone n) s = .next (s.onDev fun d => d.modPort n fun x => { x with state := .align, since := d.now })) ∧
  (∀ (s : State) (n : Nat), (s.dev.port n).state = .retrain → (s.dev.port n).retrainStep = 0 →
    exec (.equaliseDone n) s = .next (s.onDev fun d => d.modPort n fun x => { x with retrainStep := 1 })) ∧
  (∀ (s : State) (n : Nat), (s.dev.port n).state = .align →
    exec (.alignDone n) s = .next (s.onDev fun d =>
      (d.modPort n fun x => { x with state := .param, since := d.now }).sendPhase n 0)) ∧
  (∀ (s : State) (n : Nat), (s.dev.port n).state = .retrain → (s.dev.port n).retrainStep = 1 →
    exec (.alignDone n) s = .next (s.onDev fun d => (d.modPort n fun x => { x with retrainStep := 2 }).sendPhase n 0)) ∧
  (∀ (s : State) (n t : Nat), stateBound (s.dev.port n).state = some t →
    exec (.trainingStateTimeout n) s = .next (s.onDev fun d =>
      let e := d.reach ((d.port n).since + t)
      e.modPort n fun x => { x with state := .backoff, since := e.now })) ∧
  (∀ (s : State) (n : Nat), (s.dev.port n).state = .backoff → (s.dev.port n).attempt < 16 →
    exec (.backoffExpiry n) s = .next (s.onDev fun d =>
      let e := d.reach ((d.port n).since + min (2 ^ ((d.port n).attempt - 1)) 1024 * 1000000)
      e.modPort n fun x => { x with state := .detect, since := e.now, attempt := (d.port n).attempt + 1, flapping := false })) ∧
  (∀ (s : State) (n : Nat), (s.dev.port n).state = .backoff → 16 ≤ (s.dev.port n).attempt →
    exec (.backoffExpiry n) s = .next (s.onDev fun d => (d.modPort n fun x => { x with state := .absent, since := d.now }).raise
      { code := .swAbsent, unit := some (.swPort, n), detail0 := some (d.port n).partnerId,
        detail1 := some (BitVec.ofNat 64 (d.port n).attempt) })) ∧
  (∀ (s : State) (n : Nat), (s.dev.port n).state = .absent →
    exec (.absentSignalDetect n) s = .next (s.onDev fun d =>
      let e := d.reach (d.now + 1000000)
      e.modPort n fun x => { x with state := .detect, since := e.now, attempt := 1, flapping := false })) ∧
  (∀ (s : State) (n : Nat), ((s.dev.port n).state = .equalise ∨ (s.dev.port n).state = .align ∨ (s.dev.port n).state = .param) →
    exec (.partnerSignalLost n) s = .next (s.onDev fun d => d.modPort n fun x => { x with state := .backoff, since := d.now })) ∧
  (∀ (s : State) (n : Nat), s.dev.sys.live = true → (s.dev.port n).state = .down →
    exec (.downExpiry n) s = .next (s.onDev fun d =>
      let e := d.reach ((d.port n).since + (if (d.port n).flapping then 1000000000 else 1000000))
      e.modPort n fun x => { x with state := .detect, since := e.now, attempt := 1, flapping := false })) ∧
  (∀ (s : State) (n : Nat) (ts : List Nat), (s.dev.port n).state = .active →
    ts = (s.dev.port n).retrainTimes.filter (fun t => decide (s.dev.now < t + 10000000000)) ++ [s.dev.now] → ts.length < 9 →
    exec (.frameAlignmentLost n) s = .next (s.onDev fun d => (d.bump (.swRetrains n)).modPort n fun x =>
      { x with retrainTimes := ts, state := .retrain, since := d.now, retrainStep := 0, phase := 0, nakSince := none
               badRun := 0, badTimes := [], replayFrom := none, txKey := 0, rxKey := 0, rxNextKey := 0 })) ∧
  (∀ (s : State) (n : Nat) (ts : List Nat), (s.dev.port n).state = .active →
    ts = (s.dev.port n).retrainTimes.filter (fun t => decide (s.dev.now < t + 10000000000)) ++ [s.dev.now] → ts.length < 9 →
    exec (.eyeMarginLow n) s = .next (s.onDev fun d => (d.bump (.swRetrains n)).modPort n fun x =>
      { x with retrainTimes := ts, state := .retrain, since := d.now, retrainStep := 0, phase := 0, nakSince := none
               badRun := 0, badTimes := [], replayFrom := none, txKey := 0, rxKey := 0, rxNextKey := 0 })) ∧
  (∀ (s : State) (n : Nat) (ts : List Nat), (s.dev.port n).state = .active →
    ts = (s.dev.port n).retrainTimes.filter (fun t => decide (s.dev.now < t + 10000000000)) ++ [s.dev.now] → 9 ≤ ts.length →
    exec (.frameAlignmentLost n) s = .next (s.onDev fun d => (((d.bump (.swRetrains n)).modPort n fun x =>
      { x with retrainTimes := ts, state := .retrain, since := d.now, retrainStep := 0, phase := 0, nakSince := none
               badRun := 0, badTimes := [], replayFrom := none, txKey := 0, rxKey := 0, rxNextKey := 0 }).enterDown n true).raise
      { code := .swFlapping, unit := some (.swPort, n), detail0 := some (d.port n).partnerId,
        detail1 := some (BitVec.ofNat 64 ts.length) })) ∧
  (∀ (s : State) (n : Nat), (s.dev.port n).state = .retrain →
    exec (.partnerSignalLost n) s = .next (s.onDev fun d => d.enterDown n false)) ∧
  (∀ (s : State) (n : Nat), (s.dev.port n).state = .retrain →
    exec (.retrainTimeout n) s = .next (s.onDev fun d => (d.reach ((d.port n).since + 60000000)).enterDown n false)) ∧
  (∀ (s : State) (n : Nat), (s.dev.port n).state = .retrain → (s.dev.port n).unacked = [] → (s.dev.port n).egress = [] →
    (s.dev.port n).rxPartial = none → (s.dev.port n).stallSince = [] → (s.dev.port n).gateSince = [] → s.dev.rt.sprays = [] →
    s.dev.ports.all (fun x => x.2.exclSince.isNone) = true → s.dev.downWaits n = false → s.dev.tagFree (.port n) = true →
    exec (.partnerSignalLost n) s = .next (s.onDev fun d => ((d.incTag (.port n)).bump (.swDowns n)).modPort n fun x =>
      { x.fresh with state := .down, since := d.now, flapping := false }))

/-- Frames received on an ACTIVE port (R182 to R186, R201). A good DATA frame with the expected number and no negative acknowledgement
brings its key phase and its credits, acknowledges, is accepted slot by slot, and draws an acknowledgement once 128 frames are not
acknowledged. A good CONTROL frame returns all its eight credits. A bad frame that does not make the port retrain is counted and answered
by one negative acknowledgement; the 16th in a row makes it retrain. -/
def Obligations.FramesReceived : Prop :=
  (∀ (s : State) (n : Nat) (f : Frame), (s.dev.port n).state = .active → f.ftype = 1 → badFrame f {} = false → f.nak = false →
    f.seq = (s.dev.port n).rxExp →
    exec (.dataFrameReceive n f {}) s = .next (s.onDev fun d =>
      let d1 := (((d.modPort n fun x => { x with badRun := 0 }).takeKeyPhase n f.keyPhase).takeCredit n f.crA).takeCredit n f.crB
      let d2 := if f.ackValid then d1.takeAck n f.ackSeq else d1
      let d3 := d2.modPort n fun x =>
        { x with rxExp := x.rxExp + 1, rxAny := true, nakSince := none, rxUnacked := x.rxUnacked + 1
                 rxFirstUnacked := if x.rxUnacked = 0 then d.now else x.rxFirstUnacked }
      let d4 := f.slots.foldl (fun e x => e.takeSlot n x) d3
      if 128 ≤ (d4.port n).rxUnacked then d4.sendControl n false else d4)) ∧
  (∀ (s : State) (n : Nat) (f : Frame), (s.dev.port n).state = .active → f.ftype = 2 → badFrame f {} = false → f.nak = false →
    exec (.controlFrameReceive n f {}) s = .next (s.onDev fun d =>
      let d1 := (((d.modPort n fun x => { x with badRun := 0 }).takeKeyPhase n f.keyPhase).takeCredit n f.crA).takeCredit n f.crB
      let d2 := if f.ackValid then d1.takeAck n f.ackSeq else d1
      (slotCredits f.control).zipIdx.foldl (fun e x =>
        e.takeCredit n { tc := x.2, hdr := BitVec.ofNat 16 x.1.1, data := BitVec.ofNat 20 x.1.2 }) d2)) ∧
  (∀ (s : State) (n : Nat) (f : Frame) (c : FrameCond), (s.dev.port n).state = .active → badFrame f c = true →
    (s.dev.port n).badTimes.length < 16 → (s.dev.port n).badRun < 15 → (s.dev.port n).nakSince = none →
    exec (.dataFrameReceive n f c) s = .next (s.onDev fun d =>
      let d1 := (d.countFrame n c).modPort n fun x =>
        { x with badTimes := x.badTimes.filter (fun t => decide (d.now < t + 1000000)) ++ [d.now], badRun := x.badRun + 1 }
      (d1.sendControl n true).modPort n fun x => { x with nakSince := some d.now })) ∧
  (∀ (s : State) (n : Nat) (f : Frame) (c : FrameCond), (s.dev.port n).state = .active → badFrame f c = true →
    (s.dev.port n).badRun = 15 →
    exec (.controlFrameReceive n f c) s = .next (s.onDev fun d =>
      ((d.countFrame n c).modPort n fun x =>
        { x with badTimes := x.badTimes.filter (fun t => decide (d.now < t + 1000000)) ++ [d.now], badRun := 16 }).enterRetrain n))

/-- The link's timers (R186 to R188) and sending (R181, R184, R190, R201, R202). A negative acknowledgement that brings no frame within
10 us is sent again. A frame that waits SWn.REPLAY_TIMEOUT for its acknowledgement is replayed with those after it, up to four times, and
then the port retrains. An acknowledgement that waits SWn.ACK_TIMER is sent. A packet with the credit it needs and an open gate starts at
slot 0 of a new frame, is counted, and consumes its credits; without the credit it waits, and its wait is counted from then on. After 2^36
frames the transmitter takes the key of the next epoch. -/
def Obligations.LinkTimersAndSending : Prop :=
  (∀ (s : State) (n t : Nat), (s.dev.port n).state = .active → (s.dev.port n).nakSince = some t →
    exec (.nakResendTimeout n) s = .next (s.onDev fun d =>
      let e := d.reach (t + 10000)
      ((e.modPort n fun x => { x with nakSince := none }).sendControl n true).modPort n fun x => { x with nakSince := some e.now })) ∧
  (∀ (s : State) (n : Nat) (t : TxFrame) (r : List TxFrame), (s.dev.port n).state = .active → (s.dev.port n).unacked = t :: r →
    t.replays < 4 →
    exec (.replayTimeout n) s = .next (s.onDev fun d => (d.reach (t.sentAt + (d.param 0x0020 n).toNat * 1000)).replay n)) ∧
  (∀ (s : State) (n : Nat) (t : TxFrame) (r : List TxFrame), (s.dev.port n).state = .active → (s.dev.port n).unacked = t :: r →
    4 ≤ t.replays →
    exec (.replayTimeout n) s = .next (s.onDev fun d => (d.reach (t.sentAt + (d.param 0x0020 n).toNat * 1000)).enterRetrain n)) ∧
  (∀ (s : State) (n : Nat), (s.dev.port n).state = .active → (s.dev.port n).rxUnacked ≠ 0 →
    exec (.ackTimer n) s = .next (s.onDev fun d =>
      (d.reach ((d.port n).rxFirstUnacked + (d.param 0x0021 n).toNat)).sendControl n false)) ∧
  (∀ (s : State) (n tc : Nat) (e : EgressPkt), (s.dev.port n).egress.find? (fun x => x.p.tc == tc) = some e →
    (s.dev.port n).state = .active → (s.dev.port n).unacked.length + (packetFrames e.p).length ≤ 1024 → s.dev.flowRoom e.p = true →
    (s.dev.port n).hasCredit e.p = true → s.dev.gateOpen n tc (spanFrames e.p) = true →
    exec (.packetTransmit n tc) s = .next (s.onDev fun d =>
      let d1 := (d.settleWait n tc).modPort n fun x =>
        { x with egress := x.egress.erase e, consumed := addCredit x.consumed tc e.p.units }
      ((((d1.sendFrames n e.p e.at_).bump (.swTxPkts n tc)).bump (.swTxUnits n tc) e.p.units).settleWait n tc).recordSent e.p)) ∧
  (∀ (s : State) (n tc : Nat) (e : EgressPkt), (s.dev.port n).egress.find? (fun x => x.p.tc == tc) = some e →
    (s.dev.port n).state = .active → (s.dev.port n).unacked.length + (packetFrames e.p).length ≤ 1024 → s.dev.flowRoom e.p = true →
    (s.dev.port n).hasCredit e.p = false → (s.dev.port n).stallSince = [] → (s.dev.port n).gateSince = [] →
    exec (.packetTransmit n tc) s = .next (s.onDev fun d => d.modPort n fun x => { x with stallSince := [(tc, (d.now, d.now))] })) ∧
  (∀ (s : State) (n : Nat), 68719476736 ≤ (s.dev.port n).keyFrames →
    exec (.linkRekey n) s = .next (s.onDev fun d => d.modPort n fun x =>
      { x with keyEpoch := x.keyEpoch + 1, keyPhase := !x.keyPhase, keyFrames := 0
               txKey := linkKey x.linkSecret x.linkSalt Config.deviceId (x.keyEpoch + 1) }))

/-- The phases of PARAM (R195, R201, Table 8.5). A HELLO of the phase names the partner and keeps its body; a certificate chain, taken part
by part, of the same device that verifies goes on to the next phase, as key confirmation does, which gives both directions their keys, and
CREDITS, which brings what the partner advertises; a chain or a key confirmation that does not verify leads to BLOCKED with SW_AUTH_FAIL;
READY makes the port ACTIVE; a frame that is bad or out of turn makes the port send the frames of its phase again.
PORT_CONTROL (R189, R193, R196) starts, stops and retrains a port, and sets what it advertises at its next training. -/
def Obligations.ParamAndPortControl : Prop :=
  (∀ (s : State) (n : Nat) (b : ParamBody) (x : BitVec 256), (s.dev.port n).state = .param → (s.dev.port n).phase = 0 → b.version = 1 →
    b.rsvd = false → b.content = .hello x →
    exec (.paramFrameReceive n b {}) s = .next (s.onDev fun d =>
      (d.modPort n fun y => { y with partnerId := b.deviceId, partnerHello := bodyBytes b }).sendPhase n 1)) ∧
  (∀ (s : State) (n : Nat) (b : ParamBody) (len off : BitVec 32) (part : List Byte), (s.dev.port n).state = .param →
    (s.dev.port n).phase = 1 → b.version = 1 → b.rsvd = false → b.content = .cert len off part true b.deviceId →
    off.toNat = (s.dev.port n).partnerChain.length → len.toNat ≤ off.toNat + part.length →
    exec (.paramFrameReceive n b {}) s = .next (s.onDev fun d =>
      (d.modPort n fun y => { y with partnerChain := y.partnerChain ++ part }).sendPhase n 2)) ∧
  (∀ (s : State) (n : Nat) (b : ParamBody) (len off : BitVec 32) (part : List Byte) (ok : Bool) (id : U64),
    (s.dev.port n).state = .param → (s.dev.port n).phase = 1 → b.version = 1 → b.rsvd = false → b.content = .cert len off part ok id →
    off.toNat = (s.dev.port n).partnerChain.length → off.toNat + part.length < len.toNat →
    exec (.paramFrameReceive n b {}) s = .next (s.onDev fun d =>
      d.modPort n fun y => { y with partnerChain := y.partnerChain ++ part })) ∧
  (∀ (s : State) (n : Nat) (b : ParamBody) (len off : BitVec 32) (part : List Byte) (id : U64), (s.dev.port n).state = .param →
    (s.dev.port n).phase = 1 → b.version = 1 → b.rsvd = false → b.content = .cert len off part false id →
    off.toNat = (s.dev.port n).partnerChain.length → len.toNat ≤ off.toNat + part.length →
    exec (.paramFrameReceive n b {}) s = .next (s.onDev fun d =>
      (d.modPort n fun y => { y with partnerChain := y.partnerChain ++ part, state := .blocked, since := d.now }).raise
        { code := .swAuthFail, unit := some (.swPort, n), detail0 := some b.deviceId })) ∧
  (∀ (s : State) (n : Nat) (b : ParamBody) (k : BitVec 776) (sg : BitVec 768), (s.dev.port n).state = .param →
    (s.dev.port n).phase = 2 → b.version = 1 → b.rsvd = false → b.content = .keys k sg true →
    exec (.paramFrameReceive n b {}) s = .next (s.onDev fun d => (d.modPort n fun y => y.withKeys k).sendPhase n 3)) ∧
  (∀ (s : State) (n : Nat) (b : ParamBody) (k : BitVec 776) (sg : BitVec 768), (s.dev.port n).state = .param →
    (s.dev.port n).phase = 2 → b.version = 1 → b.rsvd = false → b.content = .keys k sg false →
    exec (.paramFrameReceive n b {}) s = .next (s.onDev fun d => (d.modPort n fun y => { y with state := .blocked, since := d.now }).raise
      { code := .swAuthFail, unit := some (.swPort, n), detail0 := some b.deviceId })) ∧
  (∀ (s : State) (n : Nat) (b : ParamBody) (adv : Line), (s.dev.port n).state = .param → (s.dev.port n).phase = 3 → b.version = 1 →
    b.rsvd = false → b.content = .credits adv →
    exec (.paramFrameReceive n b {}) s = .next (s.onDev fun d =>
      (d.modPort n fun y => { y with partnerAdv := slotCredits adv }).sendPhase n 5)) ∧
  (∀ (s : State) (n : Nat) (b : ParamBody), (s.dev.port n).state = .param → (s.dev.port n).phase = 5 → b.version = 1 →
    b.rsvd = false → b.content = .ready → (s.dev.port n).replayFrom = none →
    exec (.paramFrameReceive n b {}) s = .next (s.onDev fun d =>
      d.modPort n fun y => { y with state := .active, since := d.now, attempt := 1 })) ∧
  (∀ (s : State) (n : Nat) (b : ParamBody) (c : FrameCond), (s.dev.port n).state = .param →
    (c.uncorrectable ≠ 0 ∨ c.tagFail = true ∨ b.rsvd = true ∨ (b.version = 1 ∧ phaseNo b.content ≠ (s.dev.port n).phase)) →
    exec (.paramFrameReceive n b c) s = .next (s.onDev fun d => (d.countFrame n c).repeatPhase n)) ∧
  (∀ (s : State) (h : CmdHdr) (n : Nat), Accepts s h { device := true, fm := true } none → n < 32 →
    ((s.dev.port n).state = .disabled ∨ (s.dev.port n).state = .absent ∨ (s.dev.port n).state = .blocked) →
    exec (.portControlEnable h n) s = .next (answered s h 0x0701 .ok [] fun d => d.modPort n fun x =>
      { x with state := .detect, since := d.now, attempt := 1, flapping := false })) ∧
  (∀ (s : State) (h : CmdHdr) (n : Nat), Accepts s h { device := true, fm := true } none → n < 32 →
    (s.dev.port n).state ≠ .active → (s.dev.port n).state ≠ .retrain →
    exec (.portControlDisable h n) s = .next (answered s h 0x0701 .ok [] fun d => d.modPort n fun x =>
      { x with state := .disabled, since := d.now })) ∧
  (∀ (s : State) (h : CmdHdr) (n : Nat), Accepts s h { device := true, fm := true } none → n < 32 → (s.dev.port n).state = .active →
    exec (.portControlDisable h n) s = .next (answered s h 0x0701 .ok [] fun d =>
      (d.enterDown n false).modPort n fun x => { x with state := .disabled, since := d.now })) ∧
  (∀ (s : State) (h : CmdHdr) (n : Nat), Accepts s h { device := true, fm := true } none → n < 32 → (s.dev.port n).state = .active →
    exec (.portControlRetrain h n) s = .next (answered s h 0x0701 .ok [] fun d => d.enterRetrain n)) ∧
  (∀ (s : State) (h : CmdHdr) (n : Nat) (adv : List (Nat × Nat)), Accepts s h { device := true, fm := true } none → n < 32 →
    creditsOk adv = true →
    exec (.portControlCreditAdv h n adv) s = .next (answered s h 0x0701 .ok [] fun d => d.modPort n fun x => { x with creditAdv := adv }))

/-! ## Swearis requests, replies and notices -/

/-- Requests that pass the ingress steps and are the next of their flow (R15, R207, R210, R216). READ answers with the lines read. WRITE
stores its lines and is acknowledged. A WRITE_PARTIAL that is not posted merges its enabled bytes and is acknowledged; a posted one in a
DOORBELL segment is a doorbell write of the context. ATOMIC applies its operation and answers with the old value (R248). A MIRROR_WRITE of
the partner, with a key not below the seen key, is stored by a STANDBY device (R318). Each line that is read or stored has its row
activated. -/
def Obligations.RequestsExecuted : Prop :=
  (∀ (s : State) (n c r off : Nat) (p : Packet) (x : FlowRx) (g : Segment) (u : Nat → Nat × Nat) (e : Dev), p.kind = .read →
    Served s.dev n p x c g .r e → g.kind = .region → e.locate c p.addr.toNat (64 * p.lines) .r = .ok (r, off) →
    (∀ k, k < p.lines → ValidLine e r (64 * (off / 64 + k)) (u k).1 (u k).2) → Calm e p.lines →
    exec (.readRequest n p) s = .next { s with dev :=
      ((activated e p.lines u).reply p .ok ((List.range p.lines).map fun k => e.lineData (u k).1 (u k).2)).atRest }) ∧
  (∀ (s : State) (n c r off : Nat) (p : Packet) (x : FlowRx) (g : Segment) (u : Nat → Nat × Nat) (e : Dev), p.kind = .write →
    Served s.dev n p x c g .w e → g.kind = .region → e.locate c p.addr.toNat (64 * p.units) .w = .ok (r, off) →
    FreeToWrite e r → Lines e r off p.units u → Calm e p.units →
    exec (.writeRequest n p) s = .next { s with dev :=
      ((written e p.units u fun k => lgetD p.data k 0).reply p .ok []).atRest }) ∧
  (∀ (s : State) (n c r off m line : Nat) (p : Packet) (x : FlowRx) (g : Segment) (y : Line) (e : Dev), p.kind = .writePartial →
    p.posted = false → p.byteEn ≠ BitVec.allOnes 64 → p.data = [y] → Served s.dev n p x c g .w e → g.kind = .region →
    e.locate c p.addr.toNat 64 .w = .ok (r, off) → FreeToWrite e r → ValidLine e r off m line → Calm e 1 →
    exec (.writePartialRequest n p) s = .next { s with dev :=
      (((e.activate m line).putLine m line (mergeBytes (e.lineData m line) y p.byteEn)).reply p .ok []).atRest }) ∧
  (∀ (s : State) (n c k : Nat) (p : Packet) (x : FlowRx) (g : Segment) (y : Line) (e : Dev), p.kind = .writePartial → p.posted = true →
    p.data = [y] → Served s.dev n p x c g .w e → g.kind = .doorbell → k < 8 → p.byteEn = BitVec.ofNat 64 (255 * 2 ^ (8 * k)) →
    exec (.writePartialRequest n p) s = .next { s with dev := (e.ringDoorbell
      { ctx := c, off := g.targetOff + (p.addr.toNat - g.base) + 8 * k, len := 8, value := BitVec.ofNat 64 (field y (64 * k) 64) }).atRest }) ∧
  (∀ (s : State) (n c r off m line w : Nat) (p : Packet) (x : FlowRx) (g : Segment) (y z : Line) (e : Dev), p.kind = .atomic →
    p.data = [y] → Served s.dev n p x c g .a e → g.kind = .region → e.locate c p.addr.toNat 64 .a = .ok (r, off) →
    FreeToWrite e r → off % 64 = 0 → ValidLine e r off m line → e.lineData m line = z → w = (if bit p.atomicOp 4 then 8 else 4) →
    field y 128 8 % w = 0 → field y 128 8 + w ≤ 64 → ValidLine e r (off + field y 128 8) m line → Calm e 2 →
    exec (.atomicRequest n p) s = .next (
      let o := field y 128 8
      let old := field z (8 * o) (8 * w)
      let new := atomicNew (8 * w) (p.atomicOp.toNat % 16) old (field y 0 64 % 2 ^ (8 * w)) (field y 64 64 % 2 ^ (8 * w))
      let stored := (e.activate m line).writeLine m line
        (mergeBytes z (BitVec.ofNat 512 (new * 2 ^ (8 * o))) (BitVec.ofNat 64 ((2 ^ w - 1) * 2 ^ o)))
      { s with dev := (stored.reply p .ok [BitVec.ofNat 512 old]).atRest })) ∧
  (∀ (s : State) (n c r off : Nat) (p : Packet) (x : FlowRx) (g : Segment) (u : Nat → Nat × Nat) (e : Dev), p.kind = .mirrorWrite →
    Served s.dev n p x c g .w e → g.kind = .region → r = g.targetId → off = g.targetOff + (p.addr.toNat - g.base) →
    e.pair.role = .standby → p.srcEp = e.pair.partnerEp → e.seenKey ≤ p.claim.toNat →
    (tget e.regions r).any (fun reg => !reg.window && !reg.migrating) = true → e.rebuilds = [] → Lines e r off p.units u →
    Calm e p.units →
    exec (.mirrorWriteReceive n p) s = .next { s with dev :=
      ((written (e.seeKey (BitVec.ofNat 64 (field p.claim 64 64)) (BitVec.ofNat 64 (field p.claim 0 64))) p.units u
        fun k => lgetD p.data k 0).reply p .ok []).atRest })

/-- What is not executed (R207, R212, R337). A packet of a reserved kind is dropped and counted; a posted request that is malformed is
counted; one that is not posted is answered FORMAT; a request whose sender is not the rank it names is dropped and counted in RT.SPOOF. A
reply that matches no request is counted in RT.UNMATCHED; one whose generation is stale is counted there and in RST.STALE_REPLIES; any
other ends its request with its status. -/
def Obligations.DropsAndReplies : Prop :=
  (∀ (s : State) (n : Nat) (p : Packet) (x : FlowRx), p.kind = .reserved → NextOfFlow s.dev n p x →
    exec (.malformedDrop n p) s = .next (s.onDev fun d => (inOrder d n p x).bump .rtMalformedDrop)) ∧
  (∀ (s : State) (n : Nat) (p : Packet) (x : FlowRx), p.kind = .writePartial → p.posted = true → badRequest p = true →
    NextOfFlow s.dev n p x → s.dev.rankEp p.job p.srcRank = some p.srcEp →
    exec (.malformedDrop n p) s = .next (s.onDev fun d => (inOrder d n p x).bump .rtMalformedDrop)) ∧
  (∀ (s : State) (n : Nat) (p : Packet) (x : FlowRx), p.kind = .read → NextOfFlow s.dev n p x →
    s.dev.rankEp p.job p.srcRank ≠ some p.srcEp →
    exec (.readRequest n p) s = .next (s.onDev fun d => (inOrder d n p x).bump .rtSpoof)) ∧
  (∀ (s : State) (n : Nat) (p : Packet) (x : FlowRx), p.kind = .write → p.posted = false → badRequest p = true →
    NextOfFlow s.dev n p x → s.dev.rankEp p.job p.srcRank = some p.srcEp →
    exec (.writeRequest n p) s = .next (s.onDev fun d => (inOrder d n p x).reply p .format [])) ∧
  (∀ (s : State) (n : Nat) (p : Packet) (x : FlowRx), (p.kind = .readReply ∨ p.kind = .writeAck ∨ p.kind = .atomicReply) →
    NextOfFlow s.dev n p x → s.dev.rt.reqs.find? (fun r => r.tag == p.reqTag && r.pkt.dstEp == p.srcEp) = none →
    exec (.replyReceive n p) s = .next (s.onDev fun d => (inOrder d n p x).bump .rtUnmatched)) ∧
  (∀ (s : State) (n : Nat) (p : Packet) (x : FlowRx) (r : OutReq), (p.kind = .readReply ∨ p.kind = .writeAck ∨ p.kind = .atomicReply) →
    NextOfFlow s.dev n p x → s.dev.rt.reqs.find? (fun y => y.tag == p.reqTag && y.pkt.dstEp == p.srcEp) = some r →
    p.gen ≠ s.dev.domGen r.unit →
    exec (.replyReceive n p) s = .next (s.onDev fun d =>
      ((inOrder d n p x).bump .rtUnmatched).bump (.rstStaleReplies (domKind r.unit)))) ∧
  (∀ (s : State) (n : Nat) (p : Packet) (x : FlowRx) (r : OutReq) (e : Dev),
    (p.kind = .readReply ∨ p.kind = .writeAck ∨ p.kind = .atomicReply) →
    NextOfFlow s.dev n p x → s.dev.rt.reqs.find? (fun y => y.tag == p.reqTag && y.pkt.dstEp == p.srcEp) = some r →
    p.gen = s.dev.domGen r.unit → (inOrder s.dev n p x).answer r (statusOfCode p.status) p.data = e → e.again = false → e.winDone = [] →
    exec (.replyReceive n p) s = .next { s with dev := e.atRest }) ∧
  (∀ (d : Dev) (r : OutReq) (i : Nat) (st : Status) (data : List Line), r.purpose = .mirror i →
    d.answer r st data = (d.dropReq r.tag).mirrorAnswer i st) ∧
  (∀ (d : Dev) (r : OutReq) (st : Status) (data : List Line), r.purpose = .huanik → d.answer r st data = d.dropReq r.tag) ∧
  (∀ (d : Dev) (r : OutReq) (i o : Nat) (st : Status) (data : List Line), r.purpose = .moverRead i o →
    d.answer r st data = (d.dropReq r.tag).chainAnswer i r.tag (some o) st data)

/-- Notices and timers (R216 to R220, Table 9.8). A LOST notice of a WRITE or a READ sent within 200 us resends its request once, and
TIMEOUT ends it the second time; one that names no such packet is counted. REPLY_LOST ends an ATOMIC with TIMEOUT. SKIP, and a number
missing for RT.LOSS_TIME, are declared lost, and what their flow held after them is delivered; the latter is reported to the sender. A
request that waits RT.REQ_TIMEOUT ends with TIMEOUT, and the record of a packet is kept 200 us. -/
def Obligations.NoticesAndTimers : Prop :=
  (∀ (s : State) (n : Nat) (p : Packet) (q : U24) (v : SendRec) (r : OutReq), p.kind = .lost → Notice s.dev n p → noticeSeqs p = [q] →
    s.dev.rt.records.find? (fun y => y.flow == { src := s.dev.selfEp, dst := p.srcEp, tc := (noticeOf p).2.1 } && y.seq == q &&
      decide (s.dev.now ≤ y.sentAt + 200000)) = some v → (v.pkt.kind = .write ∨ v.pkt.kind = .read) →
    s.dev.rt.reqs.find? (fun y => y.tag == v.pkt.reqTag && y.pkt.dstEp == v.pkt.dstEp && y.pkt.flowSeq == v.seq) = some r →
    r.resent = false → ((arrived s.dev n p).resend r).1 = true →
    exec (.lostNoticeReceive n p) s = .next (s.onDev fun d => ((arrived d n p).resend r).2)) ∧
  (∀ (s : State) (n : Nat) (p : Packet) (q : U24) (v : SendRec) (r : OutReq) (e : Dev), p.kind = .lost → Notice s.dev n p →
    noticeSeqs p = [q] →
    s.dev.rt.records.find? (fun y => y.flow == { src := s.dev.selfEp, dst := p.srcEp, tc := (noticeOf p).2.1 } && y.seq == q &&
      decide (s.dev.now ≤ y.sentAt + 200000)) = some v → (v.pkt.kind = .write ∨ v.pkt.kind = .read) →
    s.dev.rt.reqs.find? (fun y => y.tag == v.pkt.reqTag && y.pkt.dstEp == v.pkt.dstEp && y.pkt.flowSeq == v.seq) = some r →
    r.resent = true → (arrived s.dev n p).answer r .timeout [] = e → e.again = false → e.winDone = [] →
    exec (.lostNoticeReceive n p) s = .next { s with dev := e.atRest }) ∧
  (∀ (s : State) (n : Nat) (p : Packet), p.kind = .lost → Notice s.dev n p → noticeSeqs p ≠ [] → s.dev.rt.records = [] →
    exec (.lostNoticeReceive n p) s = .next (s.onDev fun d => (arrived d n p).bump .rtNoticeIgnored)) ∧
  (∀ (s : State) (n : Nat) (p : Packet) (r : OutReq) (e : Dev), p.kind = .replyLost → Notice s.dev n p →
    s.dev.rt.reqs.find? (fun y => y.tag == p.reqTag && y.pkt.dstEp == p.srcEp && y.pkt.gen == p.gen) = some r → r.pkt.kind = .atomic →
    (arrived s.dev n p).answer r .timeout [] = e → e.again = false → e.winDone = [] →
    exec (.replyLostReceive n p) s = .next { s with dev := e.atRest }) ∧
  (∀ (s : State) (n : Nat) (p : Packet) (x : FlowRx), p.kind = .skip → Notice s.dev n p →
    s.dev.flow { src := p.srcEp, dst := s.dev.selfEp, tc := (noticeOf p).2.1 } = some x → noticeSeqs p = [x.e] → x.held = [] →
    x.gone = [] →
    exec (.skipReceive n p) s = .next (s.onDev fun d =>
      ((arrived d n p).putFlow { x with e := x.e + 1, missing := x.missing.filter (fun m => m.1 != x.e) }).bump .rtLostDeclared)) ∧
  (∀ (s : State) (f : FlowId) (x : FlowRx) (t : Nat) (q : HeldPkt) (e : Dev), s.dev.flow f = some x → x.missing = [(x.e, t)] →
    x.held = [q] → q.pkt.flowSeq = x.e + 1 → x.gone = [] →
    ((((((ready s.dev).reach (t + (s.dev.param 0x0022 0).toNat * 1000)).putFlow
      { x with e := x.e + 2, held := [], missing := [] }).bump .rtLostDeclared).sendBack (numberNotice .lost f.src f.tc x.e 1)).deliver
        q.port q.pkt) = e → e.again = false → e.winDone = [] →
    exec (.lossDeclaration f) s = .next { s with dev := e.atRest }) ∧
  (∀ (s : State) (t : Nat) (r : OutReq) (e : Dev), s.dev.rt.reqs.find? (fun y => y.tag == t) = some r →
    ((ready s.dev).reach (r.sentAt + (s.dev.param 0x0023 0).toNat * 1000)).answer r .timeout [] = e → e.again = false → e.winDone = [] →
    exec (.requestTimeout t) s = .next { s with dev := e.atRest }) ∧
  (∀ (s : State) (f : FlowId) (q : U24) (v : SendRec), s.dev.rt.records.find? (fun y => y.flow == f && y.seq == q) = some v →
    exec (.sendRecordExpiry f q) s = .next (s.onDev fun d => (d.reach (v.sentAt + 200000)).modRt fun y =>
      { y with records := y.records.filter (fun z => z != v) }))

/-- Transit and spraying (R24, R214, R215, R223 to R226). A transit packet is forwarded, with one hop less, by the port its epoch's table
and its class give; one without hops is dropped and counted, and so is every one while transit mode is off. A packet that has waited 20 us
for credit moves to TC7 on its escape port. A spray window that leaves no port of the set slow changes the runs and begins the next window;
a port that is slow for the second window in a row is excluded, and SW_SLOW is raised, where enough ports stay. -/
def Obligations.TransitAndSpray : Prop :=
  (∀ (s : State) (n m : Nat) (p : Packet) (r : Route), p.dstEp ≠ s.dev.selfEp → s.dev.mayTake n p = true → s.dev.transitOn = true →
    0 < p.hops →
    (s.dev.rt.version p.epoch).state ≠ .invalid → tget (s.dev.rt.version p.epoch).routes p.dstEp = some r →
    s.dev.routePort r p.tc = some m →
    exec (.transitForward n p) s = .next (s.onDev fun d =>
      (((d.grantLines n p).takeRx n p).modRt fun y => { y with lastPort := tset y.lastPort p.srcEp n }).enqueue m
        { p with hops := p.hops - 1 })) ∧
  (∀ (s : State) (n : Nat) (p : Packet), p.dstEp ≠ s.dev.selfEp → s.dev.mayTake n p = true → s.dev.transitOn = true → p.hops = 0 →
    exec (.transitForward n p) s = .next (s.onDev fun d =>
      (((d.grantLines n p).takeRx n p).modRt fun y => { y with lastPort := tset y.lastPort p.srcEp n }).bump .rtHopDrop)) ∧
  (∀ (s : State) (n : Nat) (p : Packet), p.dstEp ≠ s.dev.selfEp → s.dev.mayTake n p = true → s.dev.transitOn = false →
    exec (.transitForward n p) s = .next (s.onDev fun d =>
      (((d.grantLines n p).takeRx n p).modRt fun y => { y with lastPort := tset y.lastPort p.srcEp n }).bump .rtTransitDrop)) ∧
  (∀ (s : State) (n tc : Nat) (e : EgressPkt) (r : Route) (w : Nat × Nat), (s.dev.port n).egress.find? (fun y => y.p.tc == tc) = some e →
    tget (s.dev.port n).stallSince tc = some w → tc ≠ 7 → e.p.srcEp ≠ s.dev.selfEp → (s.dev.port n).hasCredit e.p = false →
    tget (s.dev.rt.version e.p.epoch).routes e.p.dstEp = some r → s.dev.portActive r.escapePort = true →
    exec (.escapeToTc7 n tc) s = .next (s.onDev fun d =>
      ((((((d.reach (w.1 + 20000)).settleWait n tc).modPort n fun y =>
          { y with egress := y.egress.erase e, stallSince := terase y.stallSince tc }).settleWait n tc).enqueue r.escapePort
        { e.p with tc := 7, escaped := true }).bump (.swEscaped n)))) ∧
  (∀ (s : State) (v : U32) (known : List (Nat × Nat)) (runs : List SprayRun) (ties : List Nat), s.dev.rt.spraySets = [v] →
    measuredRuns s.dev v = (known, runs) → (∀ y ∈ runs, y.excluded = false ∧ y.slow < 2) →
    exec (.sprayLatencyWindow ties) s = .next (s.onDev fun d => ((restarted ((d.reach (d.rt.windowAt + 64000)).settleExcluded.modRt fun y =>
      { y with sprays := runs ++ y.sprays.filter (fun z => z.spray != v) })).modRt fun y => { y with windowAt := max d.now (d.rt.windowAt + 64000) }).settleExcluded)) ∧
  (∀ (s : State) (v : U32) (known : List (Nat × Nat)) (x : SprayRun) (b c : List SprayRun) (ties : List Nat), s.dev.rt.spraySets = [v] →
    measuredRuns s.dev v = (known, b ++ [x] ++ c) → (∀ y ∈ b ++ c, y.excluded = false ∧ y.slow < 2) → x.excluded = false →
    2 ≤ x.slow → b ++ c ≠ [] →
    exec (.sprayLatencyWindow ties) s = .next (s.onDev fun d =>
      ((restarted (((d.reach (d.rt.windowAt + 64000)).settleExcluded.modRt fun y =>
        { y with sprays := b ++ [{ x with excluded := true, good := 0 }] ++ c ++ y.sprays.filter (fun z => z.spray != v) }).raise
        { code := .swSlow, unit := some (.swPort, x.port), detail0 := some (BitVec.ofNat 64 x.slow) })).modRt
          fun y => { y with windowAt := max d.now (d.rt.windowAt + 64000) }).settleExcluded))

/-- Gates and telemetry (R228 to R231), and routing versions (R222 to R224, Table 9.10). The end of a gate entry moves the clock; where it
ends the cycle, the changes that SWn.GATE_CTRL and SWn.GATE_OFFSET ask for apply; the waits for credit and gate are counted up to then. A
sample, one microsecond after the last, counts, for each class, the depth and the delay of what waits. ROUTE_LOAD fills an INVALID version;
ROUTE_FLIP makes it ACTIVE and an ACTIVE other DRAINING; ROUTE_RETIRE frees a DRAINING version whose packets have all left. -/
def Obligations.GatesTelemetryAndRoutes : Prop :=
  (∀ (s : State) (n e : Nat) (x : Nat × Nat), (s.dev.port n).gateOn = true →
    entryAt (s.dev.schedule n (s.dev.port n).gateB) 0
      (phaseAt s.dev.now (s.dev.port n).gateOffset (cycleOf (s.dev.schedule n (s.dev.port n).gateB))) = some (x, e) →
    e ≠ cycleOf (s.dev.schedule n (s.dev.port n).gateB) →
    exec (.gateEntryBoundary n) s = .next (s.onDev fun d => (d.reach (d.now + (e -
      phaseAt d.now (d.port n).gateOffset (cycleOf (d.schedule n (d.port n).gateB))))).settleWaits n)) ∧
  (∀ (s : State) (n e : Nat) (x : Nat × Nat), (s.dev.port n).gateOn = true →
    entryAt (s.dev.schedule n (s.dev.port n).gateB) 0
      (phaseAt s.dev.now (s.dev.port n).gateOffset (cycleOf (s.dev.schedule n (s.dev.port n).gateB))) = some (x, e) →
    e = cycleOf (s.dev.schedule n (s.dev.port n).gateB) →
    exec (.gateEntryBoundary n) s = .next (s.onDev fun d => (((d.reach (d.now + (e -
      phaseAt d.now (d.port n).gateOffset (cycleOf (d.schedule n (d.port n).gateB))))).settleWaits n).modPort n fun y =>
        { y with gateOn := bit (d.param 0x0025 n) 0, gateB := bit (d.param 0x0025 n) 1
                 gateOffset := (d.param 0x0026 n).toNat }).settleWaits n)) ∧
  (∀ (s : State) (n : Nat), (s.dev.port n).gateOn = false → bit (s.dev.param 0x0025 n) 0 = true →
    s.dev.schedule n (bit (s.dev.param 0x0025 n) 1) = [] →
    exec (.gateEntryBoundary n) s = .next (s.onDev fun d => ((d.settleWaits n).modPort n fun y =>
      { y with gateOn := true, gateB := bit (d.param 0x0025 n) 1, gateOffset := (d.param 0x0026 n).toNat }).settleWaits n)) ∧
  (∀ (s : State) (n : Nat) (e : Nat → Option EgressPkt), e = (fun t => (s.dev.port n).egress.find? (fun y => y.p.tc == t)) →
    exec (.telemetrySample n) s = .next (s.onDev fun d =>
      let t := max d.now ((d.port n).sampledAt + 1000)
      (List.range 8).foldl (fun f k =>
        (f.bump (.swQdepthHist n k (if (e k).isSome then depthBucket ((d.port n).queuedUnits k) else 0))).bump
          (.swQdelayHist n k (((e k).map (fun y => delayBucket (t - y.at_))).getD 0)))
        (({ d with now := t } : Dev).modPort n fun y => { y with sampledAt := t }))) ∧
  (∀ (s : State) (h : CmdHdr) (v : Bool) (es : List RouteIn), Accepts s h { device := true, fm := true } none →
    es.any (fun e => e.rsvd || decide (65536 ≤ e.dest ∨ 32 ≤ e.escapePort)) = false → (s.dev.rt.version v).state = .invalid →
    exec (.routeLoad h v.toNat es) s = .next (answered s h 0x0304 .ok [] fun d => d.modRt fun y => y.setVersion v
      { state := .loaded, routes := es.foldl (fun t e =>
          if e.valid then tset t e.dest { spray := e.spray, escapePort := e.escapePort } else terase t e.dest) [] })) ∧
  (∀ (s : State) (h : CmdHdr) (v : Bool), Accepts s h { device := true, fm := true } none → (s.dev.rt.version v).state = .loaded →
    (s.dev.rt.version (!v)).state = .active →
    exec (.routeFlip h v.toNat) s = .next (answered s h 0x0305 .ok [] fun d => (d.settleExcluded.modRt fun y =>
      (y.setVersion v { y.version v with state := .active }).setVersion (!v)
        { y.version (!v) with state := .draining }).settleExcluded)) ∧
  (∀ (s : State) (h : CmdHdr) (v : Bool), Accepts s h { device := true, fm := true } none → (s.dev.rt.version v).state = .loaded →
    (s.dev.rt.version (!v)).state = .invalid →
    exec (.routeFlip h v.toNat) s = .next (answered s h 0x0305 .ok [] fun d => (d.settleExcluded.modRt fun y =>
      y.setVersion v { y.version v with state := .active }).settleExcluded)) ∧
  (∀ (s : State) (h : CmdHdr) (v : Bool), Accepts s h { device := true, fm := true } none → (s.dev.rt.version v).state = .draining →
    s.dev.ports.any (fun y => y.2.drain v != 0) = false →
    exec (.routeRetire h v.toNat) s = .next (answered s h 0x0306 .ok [] fun d =>
      (d.settleExcluded.modRt fun y => y.setVersion v {}).settleExcluded))

/-! ## The mailbox -/

/-- A write to MBX.ATTACH through head h (R290): `driver_epoch` goes up by one modulo 2^16, `owner_head` is h, `owned` is 1 and
DRIVER_ATTACH is raised. The waiting commands, the counts and the rings stay as they are. A register write at the offset of MBX.ATTACH
does the same. -/
def Obligations.MailboxAttach : Prop :=
  (∀ (s : State) (h : Nat), s.hasMailbox h = true →
    exec (.mbxAttach h) s = .next ({ s with mbx := { s.mbx with epoch := s.mbx.epoch + 1, ownerHead := h, owned := true } }.onDev fun d =>
      d.raise { code := .driverAttach, detail0 := some (BitVec.ofNat 64 h), detail1 := some (BitVec.ofNat 64 s.mbx.ownerHead) })) ∧
  (∀ (s : State) (h : Nat) (v : U64), s.hasMailbox h = true →
    exec (.registerWrite h 0x020 8 (some v)) s = .next ({ s with
      mbx := { s.mbx with epoch := s.mbx.epoch + 1, ownerHead := h, owned := true } }.onDev fun d =>
      d.raise { code := .driverAttach, detail0 := some (BitVec.ofNat 64 h), detail1 := some (BitVec.ofNat 64 s.mbx.ownerHead) }))

/-- Mailbox doorbells of the owner with the present epoch (R291, R294): a new count that passes its check is taken; one that fails it
changes no count and is counted in MBX.DOORBELL_REFUSED; a write of another head, of no owner or of a stale epoch is discarded and counted in
MBX.FENCED_WRITES. Event-ring entries that return make room for EVENTS_LOST, if records were lost (R297).

Other accesses and ticks of the mailbox page. MBX.INT_ENABLE takes three bits and a register write that is not of 8 bytes changes
nothing; one aligned read of 8 bytes returns the register, a write-only one as zero (R6, R288); the owner's bytes go into the command ring,
one byte to one address, and another head's are fenced (R287, R291); MBX.HEARTBEAT counts on every 1 ms in RUNNING, here where no write of
the management cores waits and no metadata has been lost. A pacing boundary is a multiple of the slot, writes the response that its
partition's finished command holds, and lets the next command start (R262; log entry 77). -/
def Obligations.MailboxRings : Prop :=
  (∀ (s : State) (h : Nat) (n : U32) (e : U16), s.hasMailbox h = true → s.mbx.ownerHead = h → s.mbx.owned = true → e = s.mbx.epoch →
    (n - s.mbx.hostSeq).toNat ≤ 256 → (n - s.mbx.rspHead).toNat ≤ 256 →
    exec (.mbxCmdDoorbell h n e) s = .next ({ s with mbx := { s.mbx with hostSeq := n } }.onDev fun d => d)) ∧
  (∀ (s : State) (h : Nat) (n : U32) (e : U16), s.hasMailbox h = true → s.mbx.ownerHead = h → s.mbx.owned = true → e = s.mbx.epoch →
    (256 < (n - s.mbx.hostSeq).toNat ∨ 256 < (n - s.mbx.rspHead).toNat) →
    exec (.mbxCmdDoorbell h n e) s = .next ({ s with mbx := { s.mbx with refused := s.mbx.refused + 1 } }.onDev fun d => d)) ∧
  (∀ (s : State) (h : Nat) (n : U32) (e : U16), s.hasMailbox h = true → s.mbx.ownerHead = h → s.mbx.owned = true → e = s.mbx.epoch →
    (n - s.mbx.rspHead).toNat ≤ 256 → (s.mbx.devSeq - n).toNat ≤ 256 →
    exec (.mbxRspDoorbell h n e) s = .next ({ s with mbx := { s.mbx with rspHead := n } }.onDev fun d => d)) ∧
  (∀ (s : State) (h : Nat) (n : U32) (e : U16), s.hasMailbox h = true → s.mbx.ownerHead = h → s.mbx.owned = true → e = s.mbx.epoch →
    (256 < (n - s.mbx.rspHead).toNat ∨ 256 < (s.mbx.devSeq - n).toNat) →
    exec (.mbxRspDoorbell h n e) s = .next ({ s with mbx := { s.mbx with refused := s.mbx.refused + 1 } }.onDev fun d => d)) ∧
  (∀ (s : State) (h : Nat) (n : U32) (e : U16), s.hasMailbox h = true → s.mbx.ownerHead = h → s.mbx.owned = true → e = s.mbx.epoch →
    (n - s.dev.evt.head).toNat ≤ 4096 → (s.dev.evt.tail - n).toNat ≤ 4096 → s.dev.evt.unreported = 0 →
    exec (.mbxEvtDoorbell h n e) s = .next (s.onDev fun d => { d with evt := { d.evt with head := n } })) ∧
  (∀ (s : State) (h : Nat) (n : U32) (e : U16), s.hasMailbox h = true → s.mbx.ownerHead = h → s.mbx.owned = true → e = s.mbx.epoch →
    (n - s.dev.evt.head).toNat ≤ 4096 → (s.dev.evt.tail - n).toNat ≤ 4096 → s.dev.evt.unreported ≠ 0 → n ≠ s.dev.evt.head →
    exec (.mbxEvtDoorbell h n e) s = .next (s.onDev fun d => { d with evt := { d.evt with head := n, unreported := 0 } }.putDevEvent
      { code := .eventsLost, detail0 := some (BitVec.ofNat 64 d.evt.unreported) })) ∧
  (∀ (s : State) (h : Nat) (n : U32) (e : U16), s.hasMailbox h = true → s.mbx.ownerHead = h → s.mbx.owned = true → e = s.mbx.epoch →
    (4096 < (n - s.dev.evt.head).toNat ∨ 4096 < (s.dev.evt.tail - n).toNat) →
    exec (.mbxEvtDoorbell h n e) s = .next ({ s with mbx := { s.mbx with refused := s.mbx.refused + 1 } }.onDev fun d => d)) ∧
  (∀ (s : State) (h : Nat) (n : U32) (e : U16), s.hasMailbox h = true → (s.mbx.ownerHead ≠ h ∨ s.mbx.owned = false ∨ e ≠ s.mbx.epoch) →
    exec (.mbxCmdDoorbell h n e) s = .next ({ s with mbx := { s.mbx with fenced := s.mbx.fenced + 1 } }.onDev fun d => d)) ∧
  (∀ (s : State) (h : Nat) (n : U32) (e : U16), s.hasMailbox h = true → (s.mbx.ownerHead ≠ h ∨ s.mbx.owned = false ∨ e ≠ s.mbx.epoch) →
    exec (.mbxRspDoorbell h n e) s = .next ({ s with mbx := { s.mbx with fenced := s.mbx.fenced + 1 } }.onDev fun d => d)) ∧
  (∀ (s : State) (h : Nat) (n : U32) (e : U16), s.hasMailbox h = true → (s.mbx.ownerHead ≠ h ∨ s.mbx.owned = false ∨ e ≠ s.mbx.epoch) →
    exec (.mbxEvtDoorbell h n e) s = .next ({ s with mbx := { s.mbx with fenced := s.mbx.fenced + 1 } }.onDev fun d => d)) ∧
  (∀ (s : State) (h : Nat) (v : U64), s.hasMailbox h = true →
    exec (.registerWrite h 0x098 8 (some v)) s = .next (s.onDev fun d => { d with intEnable := v.truncate 3 })) ∧
  (∀ (s : State) (h off len : Nat) (v : U64), s.hasMailbox h = true → len ≠ 8 →
    exec (.registerWrite h off len (some v)) s = .next (s.onDev fun d => d)) ∧
  (∀ (s : State) (h off : Nat), s.hasMailbox h = true → off % 8 = 0 →
    exec (.registerWrite h off 8 none) s = .next (s.onDev fun d => d.emit (.bar4Data h off (s.bar4Read off)))) ∧
  (∀ (s : State), s.bar4Read 0x010 = s.dev.sys.status ∧ s.bar4Read 0x060 = s.mbx.hostSeq.setWidth 64 ∧
    s.bar4Read 0x068 = s.mbx.devSeq.setWidth 64 ∧ s.bar4Read 0x070 = s.mbx.rspHead.setWidth 64 ∧
    s.bar4Read 0x098 = s.dev.intEnable.setWidth 64 ∧ (∀ off, off ∈ [0x020, 0x040, 0x048, 0x050] → s.bar4Read off = 0)) ∧
  (∀ (s : State) (h off : Nat) (b : Byte), s.hasMailbox h = true → s.mbx.ownerHead = h → s.mbx.owned = true → 0x100000 ≤ off →
    off < 0x110000 →
    exec (.mailboxRingWrite h off [b]) s = .next (s.onDev fun d => { d with sram := memWrite d.sram off b })) ∧
  (∀ (s : State) (h off : Nat) (xs : List Byte), s.hasMailbox h = true → 0x100000 ≤ off →
    (s.mbx.ownerHead ≠ h ∨ s.mbx.owned = false) →
    exec (.mailboxRingWrite h off xs) s = .next ({ s with mbx := { s.mbx with fenced := s.mbx.fenced + 1 } }.onDev fun d => d)) ∧
  (∀ (s : State), s.dev.sys.stage = .running → s.dev.coreWrites = [] → s.dev.lostMeta = [] →
    exec .mbxHeartbeatTick s = .next (s.onDev fun d =>
      let e := d.reach (d.sys.heartbeatAt + 1000000)
      { e with heartbeat := e.heartbeat + 1, sys := { e.sys with heartbeatAt := e.now } })) ∧
  (∀ (d : Dev) (p : Nat), d.hk.paceUs ≠ 0 → d.nextPace p % (d.hk.paceUs * 1000) = 0 ∧ d.now ≤ d.nextPace p) ∧
  (∀ (s : State) (p : Nat), s.dev.sys.stage = .running → s.dev.hk.paceUs ≠ 0 → tget s.dev.hk.paced p = none →
    exec (.paceSlotBoundary p) s = .next (s.onDev fun d =>
      let e := d.reach (d.nextPace p)
      { e with hk := { e.hk with paced := terase e.hk.paced p, paceAt := tset e.hk.paceAt p (e.now, false) } })) ∧
  (∀ (s : State) (p : Nat) (st : Status) (outs : List U64) (seq : U32) (op : U16), s.dev.sys.stage = .running → s.dev.hk.paceUs ≠ 0 →
    tget s.dev.hk.paced p = some (st, outs, seq, op) →
    exec (.paceSlotBoundary p) s = .next (s.onDev fun d =>
      let e := (d.reach (d.nextPace p)).respondPart p seq op.toNat st outs
      { e with hk := { e.hk with paced := terase e.hk.paced p, paceAt := tset e.hk.paceAt p (e.now, false) } }))

/-! ## Taking Huanik's commands, loading, images and the life cycle -/

/-- While `stage` is ROM, BOOT_IMAGE, AWAIT_RUNTIME, LOADING, HALTED or TRANSITION_PENDING (R303), every Huanik command that the device
ring brings but NOP, RUNTIME_LOAD, LC_TRANSITION and FW_INFO is answered NO_RESOURCE and does nothing; those four are accepted: NOP and
FW_INFO answer OK, a first chunk of a runtime image is taken in AWAIT_RUNTIME, and a token of LC_TRANSITION that does not verify gets its
own answer, RIGHTS. While `stage` is RETIRED no command is accepted: nothing happens, and nothing is answered. -/
def Obligations.StageGatesCommands : Prop :=
  (∀ (s : State) (i : Instr) (h : CmdHdr) (n : Nat), commandOf i = some (h, n) → h.src = .device → s.dev.sys.stage ≠ .running →
    s.dev.sys.stage ≠ .retired → s.takes h = true → s.badHeader h = false → n ≠ 0x0001 → n ≠ 0x0002 → n ≠ 0x0008 → n ≠ 0x0010 →
    exec i s = .next (answered s h n .noResource [] fun d => d)) ∧
  (∀ (s : State) (h : CmdHdr), h.src = .device → s.takes h = true → s.badHeader h = false → s.dev.sys.domeReqAt = none →
    s.dev.sys.stage ≠ .running →
    exec (.huanikNop h) s = .next (answered s h 0x0001 .ok [Config.freeWord s.dev.free, s.dev.sys.runtimeSvn.setWidth 64] fun d =>
      { d with free := d.free + 1 })) ∧
  (∀ (s : State) (h : CmdHdr), h.src = .device → s.takes h = true → s.badHeader h = false → s.dev.sys.domeReqAt = none →
    s.dev.sys.stage ≠ .running →
    exec (.fwInfo h) s = .next (answered s h 0x0010 .ok [s.dev.sys.slotStates] fun d => d)) ∧
  (∀ (s : State) (h : CmdHdr) (len total : Nat) (v : Bool) (svn : U16) (dg : BitVec 384), h.src = .device →
    s.takes h = true → s.badHeader h = false → s.dev.sys.stage = .awaitRuntime → s.dev.sys.domeReqAt = none → 0 < len → len ≤ 2097152 →
    len < total → total ≤ 33554432 →
    exec (.runtimeLoad h 0 len total false v svn dg) s = .next (answered s h 0x0002 .ok [BitVec.ofNat 64 len] fun d =>
      let e := d.setSys fun x => { x with stage := .loading }
      { e with sys := { e.sys with loadGot := len, loadTotal := total } })) ∧
  (∀ (s : State) (h : CmdHdr) (t : Nat) (o : Bool) (own : BitVec 384) (fl : U16), h.src = .device → s.takes h = true →
    s.badHeader h = false → s.dev.sys.domeReqAt = none → s.dev.sys.stage ≠ .running →
    exec (.lcTransition h t o false own fl) s = .next (answered s h 0x0008 .rights [] fun d => d)) ∧
  (∀ (s : State) (i : Instr) (h : CmdHdr) (n : Nat), commandOf i = some (h, n) → s.dev.sys.stage = .retired →
    exec i s = .next (s.onDev fun d => d))

/-- Commands that Huanik answers from the device ring (R304, R307 to R310, Table 12.7), in RUNNING. HUANIK_NOP answers Huanik's version,
a free word (log entry 3), and `runtime_svn`. FW_INFO answers the slot states. FW_DOWNLOAD writes its bytes to the slot that is not
confirmed; the first chunk journals DOWNLOADING. FW_VERIFY journals VERIFIED with the digest; FW_ACTIVATE journals TRIAL; FW_CONFIRM,
in a trial, journals CONFIRMED of the running slot.

RUNTIME_LOAD (R304) and LC_TRANSITION (R275 to R278). The last
chunk of an image that verifies, whose security version is not below the floor of a DEPLOYED device, leads to RUNNING; one that does not
verify leads back with RIGHTS. A verified token burns its transition's fuses and moves the life cycle one step. -/
def Obligations.FirmwareAndLifeCycle : Prop :=
  (∀ (s : State) (h : CmdHdr), Accepts s h { device := true, fm := true, part := true } none →
    exec (.huanikNop h) s = .next (answered s h 0x0001 .ok [Config.freeWord s.dev.free, s.dev.sys.runtimeSvn.setWidth 64] fun d =>
      { d with free := d.free + 1 })) ∧
  (∀ (s : State) (h : CmdHdr), Accepts s h { device := true } none →
    exec (.fwInfo h) s = .next (answered s h 0x0010 .ok [s.dev.sys.slotStates] fun d => d)) ∧
  (∀ (s : State) (h : CmdHdr) (xs : List Byte), Accepts s h { device := true } none → s.dev.sys.trialPending = false →
    s.dev.sys.downloading = false → xs.length ≤ 31457280 →
    exec (.fwDownload h 0 xs) s = .next (answered s h 0x0011 .ok [] fun d =>
      let x := d.sys.record .downloading (!d.sys.confirmed) d.sys.confirmed 0 0
      { d with sys := { x with downloading := true, flash := memWriteList d.sys.flash (slotBase (!d.sys.confirmed)) xs } })) ∧
  (∀ (s : State) (h : CmdHdr) (off : Nat) (xs : List Byte), Accepts s h { device := true } none → s.dev.sys.trialPending = false →
    s.dev.sys.downloading = true → off ≠ 0 → off + xs.length ≤ 31457280 →
    exec (.fwDownload h off xs) s = .next (answered s h 0x0011 .ok [] fun d =>
      { d with sys := { d.sys with flash := memWriteList d.sys.flash (slotBase (!d.sys.confirmed) + off) xs } })) ∧
  (∀ (s : State) (h : CmdHdr) (dg : BitVec 384), Accepts s h { device := true } none → s.dev.sys.downloading = true →
    exec (.fwVerify h true dg) s = .next (answered s h 0x0012 .ok ((List.range 6).map fun i => (dg >>> (64 * i)).truncate 64) fun d =>
      { d with sys := { d.sys.record .verified (!d.sys.confirmed) d.sys.confirmed 0 dg with downloading := false } })) ∧
  (∀ (s : State) (h : CmdHdr) (dg : BitVec 384), Accepts s h { device := true } none → s.dev.sys.downloading = true →
    exec (.fwVerify h false dg) s = .next (answered s h 0x0012 .rights [] fun d => { d with sys := { d.sys with downloading := false } })) ∧
  (∀ (s : State) (h : CmdHdr) (r : FwRecord), Accepts s h { device := true } none → s.dev.sys.journal.getLast? = some r →
    r.state = .verified →
    exec (.fwActivate h) s = .next (answered s h 0x0013 .ok [] fun d =>
      { d with sys := d.sys.record .trial r.slotB r.confirmedB 0 r.digest })) ∧
  (∀ (s : State) (h : CmdHdr) (r : FwRecord), Accepts s h { device := true } none → s.dev.sys.journal.getLast? = some r →
    s.dev.sys.trial = true →
    exec (.fwConfirm h) s = .next (answered s h 0x0014 .ok [] fun d =>
      d.setSys fun x => { x.record .confirmed x.bootSlotB x.bootSlotB 0 r.digest with trial := false, trialBoots := 0 })) ∧
  (∀ (s : State) (h : CmdHdr) (off len : Nat) (svn : U16) (dg : BitVec 384), h.src = .device →
    s.takes h = true → s.badHeader h = false → s.dev.sys.stage = .loading → s.dev.sys.domeReqAt = none → 0 < off → off = s.dev.sys.loadGot →
    0 < len → len ≤ 2097152 → off + len ≤ 33554432 → s.dev.sys.loadTotal = off + len →
    (s.dev.sys.lifeCycle = .deployed → s.dev.sys.svnFloor ≤ svn) →
    exec (.runtimeLoad h off len (off + len) true true svn dg) s = .next (answered s h 0x0002 .ok
      ((List.range 6).map fun i => (dg >>> (64 * i)).truncate 64) fun d =>
      ({ d with sys := { d.sys with runtimeSvn := svn, runtimeDigest := dg, loadStatus := 0, loadGot := 0,
                                    loadTotal := off + len } }.measure 4).enterRunning)) ∧
  (∀ (s : State) (h : CmdHdr) (off len : Nat) (svn : U16) (dg : BitVec 384), h.src = .device →
    s.takes h = true → s.badHeader h = false → s.dev.sys.stage = .loading → s.dev.sys.domeReqAt = none → 0 < off → off = s.dev.sys.loadGot →
    0 < len → len ≤ 2097152 → off + len ≤ 33554432 → s.dev.sys.loadTotal = off + len →
    exec (.runtimeLoad h off len (off + len) true false svn dg) s = .next (answered s h 0x0002 .rights [] fun d =>
      let e := { d with sys := { d.sys with loadGot := off + len, loadTotal := off + len } }
      e.setSys fun x => { x with stage := .awaitRuntime, loadStatus := BitVec.ofNat 8 (statusCode .rights), loadGot := 0 })) ∧
  (∀ (s : State) (h : CmdHdr) (own : BitVec 384) (fl : U16), Accepts s h { device := true } none → s.dev.sys.lifeCycle = .manufactured →
    exec (.lcTransition h 1 false true own fl) s = .next (answered s h 0x0008 .ok [1] fun d =>
      let e := { d with sys := { d.sys with
        fuseToken := some 0, fuseOwner := own, fuseFloor := fl
        fuses := tset d.sys.fuses 0 { intent := true, data := true, commit := true } } }
      e.setSys fun x => { x with lifeCycle := .provisioned })) ∧
  (∀ (s : State) (h : CmdHdr) (own : BitVec 384) (fl : U16), Accepts s h { device := true } none → s.dev.sys.lifeCycle = .provisioned →
    exec (.lcTransition h 2 false true own fl) s = .next (answered s h 0x0008 .ok [2] fun d =>
      let e := { d with sys := { d.sys with
        fuseToken := some 1, fuseOwner := own, fuseFloor := fl
        fuses := tset d.sys.fuses 1 { intent := true, data := true, commit := true } } }
      e.setSys fun x => { x with lifeCycle := .deployed, ownerHash := own, svnFloor := fl })) ∧
  (∀ (s : State) (h : CmdHdr) (t : Nat) (o : Bool) (own : BitVec 384) (fl : U16), Accepts s h { device := true } none →
    exec (.lcTransition h t o false own fl) s = .next (answered s h 0x0008 .rights [] fun d => d))

/-! ## Huanik's commands on partitions, regions and records -/

/-- Partition commands (R115, R158, R259, R260, R263, R266, R268, R299, R300). PART_CREATE of a free partition with free units names its
record, destroys the old key, draws a fresh one for its units, begins to clear its subchannels and starts their Transit passes, with every
engine and mover in group 0. PART_TENANT_CHANGE and PART_DESTROY start an
operation that fences the partition's leases and resets it. PART_MAILBOX and PART_EVENT_RING place the partition's rings, their counts at
zero. PART_ADD_UNIT starts the clearing of a unit that no partition holds. -/
def Obligations.PartitionCommands : Prop :=
  (∀ (s : State) (h : CmdHdr) (r : PartIn) (p : Nat), p = hdrTarget h → Accepts s h { device := true, fm := true } (some p) → p ≠ 0 →
    r.rsvd = false → (r.spareSlots = 0 ∨ 3 ≤ (bitsOf r.subchannels).length) → r.queueBase + r.queueCount ≤ 262144 →
    r.tallyBase + r.tallyCount ≤ 1048576 → s.dev.dirWaysUsed p + r.dirWays ≤ 32 → s.dev.sys.lifeCycle ≠ .manufactured →
    (s.dev.partn p).state = .free → s.dev.partClash p r = false →
    (unitsIn r.subchannels r.pseudoChannels).all (fun m => s.dev.unitUsable m) = true → r.subchannels ≠ 0 → r.engines ≠ 0 →
    r.movers ≠ 0 → r.queueCount ≠ 0 → r.tallyCount ≠ 0 →
    exec (.partCreate h r) s = .next (answered s h 0x0101 .ok [(s.dev.partn p).gen.setWidth 64] fun d =>
      let units := unitsIn r.subchannels r.pseudoChannels
      let d1 := units.foldl (fun e m => (e.dropMeta m).beginPass m) d
      let d2 := (units.foldl (fun e m => e.claimUnit p m) (d1.newKey p [])).setPart p fun x =>
        { x with
          number := p, state := .active, diag := r.diag, clearing := true, subchannels := r.subchannels
          pseudoChannels := r.pseudoChannels, engines := r.engines, movers := r.movers, queueBase := r.queueBase
          queueCount := r.queueCount, tallyBase := r.tallyBase, tallyCount := r.tallyCount, dirWays := r.dirWays
          spareSlots := r.spareSlots, rekeyed := false }
      let d3 := (List.range 16).foldl (fun e g => { e with groups := terase e.groups (groupKey p g) }) d2
      (d3.modGroup p 0 fun g => { g with engines := r.engines, movers := r.movers }).settleClearing (some p))) ∧
  (∀ (s : State) (h : CmdHdr) (p : Nat), p = hdrTarget h → Accepts s h { device := true, fm := true } (some p) →
    (s.dev.partn p).state ≠ .free → s.dev.partBusy p = false →
    exec (.partTenantChange h) s = .next (answered s h 0x0102 .ok [BitVec.ofNat 64 (s.dev.hk.opNo + 1)] fun d =>
      let o := d.hk.opNo + 1
      let d1 := { d with hk := { d.hk with opNo := o, ops := d.hk.ops ++ [(o, LongOp.tenantChange p false)] } }
      (d1.fenceLeases p).startPartReset p)) ∧
  (∀ (s : State) (h : CmdHdr) (p : Nat), p = hdrTarget h → Accepts s h { device := true, fm := true } (some p) →
    (s.dev.partn p).state ≠ .free → s.dev.partBusy p = false →
    exec (.partDestroy h) s = .next (answered s h 0x0103 .ok [BitVec.ofNat 64 (s.dev.hk.opNo + 1)] fun d =>
      let o := d.hk.opNo + 1
      let d1 := { d with hk := { d.hk with opNo := o, ops := d.hk.ops ++ [(o, LongOp.tenantChange p true)] } }
      (d1.fenceLeases p).startPartReset p)) ∧
  (∀ (s : State) (h : CmdHdr) (p c a b : Nat), p = hdrTarget h → Accepts s h { device := true, fm := true } (some p) → a % 64 = 0 →
    b % 64 = 0 → (s.dev.partn p).state ≠ .free → c < 65536 → s.dev.ctxOf p c = none → s.dev.ringCheck c a (64 * 256) .r = none →
    s.dev.ringCheck c b (64 * 64) .w = none →
    exec (.partMailbox h c a b) s = .next (answered s h 0x0104 .ok [] fun d =>
      { d with partMbx := tset d.partMbx p { ctx := c, cmdAddr := a, rspAddr := b } })) ∧
  (∀ (s : State) (h : CmdHdr) (p c a n : Nat), p = hdrTarget h → Accepts s h { device := true, part := true } (some p) → a % 64 = 0 →
    6 ≤ n → n ≤ 16 → (s.dev.partn p).state ≠ .free → c < 65536 → s.dev.ctxOf p c = none →
    s.dev.ringCheck c a (64 + 64 * 2 ^ n) .w = none →
    exec (.partEventRing h c a n) s = .next (answered s h 0x0105 .ok [] fun d =>
      { d with partRings := tset d.partRings p { ctx := c, addr := a, log2 := n } })) ∧
  (∀ (s : State) (h : CmdHdr) (p m u : Nat) (near : Bool), p = hdrTarget h → Accepts s h { device := true, fm := true } (some p) →
    m = (if near then 48 + u else u) → u < (if near then 64 else 48) → (s.dev.partn p).state ≠ .free → s.dev.unitOwner m = none →
    s.dev.unitUsable m = true → s.dev.hk.ops = [] →
    exec (.partAddUnit h near u) s = .next (answered s h 0x0106 .ok [BitVec.ofNat 64 (s.dev.hk.opNo + 1)] fun d =>
      let o := d.hk.opNo + 1
      let e := d.claimUnit p m
      { e with hk := { e.hk with opNo := o, ops := [(o, LongOp.addUnit p m)] } }))

/-- Region and object commands (R33, R35, R44, R53, R265). REGION_CREATE with a record that can be placed and slots all cleared makes the
region at once, with the lowest free number (log entry 15) and, of a SEQUENCE region, its page tables (R56; log entry 80); where slots are still to be cleared, it waits and is not answered yet.
REGION_DESTROY of a region that nothing names gives its extents back. REGION_MIGRATE starts a copy. REGION_QUERY answers the record, its
salts to the fabric manager alone. OBJECT_CREATE takes the lowest free index and an empty root in a free page, and answers the working handle. -/
def Obligations.RegionCommands : Prop :=
  (∀ (s : State) (h : CmdHdr) (r : RegionIn) (t : Tier) (salt : U32) (n : Nat) (x : Region),
    Accepts s h { device := true, fm := true } (some (hdrTarget h)) → tierOf r.tier = some t →
    s.dev.regionFormat (hdrTarget h) r t = false → (s.dev.partn (hdrTarget h)).state ≠ .free →
    r.extents.all (fun y => (s.dev.ownedUnits (hdrTarget h) y.ext.near).contains (extM y.ext) && extExists y.ext) = true →
    r.salt = some salt → s.dev.freeRegion = some n → s.dev.regionRecord (hdrTarget h) r t salt = some x →
    s.dev.allCleared (createSlots x) = true →
    exec (.regionCreate h r) s = .next (answered s h 0x0201 .ok [BitVec.ofNat 64 n] fun d =>
      ({ d with
        hk := { d.hk with nextMetaLine := d.hk.nextMetaLine + listLines x.extents.length x.parity.length }
        regions := tset d.regions n x, serial := d.serial + 1 } : Dev).atOnce fun e => e.initPages n)) ∧
  (∀ (s : State) (h : CmdHdr) (r : RegionIn) (t : Tier) (salt : U32) (n : Nat) (x : Region),
    Accepts s h { device := true, fm := true } (some (hdrTarget h)) → tierOf r.tier = some t →
    s.dev.regionFormat (hdrTarget h) r t = false → (s.dev.partn (hdrTarget h)).state ≠ .free →
    r.extents.all (fun y => (s.dev.ownedUnits (hdrTarget h) y.ext.near).contains (extM y.ext) && extExists y.ext) = true →
    r.salt = some salt → s.dev.freeRegion = some n → s.dev.regionRecord (hdrTarget h) r t salt = some x →
    s.dev.allCleared (createSlots x) = false →
    exec (.regionCreate h r) s = .next (s.onDev fun d => { d with hk := { d.hk with
      nextMetaLine := d.hk.nextMetaLine + listLines x.extents.length x.parity.length
      waitingCreate := [{ hdr := h, region := n, rec_ := x }] } })) ∧
  (∀ (s : State) (h : CmdHdr) (r : Nat) (x : Region), tget s.dev.regions r = some x →
    Accepts s h { device := true, fm := true } (some x.partition) → s.dev.regionNamed r = false → s.dev.regionTaken r = false →
    exec (.regionDestroy h r) s = .next (answered s h 0x0202 .ok [BitVec.ofNat 64 (s.dev.hk.opNo + 1)] fun d =>
      let o := d.hk.opNo + 1
      let d1 := { d with
        hk := { d.hk with opNo := o, ops := d.hk.ops ++ [(o, LongOp.regionDestroy r)] }
        regions := tset d.regions r { x with destroying := true, migrating := false } }
      d1.giveBack (x.extents ++ x.newExtents ++ x.dirExtents ++ (x.parity ++ x.newParity).map (fun (g : ParityGroup) => g.parity)))) ∧
  (∀ (s : State) (h : CmdHdr) (r w share : Nat) (x : Region) (salt : U32) (d1 : Dev), tget s.dev.regions r = some x → h.src ≠ .part x.partition →
    Accepts s h { device := true, fm := true, part := true } (some x.partition) →
    s.dev.migrateFormat x h w share .capacity (some salt) = false → s.dev.regionTaken r = false → x.migrating = false →
    x.failed = false → 0 < share →
    (({ s.dev with out := [], hk := { s.dev.hk with opNo := s.dev.hk.opNo + 1, ops := s.dev.hk.ops ++ [(s.dev.hk.opNo + 1, LongOp.migrate r)] } } : Dev).startMigration
      r w .capacity false share salt (some (s.dev.hk.opNo + 1))) = some d1 →
    exec (.regionMigrate h r w 0 share (some salt)) s = .next
      (answered s h 0x0203 .ok [BitVec.ofNat 64 (s.dev.hk.opNo + 1)] fun _ => d1)) ∧
  (∀ (s : State) (h : CmdHdr) (r : Nat) (x : Region), tget s.dev.regions r = some x →
    Accepts s h { device := true, fm := true, part := true } (some x.partition) →
    exec (.regionQuery h r) s = .next (answered s h 0x0204 .ok (regionWords r x (h.src == .fm)) fun d => d)) ∧
  (∀ (s : State) (h : CmdHdr) (o : ObjIn) (x : Region) (i root : Nat) (d1 : Dev), tget s.dev.regions o.region = some x →
    Accepts s h { device := true, part := true } (some x.partition) → s.dev.objectFormat o x = false → x.destroying = false →
    firstFree ((s.dev.objs.filter (fun y => decide (y.1 / 65536 = o.region) && y.2.state != .free)).map (fun y => y.1 % 65536)) 0 65536 =
      some i → ({ s.dev with out := [] } : Dev).newRoot o.region = some (root, d1) →
    exec (.objectCreate h o) s = .next
      (answered s h 0x0205 .ok [makeHandle o.region i 0 0 (d1.obj o.region i).gen] fun d =>
        (d.atOnce fun _ => d1).modObj o.region i fun old =>
          { objectOf o with
            gen := old.gen, workingRoot := root, slots := old.slots.map (fun (y : Nat × PlateSlot) => (y.1, { gen := y.2.gen })) }))

/-- Context, window, rank-table, head-binding and lease commands (R204, R208, R209, R236, R241, R242). A record that passes its checks is
written whole and the translations of its contexts are invalidated; a window record whose `valid` is 0 is freed. A lease is created HELD with its full duration, is renewed before its
expiry, and its expiry is answered. -/
def Obligations.RecordCommands : Prop :=
  (∀ (s : State) (h : CmdHdr) (c : ContextIn), Accepts s h { device := true, fm := true } (some c.partition) → c.valid = true →
    c.rsvd = false → c.tc ≤ 5 → c.segments.length ≤ 8 → c.segments.any segmentFormat = false → segmentsMeet c.segments = false →
    c.context < 65536 → (s.dev.partn c.partition).state ≠ .free → c.segments.any (s.dev.segmentBounds c.partition c.job) = false →
    exec (.contextWrite h c) s = .next (answered s h 0x0301 .ok [] fun d =>
      let x : Context := { valid := true, partition := c.partition, job := c.job, tc := c.tc, segments := c.segments }
      { d with ctxs := tset d.ctxs c.context x }.keepTrans fun e => e.ctx != c.context)) ∧
  (∀ (s : State) (h : CmdHdr) (n : Nat) (w : WindowIn), w.valid = true → (s.dev.context w.context).valid = true →
    Accepts s h { device := true, fm := true } (some (s.dev.context w.context).partition) → n < 16384 → w.rsvd = false →
    w.rankLo ≤ w.rankHi → s.dev.wins.any (fun x => x.1 != n && x.2.job == w.job && x.2.window == w.window) = false →
    s.dev.jobOf w.job (s.dev.context w.context).partition = true →
    exec (.windowWrite h n w) s = .next (answered s h 0x0302 .ok [] fun d =>
      let x : WinRec := { job := w.job, window := w.window, rankLo := w.rankLo, rankHi := w.rankHi, context := w.context }
      { d with wins := tset d.wins n x })) ∧
  (∀ (s : State) (h : CmdHdr) (n : Nat) (w : WindowIn), w.valid = false → (s.dev.context w.context).valid = true →
    Accepts s h { device := true, fm := true } (some (s.dev.context w.context).partition) → n < 16384 → w.rsvd = false →
    w.rankLo ≤ w.rankHi → s.dev.jobOf w.job (s.dev.context w.context).partition = true →
    exec (.windowWrite h n w) s = .next (answered s h 0x0302 .ok [] fun d => { d with wins := terase d.wins n })) ∧
  (∀ (s : State) (h : CmdHdr) (j p : Nat) (e : RankIn), p = hdrTarget h → Accepts s h { device := true, fm := true } (some p) → j < 65536 →
    e.rank < 65536 → e.endpoint < 65536 → e.valid = true → (s.dev.partn p).state ≠ .free → tget s.dev.ranks j = none →
    s.dev.ranks.length < 4096 →
    exec (.rankTableLoad h j [e]) s = .next (answered s h 0x0303 .ok [] fun d =>
      { d with ranks := tset d.ranks j { parts := [p], entries := [(e.rank, e.endpoint)] } })) ∧
  (∀ (s : State) (h : CmdHdr) (j p : Nat) (t : RankTable), p = hdrTarget h → Accepts s h { device := true, fm := true } (some p) →
    j < 65536 → (s.dev.partn p).state ≠ .free → s.dev.jobNamed j p = false → tget s.dev.ranks j = some t → t.parts = [p] →
    exec (.rankTableLoad h j []) s = .next (answered s h 0x0303 .ok [] fun d => { d with ranks := terase d.ranks j })) ∧
  (∀ (s : State) (h : CmdHdr) (b : HeadBindIn) (c : Nat), b.dcr = [] → b.doorbell = some c → (s.dev.context c).valid = true →
    Accepts s h { device := true, fm := true } (some (s.dev.context c).partition) → b.rsvd = false → s.dev.headExists b.head = true →
    s.dev.heads.any (fun x => x.1 != b.head && x.2.contexts.contains c) = false →
    exec (.headBind h b) s = .next (answered s h 0x0307 .ok [] fun d =>
      (d.modHead b.head fun x => { x with dcr := [], doorbell := some c }).keepTrans
        fun e => !([c] ++ (d.head b.head).contexts).contains e.ctx)) ∧
  (∀ (s : State) (h : CmdHdr) (c r first count dur n : Nat) (x : Region), tget s.dev.regions r = some x →
    Accepts s h { device := true, fm := true } (some x.partition) → 0 < count → count ≤ 16384 → 0 < dur → dur ≤ 3600 →
    (s.dev.context c).valid = true → (s.dev.context c).partition = x.partition → first + count ≤ x.extents.length → x.destroying = false →
    s.dev.freeLease = some n →
    exec (.leaseCreate h c r first count dur) s = .next (answered s h 0x0501 .ok [BitVec.ofNat 64 n] fun d =>
      let l : Lease := { state := .held, head := none, context := c, duration := dur, expiry := d.now + dur * 1000000000, region := r,
                         first := first, count := count }
      { d with leases := tset d.leases n l })) ∧
  (∀ (s : State) (h : CmdHdr) (n : Nat) (l : Lease) (x : Region), tget s.dev.leases n = some l → tget s.dev.regions l.region = some x →
    Accepts s h { device := true, fm := true, part := true } (some x.partition) → l.state = .held → s.dev.now < l.expiry →
    exec (.leaseRenew h n) s = .next (answered s h 0x0502 .ok [BitVec.ofNat 64 (s.dev.now + l.duration * 1000000000)] fun d =>
      { d with leases := tset d.leases n { l with expiry := d.now + l.duration * 1000000000 } })) ∧
  (∀ (s : State) (h : CmdHdr) (n : Nat) (l : Lease) (x : Region), tget s.dev.leases n = some l → tget s.dev.regions l.region = some x →
    Accepts s h { device := true, fm := true, part := true } (some x.partition) → l.state = .held → l.expiry ≤ s.dev.now →
    exec (.leaseRenew h n) s = .next (answered s h 0x0502 .leaseExpired [] fun d => d)) ∧
  (∀ (s : State) (h : CmdHdr) (n : Nat) (l : Lease) (x : Region), tget s.dev.leases n = some l → tget s.dev.regions l.region = some x →
    Accepts s h { device := true, fm := true, part := true } (some x.partition) → l.state = .held →
    exec (.leaseQuery h n) s = .next (answered s h 0x0503 .ok [BitVec.ofNat 64 l.expiry] fun d => d))

/-- Queue and tally commands (R113, R115, R127, R131, R141, R412). QUEUE_CREATE makes an ACTIVE queue pair with counts of zero whose tag
goes on; QUEUE_RESET and QUEUE_DESTROY reset it, at once where the tag rate allows, and QUEUE_ABORT marks its mover chains. TALLY_PAIR,
TALLY_UNPAIR and TALLY_SET change pairs and a counter's value, with no wait pending on them. -/
def Obligations.QueueAndTallyCommands : Prop :=
  (∀ (s : State) (h : CmdHdr) (x : QueueIn) (p : Nat), queueOwner x.queue s.dev = some p →
    Accepts s h { device := true, part := true } (some p) → queueFormat x = false → (s.dev.queue x.queue).exists_ = false →
    s.dev.ctxOf p x.context = none → s.dev.ringCheck x.context x.sqBase (64 * 2 ^ x.sqLog2) .r = none →
    s.dev.ringCheck x.context x.cqBase (32 * 2 ^ x.cqLog2) .w = none →
    exec (.queueCreate h x) s = .next (answered s h 0x0401 .ok [] fun d => d.modQueue x.queue fun y =>
      { gen := y.gen, exists_ := true, partition := p, anyContext := x.anyContext, context := x.context, sqLog2 := x.sqLog2
        cqLog2 := x.cqLog2, group := x.group, prioCap := x.prioCap, state := .active, weight := x.weight
        sqBase := x.sqBase, cqBase := x.cqBase })) ∧
  (∀ (s : State) (h : CmdHdr) (q p : Nat), queueOwner q s.dev = some p → Accepts s h { device := true, part := true } (some p) →
    (s.dev.queue q).exists_ = true → s.dev.tagAt (.queue q) ≤ s.dev.now →
    s.dev.jobs.any (fun j => j.waiting && j.queue == q) = false →
    exec (.queueReset h q) s = .next (answered s h 0x0402 .ok [((s.dev.queue q).gen + 1).setWidth 64] fun d =>
      ((d.abortMovers (fun j => j.queue == q)).incTag (.queue q)).modQueue q fun y =>
        { y with state := .active, sqTail := 0, sqHead := 0, cqTail := 0, cqHead := 0, inFlight := 0, fetched := [] })) ∧
  (∀ (s : State) (h : CmdHdr) (q p : Nat), queueOwner q s.dev = some p → Accepts s h { device := true, part := true } (some p) →
    (s.dev.queue q).exists_ = true →
    exec (.queueAbort h q) s = .next (answered s h 0x0403 .ok [(s.dev.queue q).gen.setWidth 64] fun d =>
      { d with jobs := d.jobs.map fun j =>
          match j.unit with
          | .mover _ _ => if j.queue == q && j.result.isNone then markAbort j else j
          | _ => j })) ∧
  (∀ (s : State) (h : CmdHdr) (q p : Nat), queueOwner q s.dev = some p → Accepts s h { device := true, part := true } (some p) →
    (s.dev.queue q).exists_ = true → s.dev.tagAt (.queue q) ≤ s.dev.now →
    s.dev.jobs.any (fun j => j.waiting && j.queue == q) = false →
    exec (.queueDestroy h q) s = .next (answered s h 0x0404 .ok [((s.dev.queue q).gen + 1).setWidth 64] fun d =>
      ((d.abortMovers (fun j => j.queue == q)).incTag (.queue q)).modQueue q fun y => { gen := y.gen })) ∧
  (∀ (s : State) (h : CmdHdr) (a b k p : Nat), tallyOwner a s.dev = some p → tallyOwner b s.dev = some p →
    Accepts s h { device := true, part := true } (some p) → a ≠ b → pairOf s.dev.pairs a = none → pairOf s.dev.pairs b = none → 0 < k →
    k ≤ 4294967296 → (s.dev.tally b).value.toNat ≤ (s.dev.tally a).value.toNat →
    (s.dev.tally a).value.toNat ≤ (s.dev.tally b).value.toNat + k → s.dev.jobs.any (fun j => j.waiting && dOpcode j.desc == 0x41) = false →
    exec (.tallyPair h a b k) s = .next (answered s h 0x0405 .ok [] fun d =>
      { d with pairs := d.pairs ++ [{ producer := a, consumer := b, k := k }] })) ∧
  (∀ (s : State) (h : CmdHdr) (t p : Nat) (x : TallyPair), tallyOwner t s.dev = some p →
    Accepts s h { device := true, part := true } (some p) → pairOf s.dev.pairs t = some x → s.dev.jobs.any (fun j => j.waiting && dOpcode j.desc == 0x41) = false →
    exec (.tallyUnpair h t) s = .next (answered s h 0x0406 .ok [] fun d => { d with pairs := d.pairs.filter fun y => y != x })) ∧
  (∀ (s : State) (h : CmdHdr) (t p : Nat) (v : U64), tallyOwner t s.dev = some p →
    Accepts s h { device := true, part := true } (some p) → s.dev.tallyFits t v.toNat = true → s.dev.jobs.any (fun j => j.waiting && dOpcode j.desc == 0x41) = false →
    exec (.tallySet h t v) s = .next (answered s h 0x0407 .ok [] fun d => d.setTally t { value := v }))

/-! ## Parameters, modes, diagnosis -/

/-- PARAM_SET (R312, R313, Table 12.12): a value in range, of a parameter that may change now, is set by the parameter's own rule, and the
old value is the output; reserved bits of its register are ignored (R7). A value out of range is FORMAT and one that may not change now
NO_RESOURCE. SWn.POLICE fills its bucket (R227); clearing `gate_en` opens every class at once, with the time that packets waited counted up
to then (R229, R230); a gate entry is set; PAIR.ENABLE from 0 to 1 makes the device STANDBY, UNSYNCED, with a full resync, and from 1 to 0
OFFLINE; a forced claim of a STANDBY device takes control (R327); PWR.DOME_REQ notes its time (R366). -/
def Obligations.ParamCommands : Prop :=
  (∀ (s : State) (h : CmdHdr) (k i : Nat) (v w : U64), Accepts s h { device := true, fm := true } none → w = paramBits k v →
    s.dev.paramBad k i w = false → s.dev.paramHeld k i w = false →
    exec (.paramSet h k i v) s = .next (answered s h 0x0702 .ok [s.dev.paramOld k i] fun d => d.paramApply k i w)) ∧
  (∀ (s : State) (h : CmdHdr) (k i : Nat) (v : U64), Accepts s h { device := true, fm := true } none →
    s.dev.paramBad k i (paramBits k v) = true →
    exec (.paramSet h k i v) s = .next (answered s h 0x0702 .format [] fun d => d)) ∧
  (∀ (s : State) (h : CmdHdr) (k i : Nat) (v w : U64), Accepts s h { device := true, fm := true } none → w = paramBits k v →
    s.dev.paramBad k i w = false → s.dev.paramHeld k i w = true →
    exec (.paramSet h k i v) s = .next (answered s h 0x0702 .noResource [] fun d => d)) ∧
  (∀ (s : State) (h : CmdHdr) (i : Nat) (v w : U64), Accepts s h { device := true, fm := true } none → i < 1024 →
    w = v &&& 0xFFFFFFFF7FFF07FF → policeBad w = false →
    exec (.policeSet h i v) s = .next (answered s h 0x0702 .ok [s.dev.param 0x0024 i] fun d =>
      (d.setParam 0x0024 i w).modPort (i / 32) fun p =>
        { p with buckets := tset p.buckets (i % 32) { level := 640 * field w 16 15, at_ := d.now } })) ∧
  (∀ (s : State) (h : CmdHdr) (i : Nat) (v : U64), Accepts s h { device := true, fm := true } none → i < 32 →
    exec (.gateCtrlSet h i v) s = .next (answered s h 0x0702 .ok [s.dev.param 0x0025 i] fun d =>
      let e := d.setParam 0x0025 i (v &&& 3)
      if bit v 0 then e else ((e.settleWaits i).modPort i fun p => { p with gateOn := false }).settleWaits i)) ∧
  (∀ (s : State) (h : CmdHdr) (i : Nat) (v w : U64), Accepts s h { device := true, fm := true } none → i < 4096 →
    w = v &&& 0xFFFFFFFF0FFFFFFF → s.dev.gateEntryBad i w = false → s.dev.paramHeld 0x0027 i w = false →
    exec (.gateEntrySet h i v) s = .next (answered s h 0x0702 .ok [s.dev.param 0x0027 i] fun d => d.setParam 0x0027 i w)) ∧
  (∀ (s : State) (h : CmdHdr), Accepts s h { device := true, fm := true } none → s.dev.pair.enable = false →
    exec (.pairEnableSet h 1) s = .next (answered s h 0x0702 .ok [0] fun d =>
      { d with pair := { d.pair with enable := true, role := .standby, sync := .unsynced, fullResync := true } })) ∧
  (∀ (s : State) (h : CmdHdr), Accepts s h { device := true, fm := true } none → s.dev.pair.enable = true →
    exec (.pairEnableSet h 0) s = .next (answered s h 0x0702 .ok [1] fun d => { d with pair := { d.pair with
      enable := false, role := .offline, quiescing := false, handoffReady := false, returnRequest := false, holdSince := none
      alone := false, resync := none } }.dropFailed)) ∧
  (∀ (s : State) (h : CmdHdr) (c : U64), Accepts s h { device := true, fm := true } none → s.dev.pair.role = .standby →
    c = (if s.dev.pair.claim.toNat < s.dev.pair.seenClaim.toNat then s.dev.pair.seenClaim else s.dev.pair.claim) + 1 →
    exec (.forceClaim h 1) s = .next (answered s h 0x0702 .ok [0] fun d =>
      { d with pair := { d.pair with
          claim := c, seenClaim := c, seenId := Config.deviceId, role := .active, sync := .unsynced, alone := true, isolated := false
          returnRequest := false, bothFailedAt := none, superseded := false } }.raise
        { code := .pairTakeover, detail0 := some c, detail1 := some 1 })) ∧
  (∀ (s : State) (h : CmdHdr), Accepts s h { device := true, fm := true } none →
    exec (.domeReq h 1) s = .next (answered s h 0x0702 .ok [0] fun d => { d with sys := { d.sys with domeReqAt := some d.now } }))

/-- Mode changes (R128, R350 to R352). MODE_CHANGE that passes its checks is staged at the units that it affects, and answers its operation
and the mode generation to come; one that affects no unit is in force at once. A unit's acknowledgement is noted; the last one puts the
whole mode in force, moves `mode_gen` on and ends the operation. After 100 ms without an acknowledgement the change is abandoned, and
nothing of it is in force. -/
def Obligations.ModeChanges : Prop :=
  (∀ (s : State) (h : CmdHdr) (m : ModeIn), Accepts s h { device := true } none → s.dev.modeCheck m = none → s.dev.modeUnits m ≠ [] →
    exec (.modeChange h m) s = .next (answered s h 0x0601 .ok
      [BitVec.ofNat 64 (s.dev.hk.opNo + 1), (s.dev.sys.modeGen + 1).setWidth 64] fun d =>
      { d with hk := { d.hk with
          opNo := d.hk.opNo + 1, ops := d.hk.ops ++ [(d.hk.opNo + 1, LongOp.modeChange)]
          staged := some { mode := m, waiting := d.modeUnits m, since := d.now, op := d.hk.opNo + 1 } } })) ∧
  (∀ (s : State) (h : CmdHdr) (m : ModeIn), Accepts s h { device := true } none → s.dev.modeCheck m = none → s.dev.modeUnits m = [] →
    (m.paceUs.getD s.dev.hk.paceUs ≠ 0 ∨ s.dev.hk.paced = []) →
    exec (.modeChange h m) s = .next (answered s h 0x0601 .ok
      [BitVec.ofNat 64 (s.dev.hk.opNo + 1), (s.dev.sys.modeGen + 1).setWidth 64] fun d =>
      inForce { d with hk := { d.hk with opNo := d.hk.opNo + 1, ops := d.hk.ops ++ [(d.hk.opNo + 1, LongOp.modeChange)] } } m
        (d.hk.opNo + 1))) ∧
  (∀ (s : State) (k : UnitKind) (n : Nat) (x : StagedMode), (k ≠ .engine ∨ tget s.dev.engReset n = none) → s.dev.hk.staged = some x →
    x.waiting.filter (fun u => u != (k, n)) ≠ [] →
    exec (.unitModeAck k n) s = .next (s.onDev fun d =>
      { d with hk := { d.hk with staged := some { x with waiting := x.waiting.filter fun u => u != (k, n) } } })) ∧
  (∀ (s : State) (k : UnitKind) (n : Nat) (x : StagedMode), (k ≠ .engine ∨ tget s.dev.engReset n = none) → s.dev.hk.staged = some x →
    x.waiting = [(k, n)] → (x.mode.paceUs.getD s.dev.hk.paceUs ≠ 0 ∨ s.dev.hk.paced = []) →
    exec (.unitModeAck k n) s = .next (s.onDev fun d => inForce d x.mode x.op)) ∧
  (∀ (s : State) (u : UnitKind × Nat) (r : List (UnitKind × Nat)) (x : StagedMode), s.dev.hk.staged = some x → x.waiting = u :: r →
    exec .modeChangeTimeout s = .next (s.onDev fun d =>
      let e := d.reach (x.since + 100000000)
      ({ e with hk := { e.hk with staged := none } }.raise
        { code := .modeAbandoned, unit := some u, detail0 := some (BitVec.ofNat 64 (unitKindCode u.1)),
          detail1 := some (BitVec.ofNat 64 u.2) }).commandDone (some x.op) none .timeout))

/-- Logs, counters, rebuilds and diagnosis (R23, R43, R144, R147, R154, R155, R167, R176, R177, R202, R231). A unit's correction log is read
into the staging window, or cleared with its counters, and a register block is read, with the waits that run counted up to now. REBUILD_START
of a readable subchannel starts its rebuild. INJECT_FLIP lays error bits over a stored word. An extent of a `diag` partition that nothing
holds enters raw mode, where a word is written exactly as given and read as stored with its syndrome class (log entries 5 and 38), and
leaves it to be cleared. A bus error is noted for its subchannel. -/
def Obligations.DiagCommands : Prop :=
  (∀ (s : State) (h : CmdHdr) (m : Nat) (ws : List U64), Accepts s h { device := true, fm := true } none → m < 112 →
    ws = (s.dev.unit m).log.flatMap (logWords m) →
    exec (.logRead h m) s = .next (answered s h 0x0802 .ok [BitVec.ofNat 64 (8 * ws.length)] fun d => staged d h ws)) ∧
  (∀ (s : State) (h : CmdHdr) (m : Nat), Accepts s h { device := true, fm := true } none → m < 112 →
    exec (.logClear h m) s = .next (answered s h 0x0803 .ok [] fun d =>
      let e := d.modUnit m fun u => { u with log := [] }
      { e with ctr := [Ctr.diUnitCe m, .diUnitNew m].foldl (fun c x => if ctrGet c x = 0 then c else ctrPut c x 0) e.ctr })) ∧
  (∀ (s : State) (h : CmdHdr) (k : Nat) (ws : List U64), Accepts s h { device := true, fm := true } none →
    (counted { s.dev with out := [] }).counterBlock k = some ws →
    exec (.countersRead h k) s = .next (answered s h 0x0804 .ok [BitVec.ofNat 64 (8 * ws.length)] fun d => staged (counted d) h ws)) ∧
  (∀ (s : State) (h : CmdHdr) (u p : Nat), Accepts s h { device := true } none → u < 48 → s.dev.unitOwner u = some p →
    (s.dev.unit u).dead = false → (s.dev.unit u).removed = false → (s.dev.unit u).trained = true →
    s.dev.rebuilds.any (fun r => r.unit == u) = false →
    exec (.rebuildStart h u) s = .next (answered s h 0x0801 .ok [BitVec.ofNat 64 (s.dev.hk.opNo + 1)] fun d =>
      let o := d.hk.opNo + 1
      { d with hk := { d.hk with opNo := o, ops := d.hk.ops ++ [(o, LongOp.rebuild u)] } }.startRebuild u false (some o))) ∧
  (∀ (s : State) (h : CmdHdr) (x : Extent) (line : Nat) (mask : BitVec 640) (f : LineFault), Accepts s h { device := true } none →
    DiagOpen s.dev x line false → (x.near = false ∨ mask >>> 576 = 0) → s.dev.pool.fault (extM x) (extLine x line) = f →
    exec (.injectFlip h x line mask) s = .next (answered s h 0x0805 .ok [] fun d =>
      { d with pool := d.pool.setFault (extM x) (extLine x line) { f with mask := f.mask ^^^ mask } })) ∧
  (∀ (s : State) (h : CmdHdr) (x : Extent), Accepts s h { device := true } none → DiagOpen s.dev x 0 false →
    s.dev.heldExtents.any (fun e => extIs e (extM x) x.slot) = false → s.dev.spareUsed.contains (extM x, x.slot) = false →
    (extM x < 48 ∨ s.dev.poolUse (extM x - 48) x.slot = 0) →
    exec (.rawModeEnter h x) s = .next (answered s h 0x0805 .ok [] fun d =>
      { d with pool := { d.pool with rawExtents := d.pool.rawExtents ++ [x] } })) ∧
  (∀ (s : State) (h : CmdHdr) (x : Extent) (line : Nat) (y : Line) (c : BitVec 128), Accepts s h { device := true } none →
    DiagOpen s.dev x line true → (x.near = false ∨ c >>> 64 = 0) →
    exec (.rawWrite h x line y c) s = .next (answered s h 0x0805 .ok [] fun d =>
      { d with pool := { d.pool with raw := tset d.pool.raw (lineKey (extM x) (extLine x line)) (y, c) } })) ∧
  (∀ (s : State) (h : CmdHdr) (x : Extent) (line : Nat) (y : Line) (c : BitVec 128) (w : BitVec 640), Accepts s h { device := true } none →
    DiagOpen s.dev x line true → tget s.dev.pool.raw (lineKey (extM x) (extLine x line)) = some (y, c) →
    w = codeword (decide (48 ≤ extM x)) y c →
    exec (.rawRead h x line) s = .next (answered s h 0x0805 .ok
      [classWord (givenClass (decide (48 ≤ extM x)) w) 0, BitVec.ofNat 64 (8 * (if x.near then 9 else 10))] fun d =>
      staged d h ((List.range (if x.near then 9 else 10)).map fun i => BitVec.ofNat 64 (field w (64 * i) 64)))) ∧
  (∀ (s : State) (h : CmdHdr) (x : Extent) (line : Nat) (k : WordClass) (w : BitVec 640), Accepts s h { device := true } none →
    DiagOpen s.dev x line true → tget s.dev.pool.raw (lineKey (extM x) (extLine x line)) = none →
    w = s.dev.rawStored (extM x) (extLine x line) →
    classify (decide (48 ≤ extM x)) (s.dev.pool.fault (extM x) (extLine x line)) 0 = k → k ≠ .miscorrected →
    exec (.rawRead h x line) s = .next (answered s h 0x0805 .ok
      [classWord k 0, BitVec.ofNat 64 (8 * (if x.near then 9 else 10))] fun d =>
      staged d h ((List.range (if x.near then 9 else 10)).map fun i => BitVec.ofNat 64 (field w (64 * i) 64)))) ∧
  (∀ (s : State) (h : CmdHdr) (x : Extent), Accepts s h { device := true } none → DiagOpen s.dev x 0 true →
    exec (.rawModeExit h x) s = .next (answered s h 0x0805 .ok [] fun d =>
      let e := d.modUnit (extM x) fun u => { u with cleared := u.cleared.filter fun k => k != x.slot }
      { e with pool := { e.pool with rawExtents := e.pool.rawExtents.filter fun y => !extIs y (extM x) x.slot } })) ∧
  (∀ (s : State) (c : Nat), s.dev.sys.live = true → (s.dev.unit (2 * c)).trained = true → (s.dev.unit (2 * c)).errTimes.length < 64 →
    exec (.ddrAlert c true false) s = .next (s.onDev fun d => d.modUnit (2 * c) fun u =>
      { u with errTimes := u.errTimes.filter (fun t => decide (d.now < t + 1000000)) ++ [d.now] }))

/-! ## The CXL mailbox, SPDM and IDE -/

/-- CXL mailbox commands of a head (R306, Table 12.8; their result codes and payload layouts are log entry 36), SPDM and IDE keys (R271 to
R274). Each is answered with its result and payload; policies, alerts, the time offset and the event log are the head's; an opcode that
Table 12.8 does not carry is unsupported. Transfer and Activate FW are FW_DOWNLOAD, FW_VERIFY and FW_ACTIVATE for heads 0 and 2. A RETIRED
device answers SPDM GET_VERSION alone. -/
def Obligations.CxlMailboxCommands : Prop :=
  (∀ (s : State) (h : Nat), MailboxUp s.dev h → exec (.cxlIdentify h) s = .next (s.onDev fun d =>
    d.emit (.cxlMbox h 0 [identWord, Config.deviceId]))) ∧
  (∀ (s : State) (h n : Nat) (xs : List CxlEvent), MailboxUp s.dev h → n < 5 → xs = (s.dev.head h).events.filter (fun x => x.log == n) →
    exec (.getEventRecords h n) s = .next (s.onDev fun d =>
      d.emit (.cxlMbox h 0 (BitVec.ofNat 64 xs.length :: xs.flatMap fun x => BitVec.ofNat 64 x.handle :: x.payload)))) ∧
  (∀ (s : State) (h n : Nat), MailboxUp s.dev h → n < 5 → exec (.clearEventRecords h n [] true) s = .next (s.onDev fun d =>
    (d.modHead h fun y => { y with events := y.events.filter fun x => x.log != n }).emit (.cxlMbox h 0 []))) ∧
  (∀ (s : State) (h : Nat), MailboxUp s.dev h → exec (.getEventInterruptPolicy h) s = .next (s.onDev fun d =>
    d.emit (.cxlMbox h 0 [(d.head h).intPolicy.setWidth 64]))) ∧
  (∀ (s : State) (h : Nat) (v : U32), MailboxUp s.dev h → exec (.setEventInterruptPolicy h v) s = .next (s.onDev fun d =>
    (d.modHead h fun y => { y with intPolicy := v }).emit (.cxlMbox h 0 []))) ∧
  (∀ (s : State) (h : Nat), MailboxUp s.dev h → exec (.getFwInfo h) s = .next (s.onDev fun d =>
    d.emit (.cxlMbox h 0 [2, BitVec.ofNat 64 (1 + d.sys.bootSlotB.toNat), d.sys.slotStates]))) ∧
  (∀ (s : State) (h : Nat) (xs : List Byte), MailboxUp s.dev h → (h = 0 ∨ h = 2) → s.dev.sys.stage = .running →
    s.dev.sys.trialPending = false → s.dev.sys.downloading = false → xs.length ≤ 31457280 →
    exec (.transferFw h 0 xs true false true) s = .next (s.onDev fun d =>
      let x := d.sys.record .downloading (!d.sys.confirmed) d.sys.confirmed 0 0
      let e := { d with sys := { x with downloading := true, flash := memWriteList d.sys.flash (slotBase (!d.sys.confirmed)) xs } }
      e.emit (.cxlMbox h 0 []))) ∧
  (∀ (s : State) (h n : Nat) (r : FwRecord), MailboxUp s.dev h → (h = 0 ∨ h = 2) → s.dev.sys.stage = .running →
    s.dev.sys.journal.getLast? = some r → r.state = .verified → n = 1 + r.slotB.toNat →
    exec (.activateFw h n false) s = .next (s.onDev fun d =>
      { d with sys := d.sys.record .trial r.slotB r.confirmedB 0 r.digest }.emit (.cxlMbox h 0 []))) ∧
  (∀ (s : State) (h : Nat), MailboxUp s.dev h → exec (.getTimestamp h) s = .next (s.onDev fun d =>
    d.emit (.cxlMbox h 0 [BitVec.ofNat 64 d.now + (d.head h).tsOffset]))) ∧
  (∀ (s : State) (h : Nat) (t : U64), MailboxUp s.dev h → exec (.setTimestamp h t) s = .next (s.onDev fun d =>
    (d.modHead h fun y => { y with tsOffset := t - BitVec.ofNat 64 d.now }).emit (.cxlMbox h 0 []))) ∧
  (∀ (s : State) (h : Nat), MailboxUp s.dev h → exec (.getSupportedLogs h) s = .next (s.onDev fun d =>
    d.emit (.cxlMbox h 0 [0, BitVec.ofNat 64 (8 * (cxlOpcodes h).length), 1,
      BitVec.ofNat 64 (8 * (d.units.flatMap fun u => u.2.log.flatMap (logWords u.1)).length)]))) ∧
  (∀ (s : State) (h k off len : Nat) (ws : List U64), MailboxUp s.dev h →
    (k = 0 ∧ ws = (cxlOpcodes h).map (fun x => BitVec.ofNat 64 x) ∨
      k = 1 ∧ ws = s.dev.units.flatMap fun u => u.2.log.flatMap (logWords u.1)) →
    off % 8 = 0 → len % 8 = 0 → off + len ≤ 8 * ws.length →
    exec (.getLog h k off len) s = .next (s.onDev fun d => d.emit (.cxlMbox h 0 ((ws.drop (off / 8)).take (len / 8))))) ∧
  (∀ (s : State) (h n : Nat), MailboxUp s.dev h →
    n = (s.dev.units.filter (fun u => u.2.trained && !u.2.dead)).foldl (fun a u => a + u.2.slots) 0 →
    exec (.identifyMemoryDevice h) s = .next (s.onDev fun d => d.emit (.cxlMbox h 0 [BitVec.ofNat 64 n, BitVec.ofNat 64 n, 0]))) ∧
  (∀ (s : State) (h : Nat), MailboxUp s.dev h → exec (.getHealthInfo h) s = .next (s.onDev fun d =>
    { d with free := d.free + 1 }.emit (.cxlMbox h 0 [Config.freeWord d.free, BitVec.ofNat 64 d.pow.tj, d.count .diCeTotal]))) ∧
  (∀ (s : State) (h : Nat), MailboxUp s.dev h → exec (.getAlertConfiguration h) s = .next (s.onDev fun d =>
    d.emit (.cxlMbox h 0 [(d.head h).alertCfg.setWidth 64, ((d.head h).alertCfg >>> 64).setWidth 64]))) ∧
  (∀ (s : State) (h : Nat) (v : U128), MailboxUp s.dev h → exec (.setAlertConfiguration h v) s = .next (s.onDev fun d =>
    (d.modHead h fun y => { y with alertCfg := v }).emit (.cxlMbox h 0 []))) ∧
  (∀ (s : State) (h : Nat) (ps : List Nat), MailboxUp s.dev h → ps = s.dev.poisonList h →
    exec (.getPoisonList h) s = .next (s.onDev fun d =>
      d.emit (.cxlMbox h 0 (BitVec.ofNat 64 ps.length :: ps.map fun a => BitVec.ofNat 64 a)))) ∧
  (∀ (s : State) (h : Nat), MailboxUp s.dev h → exec (.getDcConfiguration h) s = .next (s.onDev fun d =>
    d.emit (.cxlMbox h 0 (8 :: (List.range 8).flatMap fun i =>
      [BitVec.ofNat 64 (i * 4398046511104), 4398046511104, 268435456, if (tget (d.head h).dcr i).isSome then 1 else 0])))) ∧
  (∀ (s : State) (h : Nat) (xs : List DcExtent) (g : DcExtent → Nat), MailboxUp s.dev h →
    xs = (s.dev.head h).extents.filter (fun x => !x.released) →
    g = (fun x => packBits [(0, 16, x.region), (16, 1, x.r.toNat), (17, 1, x.w.toNat), (32, 64, x.offset), (96, 32, x.duration)]) →
    exec (.getDcExtentList h) s = .next (s.onDev fun d => d.emit (.cxlMbox h 0 (BitVec.ofNat 64 xs.length :: xs.flatMap fun x =>
      [BitVec.ofNat 64 x.dpa, BitVec.ofNat 64 x.length, BitVec.ofNat 64 (g x), BitVec.ofNat 64 (g x / 18446744073709551616)])))) ∧
  (∀ (s : State) (h n : Nat), MailboxUp s.dev h → (cxlOpcodes h).contains n = false →
    exec (.cxlMailboxUnsupported h n) s = .next (s.onDev fun d => d.emit (.cxlMbox h mboxUnsupported []))) ∧
  (∀ (s : State) (p : SpdmPath), s.dev.sys.inDome = false → s.dev.sys.resetN = true → s.dev.sys.islandsOff = false →
    s.dev.spdmPath p = true →
    exec (.spdmRequest p .getVersion) s = .next (s.onDev fun d => d.emit (.spdm p [0x04, 0x12, 0x13]))) ∧
  (∀ (s : State) (p : SpdmPath) (i : Nat), s.dev.sys.inDome = false → s.dev.sys.resetN = true → s.dev.sys.islandsOff = false →
    s.dev.spdmPath p = true → s.dev.sys.lifeCycle ≠ .retired → measured i = true →
    exec (.spdmRequest p (.getMeasurement i)) s = .next (s.onDev fun d =>
      { d with free := d.free + 1 }.emit (.spdm p ([0x60, i, tgetD d.sys.measCounts i 0 % 4294967296] ++ d.measurement i ++
        [(Config.freeWord d.free).toNat])))) ∧
  (∀ (s : State) (p : SpdmPath) (r : SpdmReq), s.dev.sys.inDome = false → s.dev.sys.resetN = true → s.dev.sys.islandsOff = false →
    s.dev.spdmPath p = true → s.dev.sys.lifeCycle = .retired → r ≠ .getVersion →
    exec (.spdmRequest p r) s = .next (s.onDev fun d => d.emit (.spdmError p))) ∧
  (∀ (s : State) (h k n : Nat), MailboxUp s.dev h → k < 6 → n < 2 → s.dev.sys.lifeCycle ≠ .retired →
    exec (.ideKmKeyProg h k n true) s = .next (s.onDev fun d => d.modHead h fun y =>
      { y with ideKeys := y.ideKeys.filter (fun z => z != (k, n)) ++ [(k, n)] }))

/-! ## Coelostat pairs -/

/-- Heartbeats and paths (R320 to R322, R325, R330 to R332). A heartbeat is sent over the fabric and, with the ring strapped in, over the
ring, with the next number. One from the partner with a higher number counts on its path and its record is kept; on an ACTIVE device a
claim above its own makes it STANDBY. A ring message with a bad CRC, or
one that has made 63 hops, is dropped; a partner's is sent on and, where its number is new, taken; the device's own shows the ring whole. At the end of a period a path that was heard stays, and the tenth silent period fails it and starts the discrepancy,
which becomes SPLIT; 2 ms without the own message end wholeness and 3 ms raise RING_BROKEN; the bypass follows the ring's lock. -/
def Obligations.PairPaths : Prop :=
  (∀ (s : State), s.dev.beats = true → exec .heartbeatSend s = .next (s.onDev fun d =>
    let e : Dev := { d with pair := { d.pair with hbSeq := d.pair.hbSeq + 1 } }
    let f := e.sendBack { tc := 6, flowTc := 6, kind := .heartbeat, dstEp := d.pair.partnerEp, data := [hbLine e.ownHb] }
    if d.sys.straps.mringEn then f.emit (.ringMsg e.ownHb 0) else f)) ∧
  (∀ (s : State) (n : Nat) (p : Packet) (x : FlowRx) (hb : Heartbeat), p.kind = .heartbeat → hbOfLine (p.data.headD 0) = hb →
    NextOfFlow s.dev n p x → s.dev.pair.enable = true → hb.deviceId = s.dev.pair.partnerId →
    (∀ q, s.dev.pair.fabric.lastSeq = some q → q.toNat < hb.hbSeq.toNat) → hb.claim.toNat < s.dev.pair.claim.toNat →
    hb.claim.toNat < s.dev.pair.seenClaim.toNat → hb.seenClaim.toNat < s.dev.pair.claim.toNat →
    hb.seenClaim.toNat < s.dev.pair.seenClaim.toNat → s.dev.pair.role = .active → hb.preferred ≠ s.dev.sys.straps.pairPref →
    hb.returnRequest = false →
    exec (.heartbeatReceive n p hb) s = .next (s.onDev fun d =>
      let e := inOrder d n p x
      { e with pair := { e.pair with
          fabric := { e.pair.fabric with seen := true, lastSeq := some hb.hbSeq }, partner := some hb } })) ∧
  (∀ (s : State) (n : Nat) (p : Packet) (x : FlowRx) (hb : Heartbeat), p.kind = .heartbeat → hbOfLine (p.data.headD 0) = hb →
    NextOfFlow s.dev n p x → s.dev.pair.enable = true → hb.deviceId = s.dev.pair.partnerId → s.dev.pair.fabric.lastSeq = none →
    s.dev.pair.claim.toNat < hb.claim.toNat → s.dev.pair.seenClaim.toNat < hb.claim.toNat → hb.seenClaim = hb.claim →
    hb.seenId = hb.deviceId → s.dev.pair.role = .active → hb.preferred ≠ s.dev.sys.straps.pairPref → hb.handoffReady = false →
    ∃ t, exec (.heartbeatReceive n p hb) s = .next t ∧ t.dev.pair.role = .standby ∧ t.dev.pair.seenClaim = hb.claim ∧
      t.dev.pair.seenId = hb.deviceId ∧ t.dev.pair.partner = some hb) ∧
  (∀ (s : State) (hb : Heartbeat) (k : Nat), exec (.ringMessageReceive hb k false) s = .next (s.onDev fun d => d)) ∧
  (∀ (s : State) (hb : Heartbeat) (k : Nat), s.dev.sys.straps.mringEn = true → hb.deviceId ≠ Config.deviceId →
    hb.deviceId = s.dev.pair.partnerId → k < 63 → s.dev.pair.enable = true →
    (∃ q, s.dev.pair.ring.lastSeq = some q ∧ hb.hbSeq.toNat ≤ q.toNat) →
    exec (.ringMessageReceive hb k true) s = .next (s.onDev fun d => d.emit (.ringMsg hb (k + 1)))) ∧
  (∀ (s : State) (hb : Heartbeat) (k : Nat), s.dev.sys.straps.mringEn = true → hb.deviceId ≠ Config.deviceId →
    hb.deviceId = s.dev.pair.partnerId → k < 63 → s.dev.pair.enable = true →
    (∀ q, s.dev.pair.ring.lastSeq = some q → q.toNat < hb.hbSeq.toNat) → hb.claim.toNat < s.dev.pair.claim.toNat →
    hb.claim.toNat < s.dev.pair.seenClaim.toNat → hb.seenClaim.toNat < s.dev.pair.claim.toNat →
    hb.seenClaim.toNat < s.dev.pair.seenClaim.toNat → s.dev.pair.role = .active → hb.preferred ≠ s.dev.sys.straps.pairPref →
    hb.returnRequest = false →
    exec (.ringMessageReceive hb k true) s = .next (s.onDev fun d =>
      let e := d.emit (.ringMsg hb (k + 1))
      { e with pair := { e.pair with ring := { e.pair.ring with seen := true, lastSeq := some hb.hbSeq }, partner := some hb } })) ∧
  (∀ (s : State) (hb : Heartbeat) (k : Nat), s.dev.sys.straps.mringEn = true → hb.deviceId ≠ Config.deviceId → 63 ≤ k →
    exec (.ringMessageReceive hb k true) s = .next (s.onDev fun d => d)) ∧
  (∀ (s : State) (hb : Heartbeat) (k : Nat), s.dev.sys.straps.mringEn = true → 0 < k →
    exec (.ringMessageReceive { hb with deviceId := Config.deviceId } k true) s = .next (s.onDev fun d => { d with pair := { d.pair with
      ownReturn := some d.now, ringHops := k, ringWhole := true, brokenRaised := false, singleton := false } }.pairDecide)) ∧
  (∀ (s : State), s.dev.sys.live = true → s.dev.pair.enable = true → s.dev.pair.fabric.failed = false → s.dev.pair.ring.failed = false →
    s.dev.pair.fabric.seen = true → s.dev.pair.ring.seen = true → s.dev.pair.split = false →
    exec .heartbeatPeriod s = .next (s.onDev fun d => { d with pair := { d.pair with
      fabric := { d.pair.fabric with missed := 0, good := d.pair.fabric.good + 1, seen := false }
      ring := { d.pair.ring with missed := 0, good := d.pair.ring.good + 1, seen := false }
      isolated := false, bothFailedAt := none, disagreeSince := none } })) ∧
  (∀ (s : State), s.dev.sys.live = true → s.dev.pair.enable = true → s.dev.pair.fabric.failed = false → s.dev.pair.ring.failed = false →
    s.dev.pair.fabric.seen = false → s.dev.pair.fabric.missed = 9 → s.dev.pair.ring.seen = true → s.dev.pair.sync = .synced →
    exec .heartbeatPeriod s = .next (s.onDev fun d =>
      let e : Dev := { d with pair := { d.pair with
        fabric := { failed := true, missed := 10, good := 0, seen := false, lastSeq := none, failedAt := d.now }
        ring := { d.pair.ring with missed := 0, good := d.pair.ring.good + 1, seen := false } } }
      let f := e.raise { code := .pairPathFailed, detail0 := some 0 }
      { f with pair := { f.pair with
          isolated := false, bothFailedAt := none
          disagreeSince := if d.pair.disagreeSince.isSome then d.pair.disagreeSince else some d.now } })) ∧
  (∀ (s : State) (t : Nat), s.dev.pair.disagreeSince = some t → s.dev.pair.split = false →
    exec .discrepancyTimer s = .next (s.onDev fun d =>
      let e : Dev := { d with now := max d.now (t + d.pair.discMs * 1000000), pair := { d.pair with split := true } }
      e.raise { code := .pairSplit, detail0 := some (if d.pair.fabric.failed then 0 else 1),
                detail1 := some (BitVec.ofNat 64 ((e.now - t) / 1000000)) })) ∧
  (∀ (s : State), s.dev.pair.ringWhole = true →
    exec .ringWholeTimer s = .next (s.onDev fun d => { d with
      now := max d.now (d.pair.ownReturn.getD d.sys.startedAt + 2000000), pair := { d.pair with ringWhole := false } }.pairDecide)) ∧
  (∀ (s : State), s.dev.pair.ringWhole = false → s.dev.pair.brokenRaised = false →
    exec .ringWholeTimer s = .next (s.onDev fun d =>
      let e : Dev := { d with
        now := max d.now (d.pair.ownReturn.getD d.sys.startedAt + 3000000), pair := { d.pair with brokenRaised := true } }
      e.raise { code := .ringBroken })) ∧
  (∀ (s : State), exec .mringLockLoss s = .next (s.onDev fun d => { d with
    sys := { d.sys with mringByp := if d.sys.straps.mringEn then .low else .hiZ }, pair := { d.pair with ringLock := false } })) ∧
  (∀ (s : State), s.dev.sys.straps.mringEn = true → exec .mringLockGain s = .next (s.onDev fun d => { d with
    now := max d.now (d.now + 100000), sys := { d.sys with mringByp := .high }, pair := { d.pair with ringLock := true } }))

/-- Control of a pair (R323, R324, R328, R329). 2 ms after both paths failed a STANDBY that is not SYNCED reports PAIR_NO_TAKEOVER; one
that is, with the ring whole and not alone on it, takes control. When the hold ends the active serves alone, and a write whose mirror
failed is marked in its page and completes. A resync copies its pages one by one, and when they are done the copy is SYNCED. A SYNCED,
preferred STANDBY asks for control back; after 100 ms it gives up and asks again 10 s later; a handoff not taken in 100 ms ends. -/
def Obligations.PairControl : Prop :=
  (∀ (s : State) (t : Nat), s.dev.pair.bothFailedAt = some t → s.dev.pair.enable = true → s.dev.pair.role = .standby →
    s.dev.pair.sync ≠ .synced → exec .pairTakeover s = .next (s.onDev fun d =>
      let e : Dev := { d with now := max d.now (t + 2000000), pair := { d.pair with bothFailedAt := none } }
      e.raise { code := .pairNoTakeover, detail0 := some (BitVec.ofNat 64 (syncCode d.pair.sync)),
                detail1 := some (if d.sys.straps.mringEn then 1 else 0) })) ∧
  (∀ (s : State) (t : Nat) (c : U64), s.dev.pair.bothFailedAt = some t → s.dev.pair.enable = true → s.dev.pair.role = .standby →
    s.dev.pair.sync = .synced → s.dev.sys.straps.mringEn = true → s.dev.pair.ringWhole = true → s.dev.pair.singleton = false →
    c = (if s.dev.pair.claim.toNat < s.dev.pair.seenClaim.toNat then s.dev.pair.seenClaim else s.dev.pair.claim) + 1 →
    exec .pairTakeover s = .next (s.onDev fun d =>
      let e : Dev := { d with
        now := max d.now (t + 2000000)
        pair := { d.pair with
          bothFailedAt := none, claim := c, seenClaim := c, seenId := Config.deviceId, role := .active, sync := .unsynced
          alone := true, isolated := false, returnRequest := false, superseded := false } }
      e.raise { code := .pairTakeover, detail0 := some c, detail1 := some 0 })) ∧
  (∀ (s : State) (t : Nat), s.dev.pair.holdSince = some t → s.dev.pair.mirrors = [] →
    exec .mirrorHoldEnd s = .next (s.onDev fun d => { d with
      now := max d.now (t + d.pair.discMs * 1000000), pair := { d.pair with alone := true, sync := .unsynced, holdSince := none } })) ∧
  (∀ (s : State) (t h : Nat) (y : Line) (en : U64) (m : MirrorWrite), s.dev.pair.holdSince = some t → s.dev.pair.mirrors = [m] →
    m.failed = true → m.client = .hostWrite h y en → s.dev.pair.pendingPages.contains (m.region, m.offset / pageBytes) = false →
    exec .mirrorHoldEnd s = .next (s.onDev fun d =>
      let e : Dev := { d with
        now := max d.now (t + d.pair.discMs * 1000000)
        pair := { d.pair with
          alone := true, sync := .unsynced, holdSince := none, mirrors := []
          pendingPages := d.pair.pendingPages ++ [(m.region, m.offset / pageBytes)] } }
      e.emit (.cxlDone h))) ∧
  (∀ (s : State) (r : Resync), s.dev.resyncReady = true → s.dev.resyncPlan = r → r.todo = [] →
    exec .resyncStart s = .next (s.onDev fun d =>
      let e : Dev := { d with pair := { d.pair with sync := .resync, alone := false, resync := some r } }
      let f := e.raise
        { code := .pairResyncStart, detail0 := some (BitVec.ofNat 64 r.total), detail1 := some (if r.full then 1 else 0) }
      { f with pair := { f.pair with
          resync := none, pendingPages := [], fullResync := false, sync := .synced, alone := false } }.raise
        { code := .pairResyncDone, detail0 := some (BitVec.ofNat 64 r.total), detail1 := some (if r.full then 1 else 0) })) ∧
  (∀ (s : State) (r : Resync) (e pg : Nat) (l : List (Nat × Nat)), s.dev.resyncReady = true → s.dev.resyncPlan = r →
    r.todo = (e, pg) :: l → exec .resyncStart s = .next (s.onDev fun d =>
      let f := { d with pair := { d.pair with sync := .resync, alone := false, resync := some r } }.raise
        { code := .pairResyncStart, detail0 := some (BitVec.ofNat 64 r.total), detail1 := some (if r.full then 1 else 0) }
      { f with pair := { f.pair with resync := some r } }.sendPage e pg)) ∧
  (∀ (s : State) (r : Resync) (e pg : Nat), s.dev.pair.resync = some r → s.dev.pair.sync = .resync →
    s.dev.rt.reqs.all (fun q => q.purpose != .resync) = true → r.todo = [(e, pg)] →
    exec .resyncPageDone s = .next (s.onDev fun d =>
      { d with pair := { d.pair with
          resync := none, pendingPages := [], fullResync := false, sync := .synced, alone := false } }.raise
        { code := .pairResyncDone, detail0 := some (BitVec.ofNat 64 r.total), detail1 := some (if r.full then 1 else 0) })) ∧
  (∀ (s : State) (r : Resync) (e pg e2 p2 : Nat) (l : List (Nat × Nat)), s.dev.pair.resync = some r → s.dev.pair.sync = .resync →
    s.dev.rt.reqs.all (fun q => q.purpose != .resync) = true → r.todo = (e, pg) :: (e2, p2) :: l →
    exec .resyncPageDone s = .next (s.onDev fun d =>
      { d with pair := { d.pair with
          resync := some { r with todo := (e2, p2) :: l }
          pendingPages := d.pair.pendingPages.filter fun x => x != ((tgetD d.pair.entries e {}).region, pg) } }.sendPage e2 p2)) ∧
  (∀ (s : State), s.dev.mayReturn = true → s.dev.pair.retryAt = none → exec .returnRequest s = .next (s.onDev fun d =>
    { d with pair := { d.pair with returnRequest := true, requestAt := d.now } })) ∧
  (∀ (s : State), s.dev.pair.returnRequest = true → exec .returnTimeout s = .next (s.onDev fun d =>
    let t := max d.now (d.pair.requestAt + 100000000)
    { d with now := t, pair := { d.pair with returnRequest := false, retryAt := some (t + 10000000000) } }.raise
      { code := .pairReturnAbandoned })) ∧
  (∀ (s : State) (t : Nat), s.dev.pair.retryAt = some t → s.dev.mayReturn = true → exec .returnRetry s = .next (s.onDev fun d =>
    { d with now := max d.now t, pair := { d.pair with retryAt := none, returnRequest := true, requestAt := max d.now t } })) ∧
  (∀ (s : State), s.dev.pair.quiescing = true → exec .handoffTimeout s = .next (s.onDev fun d => { d with
    now := max d.now (d.pair.quiescedAt + 100000000), pair := { d.pair with quiescing := false, handoffReady := false } }))

/-! ## Hangs, slow units, resets of units -/

/-- Tests and detectors (R333, R340, R353, R354). A standby's patrol reads the next line; its engines that pass stay and one that fails is
counted, reported and reset; failing loopbacks of unused ports are counted. A detector raises UNIT_HUNG at its threshold: an engine or a
mover is then reset, a memory unit retrained, and a silent management core HALTED. An engine that keeps pace is counted good, and 16 good
windows readmit it; a unit below half of its peers' rate for 1 s is reported. -/
def Obligations.DetectorsAndTests : Prop :=
  (∀ (s : State) (m line : Nat), s.dev.sys.live = true → s.dev.pair.role = .standby → s.dev.pair.patrolPos < s.dev.pairLines →
    s.dev.patrolLine s.dev.pair.patrolPos = some (m, line) → (s.dev.unit m).retrain = none → s.dev.pool.fault m line = {} →
    exec (.standbyPatrol 0 0) s = .next (s.onDev fun d => { d with pair := { d.pair with patrolPos := d.pair.patrolPos + 1 } })) ∧
  (∀ (s : State) (n : Nat), exec (.engineIdleSelftest n true) s = .next (s.onDev fun d => d)) ∧
  (∀ (s : State) (n : Nat), s.dev.sys.live = true → s.dev.pair.role = .standby → s.dev.engineJobs n = [] →
    tget s.dev.engReset n = none → bit s.dev.engFailed n = false → exec (.engineIdleSelftest n false) s = .next (s.onDev fun d =>
      ({ d with pair := { d.pair with engineFail := d.pair.engineFail + 1 } }.raise
        { code := .pairSelftestFail, unit := some (.engine, n), detail0 := some (BitVec.ofNat 64 (unitKindCode .engine))
          detail1 := some (BitVec.ofNat 64 n) }).resetEngine n 1)) ∧
  (∀ (s : State) (v : U32), s.dev.pair.enable = true → s.dev.pair.role = .standby → exec (.portLoopbackTest v) s =
    .next (s.onDev fun d => { d with pair := { d.pair with loopbackFail := ((bitsOf v).filter fun n =>
      (d.port n).state == .disabled || (d.port n).state == .absent).length } })) ∧
  (∀ (s : State) (n : Nat) (j : Job), s.dev.engineJobs n = [j] → exec (.engineHangDetect n) s = .next (s.onDev fun d =>
    ({ d with now := max d.now (j.lastAccess + (d.param 0x0040 0).toNat * 1000) }.raise
      { code := .unitHung, unit := some (.engine, n), part := some j.partition, context := some (dCtx j.desc), queue := some j.queue
        tag := some (BitVec.ofNat 16 (dTag j.desc)), detail0 := some (BitVec.ofNat 64 ((d.param 0x0040 0).toNat * 1000 / 1000))
        detail1 := some ((tgetD d.engGen n 0).setWidth 64) }).resetEngine n 0)) ∧
  (∀ (s : State) (n c t : Nat) (j : Job), s.dev.moverJobs n = [j] → j.unit = .mover n c → s.dev.runsNow j = true →
    (dOpcode j.desc = 0x30 ∧ j.chain = none ∧ t = j.dispatchedAt ∨
      ∃ x, j.chain = some x ∧ x.started = true ∧ t = max x.lastBurst j.dispatchedAt) →
    exec (.moverHangDetect n c) s = .next (s.onDev fun d =>
    ({ d with now := max d.now (t + (d.param 0x0041 0).toNat * 1000) }.raise
      { code := .unitHung, unit := some (.mover, n), part := some j.partition, context := some (dCtx j.desc), queue := some j.queue
        tag := some (BitVec.ofNat 16 (dTag j.desc)), detail0 := some (BitVec.ofNat 64 ((d.param 0x0041 0).toNat * 1000 / 1000))
        detail1 := some ((tgetD d.movGen n 0).setWidth 64) }).resetMover n 0)) ∧
  (∀ (s : State) (m r b : Nat), s.dev.sys.live = true → (s.dev.unit m).trained = true → (s.dev.unit m).dead = false →
    (s.dev.unit m).removed = false → (s.dev.unit m).retrain = none → exec (.mcHangDetect m r b) s = .next (s.onDev fun d =>
    ({ d with now := max d.now (d.now + (d.param 0x0042 0).toNat * 1000) }.raise
      { code := .unitHung, unit := some (memUnitRef m), loc := some { rank := r, bank := b, column := 0, row := 0 }
        detail0 := some (BitVec.ofNat 64 ((d.param 0x0042 0).toNat * 1000 / 1000))
        detail1 := some ((tgetD d.unitGen m 0).setWidth 64) }).startRetrain m)) ∧
  (∀ (s : State), s.dev.sys.stage = .running → exec .mgmtCoreHangDetect s = .next (s.onDev fun d =>
    ({ d with now := max d.now (d.sys.heartbeatAt + (d.param 0x0043 0).toNat * 1000000) }.raise
      { code := .unitHung, unit := some (.mgmtCore, 0)
        detail0 := some (BitVec.ofNat 64 ((d.param 0x0043 0).toNat * 1000000 / 1000)), detail1 := some 0 }).setSys fun x =>
      { x with stage := .halted, causeHalted := true })) ∧
  (∀ (s : State) (sec : Bool) (n : Nat), s.dev.sys.resetN = true → s.dev.sys.islandsOff = false →
    exec (.xbarSecHangDetect sec n) s = .next (s.onDev fun d =>
      { d with now := max d.now (d.now + (d.param 0x0044 0).toNat * 1000000) }.raise
        { code := .unitHung, unit := some (if sec then (.sec, 0) else (.xbar, n))
          detail0 := some (BitVec.ofNat 64 ((d.param 0x0044 0).toNat * 1000000 / 1000)), detail1 := some 0 })) ∧
  (∀ (s : State) (p g n t : Nat), s.dev.sys.live = true → bit (s.dev.group p g).engines n = true → bit (s.dev.group p g).withdrawn n = false →
    exec (.engineSlowWindow p g [(n, t)]) s = .next (s.onDev fun d =>
      { d with now := max d.now (d.now + 1000000) }.modGroup p g fun y => { y with
        slowRuns := tset y.slowRuns n 0, goodRuns := tset y.goodRuns n (tgetD y.goodRuns n 0 + 1) })) ∧
  (∀ (s : State) (p g n t : Nat), s.dev.sys.live = true → bit (s.dev.group p g).engines n = true → bit (s.dev.group p g).withdrawn n = true →
    15 ≤ tgetD (s.dev.group p g).goodRuns n 0 →
    ∃ u, exec (.engineSlowWindow p g [(n, t)]) s = .next u ∧ (u.dev.group p g).withdrawn = putBit (s.dev.group p g).withdrawn n false) ∧
  (∀ (s : State) (m a b o : Nat), s.dev.sys.live = true → (s.dev.unit m).trained = true → s.dev.unitOwner m = some o → 2 * a < b →
    exec (.memoryUnitSlow m a b) s = .next (s.onDev fun d =>
      { d with now := max d.now (d.now + 1000000000) }.raise
        { code := .unitSlow, part := some o, unit := some (memUnitRef m)
          detail0 := some (BitVec.ofNat 64 (packBits [(0, 32, unitKindCode (memUnitRef m).1), (32, 32, (memUnitRef m).2)]))
          detail1 := some (BitVec.ofNat 64 a) }))

/-- Resets of units and partitions (R260, R265, R336, R338, R339, R341 to R344). An idle engine or mover is reset with its tag one up; past
the tag rate the reset waits, and goes on later. A tested engine returns, or is FAILED. A retrain moves the unit's tag on, holds its
requests, and ends with the thresholds read again, or in a dead unit; what it held goes on. A quiet RESETTING partition is ACTIVE again with its tags one up, and
a slot that Shutter has cleared is ready. -/
def Obligations.UnitResets : Prop :=
  (∀ (s : State) (n : Nat), s.dev.sys.stage = .running → tget s.dev.engReset n = none → bit s.dev.engFailed n = false →
    s.dev.tagFree (.engine n) = true → s.dev.engineJobs n = [] → s.dev.hk.staged = none →
    exec (.engineReset n) s = .next (s.onDev fun d =>
      { d.incTag (.engine n) with engReset := tset d.engReset n 2 }.raise
        { code := .unitReset, unit := some (.engine, n), detail0 := some 2
          detail1 := some ((tgetD (tmod d.engGen n 0 fun g => g + 1) n 0).setWidth 64) })) ∧
  (∀ (s : State) (n : Nat), s.dev.sys.stage = .running → tget s.dev.engReset n = none → bit s.dev.engFailed n = false →
    s.dev.tagFree (.engine n) = false → exec (.engineReset n) s = .next (s.onDev fun d =>
      { d with deferred := d.deferred ++ [{ dom := .engine n, cause := 2 }] })) ∧
  (∀ (s : State) (n c : Nat), tget s.dev.engReset n = some c → c ≠ 1 → exec (.engineResetDone n true) s = .next (s.onDev fun d =>
    { d with engReset := terase d.engReset n })) ∧
  (∀ (s : State) (n c : Nat), tget s.dev.engReset n = some c → s.dev.hk.staged = none →
    exec (.engineResetDone n false) s = .next (s.onDev fun d =>
      { d with engReset := terase d.engReset n, engFailed := putBit d.engFailed n true }.raise
        { code := .unitFailed, unit := some (.engine, n), detail0 := some (BitVec.ofNat 64 (unitKindCode .engine))
          detail1 := some (BitVec.ofNat 64 n) })) ∧
  (∀ (s : State) (n : Nat), s.dev.sys.stage = .running → s.dev.tagFree (.mover n) = true → s.dev.moverJobs n = [] →
    exec (.moverReset n) s = .next (s.onDev fun d => (d.incTag (.mover n)).raise
      { code := .unitReset, unit := some (.mover, n), detail0 := some 2
        detail1 := some ((tgetD (tmod d.movGen n 0 fun g => g + 1) n 0).setWidth 64) })) ∧
  (∀ (s : State) (n : Nat) (r : DeferredReset), s.dev.deferred.find? (fun x => x.dom == .engine n) = some r →
    exec (.tagIncrementDeferred (.engine n)) s = .next (s.onDev fun d =>
      { d with deferred := d.deferred.erase r, now := max d.now (d.tagAt (.engine n)) }.resetEngine n r.cause)) ∧
  (∀ (s : State) (n : Nat) (r : DeferredReset), s.dev.deferred.find? (fun x => x.dom == .port n) = some r →
    exec (.tagIncrementDeferred (.port n)) s = .next (s.onDev fun d =>
      let e := { d with deferred := d.deferred.erase r, now := max d.now (d.tagAt (.port n)) }.goDown n (r.cause == 1)
      if (d.port n).state = .blocked ∨ (d.port n).state = .disabled then e.goTo n (d.port n).state else e)) ∧
  (∀ (s : State) (q : Nat) (r : DeferredReset), s.dev.deferred.find? (fun x => x.dom == .queue q) = some r →
    exec (.tagIncrementDeferred (.queue q)) s = .next (s.onDev fun d =>
      { d with deferred := d.deferred.erase r, now := max d.now (d.tagAt (.queue q)) }.resetQueue q)) ∧
  (∀ (s : State) (m : Nat), s.dev.sys.live = true → (s.dev.unit m).trained = true → (s.dev.unit m).dead = false →
    (s.dev.unit m).removed = false → (s.dev.unitOwner m).isSome = true → (s.dev.unit m).retrain = none →
    s.dev.tagFree (.memUnit m) = true →
    exec (.subchannelRetrain m) s = .next (s.onDev fun d =>
      ((d.incTag (.memUnit m)).modUnit m fun v => { v with retrain := some d.now, errTimes := [] }).raise
        { code := .unitRetrain, part := d.unitOwner m, unit := some (memUnitRef m), detail0 := some 0, detail1 := some 0 })) ∧
  (∀ (s : State) (m a b t : Nat), s.dev.sys.live = true → (s.dev.unit m).retrain = some t → s.dev.now ≤ t + retrainLimit m →
    exec (.retrainDone m a b) s = .next (s.onDev fun d =>
      (((d.modUnit m fun u => { u with retrain := none, held := [], raaimt := a, raammt := b }).raise
        { code := .unitRetrain, part := d.unitOwner m, unit := some (memUnitRef m), detail0 := some 1
          detail1 := some (BitVec.ofNat 64 ((d.now - t) / 1000000)) }).rfmSweep m).release m (d.unit m).held)) ∧
  (∀ (s : State) (m t : Nat), s.dev.sys.live = true → (s.dev.unit m).retrain = some t → 48 ≤ m →
    exec (.retrainFailTimeout m) s = .next (s.onDev fun d =>
      let e : Dev := { d with now := max d.now (t + 100000000) }
      (((e.modUnit m fun u => { u with retrain := none, held := [], dead := true }).raise
        { code := .unitRetrain, part := d.unitOwner m, unit := some (memUnitRef m), detail0 := some 2
          detail1 := some (BitVec.ofNat 64 ((e.now - t) / 1000000)) }).raise
        { code := .ntDegraded, part := d.unitOwner m, unit := some (memUnitRef m) }).release m (d.unit m).held)) ∧
  (∀ (s : State) (m t : Nat), s.dev.sys.live = true → (s.dev.unit m).retrain = some t → m < 48 →
    exec (.retrainFailTimeout m) s = .next (s.onDev fun d =>
      let e : Dev := { d with now := max d.now (t + 400000000) }
      (((e.modUnit m fun u => { u with retrain := none, held := [], dead := true }).raise
        { code := .unitRetrain, part := d.unitOwner m, unit := some (memUnitRef m), detail0 := some 2
          detail1 := some (BitVec.ofNat 64 ((e.now - t) / 1000000)) }).startRebuild m true none).release m (d.unit m).held)) ∧
  (∀ (s : State) (p : Nat), (s.dev.partn p).state = .resetting → (s.dev.partn p).rekeyed = false → s.dev.partQuiet p = true →
    s.dev.hk.ops = [] → (s.dev.partn p).movers = 0 → exec (.partitionResetDone p) s = .next (s.onDev fun d =>
      ((d.setPart p fun x => { x with gen := x.gen + 1 }).raise
        { code := .partResetDone, part := some p, detail0 := some (((d.partn p).gen + 1).setWidth 64)
          detail1 := some (BitVec.ofNat 64 ((d.now - (d.partn p).resetAt) / 1000000)) }).setPart p fun x => { x with state := .active })) ∧
  (∀ (s : State) (m k : Nat), s.dev.sys.live = true → s.dev.shutterRuns m = true → (s.dev.uncleared m).contains k = true →
    (48 ≤ m ∨ s.dev.nextShutter m = some k) → s.dev.hk.ops = [] → s.dev.hk.waitingCreate = [] → s.dev.waitClear = [] →
    exec (.shutterSlotCleared m k) s = .next (s.onDev fun d =>
      (({ d.modUnit m fun u => { u with cleared := k :: u.cleared, slotDraw := tset u.slotDraw k u.key.draw } with
        pool := d.pool.clear m (k * slotLines) (if m < 48 ∨ k < 4 then slotLines else slotLines / 2) } : Dev).settleClearing
          (d.unitOwner m)).retryHeld m))

/-! ## Resets of the device, and starts -/

/-- Warm resets (R346 to R348, Table 17.8). WARM_RESET on a running device ends every descriptor, empties the mailbox rings, the tallies
and the fabric's records, and boots; while the islands do not run it has no effect. Its end is `stage` AWAIT_RUNTIME and WARM_RESET_DONE,
whose second detail the spec does not give (log entry 3). A WARM_N pulse below 1 µs is ignored and one of 10 µs or more is a warm reset.

Dome (R366 to R368, R372). Asked for, with no check failing and no descriptor in flight, the islands are reset and go off with the memory
in self-refresh. A failing check refuses Dome, as do descriptors still in flight after 100 ms. A wake moves the tags on and reaches
AWAIT_RUNTIME; one whose rails do not return halts with START_FAILED. -/
def Obligations.WarmResetsAndDome : Prop :=
  (∀ (s : State) (sb dr : Bool) (b : BootFindings), s.dev.sys.live = true → (sb = false ∨ s.dev.sys.causeHalted = true) →
    ∃ t, exec (.warmReset sb dr b) s = .next t ∧ t.pending = s.pending ∧ t.mbx = {} ∧ t.dev.jobs = [] ∧ t.dev.tallies = [] ∧
      t.dev.rt = {} ∧ t.dev.winTxns = [] ∧ t.dev.sys.warmPhase = true ∧ t.dev.sys.selfRefresh = true) ∧
  (∀ (s : State) (sb dr : Bool) (b : BootFindings), s.dev.sys.live = false →
    exec (.warmReset sb dr b) s = .next (s.onDev fun d => d)) ∧
  (∀ (s : State), s.dev.sys.warmPhase = true → s.dev.sys.stage = .bootImage → s.dev.sys.perstPending = 0 →
    exec .warmResetDone s = .next (s.onDev fun d =>
      let e := (d.setSys fun x => { x with
        perstPending := 0, warmPhase := false, stage := .awaitRuntime, causeFatal := false, selfRefresh := false }).measureConfig.flushStart
      { e with free := e.free + 1 }.raise
        { code := .warmResetDone, detail0 := some (e.sys.deviceGen.setWidth 64), detail1 := some (Config.freeWord e.free) })) ∧
  (∀ (s : State) (n : Nat) (dr : Bool) (b : BootFindings), n < 1000 → exec (.warmNPulse n dr b) s = .next (s.onDev fun d => d)) ∧
  (∀ (s : State) (n : Nat) (dr : Bool) (b : BootFindings), 10000 ≤ n → s.dev.sys.live = true →
    ∃ t, exec (.warmNPulse n dr b) s = .next t ∧ exec (.warmReset false dr b) s = .next t) ∧
  (∀ (s : State) (t : Nat), s.dev.sys.live = true → s.dev.sys.domeReqAt = some t → s.dev.domeBar = none → s.dev.jobs = [] →
    ∃ u, exec .domeEntry s = .next u ∧ u.pending = s.pending ∧ u.mbx = {} ∧ u.dev.sys.inDome = true ∧ u.dev.sys.selfRefresh = true ∧
      u.dev.sys.domeReqAt = none ∧ u.dev.sys.domeEntered = s.dev.now) ∧
  (∀ (s : State) (t c : Nat), s.dev.sys.live = true → s.dev.sys.domeReqAt = some t → s.dev.domeBar = some c →
    exec .domeRefused s = .next (s.onDev fun d =>
      { d with sys := { d.sys with domeReqAt := none } }.raise { code := .domeRefused, detail0 := some (BitVec.ofNat 64 c) })) ∧
  (∀ (s : State) (t : Nat), s.dev.sys.live = true → s.dev.sys.domeReqAt = some t → s.dev.domeBar = none → s.dev.jobs ≠ [] →
    exec .domeRefused s = .next (s.onDev fun d =>
      { d with now := max d.now (t + 100000000), sys := { d.sys with domeReqAt := none } }.raise
        { code := .domeRefused, detail0 := some 3 })) ∧
  (∀ (s : State) (w : Bool) (b : BootFindings), s.dev.sys.inDome = true → s.dev.sys.resetN = true →
    ∃ t, exec (.domeWake w true b) s = .next t ∧ t.dev.sys.inDome = false ∧ t.dev.sys.selfRefresh = false ∧
      t.dev.sys.stage = .awaitRuntime ∧ t.dev.sys.deviceGen = s.dev.sys.deviceGen + 1) ∧
  (∀ (s : State), s.dev.sys.inDome = true → exec .wakeRailTimeout s = .next (s.onDev fun d =>
    { d with
        now := max d.now (d.now + 5000000)
        sys := { d.sys with inDome := false, stage := .halted, causeStart := true } }.raise { code := .startFailed }))

/-- RESET_N, the rails and a start (R372 to R376, R379, R382 to R388). RESET_N low, or POWER_GOOD gone, resets the islands and sets RETAIN
where the memory keeps its contents and no scan has taken the pins; self-refresh that fails, or a memory rail that leaves its range, clears
it. Power-up leaves flash and fuses alone. At its release the straps are sampled, tags are zero, and the boot ROM verifies a slot or stops.
Training without a metadata pair stops the start; else a start without RETAIN is BLANK with fresh metadata, and one whose metadata is found
keeps its regions with stale parity unprotected. -/
def Obligations.ResetsAndStarts : Prop :=
  (∀ (s : State), s.dev.sys.resetN = true → ∃ t, exec .resetNAssert s = .next t ∧ t.pending = s.pending ∧ t.mbx = {} ∧ t.dev.jobs = [] ∧
    t.dev.sys.resetN = false ∧ t.dev.sys.stage = .rom ∧ t.dev.sys.outputsHiZ = true ∧ t.dev.sys.causeTrip = false ∧
    t.dev.sys.retain = (!s.dev.sys.islandsOff && !s.dev.sys.railFault && s.dev.sys.vddAon && !s.dev.tap.scanned)) ∧
  (∀ (s : State), s.dev.sys.resetN = true → ∃ t, exec .powerGoodDeassert s = .next t ∧ t.mbx = {} ∧ t.dev.jobs = [] ∧
    t.dev.sys.resetN = false ∧ t.dev.sys.stage = .rom ∧
    t.dev.sys.retain = (!s.dev.sys.islandsOff && !s.dev.sys.railFault && s.dev.sys.vddAon && !s.dev.tap.scanned)) ∧
  (∀ (s : State), s.dev.sys.resetN = false → exec .powerGoodDeassert s = .next (s.onDev fun d =>
    { d with sys := { d.sys with powerGood := false } })) ∧
  (∀ (s : State), s.dev.sys.srPending = true → exec .selfRefreshTimeout s = .next (s.onDev fun d => { d with
    now := max d.now (d.now + 20000), sys := { d.sys with retain := false, selfRefresh := false, srPending := false } })) ∧
  (∀ (s : State) (r : Nat), r < 2 → exec (.memoryRailFault r) s = .next (s.onDev fun d =>
    { d with sys := { d.sys with retain := false, railFault := true } })) ∧
  (∀ (s : State), ∃ t, exec (.memoryRailFault 2) s = .next t ∧ t.dev.sys.retain = false ∧ t.dev.sys.vddAon = false ∧ t.dev.pool = {} ∧
    t.dev.sys.flash = s.dev.sys.flash ∧ t.dev.sys.fuses = s.dev.sys.fuses) ∧
  (∀ (s : State), ∃ t, exec .powerUp s = .next t ∧ t.pending = s.pending ∧ t.mbx = {} ∧ t.dev.sys.retain = false ∧ t.dev.sys.trips = 0 ∧
    t.dev.sys.vddAon = true ∧ t.dev.sys.resetN = false ∧ t.dev.sys.flash = s.dev.sys.flash ∧ t.dev.sys.fuses = s.dev.sys.fuses) ∧
  (∀ (s : State) (p : Straps) (b : BootFindings), s.dev.sys.vddAon = true → s.dev.sys.resetN = false → b.secOk = true →
    b.slotAOk = true → p.bootSlotB = false → s.dev.sys.fuses = [] → s.dev.sys.lifeCycle ≠ .retired → s.dev.sys.journal = [] →
    ∃ t, exec (.resetNRelease p b) s = .next t ∧ t.mbx = {} ∧ t.dev.sys.stage = .bootImage ∧ t.dev.sys.bootSlotB = false ∧
      t.dev.sys.straps = p ∧ t.dev.sys.resetN = true ∧ t.dev.sys.deviceGen = 0 ∧ t.dev.now = 0 ∧ t.dev.tap = {}) ∧
  (∀ (s : State) (p : Straps) (b : BootFindings), s.dev.sys.vddAon = true → s.dev.sys.resetN = false → b.secOk = false →
    ∃ t, exec (.resetNRelease p b) s = .next t ∧ t.dev.sys.stage = .halted ∧ t.dev.sys.causeStart = true) ∧
  (∀ (s : State) (x : TrainFindings), s.dev.sys.resetN = true → s.dev.sys.warmPhase = false → s.dev.sys.stage = .bootImage →
    metaPair x = none → exec (.trainingDone x) s = .next (s.onDev fun d =>
      (List.range 48).foldl (fun e m => e.rfmSweep m)
        ((((d.resetChannels x).foldl (fun e n => e.emit (.ddrReset n)) d).setSys fun y =>
          { y with stage := .halted, causeStart := true }).raise { code := .startFailed, detail0 := some 4 }))) ∧
  (∀ (s : State) (x : TrainFindings) (n : Nat), s.dev.sys.resetN = true → s.dev.sys.warmPhase = false → s.dev.sys.stage = .bootImage →
    metaPair x = some n → s.dev.sys.retain = false →
    ∃ t, exec (.trainingDone x) s = .next t ∧ t.dev.sys.stage = .awaitRuntime ∧ t.dev.regions = [] ∧ t.dev.objs = [] ∧ t.dev.ctxs = [] ∧
      t.dev.metaPlace = { present := true, copy0 := targetPlaces (2 * n) s.dev.sys.cfg.k
                          copy1 := targetPlaces (2 * (n + 12)) s.dev.sys.cfg.k, k := s.dev.sys.cfg.k, seq := 1 }) ∧
  (∀ (s : State) (x : TrainFindings) (n : Nat), s.dev.sys.resetN = true → s.dev.sys.warmPhase = false → s.dev.sys.stage = .bootImage →
    metaPair x = some n → s.dev.startCause x = none →
    ∃ t, exec (.trainingDone x) s = .next t ∧ t.dev.sys.stage = .awaitRuntime ∧ t.dev.sys.coldRetained = true ∧
      t.dev.regions = s.dev.regions.map fun r => (r.1, r.2.coldStale))

/-! ## Power, temperature and Dome -/

/-- Power and temperature (R43, R356, R358, R363 to R365, R369). A draw sample joins its period; a grant ends the period with the mean draw
measured, and none is made without a sample. Below 100 °C a sample only reports; from 100 °C the engines are throttled, and at 115 °C the
device trips. While 105 °C holds at the lowest point, the issue rate is halved 1 ms after the last time. The voltage loop sets each
regulator in its range, a rank is calibrated 128 ms after the last time, queue depths are noted and counted, and the sideband reads a sensor or sets a power parameter. -/
def Obligations.PowerAndHeat : Prop :=
  (∀ (s : State), s.dev.sys.live = true → s.dev.pow.samples ≠ [] → ∃ t, exec .powerGrant s = .next t ∧
    t.dev.pow.samples = [] ∧ t.dev.pow.lastGrant = max s.dev.now (s.dev.pow.lastGrant + 100000) ∧
    t.dev.pow.drawMw = (s.dev.pow.samples.map List.sum).sum / s.dev.pow.samples.length) ∧
  (∀ (s : State), s.dev.pow.samples = [] → exec .powerGrant s = .next (s.onDev fun d => d)) ∧
  (∀ (s : State) (xs : List Nat), s.dev.sys.live = true → exec (.drawSample xs) s = .next (s.onDev fun d => { d with
    now := max d.now (d.pow.lastGrant + 10000 * (d.pow.samples.length + 1))
    pow := { d.pow with samples := d.pow.samples ++ [xs] } })) ∧
  (∀ (s : State) (ts : List Nat) (i tj : Nat), s.dev.sys.resetN = true → s.dev.sys.inDome = false → s.dev.sys.islandsOff = false →
    s.dev.pow.episode = none → hottestOf ts = (i, tj) → tj < 800 → exec (.thermalSample ts) s = .next (s.onDev fun d =>
      { d with pow := { d.pow with
          islandTemp := (ts.take 136).mapIdx (fun k t => (k, t)), tj := tj, hottest := sensorIsland i, thermalDiv := 1 } })) ∧
  (∀ (s : State) (ts : List Nat) (i tj : Nat), s.dev.sys.resetN = true → s.dev.sys.inDome = false → s.dev.sys.islandsOff = false →
    s.dev.pow.episode = none → hottestOf ts = (i, tj) → 800 ≤ tj → tj < 840 → s.dev.pow.throttled = false →
    exec (.thermalSample ts) s = .next (s.onDev fun d =>
      let e : Dev := { d with
        sys := { d.sys with therm := true }
        pow := { d.pow with
          islandTemp := (ts.take 136).mapIdx (fun k t => (k, t)), tj := tj, hottest := sensorIsland i, thermalDiv := 1
          throttled := true } }
      e.raise { code := .thermalThrottle, detail0 := some (BitVec.ofNat 64 (sensorIsland i)), detail1 := some (BitVec.ofNat 64 tj) })) ∧
  (∀ (s : State) (ts : List Nat) (i tj : Nat), s.dev.sys.resetN = true → s.dev.sys.inDome = false → s.dev.sys.islandsOff = false →
    hottestOf ts = (i, tj) → 920 ≤ tj → ∃ t, exec (.thermalSample ts) s = .next t ∧ t.mbx = {} ∧ t.dev.sys.islandsOff = true ∧
      t.dev.sys.therm = true ∧ t.dev.sys.causeTrip = true ∧ t.dev.sys.retain = false ∧
      t.dev.sys.tripIsland = BitVec.ofNat 16 (sensorIsland i)) ∧
  (∀ (s : State), s.dev.sys.live = true → 840 ≤ s.dev.pow.tj → s.dev.pow.ceiling = 800 → s.dev.pow.throttled = true →
    s.dev.pow.thermalDiv < 8 → exec .thermalLimitStep s = .next (s.onDev fun d =>
      let t := max d.now (d.pow.limitAt + 1000000)
      { d with now := t, pow := { d.pow with thermalDiv := 2 * d.pow.thermalDiv, limitAt := t } }.raise
        { code := .thermalLimit, detail0 := some (BitVec.ofNat 64 d.pow.hottest)
          detail1 := some (BitVec.ofNat 64 (2 * d.pow.thermalDiv)) })) ∧
  (∀ (s : State) (vs : List Nat) (c : Nat), s.dev.sys.live = true → c = (vs.map clampMv).foldl max 650 →
    exec (.voltageLoopTick vs) s = .next (s.onDev fun d =>
      let e : Dev := { d with pow := { d.pow with voltages := (vs.map clampMv).mapIdx (fun i v => (i, v)), vddCoreMv := c } }
      if c = d.pow.vddCoreMv then e else e.emit (.avs c))) ∧
  (∀ (s : State) (m r : Nat), s.dev.sys.live = true → (s.dev.unit m).trained = true → (s.dev.unit m).dead = false →
    (s.dev.unit m).removed = false → r < 2 ^ (s.dev.unit m).nr →
    exec (.dramCalibration m r) s = .next (s.onDev fun d =>
      let t := ((tget (d.unit m).calibratedAt r).map fun t => max d.now (t + 128000000)).getD d.now
      ({ d with now := t } : Dev).modUnit m fun u => { u with calibratedAt := tset u.calibratedAt r t })) ∧
  (∀ (s : State) (m k : Nat), s.dev.sys.live = true → m < 112 → (s.dev.unit m).trained = true →
    exec (.queueDepthSample [(m, k)]) s = .next (s.onDev fun d =>
      (d.modUnit m fun u => { u with depth := k }).bump (.unitQdepthHist m (depthBucket k)))) ∧
  (∀ (s : State), s.dev.sys.resetN = true → s.dev.sys.islandsOff = false → s.dev.sys.stage ≠ .retired →
    exec (.pldmRequest .readPowerState) s = .next (s.onDev fun d => d.emit (.pldm [if d.sys.inDome then 1 else 0]))) ∧
  (∀ (s : State) (r i v : Nat), s.dev.sys.resetN = true → s.dev.sys.islandsOff = false → s.dev.sys.stage ≠ .retired →
    s.dev.sys.inDome = false → s.dev.sensor r i = some v →
    exec (.pldmRequest (.readSensor r i)) s = .next (s.onDev fun d => d.emit (.pldm [v]))) ∧
  (∀ (s : State) (r i : Nat), s.dev.sys.resetN = true → s.dev.sys.islandsOff = false → s.dev.sys.stage ≠ .retired →
    s.dev.sys.inDome = true → exec (.pldmRequest (.readSensor r i)) s = .next (s.onDev fun d => d.emit .pldmNotReady)) ∧
  (∀ (s : State) (k v : Nat), s.dev.sys.resetN = true → s.dev.sys.islandsOff = false → s.dev.sys.stage ≠ .retired →
    s.dev.sys.inDome = false → 0x0050 ≤ k → k ≤ 0x0055 → v < 18446744073709551616 → s.dev.paramBad k 0 (BitVec.ofNat 64 v) = false →
    exec (.pldmRequest (.writePwr k v)) s = .next (s.onDev fun d => (d.paramApply k 0 (BitVec.ofNat 64 v)).emit (.pldm [])))

/-! ## The TAP -/

/-- R284: in DEPLOYED, EXTEST, CLAMP, HIGHZ, EXTEST_PULSE and EXTEST_TRAIN act as BYPASS while RESET_N is high, and take effect while it is
low; BYPASS selects its one-bit register and leaves the pins to the device. -/
def Obligations.ScanInDeployed : Prop :=
  (∀ (s : State) (c : Nat) (i : Instr), s.dev.sys.lifeCycle = .deployed → s.dev.sys.resetN = true →
    i ∈ [.extest c, .clamp, .highz, .extestPulse c, .extestTrain c] → exec i s = .next (s.onDev fun d =>
      { d with tap := { d.tap with instr := .bypass, driving := false }, sys := { d.sys with outputsHiZ := false } }.emit (.tdo 1 0))) ∧
  (∀ (s : State), exec .bypass s = .next (s.onDev fun d =>
      { d with tap := { d.tap with instr := .bypass, driving := false }, sys := { d.sys with outputsHiZ := !d.sys.resetN } }.emit
        (.tdo 1 0))) ∧
  (∀ (s : State) (c : Nat) (x : Instr × TapInstr), s.dev.sys.lifeCycle = .deployed → s.dev.sys.resetN = false →
    x ∈ [(.extest c, .extest), (.extestPulse c, .extestPulse), (.extestTrain c, .extestTrain)] → exec x.1 s = .next (s.onDev fun d =>
      { d with tap := { instr := x.2, boundary := c % 2 ^ 7296, driving := true, scanned := true }
               sys := { d.sys with retain := false, outputsHiZ := false } })) ∧
  (∀ (s : State), s.dev.sys.lifeCycle = .deployed → s.dev.sys.resetN = false → exec .clamp s = .next (s.onDev fun d =>
      { d with tap := { d.tap with instr := .clamp, driving := true, scanned := true }
               sys := { d.sys with retain := false, outputsHiZ := false } }.emit (.tdo 1 0))) ∧
  (∀ (s : State), s.dev.sys.lifeCycle = .deployed → s.dev.sys.resetN = false → exec .highz s = .next (s.onDev fun d =>
      { d with tap := { d.tap with instr := .highz, driving := false, scanned := true }
               sys := { d.sys with retain := false, outputsHiZ := true } }.emit (.tdo 1 0)))

/-- The TAP in the other life-cycle states (R405 to R408). The instructions that take the pins take effect and clear RETAIN. Test-Logic-Reset
leaves IDCODE selected (log entry 7); IDCODE reads out bit 0 as 1, the manufacturer 0x2B9, the part 0x7480 and the stepping; SAMPLE/PRELOAD
reads the 7,296 pins out, loads the boundary register and leaves the pins to the device. -/
def Obligations.TapInstructions : Prop :=
  (∀ (s : State), exec .tapReset s = .next (s.onDev fun d =>
    { d with tap := { d.tap with instr := .idcode, driving := false }, sys := { d.sys with outputsHiZ := !d.sys.resetN } })) ∧
  (∀ (s : State), exec .idcode s = .next (s.onDev fun d =>
    { d with tap := { d.tap with instr := .idcode, driving := false }, sys := { d.sys with outputsHiZ := !d.sys.resetN } }.emit
      (.tdo 32 (1 + 0x2B9 * 2 + 0x7480 * 2 ^ 12 + Config.stepping.toNat * 2 ^ 28)))) ∧
  (∀ (s : State) (p c : Nat), exec (.samplePreload p c) s = .next (s.onDev fun d =>
    { d with tap := { d.tap with instr := .samplePreload, driving := false, boundary := c % 2 ^ 7296 }
             sys := { d.sys with outputsHiZ := !d.sys.resetN } }.emit (.tdo 7296 (p % 2 ^ 7296)))) ∧
  (∀ (s : State) (c : Nat), s.dev.sys.lifeCycle ≠ .deployed → exec (.extest c) s = .next (s.onDev fun d =>
    { d with tap := { instr := .extest, boundary := c % 2 ^ 7296, driving := true, scanned := true }
             sys := { d.sys with retain := false, outputsHiZ := false } })) ∧
  (∀ (s : State), s.dev.sys.lifeCycle ≠ .deployed → exec .highz s = .next (s.onDev fun d =>
    { d with tap := { d.tap with instr := .highz, driving := false, scanned := true }
             sys := { d.sys with retain := false, outputsHiZ := true } }.emit (.tdo 1 0))) ∧
  (∀ (s : State), s.dev.sys.lifeCycle ≠ .deployed → exec .clamp s = .next (s.onDev fun d =>
    { d with tap := { d.tap with instr := .clamp, driving := true, scanned := true }
             sys := { d.sys with retain := false, outputsHiZ := false } }.emit (.tdo 1 0))) ∧
  (∀ (s : State) (c : Nat), s.dev.sys.lifeCycle ≠ .deployed → exec (.extestPulse c) s = .next (s.onDev fun d =>
    { d with tap := { instr := .extestPulse, boundary := c % 2 ^ 7296, driving := true, scanned := true }
             sys := { d.sys with retain := false, outputsHiZ := false } })) ∧
  (∀ (s : State) (c : Nat), s.dev.sys.lifeCycle ≠ .deployed → exec (.extestTrain c) s = .next (s.onDev fun d =>
    { d with tap := { instr := .extestTrain, boundary := c % 2 ^ 7296, driving := true, scanned := true }
             sys := { d.sys with retain := false, outputsHiZ := false } }))
end

