-- ==== Sys2Proof/Laws/Memory.lean ====
section
/-! SUPPORT. Reads after writes of a byte memory, and that every memory operation keeps the canonical form. -/

namespace Sys2Proof.Machine

open Sys2Proof

/-! ## Reads after a write -/

theorem memWfFrom_mono {lo lo' : Nat} (m : List Host.Cell) (h : lo' ≤ lo) (w : memWfFrom lo m = true) : memWfFrom lo' m = true := by
  cases m with
  | nil => rfl
  | cons c r =>
    obtain ⟨a, v⟩ := c
    simp only [memWfFrom, Bool.and_eq_true, decide_eq_true_eq] at w ⊢
    exact ⟨⟨by omega, w.1.2⟩, w.2⟩

theorem memRead_below {lo a : Nat} (m : List Host.Cell) (w : memWfFrom lo m = true) (h : a < lo) : memRead m a = 0 := by
  induction m generalizing lo with
  | nil => rfl
  | cons c r ih =>
    obtain ⟨b, v⟩ := c
    simp only [memWfFrom, Bool.and_eq_true, decide_eq_true_eq] at w
    have : b ≠ a := by omega
    simp only [memRead, this, if_false]
    exact ih w.2 (by omega)

theorem memRead_memWrite_from {lo : Nat} (m : List Host.Cell) (w : memWfFrom lo m = true) (a b : Nat) (v : Byte) :
    memRead (memWrite m a v) b = if b = a then v else memRead m b := by
  induction m generalizing lo with
  | nil =>
    simp only [memWrite]
    split
    · rename_i hv
      by_cases h : b = a <;> simp [memRead, h, hv]
    · by_cases h : b = a
      · simp [memRead, h]
      · simp [memRead, h, Ne.symm h]
  | cons c r ih =>
    obtain ⟨k, x⟩ := c
    simp only [memWfFrom, Bool.and_eq_true, decide_eq_true_eq] at w
    simp only [memWrite]
    split
    · rename_i hk
      subst hk
      split
      · rename_i hv
        by_cases h : b = k
        · subst h; simp [hv, memRead_below r w.2 (by omega : b < b + 1)]
        · simp [memRead, h, Ne.symm h]
      · by_cases h : b = k
        · simp [memRead, h]
        · simp [memRead, h, Ne.symm h]
    · rename_i hk
      split
      · rename_i hlt
        split
        · rename_i hv
          by_cases h : b = a
          · subst h
            simp [memRead, hk, hv, memRead_below r w.2 (by omega : b < k + 1)]
          · simp [h]
        · by_cases h : b = a
          · subst h; simp [memRead]
          · simp [memRead, h, Ne.symm h]
      · simp only [memRead]
        split
        · rename_i hkb
          have : b ≠ a := by omega
          simp [this]
        · exact ih w.2

/-- A byte write changes the byte it names and no other. -/
theorem memRead_memWrite (m : List Host.Cell) (w : memWf m = true) (a b : Nat) (v : Byte) :
    memRead (memWrite m a v) b = if b = a then v else memRead m b := memRead_memWrite_from m w a b v

/-! ## The canonical form -/

theorem memWfFrom_memWrite {lo : Nat} (m : List Host.Cell) (w : memWfFrom lo m = true) (a : Nat) (v : Byte) (h : lo ≤ a) :
    memWfFrom lo (memWrite m a v) = true := by
  induction m generalizing lo with
  | nil =>
    simp only [memWrite]
    split
    · rfl
    · rename_i hv
      simp only [memWfFrom, Bool.and_eq_true, decide_eq_true_eq]
      exact ⟨⟨h, by simpa using hv⟩, trivial⟩
  | cons c r ih =>
    obtain ⟨k, x⟩ := c
    have w0 := w
    simp only [memWfFrom, Bool.and_eq_true, decide_eq_true_eq] at w
    simp only [memWrite]
    split
    · split
      · exact memWfFrom_mono r (by omega) w.2
      · rename_i hv
        subst_vars
        simp only [memWfFrom, Bool.and_eq_true, decide_eq_true_eq]
        exact ⟨⟨h, by simpa using hv⟩, w.2⟩
    · split
      · split
        · exact w0
        · rename_i hv
          simp only [memWfFrom, Bool.and_eq_true, decide_eq_true_eq]
          exact ⟨⟨h, by simpa using hv⟩, ⟨by omega, w.1.2⟩, w.2⟩
      · simp only [memWfFrom, Bool.and_eq_true, decide_eq_true_eq]
        exact ⟨w.1, ih w.2 (by omega)⟩

/-- A byte write keeps the canonical form. -/
@[simp] theorem memWf_memWrite (m : List Host.Cell) (a : Nat) (v : Byte) (w : memWf m = true) : memWf (memWrite m a v) = true :=
  memWfFrom_memWrite m w a v (Nat.zero_le a)

@[simp] theorem memWf_memWriteList (bs : List Byte) : ∀ (m : List Host.Cell) (a : Nat), memWf m = true → memWf (memWriteList m a bs) = true := by
  induction bs with
  | nil => exact fun m a w => w
  | cons b r ih => exact fun m a w => ih _ _ (memWf_memWrite m a b w)

@[simp] theorem memWf_memWriteLine (m : List Host.Cell) (a : Nat) (x : Line) (w : memWf m = true) : memWf (memWriteLine m a x) = true :=
  memWf_memWriteList _ m a w

theorem memWfFrom_filter {lo : Nat} (p : Host.Cell → Bool) (m : List Host.Cell) (w : memWfFrom lo m = true) :
    memWfFrom lo (m.filter p) = true := by
  induction m generalizing lo with
  | nil => rfl
  | cons c r ih =>
    obtain ⟨k, x⟩ := c
    simp only [memWfFrom, Bool.and_eq_true, decide_eq_true_eq] at w
    rw [List.filter_cons]
    split
    · simp only [memWfFrom, Bool.and_eq_true, decide_eq_true_eq]
      exact ⟨w.1, ih w.2⟩
    · exact ih (memWfFrom_mono r (by omega) w.2)

@[simp] theorem memWf_memClear (m : List Host.Cell) (a n : Nat) (w : memWf m = true) : memWf (memClear m a n) = true :=
  memWfFrom_filter _ m w

@[simp] theorem memWf_memCopy (m : List Host.Cell) (s t n : Nat) (w : memWf m = true) : memWf (memCopy m s t n) = true := by
  unfold memCopy
  have key : ∀ (cs : List Host.Cell) (acc : List Host.Cell), memWf acc = true →
      memWf (cs.foldl (fun acc c => memWrite acc (c.1 - s + t) c.2) acc) = true := by
    intro cs
    induction cs with
    | nil => exact fun acc h => h
    | cons c r ih => exact fun acc h => ih _ (memWf_memWrite acc _ _ h)
  exact key _ _ (memWf_memClear m t n w)

theorem memRead_filter_from {lo : Nat} (p : Nat → Bool) (m : List Host.Cell) (w : memWfFrom lo m = true) (a : Nat) :
    memRead (m.filter (fun c => p c.1)) a = if p a then memRead m a else 0 := by
  induction m generalizing lo with
  | nil => simp [memRead]
  | cons c r ih =>
    obtain ⟨k, x⟩ := c
    simp only [memWfFrom, Bool.and_eq_true, decide_eq_true_eq] at w
    rw [List.filter_cons]
    by_cases hk : k = a
    · subst hk
      by_cases hp : p k = true
      · simp [hp, memRead]
      · simp [hp, ih w.2]
    · by_cases hp : p k = true
      · simp [hp, memRead, hk, ih w.2]
      · simp [hp, memRead, hk, ih w.2]

/-- Clearing zeroes the bytes it names and no other. -/
theorem memRead_memClear (m : List Host.Cell) (w : memWf m = true) (a n b : Nat) :
    memRead (memClear m a n) b = if a ≤ b ∧ b < a + n then 0 else memRead m b := by
  have h := memRead_filter_from (fun c => !(decide (a ≤ c) && decide (c < a + n))) m w b
  unfold memClear
  rw [h]
  by_cases h1 : a ≤ b <;> by_cases h2 : b < a + n <;> simp [h1, h2]

/-- A list of bytes, read back: the byte written where one was, and the old one elsewhere. -/
theorem memRead_memWriteList (bs : List Byte) : ∀ (m : List Host.Cell) (_ : memWf m = true) (a b : Nat),
    memRead (memWriteList m a bs) b = if a ≤ b ∧ b < a + bs.length then bs.getD (b - a) 0 else memRead m b := by
  induction bs with
  | nil =>
    intro m _ a b
    have : ¬ (a ≤ b ∧ b < a) := by omega
    simp [memWriteList, this]
  | cons x r ih =>
    intro m w a b
    simp only [memWriteList]
    rw [ih _ (memWf_memWrite m a x w), memRead_memWrite m w]
    simp only [List.length_cons]
    by_cases hb : b = a
    · subst hb
      have h1 : ¬ (b + 1 ≤ b ∧ b < b + 1 + r.length) := by omega
      have h2 : b ≤ b ∧ b < b + (r.length + 1) := by omega
      rw [if_neg h1, if_pos rfl, if_pos h2]
      simp
    · by_cases hi : a + 1 ≤ b ∧ b < a + 1 + r.length
      · have h2 : a ≤ b ∧ b < a + (r.length + 1) := by omega
        have e : b - a = (b - (a + 1)) + 1 := by omega
        rw [if_pos hi, if_pos h2, e]
        simp
      · have h2 : ¬ (a ≤ b ∧ b < a + (r.length + 1)) := by omega
        rw [if_neg hi, if_neg h2, if_neg hb]

/-! ## Lines of the pool -/

theorem Pool.setFault_cells (p : Pool) (m line : Nat) (f : LineFault) : (p.setFault m line f).cells = p.cells := by
  unfold Pool.setFault; split <;> rfl

@[simp] theorem Pool.store_cells (p : Pool) (m line : Nat) (x : Line) :
    (p.store m line x).cells = memWriteLine p.cells (lineAddr m line) x := by
  simp [Pool.store, Pool.setFault_cells]

@[simp] theorem Pool.poisonLine_cells (p : Pool) (m line : Nat) : (p.poisonLine m line).cells = p.cells := by
  simp [Pool.poisonLine, Pool.setFault_cells]

/-- A store keeps the canonical form of the arrays. -/
@[simp] theorem Pool.store_wf (p : Pool) (m line : Nat) (x : Line) (w : memWf p.cells = true) : memWf (p.store m line x).cells = true := by
  simp [w]

@[simp] theorem Pool.clear_wf (p : Pool) (m line n : Nat) (w : memWf p.cells = true) : memWf (p.clear m line n).cells = true := by
  simp [Pool.clear, w]

@[simp] theorem Pool.copyLines_wf (p : Pool) (m line m' line' n : Nat) (w : memWf p.cells = true) :
    memWf (p.copyLines m line m' line' n).cells = true := by
  simp [Pool.copyLines, w]

/-- The arrays and the mailbox window are in canonical form at reset. -/
theorem memWf_reset : memWf State.reset.dev.pool.cells = true ∧ memWf State.reset.dev.sram = true ∧
    memWf State.reset.dev.sys.flash = true := by
  simp [State.reset, memWf, memWfFrom]

end Sys2Proof.Machine
end

