-- ==== Sys2Proof/Laws/Tables.lean ====
section
/-! SUPPORT. Reads and writes of sparse tables. -/

namespace Sys2Proof.Machine

open Sys2Proof

variable {α : Type}

@[simp] theorem tget_nil (k : Nat) : tget ([] : Tab α) k = none := rfl

/-- A table reads back what was set. -/
@[simp] theorem tget_tset_same (t : Tab α) (k : Nat) (v : α) : tget (tset t k v) k = some v := by
  induction t with
  | nil => simp [tset, tget]
  | cons x r ih =>
    obtain ⟨j, w⟩ := x
    simp only [tset]
    split
    · simp [tget]
    · split
      · simp [tget]
      · rename_i h _
        simp [tget, h, ih]

/-- Setting one key leaves every other key as it was. -/
theorem tget_tset_other (t : Tab α) {k j : Nat} (v : α) (h : j ≠ k) : tget (tset t k v) j = tget t j := by
  induction t with
  | nil => simp [tset, tget, Ne.symm h]
  | cons x r ih =>
    obtain ⟨i, w⟩ := x
    simp only [tset]
    split
    · subst_vars
      simp [tget, Ne.symm h]
    · split
      · simp [tget, Ne.symm h]
      · simp [tget, ih]

/-- Setting a key, read anywhere. -/
theorem tget_tset (t : Tab α) (k j : Nat) (v : α) : tget (tset t k v) j = if j = k then some v else tget t j := by
  by_cases h : j = k
  · subst h; simp
  · simp [tget_tset_other t v h, h]

@[simp] theorem tgetD_tset_same (t : Tab α) (k : Nat) (v d : α) : tgetD (tset t k v) k d = v := by simp [tgetD]

theorem tgetD_tset_other (t : Tab α) {k j : Nat} (v d : α) (h : j ≠ k) : tgetD (tset t k v) j d = tgetD t j d := by
  simp [tgetD, tget_tset_other t v h]

@[simp] theorem tgetD_tmod_same (t : Tab α) (k : Nat) (d : α) (f : α → α) : tgetD (tmod t k d f) k d = f (tgetD t k d) := by
  simp [tmod]

theorem tgetD_tmod_other (t : Tab α) {k j : Nat} (d e : α) (f : α → α) (h : j ≠ k) : tgetD (tmod t k d f) j e = tgetD t j e := by
  simp [tmod, tgetD_tset_other t _ _ h]

/-- Erasing one key leaves every other key as it was. -/
theorem tget_terase_other (t : Tab α) {k j : Nat} (h : j ≠ k) : tget (terase t k) j = tget t j := by
  induction t with
  | nil => rfl
  | cons x r ih =>
    obtain ⟨i, w⟩ := x
    by_cases hi : i = k
    · subst hi
      simpa [terase, tget, Ne.symm h] using ih
    · have hb : (i != k) = true := by simpa using hi
      by_cases hj : i = j
      · subst hj
        simp [terase, tget, h]
      · simpa [terase, tget, List.filter_cons, hb, hj] using ih

@[simp] theorem tget_terase_same (t : Tab α) (k : Nat) : tget (terase t k) k = none := by
  induction t with
  | nil => rfl
  | cons x r ih =>
    obtain ⟨i, w⟩ := x
    by_cases hi : i = k
    · subst hi
      simpa [terase] using ih
    · have hb : (i != k) = true := by simpa using hi
      simpa [terase, tget, List.filter_cons, hb, hi] using ih

/-! ## Counters -/

@[simp] theorem ctrGet_ctrAdd_same (l : List (Ctr × U64)) (c : Ctr) (n : Nat) :
    ctrGet (ctrAdd l c n) c = ctrGet l c + BitVec.ofNat 64 n := by
  induction l with
  | nil => simp [ctrAdd, ctrGet]
  | cons x r ih =>
    obtain ⟨d, v⟩ := x
    by_cases h : d = c
    · simp [ctrAdd, ctrGet, h]
    · simp [ctrAdd, ctrGet, h, ih]

/-- Counting one counter leaves the others as they were. -/
theorem ctrGet_ctrAdd_other (l : List (Ctr × U64)) {c e : Ctr} (n : Nat) (h : e ≠ c) : ctrGet (ctrAdd l c n) e = ctrGet l e := by
  induction l with
  | nil => simp [ctrAdd, ctrGet, Ne.symm h]
  | cons x r ih =>
    obtain ⟨d, v⟩ := x
    by_cases hd : d = c
    · subst hd
      simp [ctrAdd, ctrGet, Ne.symm h]
    · by_cases he : d = e
      · subst he
        simp [ctrAdd, ctrGet, h]
      · simp [ctrAdd, ctrGet, hd, he, ih]

end Sys2Proof.Machine
end

