-- ==== Sys2Proof/Laws/State.lean ====
section
/-! SUPPORT. What each update of the state changes and leaves, field by field: every conjunct is a rewrite rule. -/

namespace Sys2Proof.Machine

open Sys2Proof

/-! ## The whole state -/

@[simp] theorem State.withQueue_fields (s : State) (q : List Instr) :
    (s.withQueue q).pending = q ∧ (s.withQueue q).mbx = s.mbx ∧ (s.withQueue q).dev = s.dev := ⟨rfl, rfl, rfl⟩

@[simp] theorem State.onDev_fields (s : State) (f : Dev → Dev) :
    (s.onDev f).pending = s.pending ∧ (s.onDev f).mbx = s.mbx ∧ (s.onDev f).dev = f { s.dev with out := [] } := ⟨rfl, rfl, rfl⟩

@[simp] theorem State.modMbx_fields (s : State) (f : Mbx → Mbx) :
    (s.modMbx f).pending = s.pending ∧ (s.modMbx f).mbx = f s.mbx ∧ (s.modMbx f).dev = s.dev := ⟨rfl, rfl, rfl⟩

@[simp] theorem State.resetMbx_fields (s : State) :
    s.resetMbx.pending = s.pending ∧ s.resetMbx.mbx = {} ∧ s.resetMbx.dev = s.dev := ⟨rfl, rfl, rfl⟩

@[simp] theorem devStep_eq (f : Dev → Dev) (s : State) : devStep f s = .next (s.onDev f) := rfl

theorem liveStep_eq (f : Dev → Dev) (s : State) : liveStep f s = .next (s.onDev (fun d => d.guard d.sys.live f)) := rfl

@[simp] theorem liveStep_live (f : Dev → Dev) (s : State) (h : s.dev.sys.live = true) : liveStep f s = .next (s.onDev f) := by
  simp [liveStep, devStep, State.onDev, Dev.guard, h]

@[simp] theorem Dev.guard_true (d : Dev) (f : Dev → Dev) : d.guard true f = f d := rfl
@[simp] theorem Dev.guard_false (d : Dev) (f : Dev → Dev) : d.guard false f = d := rfl

/-! ## The device -/

@[simp] theorem Dev.emit_frame (d : Dev) (o : Output) :
    (d.emit o).now = d.now ∧ (d.emit o).free = d.free ∧ (d.emit o).sys = d.sys ∧ (d.emit o).evt = d.evt ∧
    (d.emit o).sram = d.sram ∧ (d.emit o).intEnable = d.intEnable ∧ (d.emit o).heartbeat = d.heartbeat ∧
    (d.emit o).ctr = d.ctr ∧ (d.emit o).params = d.params ∧ (d.emit o).pool = d.pool ∧ (d.emit o).units = d.units ∧
    (d.emit o).metaPlace = d.metaPlace ∧ (d.emit o).parts = d.parts ∧ (d.emit o).partRings = d.partRings ∧
    (d.emit o).partMbx = d.partMbx ∧ (d.emit o).keys = d.keys ∧ (d.emit o).wrapped0 = d.wrapped0 ∧
    (d.emit o).wrapped1 = d.wrapped1 ∧ (d.emit o).keyCount = d.keyCount ∧ (d.emit o).groups = d.groups ∧
    (d.emit o).queues = d.queues ∧ (d.emit o).jobs = d.jobs ∧ (d.emit o).nextJob = d.nextJob ∧
    (d.emit o).tallies = d.tallies ∧ (d.emit o).pairs = d.pairs ∧ (d.emit o).objs = d.objs ∧
    (d.emit o).seqPages = d.seqPages ∧ (d.emit o).nearUsed = d.nearUsed ∧ (d.emit o).regions = d.regions ∧
    (d.emit o).serial = d.serial ∧ (d.emit o).waitClear = d.waitClear ∧ (d.emit o).rebuilds = d.rebuilds ∧
    (d.emit o).spareUsed = d.spareUsed ∧ (d.emit o).hourStart = d.hourStart ∧ (d.emit o).peerMedian = d.peerMedian ∧
    (d.emit o).ctxs = d.ctxs ∧ (d.emit o).wins = d.wins ∧ (d.emit o).ranks = d.ranks ∧
    (d.emit o).cxlTrans = d.cxlTrans ∧ (d.emit o).heads = d.heads ∧ (d.emit o).leases = d.leases ∧
    (d.emit o).dir = d.dir ∧ (d.emit o).dirCached = d.dirCached ∧ (d.emit o).winTxns = d.winTxns ∧
    (d.emit o).winWaits = d.winWaits ∧ (d.emit o).ports = d.ports ∧ (d.emit o).arb = d.arb ∧ (d.emit o).rt = d.rt ∧
    (d.emit o).queueGen0 = d.queueGen0 ∧ (d.emit o).engGen = d.engGen ∧ (d.emit o).movGen = d.movGen ∧
    (d.emit o).unitGen = d.unitGen ∧ (d.emit o).portGen = d.portGen ∧ (d.emit o).headGen = d.headGen ∧
    (d.emit o).tagTimes = d.tagTimes ∧ (d.emit o).deferred = d.deferred ∧ (d.emit o).engReset = d.engReset ∧
    (d.emit o).engFailed = d.engFailed ∧ (d.emit o).pair = d.pair ∧ (d.emit o).hk = d.hk ∧ (d.emit o).pow = d.pow ∧
    (d.emit o).tap = d.tap ∧ (d.emit o).copies = d.copies ∧ (d.emit o).cur = d.cur ∧ (d.emit o).stream = d.stream ∧
    (d.emit o).coreWrites = d.coreWrites ∧ (d.emit o).lostMeta = d.lostMeta ∧ (d.emit o).again = d.again ∧
    (d.emit o).wantFront = d.wantFront ∧ (d.emit o).winDone = d.winDone := by
  refine ⟨?_, ?_, ?_, ?_, ?_, ?_, ?_, ?_, ?_, ?_, ?_, ?_, ?_, ?_, ?_, ?_, ?_, ?_, ?_, ?_, ?_, ?_, ?_, ?_, ?_, ?_, ?_, ?_, ?_, ?_, ?_, ?_, ?_, ?_, ?_, ?_, ?_, ?_, ?_, ?_, ?_, ?_, ?_, ?_, ?_, ?_, ?_, ?_, ?_, ?_, ?_, ?_, ?_, ?_, ?_, ?_, ?_, ?_, ?_, ?_, ?_, ?_, ?_, ?_, ?_, ?_, ?_, ?_, ?_, ?_⟩ <;> rfl

@[simp] theorem Dev.reach_frame (d : Dev) (t : Nat) :
    (d.reach t).free = d.free ∧ (d.reach t).out = d.out ∧ (d.reach t).sys = d.sys ∧ (d.reach t).evt = d.evt ∧
    (d.reach t).sram = d.sram ∧ (d.reach t).intEnable = d.intEnable ∧ (d.reach t).heartbeat = d.heartbeat ∧
    (d.reach t).ctr = d.ctr ∧ (d.reach t).params = d.params ∧ (d.reach t).pool = d.pool ∧ (d.reach t).units = d.units ∧
    (d.reach t).metaPlace = d.metaPlace ∧ (d.reach t).parts = d.parts ∧ (d.reach t).partRings = d.partRings ∧
    (d.reach t).partMbx = d.partMbx ∧ (d.reach t).keys = d.keys ∧ (d.reach t).wrapped0 = d.wrapped0 ∧
    (d.reach t).wrapped1 = d.wrapped1 ∧ (d.reach t).keyCount = d.keyCount ∧ (d.reach t).groups = d.groups ∧
    (d.reach t).queues = d.queues ∧ (d.reach t).jobs = d.jobs ∧ (d.reach t).nextJob = d.nextJob ∧
    (d.reach t).tallies = d.tallies ∧ (d.reach t).pairs = d.pairs ∧ (d.reach t).objs = d.objs ∧
    (d.reach t).seqPages = d.seqPages ∧ (d.reach t).nearUsed = d.nearUsed ∧ (d.reach t).regions = d.regions ∧
    (d.reach t).serial = d.serial ∧ (d.reach t).waitClear = d.waitClear ∧ (d.reach t).rebuilds = d.rebuilds ∧
    (d.reach t).spareUsed = d.spareUsed ∧ (d.reach t).hourStart = d.hourStart ∧ (d.reach t).peerMedian = d.peerMedian ∧
    (d.reach t).ctxs = d.ctxs ∧ (d.reach t).wins = d.wins ∧ (d.reach t).ranks = d.ranks ∧
    (d.reach t).cxlTrans = d.cxlTrans ∧ (d.reach t).heads = d.heads ∧ (d.reach t).leases = d.leases ∧
    (d.reach t).dir = d.dir ∧ (d.reach t).dirCached = d.dirCached ∧ (d.reach t).winTxns = d.winTxns ∧
    (d.reach t).winWaits = d.winWaits ∧ (d.reach t).ports = d.ports ∧ (d.reach t).arb = d.arb ∧ (d.reach t).rt = d.rt ∧
    (d.reach t).queueGen0 = d.queueGen0 ∧ (d.reach t).engGen = d.engGen ∧ (d.reach t).movGen = d.movGen ∧
    (d.reach t).unitGen = d.unitGen ∧ (d.reach t).portGen = d.portGen ∧ (d.reach t).headGen = d.headGen ∧
    (d.reach t).tagTimes = d.tagTimes ∧ (d.reach t).deferred = d.deferred ∧ (d.reach t).engReset = d.engReset ∧
    (d.reach t).engFailed = d.engFailed ∧ (d.reach t).pair = d.pair ∧ (d.reach t).hk = d.hk ∧ (d.reach t).pow = d.pow ∧
    (d.reach t).tap = d.tap ∧ (d.reach t).copies = d.copies ∧ (d.reach t).cur = d.cur ∧ (d.reach t).stream = d.stream ∧
    (d.reach t).coreWrites = d.coreWrites ∧ (d.reach t).lostMeta = d.lostMeta ∧ (d.reach t).again = d.again ∧
    (d.reach t).wantFront = d.wantFront ∧ (d.reach t).winDone = d.winDone := by
  refine ⟨?_, ?_, ?_, ?_, ?_, ?_, ?_, ?_, ?_, ?_, ?_, ?_, ?_, ?_, ?_, ?_, ?_, ?_, ?_, ?_, ?_, ?_, ?_, ?_, ?_, ?_, ?_, ?_, ?_, ?_, ?_, ?_, ?_, ?_, ?_, ?_, ?_, ?_, ?_, ?_, ?_, ?_, ?_, ?_, ?_, ?_, ?_, ?_, ?_, ?_, ?_, ?_, ?_, ?_, ?_, ?_, ?_, ?_, ?_, ?_, ?_, ?_, ?_, ?_, ?_, ?_, ?_, ?_, ?_, ?_⟩ <;> rfl

@[simp] theorem Dev.bump_frame (d : Dev) (c : Ctr) (n : Nat) :
    (d.bump c n).now = d.now ∧ (d.bump c n).free = d.free ∧ (d.bump c n).out = d.out ∧ (d.bump c n).sys = d.sys ∧
    (d.bump c n).evt = d.evt ∧ (d.bump c n).sram = d.sram ∧ (d.bump c n).intEnable = d.intEnable ∧
    (d.bump c n).heartbeat = d.heartbeat ∧ (d.bump c n).params = d.params ∧ (d.bump c n).pool = d.pool ∧
    (d.bump c n).units = d.units ∧ (d.bump c n).metaPlace = d.metaPlace ∧ (d.bump c n).parts = d.parts ∧
    (d.bump c n).partRings = d.partRings ∧ (d.bump c n).partMbx = d.partMbx ∧ (d.bump c n).keys = d.keys ∧
    (d.bump c n).wrapped0 = d.wrapped0 ∧ (d.bump c n).wrapped1 = d.wrapped1 ∧ (d.bump c n).keyCount = d.keyCount ∧
    (d.bump c n).groups = d.groups ∧ (d.bump c n).queues = d.queues ∧ (d.bump c n).jobs = d.jobs ∧
    (d.bump c n).nextJob = d.nextJob ∧ (d.bump c n).tallies = d.tallies ∧ (d.bump c n).pairs = d.pairs ∧
    (d.bump c n).objs = d.objs ∧ (d.bump c n).seqPages = d.seqPages ∧ (d.bump c n).nearUsed = d.nearUsed ∧
    (d.bump c n).regions = d.regions ∧ (d.bump c n).serial = d.serial ∧ (d.bump c n).waitClear = d.waitClear ∧
    (d.bump c n).rebuilds = d.rebuilds ∧ (d.bump c n).spareUsed = d.spareUsed ∧ (d.bump c n).hourStart = d.hourStart ∧
    (d.bump c n).peerMedian = d.peerMedian ∧ (d.bump c n).ctxs = d.ctxs ∧ (d.bump c n).wins = d.wins ∧
    (d.bump c n).ranks = d.ranks ∧ (d.bump c n).cxlTrans = d.cxlTrans ∧ (d.bump c n).heads = d.heads ∧
    (d.bump c n).leases = d.leases ∧ (d.bump c n).dir = d.dir ∧ (d.bump c n).dirCached = d.dirCached ∧
    (d.bump c n).winTxns = d.winTxns ∧ (d.bump c n).winWaits = d.winWaits ∧ (d.bump c n).ports = d.ports ∧
    (d.bump c n).arb = d.arb ∧ (d.bump c n).rt = d.rt ∧ (d.bump c n).queueGen0 = d.queueGen0 ∧
    (d.bump c n).engGen = d.engGen ∧ (d.bump c n).movGen = d.movGen ∧ (d.bump c n).unitGen = d.unitGen ∧
    (d.bump c n).portGen = d.portGen ∧ (d.bump c n).headGen = d.headGen ∧ (d.bump c n).tagTimes = d.tagTimes ∧
    (d.bump c n).deferred = d.deferred ∧ (d.bump c n).engReset = d.engReset ∧ (d.bump c n).engFailed = d.engFailed ∧
    (d.bump c n).pair = d.pair ∧ (d.bump c n).hk = d.hk ∧ (d.bump c n).pow = d.pow ∧ (d.bump c n).tap = d.tap ∧
    (d.bump c n).copies = d.copies ∧ (d.bump c n).cur = d.cur ∧ (d.bump c n).stream = d.stream ∧
    (d.bump c n).coreWrites = d.coreWrites ∧ (d.bump c n).lostMeta = d.lostMeta ∧ (d.bump c n).again = d.again ∧
    (d.bump c n).wantFront = d.wantFront ∧ (d.bump c n).winDone = d.winDone := by
  refine ⟨?_, ?_, ?_, ?_, ?_, ?_, ?_, ?_, ?_, ?_, ?_, ?_, ?_, ?_, ?_, ?_, ?_, ?_, ?_, ?_, ?_, ?_, ?_, ?_, ?_, ?_, ?_, ?_, ?_, ?_, ?_, ?_, ?_, ?_, ?_, ?_, ?_, ?_, ?_, ?_, ?_, ?_, ?_, ?_, ?_, ?_, ?_, ?_, ?_, ?_, ?_, ?_, ?_, ?_, ?_, ?_, ?_, ?_, ?_, ?_, ?_, ?_, ?_, ?_, ?_, ?_, ?_, ?_, ?_, ?_⟩ <;> rfl

@[simp] theorem Dev.setParam_frame (d : Dev) (code idx : Nat) (v : U64) :
    (d.setParam code idx v).now = d.now ∧ (d.setParam code idx v).free = d.free ∧ (d.setParam code idx v).out = d.out ∧
    (d.setParam code idx v).sys = d.sys ∧ (d.setParam code idx v).evt = d.evt ∧ (d.setParam code idx v).sram = d.sram ∧
    (d.setParam code idx v).intEnable = d.intEnable ∧ (d.setParam code idx v).heartbeat = d.heartbeat ∧
    (d.setParam code idx v).ctr = d.ctr ∧ (d.setParam code idx v).pool = d.pool ∧
    (d.setParam code idx v).units = d.units ∧ (d.setParam code idx v).metaPlace = d.metaPlace ∧
    (d.setParam code idx v).parts = d.parts ∧ (d.setParam code idx v).partRings = d.partRings ∧
    (d.setParam code idx v).partMbx = d.partMbx ∧ (d.setParam code idx v).keys = d.keys ∧
    (d.setParam code idx v).wrapped0 = d.wrapped0 ∧ (d.setParam code idx v).wrapped1 = d.wrapped1 ∧
    (d.setParam code idx v).keyCount = d.keyCount ∧ (d.setParam code idx v).groups = d.groups ∧
    (d.setParam code idx v).queues = d.queues ∧ (d.setParam code idx v).jobs = d.jobs ∧
    (d.setParam code idx v).nextJob = d.nextJob ∧ (d.setParam code idx v).tallies = d.tallies ∧
    (d.setParam code idx v).pairs = d.pairs ∧ (d.setParam code idx v).objs = d.objs ∧
    (d.setParam code idx v).seqPages = d.seqPages ∧ (d.setParam code idx v).nearUsed = d.nearUsed ∧
    (d.setParam code idx v).regions = d.regions ∧ (d.setParam code idx v).serial = d.serial ∧
    (d.setParam code idx v).waitClear = d.waitClear ∧ (d.setParam code idx v).rebuilds = d.rebuilds ∧
    (d.setParam code idx v).spareUsed = d.spareUsed ∧ (d.setParam code idx v).hourStart = d.hourStart ∧
    (d.setParam code idx v).peerMedian = d.peerMedian ∧ (d.setParam code idx v).ctxs = d.ctxs ∧
    (d.setParam code idx v).wins = d.wins ∧ (d.setParam code idx v).ranks = d.ranks ∧
    (d.setParam code idx v).cxlTrans = d.cxlTrans ∧ (d.setParam code idx v).heads = d.heads ∧
    (d.setParam code idx v).leases = d.leases ∧ (d.setParam code idx v).dir = d.dir ∧
    (d.setParam code idx v).dirCached = d.dirCached ∧ (d.setParam code idx v).winTxns = d.winTxns ∧
    (d.setParam code idx v).winWaits = d.winWaits ∧ (d.setParam code idx v).ports = d.ports ∧
    (d.setParam code idx v).arb = d.arb ∧ (d.setParam code idx v).rt = d.rt ∧
    (d.setParam code idx v).queueGen0 = d.queueGen0 ∧ (d.setParam code idx v).engGen = d.engGen ∧
    (d.setParam code idx v).movGen = d.movGen ∧ (d.setParam code idx v).unitGen = d.unitGen ∧
    (d.setParam code idx v).portGen = d.portGen ∧ (d.setParam code idx v).headGen = d.headGen ∧
    (d.setParam code idx v).tagTimes = d.tagTimes ∧ (d.setParam code idx v).deferred = d.deferred ∧
    (d.setParam code idx v).engReset = d.engReset ∧ (d.setParam code idx v).engFailed = d.engFailed ∧
    (d.setParam code idx v).pair = d.pair ∧ (d.setParam code idx v).hk = d.hk ∧ (d.setParam code idx v).pow = d.pow ∧
    (d.setParam code idx v).tap = d.tap ∧ (d.setParam code idx v).copies = d.copies ∧
    (d.setParam code idx v).cur = d.cur ∧ (d.setParam code idx v).stream = d.stream ∧
    (d.setParam code idx v).coreWrites = d.coreWrites ∧ (d.setParam code idx v).lostMeta = d.lostMeta ∧
    (d.setParam code idx v).again = d.again ∧ (d.setParam code idx v).wantFront = d.wantFront ∧
    (d.setParam code idx v).winDone = d.winDone := by
  refine ⟨?_, ?_, ?_, ?_, ?_, ?_, ?_, ?_, ?_, ?_, ?_, ?_, ?_, ?_, ?_, ?_, ?_, ?_, ?_, ?_, ?_, ?_, ?_, ?_, ?_, ?_, ?_, ?_, ?_, ?_, ?_, ?_, ?_, ?_, ?_, ?_, ?_, ?_, ?_, ?_, ?_, ?_, ?_, ?_, ?_, ?_, ?_, ?_, ?_, ?_, ?_, ?_, ?_, ?_, ?_, ?_, ?_, ?_, ?_, ?_, ?_, ?_, ?_, ?_, ?_, ?_, ?_, ?_, ?_, ?_⟩ <;> rfl

@[simp] theorem Dev.modUnit_frame (d : Dev) (m : Nat) (f : MemUnit → MemUnit) :
    (d.modUnit m f).now = d.now ∧ (d.modUnit m f).free = d.free ∧ (d.modUnit m f).out = d.out ∧
    (d.modUnit m f).sys = d.sys ∧ (d.modUnit m f).evt = d.evt ∧ (d.modUnit m f).sram = d.sram ∧
    (d.modUnit m f).intEnable = d.intEnable ∧ (d.modUnit m f).heartbeat = d.heartbeat ∧ (d.modUnit m f).ctr = d.ctr ∧
    (d.modUnit m f).params = d.params ∧ (d.modUnit m f).pool = d.pool ∧ (d.modUnit m f).metaPlace = d.metaPlace ∧
    (d.modUnit m f).parts = d.parts ∧ (d.modUnit m f).partRings = d.partRings ∧ (d.modUnit m f).partMbx = d.partMbx ∧
    (d.modUnit m f).keys = d.keys ∧ (d.modUnit m f).wrapped0 = d.wrapped0 ∧ (d.modUnit m f).wrapped1 = d.wrapped1 ∧
    (d.modUnit m f).keyCount = d.keyCount ∧ (d.modUnit m f).groups = d.groups ∧ (d.modUnit m f).queues = d.queues ∧
    (d.modUnit m f).jobs = d.jobs ∧ (d.modUnit m f).nextJob = d.nextJob ∧ (d.modUnit m f).tallies = d.tallies ∧
    (d.modUnit m f).pairs = d.pairs ∧ (d.modUnit m f).objs = d.objs ∧ (d.modUnit m f).seqPages = d.seqPages ∧
    (d.modUnit m f).nearUsed = d.nearUsed ∧ (d.modUnit m f).regions = d.regions ∧ (d.modUnit m f).serial = d.serial ∧
    (d.modUnit m f).waitClear = d.waitClear ∧ (d.modUnit m f).rebuilds = d.rebuilds ∧
    (d.modUnit m f).spareUsed = d.spareUsed ∧ (d.modUnit m f).hourStart = d.hourStart ∧
    (d.modUnit m f).peerMedian = d.peerMedian ∧ (d.modUnit m f).ctxs = d.ctxs ∧ (d.modUnit m f).wins = d.wins ∧
    (d.modUnit m f).ranks = d.ranks ∧ (d.modUnit m f).cxlTrans = d.cxlTrans ∧ (d.modUnit m f).heads = d.heads ∧
    (d.modUnit m f).leases = d.leases ∧ (d.modUnit m f).dir = d.dir ∧ (d.modUnit m f).dirCached = d.dirCached ∧
    (d.modUnit m f).winTxns = d.winTxns ∧ (d.modUnit m f).winWaits = d.winWaits ∧ (d.modUnit m f).ports = d.ports ∧
    (d.modUnit m f).arb = d.arb ∧ (d.modUnit m f).rt = d.rt ∧ (d.modUnit m f).queueGen0 = d.queueGen0 ∧
    (d.modUnit m f).engGen = d.engGen ∧ (d.modUnit m f).movGen = d.movGen ∧ (d.modUnit m f).unitGen = d.unitGen ∧
    (d.modUnit m f).portGen = d.portGen ∧ (d.modUnit m f).headGen = d.headGen ∧ (d.modUnit m f).tagTimes = d.tagTimes ∧
    (d.modUnit m f).deferred = d.deferred ∧ (d.modUnit m f).engReset = d.engReset ∧
    (d.modUnit m f).engFailed = d.engFailed ∧ (d.modUnit m f).pair = d.pair ∧ (d.modUnit m f).hk = d.hk ∧
    (d.modUnit m f).pow = d.pow ∧ (d.modUnit m f).tap = d.tap ∧ (d.modUnit m f).copies = d.copies ∧
    (d.modUnit m f).cur = d.cur ∧ (d.modUnit m f).stream = d.stream ∧ (d.modUnit m f).coreWrites = d.coreWrites ∧
    (d.modUnit m f).lostMeta = d.lostMeta ∧ (d.modUnit m f).again = d.again ∧ (d.modUnit m f).wantFront = d.wantFront ∧
    (d.modUnit m f).winDone = d.winDone := by
  refine ⟨?_, ?_, ?_, ?_, ?_, ?_, ?_, ?_, ?_, ?_, ?_, ?_, ?_, ?_, ?_, ?_, ?_, ?_, ?_, ?_, ?_, ?_, ?_, ?_, ?_, ?_, ?_, ?_, ?_, ?_, ?_, ?_, ?_, ?_, ?_, ?_, ?_, ?_, ?_, ?_, ?_, ?_, ?_, ?_, ?_, ?_, ?_, ?_, ?_, ?_, ?_, ?_, ?_, ?_, ?_, ?_, ?_, ?_, ?_, ?_, ?_, ?_, ?_, ?_, ?_, ?_, ?_, ?_, ?_, ?_⟩ <;> rfl

@[simp] theorem Dev.modPart_frame (d : Dev) (p : Nat) (f : Partition → Partition) :
    (d.modPart p f).now = d.now ∧ (d.modPart p f).free = d.free ∧ (d.modPart p f).out = d.out ∧
    (d.modPart p f).sys = d.sys ∧ (d.modPart p f).evt = d.evt ∧ (d.modPart p f).sram = d.sram ∧
    (d.modPart p f).intEnable = d.intEnable ∧ (d.modPart p f).heartbeat = d.heartbeat ∧ (d.modPart p f).ctr = d.ctr ∧
    (d.modPart p f).params = d.params ∧ (d.modPart p f).pool = d.pool ∧ (d.modPart p f).units = d.units ∧
    (d.modPart p f).metaPlace = d.metaPlace ∧ (d.modPart p f).partRings = d.partRings ∧
    (d.modPart p f).partMbx = d.partMbx ∧ (d.modPart p f).keys = d.keys ∧ (d.modPart p f).wrapped0 = d.wrapped0 ∧
    (d.modPart p f).wrapped1 = d.wrapped1 ∧ (d.modPart p f).keyCount = d.keyCount ∧ (d.modPart p f).groups = d.groups ∧
    (d.modPart p f).queues = d.queues ∧ (d.modPart p f).jobs = d.jobs ∧ (d.modPart p f).nextJob = d.nextJob ∧
    (d.modPart p f).tallies = d.tallies ∧ (d.modPart p f).pairs = d.pairs ∧ (d.modPart p f).objs = d.objs ∧
    (d.modPart p f).seqPages = d.seqPages ∧ (d.modPart p f).nearUsed = d.nearUsed ∧
    (d.modPart p f).regions = d.regions ∧ (d.modPart p f).serial = d.serial ∧ (d.modPart p f).waitClear = d.waitClear ∧
    (d.modPart p f).rebuilds = d.rebuilds ∧ (d.modPart p f).spareUsed = d.spareUsed ∧
    (d.modPart p f).hourStart = d.hourStart ∧ (d.modPart p f).peerMedian = d.peerMedian ∧
    (d.modPart p f).ctxs = d.ctxs ∧ (d.modPart p f).wins = d.wins ∧ (d.modPart p f).ranks = d.ranks ∧
    (d.modPart p f).cxlTrans = d.cxlTrans ∧ (d.modPart p f).heads = d.heads ∧ (d.modPart p f).leases = d.leases ∧
    (d.modPart p f).dir = d.dir ∧ (d.modPart p f).dirCached = d.dirCached ∧ (d.modPart p f).winTxns = d.winTxns ∧
    (d.modPart p f).winWaits = d.winWaits ∧ (d.modPart p f).ports = d.ports ∧ (d.modPart p f).arb = d.arb ∧
    (d.modPart p f).rt = d.rt ∧ (d.modPart p f).queueGen0 = d.queueGen0 ∧ (d.modPart p f).engGen = d.engGen ∧
    (d.modPart p f).movGen = d.movGen ∧ (d.modPart p f).unitGen = d.unitGen ∧ (d.modPart p f).portGen = d.portGen ∧
    (d.modPart p f).headGen = d.headGen ∧ (d.modPart p f).tagTimes = d.tagTimes ∧
    (d.modPart p f).deferred = d.deferred ∧ (d.modPart p f).engReset = d.engReset ∧
    (d.modPart p f).engFailed = d.engFailed ∧ (d.modPart p f).pair = d.pair ∧ (d.modPart p f).hk = d.hk ∧
    (d.modPart p f).pow = d.pow ∧ (d.modPart p f).tap = d.tap ∧ (d.modPart p f).copies = d.copies ∧
    (d.modPart p f).cur = d.cur ∧ (d.modPart p f).stream = d.stream ∧ (d.modPart p f).coreWrites = d.coreWrites ∧
    (d.modPart p f).lostMeta = d.lostMeta ∧ (d.modPart p f).again = d.again ∧ (d.modPart p f).wantFront = d.wantFront ∧
    (d.modPart p f).winDone = d.winDone := by
  refine ⟨?_, ?_, ?_, ?_, ?_, ?_, ?_, ?_, ?_, ?_, ?_, ?_, ?_, ?_, ?_, ?_, ?_, ?_, ?_, ?_, ?_, ?_, ?_, ?_, ?_, ?_, ?_, ?_, ?_, ?_, ?_, ?_, ?_, ?_, ?_, ?_, ?_, ?_, ?_, ?_, ?_, ?_, ?_, ?_, ?_, ?_, ?_, ?_, ?_, ?_, ?_, ?_, ?_, ?_, ?_, ?_, ?_, ?_, ?_, ?_, ?_, ?_, ?_, ?_, ?_, ?_, ?_, ?_, ?_, ?_⟩ <;> rfl

@[simp] theorem Dev.modQueue_frame (d : Dev) (q : Nat) (f : Queue → Queue) :
    (d.modQueue q f).now = d.now ∧ (d.modQueue q f).free = d.free ∧ (d.modQueue q f).out = d.out ∧
    (d.modQueue q f).sys = d.sys ∧ (d.modQueue q f).evt = d.evt ∧ (d.modQueue q f).sram = d.sram ∧
    (d.modQueue q f).intEnable = d.intEnable ∧ (d.modQueue q f).heartbeat = d.heartbeat ∧ (d.modQueue q f).ctr = d.ctr ∧
    (d.modQueue q f).params = d.params ∧ (d.modQueue q f).pool = d.pool ∧ (d.modQueue q f).units = d.units ∧
    (d.modQueue q f).metaPlace = d.metaPlace ∧ (d.modQueue q f).parts = d.parts ∧
    (d.modQueue q f).partRings = d.partRings ∧ (d.modQueue q f).partMbx = d.partMbx ∧ (d.modQueue q f).keys = d.keys ∧
    (d.modQueue q f).wrapped0 = d.wrapped0 ∧ (d.modQueue q f).wrapped1 = d.wrapped1 ∧
    (d.modQueue q f).keyCount = d.keyCount ∧ (d.modQueue q f).groups = d.groups ∧ (d.modQueue q f).jobs = d.jobs ∧
    (d.modQueue q f).nextJob = d.nextJob ∧ (d.modQueue q f).tallies = d.tallies ∧ (d.modQueue q f).pairs = d.pairs ∧
    (d.modQueue q f).objs = d.objs ∧ (d.modQueue q f).seqPages = d.seqPages ∧ (d.modQueue q f).nearUsed = d.nearUsed ∧
    (d.modQueue q f).regions = d.regions ∧ (d.modQueue q f).serial = d.serial ∧
    (d.modQueue q f).waitClear = d.waitClear ∧ (d.modQueue q f).rebuilds = d.rebuilds ∧
    (d.modQueue q f).spareUsed = d.spareUsed ∧ (d.modQueue q f).hourStart = d.hourStart ∧
    (d.modQueue q f).peerMedian = d.peerMedian ∧ (d.modQueue q f).ctxs = d.ctxs ∧ (d.modQueue q f).wins = d.wins ∧
    (d.modQueue q f).ranks = d.ranks ∧ (d.modQueue q f).cxlTrans = d.cxlTrans ∧ (d.modQueue q f).heads = d.heads ∧
    (d.modQueue q f).leases = d.leases ∧ (d.modQueue q f).dir = d.dir ∧ (d.modQueue q f).dirCached = d.dirCached ∧
    (d.modQueue q f).winTxns = d.winTxns ∧ (d.modQueue q f).winWaits = d.winWaits ∧ (d.modQueue q f).ports = d.ports ∧
    (d.modQueue q f).arb = d.arb ∧ (d.modQueue q f).rt = d.rt ∧ (d.modQueue q f).queueGen0 = d.queueGen0 ∧
    (d.modQueue q f).engGen = d.engGen ∧ (d.modQueue q f).movGen = d.movGen ∧ (d.modQueue q f).unitGen = d.unitGen ∧
    (d.modQueue q f).portGen = d.portGen ∧ (d.modQueue q f).headGen = d.headGen ∧
    (d.modQueue q f).tagTimes = d.tagTimes ∧ (d.modQueue q f).deferred = d.deferred ∧
    (d.modQueue q f).engReset = d.engReset ∧ (d.modQueue q f).engFailed = d.engFailed ∧ (d.modQueue q f).pair = d.pair ∧
    (d.modQueue q f).hk = d.hk ∧ (d.modQueue q f).pow = d.pow ∧ (d.modQueue q f).tap = d.tap ∧
    (d.modQueue q f).copies = d.copies ∧ (d.modQueue q f).cur = d.cur ∧ (d.modQueue q f).stream = d.stream ∧
    (d.modQueue q f).coreWrites = d.coreWrites ∧ (d.modQueue q f).lostMeta = d.lostMeta ∧
    (d.modQueue q f).again = d.again ∧ (d.modQueue q f).wantFront = d.wantFront ∧ (d.modQueue q f).winDone = d.winDone := by
  refine ⟨?_, ?_, ?_, ?_, ?_, ?_, ?_, ?_, ?_, ?_, ?_, ?_, ?_, ?_, ?_, ?_, ?_, ?_, ?_, ?_, ?_, ?_, ?_, ?_, ?_, ?_, ?_, ?_, ?_, ?_, ?_, ?_, ?_, ?_, ?_, ?_, ?_, ?_, ?_, ?_, ?_, ?_, ?_, ?_, ?_, ?_, ?_, ?_, ?_, ?_, ?_, ?_, ?_, ?_, ?_, ?_, ?_, ?_, ?_, ?_, ?_, ?_, ?_, ?_, ?_, ?_, ?_, ?_, ?_, ?_⟩ <;> rfl

@[simp] theorem Dev.modPort_frame (d : Dev) (n : Nat) (f : Port → Port) :
    (d.modPort n f).now = d.now ∧ (d.modPort n f).free = d.free ∧ (d.modPort n f).out = d.out ∧
    (d.modPort n f).sys = d.sys ∧ (d.modPort n f).evt = d.evt ∧ (d.modPort n f).sram = d.sram ∧
    (d.modPort n f).intEnable = d.intEnable ∧ (d.modPort n f).heartbeat = d.heartbeat ∧ (d.modPort n f).ctr = d.ctr ∧
    (d.modPort n f).params = d.params ∧ (d.modPort n f).pool = d.pool ∧ (d.modPort n f).units = d.units ∧
    (d.modPort n f).metaPlace = d.metaPlace ∧ (d.modPort n f).parts = d.parts ∧
    (d.modPort n f).partRings = d.partRings ∧ (d.modPort n f).partMbx = d.partMbx ∧ (d.modPort n f).keys = d.keys ∧
    (d.modPort n f).wrapped0 = d.wrapped0 ∧ (d.modPort n f).wrapped1 = d.wrapped1 ∧
    (d.modPort n f).keyCount = d.keyCount ∧ (d.modPort n f).groups = d.groups ∧ (d.modPort n f).queues = d.queues ∧
    (d.modPort n f).jobs = d.jobs ∧ (d.modPort n f).nextJob = d.nextJob ∧ (d.modPort n f).tallies = d.tallies ∧
    (d.modPort n f).pairs = d.pairs ∧ (d.modPort n f).objs = d.objs ∧ (d.modPort n f).seqPages = d.seqPages ∧
    (d.modPort n f).nearUsed = d.nearUsed ∧ (d.modPort n f).regions = d.regions ∧ (d.modPort n f).serial = d.serial ∧
    (d.modPort n f).waitClear = d.waitClear ∧ (d.modPort n f).rebuilds = d.rebuilds ∧
    (d.modPort n f).spareUsed = d.spareUsed ∧ (d.modPort n f).hourStart = d.hourStart ∧
    (d.modPort n f).peerMedian = d.peerMedian ∧ (d.modPort n f).ctxs = d.ctxs ∧ (d.modPort n f).wins = d.wins ∧
    (d.modPort n f).ranks = d.ranks ∧ (d.modPort n f).cxlTrans = d.cxlTrans ∧ (d.modPort n f).heads = d.heads ∧
    (d.modPort n f).leases = d.leases ∧ (d.modPort n f).dir = d.dir ∧ (d.modPort n f).dirCached = d.dirCached ∧
    (d.modPort n f).winTxns = d.winTxns ∧ (d.modPort n f).winWaits = d.winWaits ∧ (d.modPort n f).arb = d.arb ∧
    (d.modPort n f).rt = d.rt ∧ (d.modPort n f).queueGen0 = d.queueGen0 ∧ (d.modPort n f).engGen = d.engGen ∧
    (d.modPort n f).movGen = d.movGen ∧ (d.modPort n f).unitGen = d.unitGen ∧ (d.modPort n f).portGen = d.portGen ∧
    (d.modPort n f).headGen = d.headGen ∧ (d.modPort n f).tagTimes = d.tagTimes ∧
    (d.modPort n f).deferred = d.deferred ∧ (d.modPort n f).engReset = d.engReset ∧
    (d.modPort n f).engFailed = d.engFailed ∧ (d.modPort n f).pair = d.pair ∧ (d.modPort n f).hk = d.hk ∧
    (d.modPort n f).pow = d.pow ∧ (d.modPort n f).tap = d.tap ∧ (d.modPort n f).copies = d.copies ∧
    (d.modPort n f).cur = d.cur ∧ (d.modPort n f).stream = d.stream ∧ (d.modPort n f).coreWrites = d.coreWrites ∧
    (d.modPort n f).lostMeta = d.lostMeta ∧ (d.modPort n f).again = d.again ∧ (d.modPort n f).wantFront = d.wantFront ∧
    (d.modPort n f).winDone = d.winDone := by
  refine ⟨?_, ?_, ?_, ?_, ?_, ?_, ?_, ?_, ?_, ?_, ?_, ?_, ?_, ?_, ?_, ?_, ?_, ?_, ?_, ?_, ?_, ?_, ?_, ?_, ?_, ?_, ?_, ?_, ?_, ?_, ?_, ?_, ?_, ?_, ?_, ?_, ?_, ?_, ?_, ?_, ?_, ?_, ?_, ?_, ?_, ?_, ?_, ?_, ?_, ?_, ?_, ?_, ?_, ?_, ?_, ?_, ?_, ?_, ?_, ?_, ?_, ?_, ?_, ?_, ?_, ?_, ?_, ?_, ?_, ?_⟩ <;> rfl

@[simp] theorem Dev.modHead_frame (d : Dev) (h : Nat) (f : Head → Head) :
    (d.modHead h f).now = d.now ∧ (d.modHead h f).free = d.free ∧ (d.modHead h f).out = d.out ∧
    (d.modHead h f).sys = d.sys ∧ (d.modHead h f).evt = d.evt ∧ (d.modHead h f).sram = d.sram ∧
    (d.modHead h f).intEnable = d.intEnable ∧ (d.modHead h f).heartbeat = d.heartbeat ∧ (d.modHead h f).ctr = d.ctr ∧
    (d.modHead h f).params = d.params ∧ (d.modHead h f).pool = d.pool ∧ (d.modHead h f).units = d.units ∧
    (d.modHead h f).metaPlace = d.metaPlace ∧ (d.modHead h f).parts = d.parts ∧
    (d.modHead h f).partRings = d.partRings ∧ (d.modHead h f).partMbx = d.partMbx ∧ (d.modHead h f).keys = d.keys ∧
    (d.modHead h f).wrapped0 = d.wrapped0 ∧ (d.modHead h f).wrapped1 = d.wrapped1 ∧
    (d.modHead h f).keyCount = d.keyCount ∧ (d.modHead h f).groups = d.groups ∧ (d.modHead h f).queues = d.queues ∧
    (d.modHead h f).jobs = d.jobs ∧ (d.modHead h f).nextJob = d.nextJob ∧ (d.modHead h f).tallies = d.tallies ∧
    (d.modHead h f).pairs = d.pairs ∧ (d.modHead h f).objs = d.objs ∧ (d.modHead h f).seqPages = d.seqPages ∧
    (d.modHead h f).nearUsed = d.nearUsed ∧ (d.modHead h f).regions = d.regions ∧ (d.modHead h f).serial = d.serial ∧
    (d.modHead h f).waitClear = d.waitClear ∧ (d.modHead h f).rebuilds = d.rebuilds ∧
    (d.modHead h f).spareUsed = d.spareUsed ∧ (d.modHead h f).hourStart = d.hourStart ∧
    (d.modHead h f).peerMedian = d.peerMedian ∧ (d.modHead h f).ctxs = d.ctxs ∧ (d.modHead h f).wins = d.wins ∧
    (d.modHead h f).ranks = d.ranks ∧ (d.modHead h f).cxlTrans = d.cxlTrans ∧ (d.modHead h f).leases = d.leases ∧
    (d.modHead h f).dir = d.dir ∧ (d.modHead h f).dirCached = d.dirCached ∧ (d.modHead h f).winTxns = d.winTxns ∧
    (d.modHead h f).winWaits = d.winWaits ∧ (d.modHead h f).ports = d.ports ∧ (d.modHead h f).arb = d.arb ∧
    (d.modHead h f).rt = d.rt ∧ (d.modHead h f).queueGen0 = d.queueGen0 ∧ (d.modHead h f).engGen = d.engGen ∧
    (d.modHead h f).movGen = d.movGen ∧ (d.modHead h f).unitGen = d.unitGen ∧ (d.modHead h f).portGen = d.portGen ∧
    (d.modHead h f).headGen = d.headGen ∧ (d.modHead h f).tagTimes = d.tagTimes ∧
    (d.modHead h f).deferred = d.deferred ∧ (d.modHead h f).engReset = d.engReset ∧
    (d.modHead h f).engFailed = d.engFailed ∧ (d.modHead h f).pair = d.pair ∧ (d.modHead h f).hk = d.hk ∧
    (d.modHead h f).pow = d.pow ∧ (d.modHead h f).tap = d.tap ∧ (d.modHead h f).copies = d.copies ∧
    (d.modHead h f).cur = d.cur ∧ (d.modHead h f).stream = d.stream ∧ (d.modHead h f).coreWrites = d.coreWrites ∧
    (d.modHead h f).lostMeta = d.lostMeta ∧ (d.modHead h f).again = d.again ∧ (d.modHead h f).wantFront = d.wantFront ∧
    (d.modHead h f).winDone = d.winDone := by
  refine ⟨?_, ?_, ?_, ?_, ?_, ?_, ?_, ?_, ?_, ?_, ?_, ?_, ?_, ?_, ?_, ?_, ?_, ?_, ?_, ?_, ?_, ?_, ?_, ?_, ?_, ?_, ?_, ?_, ?_, ?_, ?_, ?_, ?_, ?_, ?_, ?_, ?_, ?_, ?_, ?_, ?_, ?_, ?_, ?_, ?_, ?_, ?_, ?_, ?_, ?_, ?_, ?_, ?_, ?_, ?_, ?_, ?_, ?_, ?_, ?_, ?_, ?_, ?_, ?_, ?_, ?_, ?_, ?_, ?_, ?_⟩ <;> rfl

@[simp] theorem Dev.modObj_frame (d : Dev) (r i : Nat) (f : Obj → Obj) :
    (d.modObj r i f).now = d.now ∧ (d.modObj r i f).free = d.free ∧ (d.modObj r i f).out = d.out ∧
    (d.modObj r i f).sys = d.sys ∧ (d.modObj r i f).evt = d.evt ∧ (d.modObj r i f).sram = d.sram ∧
    (d.modObj r i f).intEnable = d.intEnable ∧ (d.modObj r i f).heartbeat = d.heartbeat ∧ (d.modObj r i f).ctr = d.ctr ∧
    (d.modObj r i f).params = d.params ∧ (d.modObj r i f).pool = d.pool ∧ (d.modObj r i f).units = d.units ∧
    (d.modObj r i f).metaPlace = d.metaPlace ∧ (d.modObj r i f).parts = d.parts ∧
    (d.modObj r i f).partRings = d.partRings ∧ (d.modObj r i f).partMbx = d.partMbx ∧ (d.modObj r i f).keys = d.keys ∧
    (d.modObj r i f).wrapped0 = d.wrapped0 ∧ (d.modObj r i f).wrapped1 = d.wrapped1 ∧
    (d.modObj r i f).keyCount = d.keyCount ∧ (d.modObj r i f).groups = d.groups ∧ (d.modObj r i f).queues = d.queues ∧
    (d.modObj r i f).jobs = d.jobs ∧ (d.modObj r i f).nextJob = d.nextJob ∧ (d.modObj r i f).tallies = d.tallies ∧
    (d.modObj r i f).pairs = d.pairs ∧ (d.modObj r i f).seqPages = d.seqPages ∧ (d.modObj r i f).nearUsed = d.nearUsed ∧
    (d.modObj r i f).regions = d.regions ∧ (d.modObj r i f).serial = d.serial ∧
    (d.modObj r i f).waitClear = d.waitClear ∧ (d.modObj r i f).rebuilds = d.rebuilds ∧
    (d.modObj r i f).spareUsed = d.spareUsed ∧ (d.modObj r i f).hourStart = d.hourStart ∧
    (d.modObj r i f).peerMedian = d.peerMedian ∧ (d.modObj r i f).ctxs = d.ctxs ∧ (d.modObj r i f).wins = d.wins ∧
    (d.modObj r i f).ranks = d.ranks ∧ (d.modObj r i f).cxlTrans = d.cxlTrans ∧ (d.modObj r i f).heads = d.heads ∧
    (d.modObj r i f).leases = d.leases ∧ (d.modObj r i f).dir = d.dir ∧ (d.modObj r i f).dirCached = d.dirCached ∧
    (d.modObj r i f).winTxns = d.winTxns ∧ (d.modObj r i f).winWaits = d.winWaits ∧ (d.modObj r i f).ports = d.ports ∧
    (d.modObj r i f).arb = d.arb ∧ (d.modObj r i f).rt = d.rt ∧ (d.modObj r i f).queueGen0 = d.queueGen0 ∧
    (d.modObj r i f).engGen = d.engGen ∧ (d.modObj r i f).movGen = d.movGen ∧ (d.modObj r i f).unitGen = d.unitGen ∧
    (d.modObj r i f).portGen = d.portGen ∧ (d.modObj r i f).headGen = d.headGen ∧
    (d.modObj r i f).tagTimes = d.tagTimes ∧ (d.modObj r i f).deferred = d.deferred ∧
    (d.modObj r i f).engReset = d.engReset ∧ (d.modObj r i f).engFailed = d.engFailed ∧ (d.modObj r i f).pair = d.pair ∧
    (d.modObj r i f).hk = d.hk ∧ (d.modObj r i f).pow = d.pow ∧ (d.modObj r i f).tap = d.tap ∧
    (d.modObj r i f).copies = d.copies ∧ (d.modObj r i f).cur = d.cur ∧ (d.modObj r i f).stream = d.stream ∧
    (d.modObj r i f).coreWrites = d.coreWrites ∧ (d.modObj r i f).lostMeta = d.lostMeta ∧
    (d.modObj r i f).again = d.again ∧ (d.modObj r i f).wantFront = d.wantFront ∧ (d.modObj r i f).winDone = d.winDone := by
  refine ⟨?_, ?_, ?_, ?_, ?_, ?_, ?_, ?_, ?_, ?_, ?_, ?_, ?_, ?_, ?_, ?_, ?_, ?_, ?_, ?_, ?_, ?_, ?_, ?_, ?_, ?_, ?_, ?_, ?_, ?_, ?_, ?_, ?_, ?_, ?_, ?_, ?_, ?_, ?_, ?_, ?_, ?_, ?_, ?_, ?_, ?_, ?_, ?_, ?_, ?_, ?_, ?_, ?_, ?_, ?_, ?_, ?_, ?_, ?_, ?_, ?_, ?_, ?_, ?_, ?_, ?_, ?_, ?_, ?_, ?_⟩ <;> rfl

@[simp] theorem Dev.modPages_frame (d : Dev) (r : Nat) (f : SeqPages → SeqPages) :
    (d.modPages r f).now = d.now ∧ (d.modPages r f).free = d.free ∧ (d.modPages r f).out = d.out ∧
    (d.modPages r f).sys = d.sys ∧ (d.modPages r f).evt = d.evt ∧ (d.modPages r f).sram = d.sram ∧
    (d.modPages r f).intEnable = d.intEnable ∧ (d.modPages r f).heartbeat = d.heartbeat ∧ (d.modPages r f).ctr = d.ctr ∧
    (d.modPages r f).params = d.params ∧ (d.modPages r f).pool = d.pool ∧ (d.modPages r f).units = d.units ∧
    (d.modPages r f).metaPlace = d.metaPlace ∧ (d.modPages r f).parts = d.parts ∧
    (d.modPages r f).partRings = d.partRings ∧ (d.modPages r f).partMbx = d.partMbx ∧ (d.modPages r f).keys = d.keys ∧
    (d.modPages r f).wrapped0 = d.wrapped0 ∧ (d.modPages r f).wrapped1 = d.wrapped1 ∧
    (d.modPages r f).keyCount = d.keyCount ∧ (d.modPages r f).groups = d.groups ∧ (d.modPages r f).queues = d.queues ∧
    (d.modPages r f).jobs = d.jobs ∧ (d.modPages r f).nextJob = d.nextJob ∧ (d.modPages r f).tallies = d.tallies ∧
    (d.modPages r f).pairs = d.pairs ∧ (d.modPages r f).objs = d.objs ∧ (d.modPages r f).nearUsed = d.nearUsed ∧
    (d.modPages r f).regions = d.regions ∧ (d.modPages r f).serial = d.serial ∧
    (d.modPages r f).waitClear = d.waitClear ∧ (d.modPages r f).rebuilds = d.rebuilds ∧
    (d.modPages r f).spareUsed = d.spareUsed ∧ (d.modPages r f).hourStart = d.hourStart ∧
    (d.modPages r f).peerMedian = d.peerMedian ∧ (d.modPages r f).ctxs = d.ctxs ∧ (d.modPages r f).wins = d.wins ∧
    (d.modPages r f).ranks = d.ranks ∧ (d.modPages r f).cxlTrans = d.cxlTrans ∧ (d.modPages r f).heads = d.heads ∧
    (d.modPages r f).leases = d.leases ∧ (d.modPages r f).dir = d.dir ∧ (d.modPages r f).dirCached = d.dirCached ∧
    (d.modPages r f).winTxns = d.winTxns ∧ (d.modPages r f).winWaits = d.winWaits ∧ (d.modPages r f).ports = d.ports ∧
    (d.modPages r f).arb = d.arb ∧ (d.modPages r f).rt = d.rt ∧ (d.modPages r f).queueGen0 = d.queueGen0 ∧
    (d.modPages r f).engGen = d.engGen ∧ (d.modPages r f).movGen = d.movGen ∧ (d.modPages r f).unitGen = d.unitGen ∧
    (d.modPages r f).portGen = d.portGen ∧ (d.modPages r f).headGen = d.headGen ∧
    (d.modPages r f).tagTimes = d.tagTimes ∧ (d.modPages r f).deferred = d.deferred ∧
    (d.modPages r f).engReset = d.engReset ∧ (d.modPages r f).engFailed = d.engFailed ∧ (d.modPages r f).pair = d.pair ∧
    (d.modPages r f).hk = d.hk ∧ (d.modPages r f).pow = d.pow ∧ (d.modPages r f).tap = d.tap ∧
    (d.modPages r f).copies = d.copies ∧ (d.modPages r f).cur = d.cur ∧ (d.modPages r f).stream = d.stream ∧
    (d.modPages r f).coreWrites = d.coreWrites ∧ (d.modPages r f).lostMeta = d.lostMeta ∧
    (d.modPages r f).again = d.again ∧ (d.modPages r f).wantFront = d.wantFront ∧ (d.modPages r f).winDone = d.winDone := by
  refine ⟨?_, ?_, ?_, ?_, ?_, ?_, ?_, ?_, ?_, ?_, ?_, ?_, ?_, ?_, ?_, ?_, ?_, ?_, ?_, ?_, ?_, ?_, ?_, ?_, ?_, ?_, ?_, ?_, ?_, ?_, ?_, ?_, ?_, ?_, ?_, ?_, ?_, ?_, ?_, ?_, ?_, ?_, ?_, ?_, ?_, ?_, ?_, ?_, ?_, ?_, ?_, ?_, ?_, ?_, ?_, ?_, ?_, ?_, ?_, ?_, ?_, ?_, ?_, ?_, ?_, ?_, ?_, ?_, ?_, ?_⟩ <;> rfl

@[simp] theorem Dev.modGroup_frame (d : Dev) (p g : Nat) (f : Group → Group) :
    (d.modGroup p g f).now = d.now ∧ (d.modGroup p g f).free = d.free ∧ (d.modGroup p g f).out = d.out ∧
    (d.modGroup p g f).sys = d.sys ∧ (d.modGroup p g f).evt = d.evt ∧ (d.modGroup p g f).sram = d.sram ∧
    (d.modGroup p g f).intEnable = d.intEnable ∧ (d.modGroup p g f).heartbeat = d.heartbeat ∧
    (d.modGroup p g f).ctr = d.ctr ∧ (d.modGroup p g f).params = d.params ∧ (d.modGroup p g f).pool = d.pool ∧
    (d.modGroup p g f).units = d.units ∧ (d.modGroup p g f).metaPlace = d.metaPlace ∧
    (d.modGroup p g f).parts = d.parts ∧ (d.modGroup p g f).partRings = d.partRings ∧
    (d.modGroup p g f).partMbx = d.partMbx ∧ (d.modGroup p g f).keys = d.keys ∧
    (d.modGroup p g f).wrapped0 = d.wrapped0 ∧ (d.modGroup p g f).wrapped1 = d.wrapped1 ∧
    (d.modGroup p g f).keyCount = d.keyCount ∧ (d.modGroup p g f).queues = d.queues ∧ (d.modGroup p g f).jobs = d.jobs ∧
    (d.modGroup p g f).nextJob = d.nextJob ∧ (d.modGroup p g f).tallies = d.tallies ∧
    (d.modGroup p g f).pairs = d.pairs ∧ (d.modGroup p g f).objs = d.objs ∧ (d.modGroup p g f).seqPages = d.seqPages ∧
    (d.modGroup p g f).nearUsed = d.nearUsed ∧ (d.modGroup p g f).regions = d.regions ∧
    (d.modGroup p g f).serial = d.serial ∧ (d.modGroup p g f).waitClear = d.waitClear ∧
    (d.modGroup p g f).rebuilds = d.rebuilds ∧ (d.modGroup p g f).spareUsed = d.spareUsed ∧
    (d.modGroup p g f).hourStart = d.hourStart ∧ (d.modGroup p g f).peerMedian = d.peerMedian ∧
    (d.modGroup p g f).ctxs = d.ctxs ∧ (d.modGroup p g f).wins = d.wins ∧ (d.modGroup p g f).ranks = d.ranks ∧
    (d.modGroup p g f).cxlTrans = d.cxlTrans ∧ (d.modGroup p g f).heads = d.heads ∧
    (d.modGroup p g f).leases = d.leases ∧ (d.modGroup p g f).dir = d.dir ∧ (d.modGroup p g f).dirCached = d.dirCached ∧
    (d.modGroup p g f).winTxns = d.winTxns ∧ (d.modGroup p g f).winWaits = d.winWaits ∧
    (d.modGroup p g f).ports = d.ports ∧ (d.modGroup p g f).arb = d.arb ∧ (d.modGroup p g f).rt = d.rt ∧
    (d.modGroup p g f).queueGen0 = d.queueGen0 ∧ (d.modGroup p g f).engGen = d.engGen ∧
    (d.modGroup p g f).movGen = d.movGen ∧ (d.modGroup p g f).unitGen = d.unitGen ∧
    (d.modGroup p g f).portGen = d.portGen ∧ (d.modGroup p g f).headGen = d.headGen ∧
    (d.modGroup p g f).tagTimes = d.tagTimes ∧ (d.modGroup p g f).deferred = d.deferred ∧
    (d.modGroup p g f).engReset = d.engReset ∧ (d.modGroup p g f).engFailed = d.engFailed ∧
    (d.modGroup p g f).pair = d.pair ∧ (d.modGroup p g f).hk = d.hk ∧ (d.modGroup p g f).pow = d.pow ∧
    (d.modGroup p g f).tap = d.tap ∧ (d.modGroup p g f).copies = d.copies ∧ (d.modGroup p g f).cur = d.cur ∧
    (d.modGroup p g f).stream = d.stream ∧ (d.modGroup p g f).coreWrites = d.coreWrites ∧
    (d.modGroup p g f).lostMeta = d.lostMeta ∧ (d.modGroup p g f).again = d.again ∧
    (d.modGroup p g f).wantFront = d.wantFront ∧ (d.modGroup p g f).winDone = d.winDone := by
  refine ⟨?_, ?_, ?_, ?_, ?_, ?_, ?_, ?_, ?_, ?_, ?_, ?_, ?_, ?_, ?_, ?_, ?_, ?_, ?_, ?_, ?_, ?_, ?_, ?_, ?_, ?_, ?_, ?_, ?_, ?_, ?_, ?_, ?_, ?_, ?_, ?_, ?_, ?_, ?_, ?_, ?_, ?_, ?_, ?_, ?_, ?_, ?_, ?_, ?_, ?_, ?_, ?_, ?_, ?_, ?_, ?_, ?_, ?_, ?_, ?_, ?_, ?_, ?_, ?_, ?_, ?_, ?_, ?_, ?_, ?_⟩ <;> rfl

@[simp] theorem Dev.setTally_frame (d : Dev) (t : Nat) (v : Tally) :
    (d.setTally t v).now = d.now ∧ (d.setTally t v).free = d.free ∧ (d.setTally t v).out = d.out ∧
    (d.setTally t v).sys = d.sys ∧ (d.setTally t v).evt = d.evt ∧ (d.setTally t v).sram = d.sram ∧
    (d.setTally t v).intEnable = d.intEnable ∧ (d.setTally t v).heartbeat = d.heartbeat ∧ (d.setTally t v).ctr = d.ctr ∧
    (d.setTally t v).params = d.params ∧ (d.setTally t v).pool = d.pool ∧ (d.setTally t v).units = d.units ∧
    (d.setTally t v).metaPlace = d.metaPlace ∧ (d.setTally t v).parts = d.parts ∧
    (d.setTally t v).partRings = d.partRings ∧ (d.setTally t v).partMbx = d.partMbx ∧ (d.setTally t v).keys = d.keys ∧
    (d.setTally t v).wrapped0 = d.wrapped0 ∧ (d.setTally t v).wrapped1 = d.wrapped1 ∧
    (d.setTally t v).keyCount = d.keyCount ∧ (d.setTally t v).groups = d.groups ∧ (d.setTally t v).queues = d.queues ∧
    (d.setTally t v).jobs = d.jobs ∧ (d.setTally t v).nextJob = d.nextJob ∧ (d.setTally t v).pairs = d.pairs ∧
    (d.setTally t v).objs = d.objs ∧ (d.setTally t v).seqPages = d.seqPages ∧ (d.setTally t v).nearUsed = d.nearUsed ∧
    (d.setTally t v).regions = d.regions ∧ (d.setTally t v).serial = d.serial ∧
    (d.setTally t v).waitClear = d.waitClear ∧ (d.setTally t v).rebuilds = d.rebuilds ∧
    (d.setTally t v).spareUsed = d.spareUsed ∧ (d.setTally t v).hourStart = d.hourStart ∧
    (d.setTally t v).peerMedian = d.peerMedian ∧ (d.setTally t v).ctxs = d.ctxs ∧ (d.setTally t v).wins = d.wins ∧
    (d.setTally t v).ranks = d.ranks ∧ (d.setTally t v).cxlTrans = d.cxlTrans ∧ (d.setTally t v).heads = d.heads ∧
    (d.setTally t v).leases = d.leases ∧ (d.setTally t v).dir = d.dir ∧ (d.setTally t v).dirCached = d.dirCached ∧
    (d.setTally t v).winTxns = d.winTxns ∧ (d.setTally t v).winWaits = d.winWaits ∧ (d.setTally t v).ports = d.ports ∧
    (d.setTally t v).arb = d.arb ∧ (d.setTally t v).rt = d.rt ∧ (d.setTally t v).queueGen0 = d.queueGen0 ∧
    (d.setTally t v).engGen = d.engGen ∧ (d.setTally t v).movGen = d.movGen ∧ (d.setTally t v).unitGen = d.unitGen ∧
    (d.setTally t v).portGen = d.portGen ∧ (d.setTally t v).headGen = d.headGen ∧
    (d.setTally t v).tagTimes = d.tagTimes ∧ (d.setTally t v).deferred = d.deferred ∧
    (d.setTally t v).engReset = d.engReset ∧ (d.setTally t v).engFailed = d.engFailed ∧ (d.setTally t v).pair = d.pair ∧
    (d.setTally t v).hk = d.hk ∧ (d.setTally t v).pow = d.pow ∧ (d.setTally t v).tap = d.tap ∧
    (d.setTally t v).copies = d.copies ∧ (d.setTally t v).cur = d.cur ∧ (d.setTally t v).stream = d.stream ∧
    (d.setTally t v).coreWrites = d.coreWrites ∧ (d.setTally t v).lostMeta = d.lostMeta ∧
    (d.setTally t v).again = d.again ∧ (d.setTally t v).wantFront = d.wantFront ∧ (d.setTally t v).winDone = d.winDone := by
  refine ⟨?_, ?_, ?_, ?_, ?_, ?_, ?_, ?_, ?_, ?_, ?_, ?_, ?_, ?_, ?_, ?_, ?_, ?_, ?_, ?_, ?_, ?_, ?_, ?_, ?_, ?_, ?_, ?_, ?_, ?_, ?_, ?_, ?_, ?_, ?_, ?_, ?_, ?_, ?_, ?_, ?_, ?_, ?_, ?_, ?_, ?_, ?_, ?_, ?_, ?_, ?_, ?_, ?_, ?_, ?_, ?_, ?_, ?_, ?_, ?_, ?_, ?_, ?_, ?_, ?_, ?_, ?_, ?_, ?_, ?_⟩ <;> rfl

@[simp] theorem Dev.putJob_frame (d : Dev) (j : Job) :
    (d.putJob j).now = d.now ∧ (d.putJob j).free = d.free ∧ (d.putJob j).out = d.out ∧ (d.putJob j).sys = d.sys ∧
    (d.putJob j).evt = d.evt ∧ (d.putJob j).sram = d.sram ∧ (d.putJob j).intEnable = d.intEnable ∧
    (d.putJob j).heartbeat = d.heartbeat ∧ (d.putJob j).ctr = d.ctr ∧ (d.putJob j).params = d.params ∧
    (d.putJob j).pool = d.pool ∧ (d.putJob j).units = d.units ∧ (d.putJob j).metaPlace = d.metaPlace ∧
    (d.putJob j).parts = d.parts ∧ (d.putJob j).partRings = d.partRings ∧ (d.putJob j).partMbx = d.partMbx ∧
    (d.putJob j).keys = d.keys ∧ (d.putJob j).wrapped0 = d.wrapped0 ∧ (d.putJob j).wrapped1 = d.wrapped1 ∧
    (d.putJob j).keyCount = d.keyCount ∧ (d.putJob j).groups = d.groups ∧ (d.putJob j).queues = d.queues ∧
    (d.putJob j).nextJob = d.nextJob ∧ (d.putJob j).tallies = d.tallies ∧ (d.putJob j).pairs = d.pairs ∧
    (d.putJob j).objs = d.objs ∧ (d.putJob j).seqPages = d.seqPages ∧ (d.putJob j).nearUsed = d.nearUsed ∧
    (d.putJob j).regions = d.regions ∧ (d.putJob j).serial = d.serial ∧ (d.putJob j).waitClear = d.waitClear ∧
    (d.putJob j).rebuilds = d.rebuilds ∧ (d.putJob j).spareUsed = d.spareUsed ∧ (d.putJob j).hourStart = d.hourStart ∧
    (d.putJob j).peerMedian = d.peerMedian ∧ (d.putJob j).ctxs = d.ctxs ∧ (d.putJob j).wins = d.wins ∧
    (d.putJob j).ranks = d.ranks ∧ (d.putJob j).cxlTrans = d.cxlTrans ∧ (d.putJob j).heads = d.heads ∧
    (d.putJob j).leases = d.leases ∧ (d.putJob j).dir = d.dir ∧ (d.putJob j).dirCached = d.dirCached ∧
    (d.putJob j).winTxns = d.winTxns ∧ (d.putJob j).winWaits = d.winWaits ∧ (d.putJob j).ports = d.ports ∧
    (d.putJob j).arb = d.arb ∧ (d.putJob j).rt = d.rt ∧ (d.putJob j).queueGen0 = d.queueGen0 ∧
    (d.putJob j).engGen = d.engGen ∧ (d.putJob j).movGen = d.movGen ∧ (d.putJob j).unitGen = d.unitGen ∧
    (d.putJob j).portGen = d.portGen ∧ (d.putJob j).headGen = d.headGen ∧ (d.putJob j).tagTimes = d.tagTimes ∧
    (d.putJob j).deferred = d.deferred ∧ (d.putJob j).engReset = d.engReset ∧ (d.putJob j).engFailed = d.engFailed ∧
    (d.putJob j).pair = d.pair ∧ (d.putJob j).hk = d.hk ∧ (d.putJob j).pow = d.pow ∧ (d.putJob j).tap = d.tap ∧
    (d.putJob j).copies = d.copies ∧ (d.putJob j).cur = d.cur ∧ (d.putJob j).stream = d.stream ∧
    (d.putJob j).coreWrites = d.coreWrites ∧ (d.putJob j).lostMeta = d.lostMeta ∧ (d.putJob j).again = d.again ∧
    (d.putJob j).wantFront = d.wantFront ∧ (d.putJob j).winDone = d.winDone := by
  refine ⟨?_, ?_, ?_, ?_, ?_, ?_, ?_, ?_, ?_, ?_, ?_, ?_, ?_, ?_, ?_, ?_, ?_, ?_, ?_, ?_, ?_, ?_, ?_, ?_, ?_, ?_, ?_, ?_, ?_, ?_, ?_, ?_, ?_, ?_, ?_, ?_, ?_, ?_, ?_, ?_, ?_, ?_, ?_, ?_, ?_, ?_, ?_, ?_, ?_, ?_, ?_, ?_, ?_, ?_, ?_, ?_, ?_, ?_, ?_, ?_, ?_, ?_, ?_, ?_, ?_, ?_, ?_, ?_, ?_, ?_⟩ <;> rfl

@[simp] theorem Dev.dropJob_frame (d : Dev) (i : Nat) :
    (d.dropJob i).now = d.now ∧ (d.dropJob i).free = d.free ∧ (d.dropJob i).out = d.out ∧ (d.dropJob i).sys = d.sys ∧
    (d.dropJob i).evt = d.evt ∧ (d.dropJob i).sram = d.sram ∧ (d.dropJob i).intEnable = d.intEnable ∧
    (d.dropJob i).heartbeat = d.heartbeat ∧ (d.dropJob i).ctr = d.ctr ∧ (d.dropJob i).params = d.params ∧
    (d.dropJob i).pool = d.pool ∧ (d.dropJob i).units = d.units ∧ (d.dropJob i).metaPlace = d.metaPlace ∧
    (d.dropJob i).parts = d.parts ∧ (d.dropJob i).partRings = d.partRings ∧ (d.dropJob i).partMbx = d.partMbx ∧
    (d.dropJob i).keys = d.keys ∧ (d.dropJob i).wrapped0 = d.wrapped0 ∧ (d.dropJob i).wrapped1 = d.wrapped1 ∧
    (d.dropJob i).keyCount = d.keyCount ∧ (d.dropJob i).groups = d.groups ∧ (d.dropJob i).queues = d.queues ∧
    (d.dropJob i).nextJob = d.nextJob ∧ (d.dropJob i).tallies = d.tallies ∧ (d.dropJob i).pairs = d.pairs ∧
    (d.dropJob i).objs = d.objs ∧ (d.dropJob i).seqPages = d.seqPages ∧ (d.dropJob i).nearUsed = d.nearUsed ∧
    (d.dropJob i).regions = d.regions ∧ (d.dropJob i).serial = d.serial ∧ (d.dropJob i).waitClear = d.waitClear ∧
    (d.dropJob i).rebuilds = d.rebuilds ∧ (d.dropJob i).spareUsed = d.spareUsed ∧
    (d.dropJob i).hourStart = d.hourStart ∧ (d.dropJob i).peerMedian = d.peerMedian ∧ (d.dropJob i).ctxs = d.ctxs ∧
    (d.dropJob i).wins = d.wins ∧ (d.dropJob i).ranks = d.ranks ∧ (d.dropJob i).cxlTrans = d.cxlTrans ∧
    (d.dropJob i).heads = d.heads ∧ (d.dropJob i).leases = d.leases ∧ (d.dropJob i).dir = d.dir ∧
    (d.dropJob i).dirCached = d.dirCached ∧ (d.dropJob i).winTxns = d.winTxns ∧ (d.dropJob i).winWaits = d.winWaits ∧
    (d.dropJob i).ports = d.ports ∧ (d.dropJob i).arb = d.arb ∧ (d.dropJob i).rt = d.rt ∧
    (d.dropJob i).queueGen0 = d.queueGen0 ∧ (d.dropJob i).engGen = d.engGen ∧ (d.dropJob i).movGen = d.movGen ∧
    (d.dropJob i).unitGen = d.unitGen ∧ (d.dropJob i).portGen = d.portGen ∧ (d.dropJob i).headGen = d.headGen ∧
    (d.dropJob i).tagTimes = d.tagTimes ∧ (d.dropJob i).deferred = d.deferred ∧ (d.dropJob i).engReset = d.engReset ∧
    (d.dropJob i).engFailed = d.engFailed ∧ (d.dropJob i).pair = d.pair ∧ (d.dropJob i).hk = d.hk ∧
    (d.dropJob i).pow = d.pow ∧ (d.dropJob i).tap = d.tap ∧ (d.dropJob i).copies = d.copies ∧
    (d.dropJob i).cur = d.cur ∧ (d.dropJob i).stream = d.stream ∧ (d.dropJob i).coreWrites = d.coreWrites ∧
    (d.dropJob i).lostMeta = d.lostMeta ∧ (d.dropJob i).again = d.again ∧ (d.dropJob i).wantFront = d.wantFront ∧
    (d.dropJob i).winDone = d.winDone := by
  refine ⟨?_, ?_, ?_, ?_, ?_, ?_, ?_, ?_, ?_, ?_, ?_, ?_, ?_, ?_, ?_, ?_, ?_, ?_, ?_, ?_, ?_, ?_, ?_, ?_, ?_, ?_, ?_, ?_, ?_, ?_, ?_, ?_, ?_, ?_, ?_, ?_, ?_, ?_, ?_, ?_, ?_, ?_, ?_, ?_, ?_, ?_, ?_, ?_, ?_, ?_, ?_, ?_, ?_, ?_, ?_, ?_, ?_, ?_, ?_, ?_, ?_, ?_, ?_, ?_, ?_, ?_, ?_, ?_, ?_, ?_⟩ <;> rfl

@[simp] theorem Dev.measure_frame (d : Dev) (i : Nat) :
    (d.measure i).now = d.now ∧ (d.measure i).free = d.free ∧ (d.measure i).out = d.out ∧ (d.measure i).evt = d.evt ∧
    (d.measure i).sram = d.sram ∧ (d.measure i).intEnable = d.intEnable ∧ (d.measure i).heartbeat = d.heartbeat ∧
    (d.measure i).ctr = d.ctr ∧ (d.measure i).params = d.params ∧ (d.measure i).pool = d.pool ∧
    (d.measure i).units = d.units ∧ (d.measure i).metaPlace = d.metaPlace ∧ (d.measure i).parts = d.parts ∧
    (d.measure i).partRings = d.partRings ∧ (d.measure i).partMbx = d.partMbx ∧ (d.measure i).keys = d.keys ∧
    (d.measure i).wrapped0 = d.wrapped0 ∧ (d.measure i).wrapped1 = d.wrapped1 ∧ (d.measure i).keyCount = d.keyCount ∧
    (d.measure i).groups = d.groups ∧ (d.measure i).queues = d.queues ∧ (d.measure i).jobs = d.jobs ∧
    (d.measure i).nextJob = d.nextJob ∧ (d.measure i).tallies = d.tallies ∧ (d.measure i).pairs = d.pairs ∧
    (d.measure i).objs = d.objs ∧ (d.measure i).seqPages = d.seqPages ∧ (d.measure i).nearUsed = d.nearUsed ∧
    (d.measure i).regions = d.regions ∧ (d.measure i).serial = d.serial ∧ (d.measure i).waitClear = d.waitClear ∧
    (d.measure i).rebuilds = d.rebuilds ∧ (d.measure i).spareUsed = d.spareUsed ∧
    (d.measure i).hourStart = d.hourStart ∧ (d.measure i).peerMedian = d.peerMedian ∧ (d.measure i).ctxs = d.ctxs ∧
    (d.measure i).wins = d.wins ∧ (d.measure i).ranks = d.ranks ∧ (d.measure i).cxlTrans = d.cxlTrans ∧
    (d.measure i).heads = d.heads ∧ (d.measure i).leases = d.leases ∧ (d.measure i).dir = d.dir ∧
    (d.measure i).dirCached = d.dirCached ∧ (d.measure i).winTxns = d.winTxns ∧ (d.measure i).winWaits = d.winWaits ∧
    (d.measure i).ports = d.ports ∧ (d.measure i).arb = d.arb ∧ (d.measure i).rt = d.rt ∧
    (d.measure i).queueGen0 = d.queueGen0 ∧ (d.measure i).engGen = d.engGen ∧ (d.measure i).movGen = d.movGen ∧
    (d.measure i).unitGen = d.unitGen ∧ (d.measure i).portGen = d.portGen ∧ (d.measure i).headGen = d.headGen ∧
    (d.measure i).tagTimes = d.tagTimes ∧ (d.measure i).deferred = d.deferred ∧ (d.measure i).engReset = d.engReset ∧
    (d.measure i).engFailed = d.engFailed ∧ (d.measure i).pair = d.pair ∧ (d.measure i).hk = d.hk ∧
    (d.measure i).pow = d.pow ∧ (d.measure i).tap = d.tap ∧ (d.measure i).copies = d.copies ∧
    (d.measure i).cur = d.cur ∧ (d.measure i).stream = d.stream ∧ (d.measure i).coreWrites = d.coreWrites ∧
    (d.measure i).lostMeta = d.lostMeta ∧ (d.measure i).again = d.again ∧ (d.measure i).wantFront = d.wantFront ∧
    (d.measure i).winDone = d.winDone := by
  refine ⟨?_, ?_, ?_, ?_, ?_, ?_, ?_, ?_, ?_, ?_, ?_, ?_, ?_, ?_, ?_, ?_, ?_, ?_, ?_, ?_, ?_, ?_, ?_, ?_, ?_, ?_, ?_, ?_, ?_, ?_, ?_, ?_, ?_, ?_, ?_, ?_, ?_, ?_, ?_, ?_, ?_, ?_, ?_, ?_, ?_, ?_, ?_, ?_, ?_, ?_, ?_, ?_, ?_, ?_, ?_, ?_, ?_, ?_, ?_, ?_, ?_, ?_, ?_, ?_, ?_, ?_, ?_, ?_, ?_, ?_⟩ <;> rfl

@[simp] theorem Dev.setPart_frame (d : Dev) (p : Nat) (f : Partition → Partition) :
    (d.setPart p f).now = d.now ∧ (d.setPart p f).free = d.free ∧ (d.setPart p f).out = d.out ∧
    (d.setPart p f).evt = d.evt ∧ (d.setPart p f).sram = d.sram ∧ (d.setPart p f).intEnable = d.intEnable ∧
    (d.setPart p f).heartbeat = d.heartbeat ∧ (d.setPart p f).ctr = d.ctr ∧ (d.setPart p f).params = d.params ∧
    (d.setPart p f).pool = d.pool ∧ (d.setPart p f).units = d.units ∧ (d.setPart p f).metaPlace = d.metaPlace ∧
    (d.setPart p f).partRings = d.partRings ∧ (d.setPart p f).partMbx = d.partMbx ∧ (d.setPart p f).keys = d.keys ∧
    (d.setPart p f).wrapped0 = d.wrapped0 ∧ (d.setPart p f).wrapped1 = d.wrapped1 ∧
    (d.setPart p f).keyCount = d.keyCount ∧ (d.setPart p f).groups = d.groups ∧ (d.setPart p f).queues = d.queues ∧
    (d.setPart p f).jobs = d.jobs ∧ (d.setPart p f).nextJob = d.nextJob ∧ (d.setPart p f).tallies = d.tallies ∧
    (d.setPart p f).pairs = d.pairs ∧ (d.setPart p f).objs = d.objs ∧ (d.setPart p f).seqPages = d.seqPages ∧
    (d.setPart p f).nearUsed = d.nearUsed ∧ (d.setPart p f).regions = d.regions ∧ (d.setPart p f).serial = d.serial ∧
    (d.setPart p f).waitClear = d.waitClear ∧ (d.setPart p f).rebuilds = d.rebuilds ∧
    (d.setPart p f).spareUsed = d.spareUsed ∧ (d.setPart p f).hourStart = d.hourStart ∧
    (d.setPart p f).peerMedian = d.peerMedian ∧ (d.setPart p f).ctxs = d.ctxs ∧ (d.setPart p f).wins = d.wins ∧
    (d.setPart p f).ranks = d.ranks ∧ (d.setPart p f).cxlTrans = d.cxlTrans ∧ (d.setPart p f).heads = d.heads ∧
    (d.setPart p f).leases = d.leases ∧ (d.setPart p f).dir = d.dir ∧ (d.setPart p f).dirCached = d.dirCached ∧
    (d.setPart p f).winTxns = d.winTxns ∧ (d.setPart p f).winWaits = d.winWaits ∧ (d.setPart p f).ports = d.ports ∧
    (d.setPart p f).arb = d.arb ∧ (d.setPart p f).rt = d.rt ∧ (d.setPart p f).queueGen0 = d.queueGen0 ∧
    (d.setPart p f).engGen = d.engGen ∧ (d.setPart p f).movGen = d.movGen ∧ (d.setPart p f).unitGen = d.unitGen ∧
    (d.setPart p f).portGen = d.portGen ∧ (d.setPart p f).headGen = d.headGen ∧ (d.setPart p f).tagTimes = d.tagTimes ∧
    (d.setPart p f).deferred = d.deferred ∧ (d.setPart p f).engReset = d.engReset ∧
    (d.setPart p f).engFailed = d.engFailed ∧ (d.setPart p f).pair = d.pair ∧ (d.setPart p f).hk = d.hk ∧
    (d.setPart p f).pow = d.pow ∧ (d.setPart p f).tap = d.tap ∧ (d.setPart p f).copies = d.copies ∧
    (d.setPart p f).cur = d.cur ∧ (d.setPart p f).stream = d.stream ∧ (d.setPart p f).coreWrites = d.coreWrites ∧
    (d.setPart p f).lostMeta = d.lostMeta ∧ (d.setPart p f).again = d.again ∧ (d.setPart p f).wantFront = d.wantFront ∧
    (d.setPart p f).winDone = d.winDone := by
  refine ⟨?_, ?_, ?_, ?_, ?_, ?_, ?_, ?_, ?_, ?_, ?_, ?_, ?_, ?_, ?_, ?_, ?_, ?_, ?_, ?_, ?_, ?_, ?_, ?_, ?_, ?_, ?_, ?_, ?_, ?_, ?_, ?_, ?_, ?_, ?_, ?_, ?_, ?_, ?_, ?_, ?_, ?_, ?_, ?_, ?_, ?_, ?_, ?_, ?_, ?_, ?_, ?_, ?_, ?_, ?_, ?_, ?_, ?_, ?_, ?_, ?_, ?_, ?_, ?_, ?_, ?_, ?_, ?_, ?_⟩ <;> rfl

@[simp] theorem Dev.startRaise_frame (d : Dev) (e : Event) :
    (d.startRaise e).now = d.now ∧ (d.startRaise e).free = d.free ∧ (d.startRaise e).out = d.out ∧
    (d.startRaise e).evt = d.evt ∧ (d.startRaise e).sram = d.sram ∧ (d.startRaise e).intEnable = d.intEnable ∧
    (d.startRaise e).heartbeat = d.heartbeat ∧ (d.startRaise e).ctr = d.ctr ∧ (d.startRaise e).params = d.params ∧
    (d.startRaise e).pool = d.pool ∧ (d.startRaise e).units = d.units ∧ (d.startRaise e).metaPlace = d.metaPlace ∧
    (d.startRaise e).parts = d.parts ∧ (d.startRaise e).partRings = d.partRings ∧ (d.startRaise e).partMbx = d.partMbx ∧
    (d.startRaise e).keys = d.keys ∧ (d.startRaise e).wrapped0 = d.wrapped0 ∧ (d.startRaise e).wrapped1 = d.wrapped1 ∧
    (d.startRaise e).keyCount = d.keyCount ∧ (d.startRaise e).groups = d.groups ∧ (d.startRaise e).queues = d.queues ∧
    (d.startRaise e).jobs = d.jobs ∧ (d.startRaise e).nextJob = d.nextJob ∧ (d.startRaise e).tallies = d.tallies ∧
    (d.startRaise e).pairs = d.pairs ∧ (d.startRaise e).objs = d.objs ∧ (d.startRaise e).seqPages = d.seqPages ∧
    (d.startRaise e).nearUsed = d.nearUsed ∧ (d.startRaise e).regions = d.regions ∧ (d.startRaise e).serial = d.serial ∧
    (d.startRaise e).waitClear = d.waitClear ∧ (d.startRaise e).rebuilds = d.rebuilds ∧
    (d.startRaise e).spareUsed = d.spareUsed ∧ (d.startRaise e).hourStart = d.hourStart ∧
    (d.startRaise e).peerMedian = d.peerMedian ∧ (d.startRaise e).ctxs = d.ctxs ∧ (d.startRaise e).wins = d.wins ∧
    (d.startRaise e).ranks = d.ranks ∧ (d.startRaise e).cxlTrans = d.cxlTrans ∧ (d.startRaise e).heads = d.heads ∧
    (d.startRaise e).leases = d.leases ∧ (d.startRaise e).dir = d.dir ∧ (d.startRaise e).dirCached = d.dirCached ∧
    (d.startRaise e).winTxns = d.winTxns ∧ (d.startRaise e).winWaits = d.winWaits ∧ (d.startRaise e).ports = d.ports ∧
    (d.startRaise e).arb = d.arb ∧ (d.startRaise e).rt = d.rt ∧ (d.startRaise e).queueGen0 = d.queueGen0 ∧
    (d.startRaise e).engGen = d.engGen ∧ (d.startRaise e).movGen = d.movGen ∧ (d.startRaise e).unitGen = d.unitGen ∧
    (d.startRaise e).portGen = d.portGen ∧ (d.startRaise e).headGen = d.headGen ∧
    (d.startRaise e).tagTimes = d.tagTimes ∧ (d.startRaise e).deferred = d.deferred ∧
    (d.startRaise e).engReset = d.engReset ∧ (d.startRaise e).engFailed = d.engFailed ∧ (d.startRaise e).pair = d.pair ∧
    (d.startRaise e).hk = d.hk ∧ (d.startRaise e).pow = d.pow ∧ (d.startRaise e).tap = d.tap ∧
    (d.startRaise e).copies = d.copies ∧ (d.startRaise e).cur = d.cur ∧ (d.startRaise e).stream = d.stream ∧
    (d.startRaise e).coreWrites = d.coreWrites ∧ (d.startRaise e).lostMeta = d.lostMeta ∧
    (d.startRaise e).again = d.again ∧ (d.startRaise e).wantFront = d.wantFront ∧ (d.startRaise e).winDone = d.winDone := by
  refine ⟨?_, ?_, ?_, ?_, ?_, ?_, ?_, ?_, ?_, ?_, ?_, ?_, ?_, ?_, ?_, ?_, ?_, ?_, ?_, ?_, ?_, ?_, ?_, ?_, ?_, ?_, ?_, ?_, ?_, ?_, ?_, ?_, ?_, ?_, ?_, ?_, ?_, ?_, ?_, ?_, ?_, ?_, ?_, ?_, ?_, ?_, ?_, ?_, ?_, ?_, ?_, ?_, ?_, ?_, ?_, ?_, ?_, ?_, ?_, ?_, ?_, ?_, ?_, ?_, ?_, ?_, ?_, ?_, ?_, ?_⟩ <;> rfl

@[simp] theorem Dev.setDir_frame (d : Dev) (r l : Nat) (e : DirEntry) :
    (d.setDir r l e).now = d.now ∧ (d.setDir r l e).free = d.free ∧ (d.setDir r l e).out = d.out ∧
    (d.setDir r l e).sys = d.sys ∧ (d.setDir r l e).evt = d.evt ∧ (d.setDir r l e).sram = d.sram ∧
    (d.setDir r l e).intEnable = d.intEnable ∧ (d.setDir r l e).heartbeat = d.heartbeat ∧ (d.setDir r l e).ctr = d.ctr ∧
    (d.setDir r l e).params = d.params ∧ (d.setDir r l e).pool = d.pool ∧ (d.setDir r l e).units = d.units ∧
    (d.setDir r l e).metaPlace = d.metaPlace ∧ (d.setDir r l e).parts = d.parts ∧
    (d.setDir r l e).partRings = d.partRings ∧ (d.setDir r l e).partMbx = d.partMbx ∧ (d.setDir r l e).keys = d.keys ∧
    (d.setDir r l e).wrapped0 = d.wrapped0 ∧ (d.setDir r l e).wrapped1 = d.wrapped1 ∧
    (d.setDir r l e).keyCount = d.keyCount ∧ (d.setDir r l e).groups = d.groups ∧ (d.setDir r l e).queues = d.queues ∧
    (d.setDir r l e).jobs = d.jobs ∧ (d.setDir r l e).nextJob = d.nextJob ∧ (d.setDir r l e).tallies = d.tallies ∧
    (d.setDir r l e).pairs = d.pairs ∧ (d.setDir r l e).objs = d.objs ∧ (d.setDir r l e).seqPages = d.seqPages ∧
    (d.setDir r l e).nearUsed = d.nearUsed ∧ (d.setDir r l e).regions = d.regions ∧ (d.setDir r l e).serial = d.serial ∧
    (d.setDir r l e).waitClear = d.waitClear ∧ (d.setDir r l e).rebuilds = d.rebuilds ∧
    (d.setDir r l e).spareUsed = d.spareUsed ∧ (d.setDir r l e).hourStart = d.hourStart ∧
    (d.setDir r l e).peerMedian = d.peerMedian ∧ (d.setDir r l e).ctxs = d.ctxs ∧ (d.setDir r l e).wins = d.wins ∧
    (d.setDir r l e).ranks = d.ranks ∧ (d.setDir r l e).cxlTrans = d.cxlTrans ∧ (d.setDir r l e).heads = d.heads ∧
    (d.setDir r l e).leases = d.leases ∧ (d.setDir r l e).dirCached = d.dirCached ∧
    (d.setDir r l e).winTxns = d.winTxns ∧ (d.setDir r l e).winWaits = d.winWaits ∧ (d.setDir r l e).ports = d.ports ∧
    (d.setDir r l e).arb = d.arb ∧ (d.setDir r l e).rt = d.rt ∧ (d.setDir r l e).queueGen0 = d.queueGen0 ∧
    (d.setDir r l e).engGen = d.engGen ∧ (d.setDir r l e).movGen = d.movGen ∧ (d.setDir r l e).unitGen = d.unitGen ∧
    (d.setDir r l e).portGen = d.portGen ∧ (d.setDir r l e).headGen = d.headGen ∧
    (d.setDir r l e).tagTimes = d.tagTimes ∧ (d.setDir r l e).deferred = d.deferred ∧
    (d.setDir r l e).engReset = d.engReset ∧ (d.setDir r l e).engFailed = d.engFailed ∧ (d.setDir r l e).pair = d.pair ∧
    (d.setDir r l e).hk = d.hk ∧ (d.setDir r l e).pow = d.pow ∧ (d.setDir r l e).tap = d.tap ∧
    (d.setDir r l e).copies = d.copies ∧ (d.setDir r l e).cur = d.cur ∧ (d.setDir r l e).stream = d.stream ∧
    (d.setDir r l e).coreWrites = d.coreWrites ∧ (d.setDir r l e).lostMeta = d.lostMeta ∧
    (d.setDir r l e).again = d.again ∧ (d.setDir r l e).wantFront = d.wantFront ∧ (d.setDir r l e).winDone = d.winDone := by
  refine ⟨?_, ?_, ?_, ?_, ?_, ?_, ?_, ?_, ?_, ?_, ?_, ?_, ?_, ?_, ?_, ?_, ?_, ?_, ?_, ?_, ?_, ?_, ?_, ?_, ?_, ?_, ?_, ?_, ?_, ?_, ?_, ?_, ?_, ?_, ?_, ?_, ?_, ?_, ?_, ?_, ?_, ?_, ?_, ?_, ?_, ?_, ?_, ?_, ?_, ?_, ?_, ?_, ?_, ?_, ?_, ?_, ?_, ?_, ?_, ?_, ?_, ?_, ?_, ?_, ?_, ?_, ?_, ?_, ?_, ?_⟩ <;> rfl

@[simp] theorem Dev.winWait_frame (d : Dev) (r l : Nat) (q : WinReq) :
    (d.winWait r l q).now = d.now ∧ (d.winWait r l q).free = d.free ∧ (d.winWait r l q).out = d.out ∧
    (d.winWait r l q).sys = d.sys ∧ (d.winWait r l q).evt = d.evt ∧ (d.winWait r l q).sram = d.sram ∧
    (d.winWait r l q).intEnable = d.intEnable ∧ (d.winWait r l q).heartbeat = d.heartbeat ∧
    (d.winWait r l q).ctr = d.ctr ∧ (d.winWait r l q).params = d.params ∧ (d.winWait r l q).pool = d.pool ∧
    (d.winWait r l q).units = d.units ∧ (d.winWait r l q).metaPlace = d.metaPlace ∧ (d.winWait r l q).parts = d.parts ∧
    (d.winWait r l q).partRings = d.partRings ∧ (d.winWait r l q).partMbx = d.partMbx ∧
    (d.winWait r l q).keys = d.keys ∧ (d.winWait r l q).wrapped0 = d.wrapped0 ∧
    (d.winWait r l q).wrapped1 = d.wrapped1 ∧ (d.winWait r l q).keyCount = d.keyCount ∧
    (d.winWait r l q).groups = d.groups ∧ (d.winWait r l q).queues = d.queues ∧ (d.winWait r l q).jobs = d.jobs ∧
    (d.winWait r l q).nextJob = d.nextJob ∧ (d.winWait r l q).tallies = d.tallies ∧ (d.winWait r l q).pairs = d.pairs ∧
    (d.winWait r l q).objs = d.objs ∧ (d.winWait r l q).seqPages = d.seqPages ∧
    (d.winWait r l q).nearUsed = d.nearUsed ∧ (d.winWait r l q).regions = d.regions ∧
    (d.winWait r l q).serial = d.serial ∧ (d.winWait r l q).waitClear = d.waitClear ∧
    (d.winWait r l q).rebuilds = d.rebuilds ∧ (d.winWait r l q).spareUsed = d.spareUsed ∧
    (d.winWait r l q).hourStart = d.hourStart ∧ (d.winWait r l q).peerMedian = d.peerMedian ∧
    (d.winWait r l q).ctxs = d.ctxs ∧ (d.winWait r l q).wins = d.wins ∧ (d.winWait r l q).ranks = d.ranks ∧
    (d.winWait r l q).cxlTrans = d.cxlTrans ∧ (d.winWait r l q).heads = d.heads ∧ (d.winWait r l q).leases = d.leases ∧
    (d.winWait r l q).dir = d.dir ∧ (d.winWait r l q).dirCached = d.dirCached ∧ (d.winWait r l q).winTxns = d.winTxns ∧
    (d.winWait r l q).ports = d.ports ∧ (d.winWait r l q).arb = d.arb ∧ (d.winWait r l q).rt = d.rt ∧
    (d.winWait r l q).queueGen0 = d.queueGen0 ∧ (d.winWait r l q).engGen = d.engGen ∧
    (d.winWait r l q).movGen = d.movGen ∧ (d.winWait r l q).unitGen = d.unitGen ∧
    (d.winWait r l q).portGen = d.portGen ∧ (d.winWait r l q).headGen = d.headGen ∧
    (d.winWait r l q).tagTimes = d.tagTimes ∧ (d.winWait r l q).deferred = d.deferred ∧
    (d.winWait r l q).engReset = d.engReset ∧ (d.winWait r l q).engFailed = d.engFailed ∧
    (d.winWait r l q).pair = d.pair ∧ (d.winWait r l q).hk = d.hk ∧ (d.winWait r l q).pow = d.pow ∧
    (d.winWait r l q).tap = d.tap ∧ (d.winWait r l q).copies = d.copies ∧ (d.winWait r l q).cur = d.cur ∧
    (d.winWait r l q).stream = d.stream ∧ (d.winWait r l q).coreWrites = d.coreWrites ∧
    (d.winWait r l q).lostMeta = d.lostMeta ∧ (d.winWait r l q).again = d.again ∧
    (d.winWait r l q).wantFront = d.wantFront ∧ (d.winWait r l q).winDone = d.winDone := by
  refine ⟨?_, ?_, ?_, ?_, ?_, ?_, ?_, ?_, ?_, ?_, ?_, ?_, ?_, ?_, ?_, ?_, ?_, ?_, ?_, ?_, ?_, ?_, ?_, ?_, ?_, ?_, ?_, ?_, ?_, ?_, ?_, ?_, ?_, ?_, ?_, ?_, ?_, ?_, ?_, ?_, ?_, ?_, ?_, ?_, ?_, ?_, ?_, ?_, ?_, ?_, ?_, ?_, ?_, ?_, ?_, ?_, ?_, ?_, ?_, ?_, ?_, ?_, ?_, ?_, ?_, ?_, ?_, ?_, ?_, ?_⟩ <;> (unfold Dev.winWait; (repeat' split) <;> rfl)

@[simp] theorem Dev.winGo_frame (d : Dev) (r l : Nat) (q : WinReq) :
    (d.winGo r l q).now = d.now ∧ (d.winGo r l q).free = d.free ∧ (d.winGo r l q).out = d.out ∧
    (d.winGo r l q).sys = d.sys ∧ (d.winGo r l q).evt = d.evt ∧ (d.winGo r l q).sram = d.sram ∧
    (d.winGo r l q).intEnable = d.intEnable ∧ (d.winGo r l q).heartbeat = d.heartbeat ∧ (d.winGo r l q).ctr = d.ctr ∧
    (d.winGo r l q).params = d.params ∧ (d.winGo r l q).pool = d.pool ∧ (d.winGo r l q).units = d.units ∧
    (d.winGo r l q).metaPlace = d.metaPlace ∧ (d.winGo r l q).parts = d.parts ∧
    (d.winGo r l q).partRings = d.partRings ∧ (d.winGo r l q).partMbx = d.partMbx ∧ (d.winGo r l q).keys = d.keys ∧
    (d.winGo r l q).wrapped0 = d.wrapped0 ∧ (d.winGo r l q).wrapped1 = d.wrapped1 ∧
    (d.winGo r l q).keyCount = d.keyCount ∧ (d.winGo r l q).groups = d.groups ∧ (d.winGo r l q).queues = d.queues ∧
    (d.winGo r l q).jobs = d.jobs ∧ (d.winGo r l q).nextJob = d.nextJob ∧ (d.winGo r l q).tallies = d.tallies ∧
    (d.winGo r l q).pairs = d.pairs ∧ (d.winGo r l q).objs = d.objs ∧ (d.winGo r l q).seqPages = d.seqPages ∧
    (d.winGo r l q).nearUsed = d.nearUsed ∧ (d.winGo r l q).regions = d.regions ∧ (d.winGo r l q).serial = d.serial ∧
    (d.winGo r l q).waitClear = d.waitClear ∧ (d.winGo r l q).rebuilds = d.rebuilds ∧
    (d.winGo r l q).spareUsed = d.spareUsed ∧ (d.winGo r l q).hourStart = d.hourStart ∧
    (d.winGo r l q).peerMedian = d.peerMedian ∧ (d.winGo r l q).ctxs = d.ctxs ∧ (d.winGo r l q).wins = d.wins ∧
    (d.winGo r l q).ranks = d.ranks ∧ (d.winGo r l q).cxlTrans = d.cxlTrans ∧ (d.winGo r l q).heads = d.heads ∧
    (d.winGo r l q).leases = d.leases ∧ (d.winGo r l q).dir = d.dir ∧ (d.winGo r l q).dirCached = d.dirCached ∧
    (d.winGo r l q).winTxns = d.winTxns ∧ (d.winGo r l q).ports = d.ports ∧ (d.winGo r l q).arb = d.arb ∧
    (d.winGo r l q).rt = d.rt ∧ (d.winGo r l q).queueGen0 = d.queueGen0 ∧ (d.winGo r l q).engGen = d.engGen ∧
    (d.winGo r l q).movGen = d.movGen ∧ (d.winGo r l q).unitGen = d.unitGen ∧ (d.winGo r l q).portGen = d.portGen ∧
    (d.winGo r l q).headGen = d.headGen ∧ (d.winGo r l q).tagTimes = d.tagTimes ∧
    (d.winGo r l q).deferred = d.deferred ∧ (d.winGo r l q).engReset = d.engReset ∧
    (d.winGo r l q).engFailed = d.engFailed ∧ (d.winGo r l q).pair = d.pair ∧ (d.winGo r l q).hk = d.hk ∧
    (d.winGo r l q).pow = d.pow ∧ (d.winGo r l q).tap = d.tap ∧ (d.winGo r l q).copies = d.copies ∧
    (d.winGo r l q).cur = d.cur ∧ (d.winGo r l q).stream = d.stream ∧ (d.winGo r l q).coreWrites = d.coreWrites ∧
    (d.winGo r l q).lostMeta = d.lostMeta ∧ (d.winGo r l q).again = d.again ∧ (d.winGo r l q).wantFront = d.wantFront ∧
    (d.winGo r l q).winDone = d.winDone := by
  refine ⟨?_, ?_, ?_, ?_, ?_, ?_, ?_, ?_, ?_, ?_, ?_, ?_, ?_, ?_, ?_, ?_, ?_, ?_, ?_, ?_, ?_, ?_, ?_, ?_, ?_, ?_, ?_, ?_, ?_, ?_, ?_, ?_, ?_, ?_, ?_, ?_, ?_, ?_, ?_, ?_, ?_, ?_, ?_, ?_, ?_, ?_, ?_, ?_, ?_, ?_, ?_, ?_, ?_, ?_, ?_, ?_, ?_, ?_, ?_, ?_, ?_, ?_, ?_, ?_, ?_, ?_, ?_, ?_, ?_, ?_⟩ <;> rfl

@[simp] theorem Dev.defer_frame (d : Dev) :
    (d.defer).now = d.now ∧ (d.defer).free = d.free ∧ (d.defer).out = d.out ∧ (d.defer).sys = d.sys ∧
    (d.defer).evt = d.evt ∧ (d.defer).sram = d.sram ∧ (d.defer).intEnable = d.intEnable ∧
    (d.defer).heartbeat = d.heartbeat ∧ (d.defer).ctr = d.ctr ∧ (d.defer).params = d.params ∧ (d.defer).pool = d.pool ∧
    (d.defer).units = d.units ∧ (d.defer).metaPlace = d.metaPlace ∧ (d.defer).parts = d.parts ∧
    (d.defer).partRings = d.partRings ∧ (d.defer).partMbx = d.partMbx ∧ (d.defer).keys = d.keys ∧
    (d.defer).wrapped0 = d.wrapped0 ∧ (d.defer).wrapped1 = d.wrapped1 ∧ (d.defer).keyCount = d.keyCount ∧
    (d.defer).groups = d.groups ∧ (d.defer).queues = d.queues ∧ (d.defer).jobs = d.jobs ∧
    (d.defer).nextJob = d.nextJob ∧ (d.defer).tallies = d.tallies ∧ (d.defer).pairs = d.pairs ∧
    (d.defer).objs = d.objs ∧ (d.defer).seqPages = d.seqPages ∧ (d.defer).nearUsed = d.nearUsed ∧
    (d.defer).regions = d.regions ∧ (d.defer).serial = d.serial ∧ (d.defer).waitClear = d.waitClear ∧
    (d.defer).rebuilds = d.rebuilds ∧ (d.defer).spareUsed = d.spareUsed ∧ (d.defer).hourStart = d.hourStart ∧
    (d.defer).peerMedian = d.peerMedian ∧ (d.defer).ctxs = d.ctxs ∧ (d.defer).wins = d.wins ∧
    (d.defer).ranks = d.ranks ∧ (d.defer).cxlTrans = d.cxlTrans ∧ (d.defer).heads = d.heads ∧
    (d.defer).leases = d.leases ∧ (d.defer).dir = d.dir ∧ (d.defer).dirCached = d.dirCached ∧
    (d.defer).winTxns = d.winTxns ∧ (d.defer).winWaits = d.winWaits ∧ (d.defer).ports = d.ports ∧
    (d.defer).arb = d.arb ∧ (d.defer).rt = d.rt ∧ (d.defer).queueGen0 = d.queueGen0 ∧ (d.defer).engGen = d.engGen ∧
    (d.defer).movGen = d.movGen ∧ (d.defer).unitGen = d.unitGen ∧ (d.defer).portGen = d.portGen ∧
    (d.defer).headGen = d.headGen ∧ (d.defer).tagTimes = d.tagTimes ∧ (d.defer).deferred = d.deferred ∧
    (d.defer).engReset = d.engReset ∧ (d.defer).engFailed = d.engFailed ∧ (d.defer).pair = d.pair ∧
    (d.defer).hk = d.hk ∧ (d.defer).pow = d.pow ∧ (d.defer).tap = d.tap ∧ (d.defer).copies = d.copies ∧
    (d.defer).cur = d.cur ∧ (d.defer).stream = d.stream ∧ (d.defer).coreWrites = d.coreWrites ∧
    (d.defer).lostMeta = d.lostMeta ∧ (d.defer).wantFront = d.wantFront ∧ (d.defer).winDone = d.winDone := by
  refine ⟨?_, ?_, ?_, ?_, ?_, ?_, ?_, ?_, ?_, ?_, ?_, ?_, ?_, ?_, ?_, ?_, ?_, ?_, ?_, ?_, ?_, ?_, ?_, ?_, ?_, ?_, ?_, ?_, ?_, ?_, ?_, ?_, ?_, ?_, ?_, ?_, ?_, ?_, ?_, ?_, ?_, ?_, ?_, ?_, ?_, ?_, ?_, ?_, ?_, ?_, ?_, ?_, ?_, ?_, ?_, ?_, ?_, ?_, ?_, ?_, ?_, ?_, ?_, ?_, ?_, ?_, ?_, ?_, ?_, ?_⟩ <;> rfl

@[simp] theorem Dev.accrue_frame (d : Dev) (c : Ctr) (n : Nat) :
    (d.accrue c n).now = d.now ∧ (d.accrue c n).free = d.free ∧ (d.accrue c n).out = d.out ∧
    (d.accrue c n).sys = d.sys ∧ (d.accrue c n).evt = d.evt ∧ (d.accrue c n).sram = d.sram ∧
    (d.accrue c n).intEnable = d.intEnable ∧ (d.accrue c n).heartbeat = d.heartbeat ∧ (d.accrue c n).params = d.params ∧
    (d.accrue c n).pool = d.pool ∧ (d.accrue c n).units = d.units ∧ (d.accrue c n).metaPlace = d.metaPlace ∧
    (d.accrue c n).parts = d.parts ∧ (d.accrue c n).partRings = d.partRings ∧ (d.accrue c n).partMbx = d.partMbx ∧
    (d.accrue c n).keys = d.keys ∧ (d.accrue c n).wrapped0 = d.wrapped0 ∧ (d.accrue c n).wrapped1 = d.wrapped1 ∧
    (d.accrue c n).keyCount = d.keyCount ∧ (d.accrue c n).groups = d.groups ∧ (d.accrue c n).queues = d.queues ∧
    (d.accrue c n).jobs = d.jobs ∧ (d.accrue c n).nextJob = d.nextJob ∧ (d.accrue c n).tallies = d.tallies ∧
    (d.accrue c n).pairs = d.pairs ∧ (d.accrue c n).objs = d.objs ∧ (d.accrue c n).seqPages = d.seqPages ∧
    (d.accrue c n).nearUsed = d.nearUsed ∧ (d.accrue c n).regions = d.regions ∧ (d.accrue c n).serial = d.serial ∧
    (d.accrue c n).waitClear = d.waitClear ∧ (d.accrue c n).rebuilds = d.rebuilds ∧
    (d.accrue c n).spareUsed = d.spareUsed ∧ (d.accrue c n).hourStart = d.hourStart ∧
    (d.accrue c n).peerMedian = d.peerMedian ∧ (d.accrue c n).ctxs = d.ctxs ∧ (d.accrue c n).wins = d.wins ∧
    (d.accrue c n).ranks = d.ranks ∧ (d.accrue c n).cxlTrans = d.cxlTrans ∧ (d.accrue c n).heads = d.heads ∧
    (d.accrue c n).leases = d.leases ∧ (d.accrue c n).dir = d.dir ∧ (d.accrue c n).dirCached = d.dirCached ∧
    (d.accrue c n).winTxns = d.winTxns ∧ (d.accrue c n).winWaits = d.winWaits ∧ (d.accrue c n).ports = d.ports ∧
    (d.accrue c n).arb = d.arb ∧ (d.accrue c n).rt = d.rt ∧ (d.accrue c n).queueGen0 = d.queueGen0 ∧
    (d.accrue c n).engGen = d.engGen ∧ (d.accrue c n).movGen = d.movGen ∧ (d.accrue c n).unitGen = d.unitGen ∧
    (d.accrue c n).portGen = d.portGen ∧ (d.accrue c n).headGen = d.headGen ∧ (d.accrue c n).tagTimes = d.tagTimes ∧
    (d.accrue c n).deferred = d.deferred ∧ (d.accrue c n).engReset = d.engReset ∧
    (d.accrue c n).engFailed = d.engFailed ∧ (d.accrue c n).pair = d.pair ∧ (d.accrue c n).hk = d.hk ∧
    (d.accrue c n).pow = d.pow ∧ (d.accrue c n).tap = d.tap ∧ (d.accrue c n).copies = d.copies ∧
    (d.accrue c n).cur = d.cur ∧ (d.accrue c n).stream = d.stream ∧ (d.accrue c n).coreWrites = d.coreWrites ∧
    (d.accrue c n).lostMeta = d.lostMeta ∧ (d.accrue c n).again = d.again ∧ (d.accrue c n).wantFront = d.wantFront ∧
    (d.accrue c n).winDone = d.winDone := by
  refine ⟨?_, ?_, ?_, ?_, ?_, ?_, ?_, ?_, ?_, ?_, ?_, ?_, ?_, ?_, ?_, ?_, ?_, ?_, ?_, ?_, ?_, ?_, ?_, ?_, ?_, ?_, ?_, ?_, ?_, ?_, ?_, ?_, ?_, ?_, ?_, ?_, ?_, ?_, ?_, ?_, ?_, ?_, ?_, ?_, ?_, ?_, ?_, ?_, ?_, ?_, ?_, ?_, ?_, ?_, ?_, ?_, ?_, ?_, ?_, ?_, ?_, ?_, ?_, ?_, ?_, ?_, ?_, ?_, ?_, ?_⟩ <;> (unfold Dev.accrue; split <;> rfl)

@[simp] theorem Dev.modRt_frame (d : Dev) (f : Routing → Routing) :
    (d.modRt f).now = d.now ∧ (d.modRt f).free = d.free ∧ (d.modRt f).out = d.out ∧ (d.modRt f).sys = d.sys ∧
    (d.modRt f).evt = d.evt ∧ (d.modRt f).sram = d.sram ∧ (d.modRt f).intEnable = d.intEnable ∧
    (d.modRt f).heartbeat = d.heartbeat ∧ (d.modRt f).ctr = d.ctr ∧ (d.modRt f).params = d.params ∧
    (d.modRt f).pool = d.pool ∧ (d.modRt f).units = d.units ∧ (d.modRt f).metaPlace = d.metaPlace ∧
    (d.modRt f).parts = d.parts ∧ (d.modRt f).partRings = d.partRings ∧ (d.modRt f).partMbx = d.partMbx ∧
    (d.modRt f).keys = d.keys ∧ (d.modRt f).wrapped0 = d.wrapped0 ∧ (d.modRt f).wrapped1 = d.wrapped1 ∧
    (d.modRt f).keyCount = d.keyCount ∧ (d.modRt f).groups = d.groups ∧ (d.modRt f).queues = d.queues ∧
    (d.modRt f).jobs = d.jobs ∧ (d.modRt f).nextJob = d.nextJob ∧ (d.modRt f).tallies = d.tallies ∧
    (d.modRt f).pairs = d.pairs ∧ (d.modRt f).objs = d.objs ∧ (d.modRt f).seqPages = d.seqPages ∧
    (d.modRt f).nearUsed = d.nearUsed ∧ (d.modRt f).regions = d.regions ∧ (d.modRt f).serial = d.serial ∧
    (d.modRt f).waitClear = d.waitClear ∧ (d.modRt f).rebuilds = d.rebuilds ∧ (d.modRt f).spareUsed = d.spareUsed ∧
    (d.modRt f).hourStart = d.hourStart ∧ (d.modRt f).peerMedian = d.peerMedian ∧ (d.modRt f).ctxs = d.ctxs ∧
    (d.modRt f).wins = d.wins ∧ (d.modRt f).ranks = d.ranks ∧ (d.modRt f).cxlTrans = d.cxlTrans ∧
    (d.modRt f).heads = d.heads ∧ (d.modRt f).leases = d.leases ∧ (d.modRt f).dir = d.dir ∧
    (d.modRt f).dirCached = d.dirCached ∧ (d.modRt f).winTxns = d.winTxns ∧ (d.modRt f).winWaits = d.winWaits ∧
    (d.modRt f).ports = d.ports ∧ (d.modRt f).arb = d.arb ∧ (d.modRt f).queueGen0 = d.queueGen0 ∧
    (d.modRt f).engGen = d.engGen ∧ (d.modRt f).movGen = d.movGen ∧ (d.modRt f).unitGen = d.unitGen ∧
    (d.modRt f).portGen = d.portGen ∧ (d.modRt f).headGen = d.headGen ∧ (d.modRt f).tagTimes = d.tagTimes ∧
    (d.modRt f).deferred = d.deferred ∧ (d.modRt f).engReset = d.engReset ∧ (d.modRt f).engFailed = d.engFailed ∧
    (d.modRt f).pair = d.pair ∧ (d.modRt f).hk = d.hk ∧ (d.modRt f).pow = d.pow ∧ (d.modRt f).tap = d.tap ∧
    (d.modRt f).copies = d.copies ∧ (d.modRt f).cur = d.cur ∧ (d.modRt f).stream = d.stream ∧
    (d.modRt f).coreWrites = d.coreWrites ∧ (d.modRt f).lostMeta = d.lostMeta ∧ (d.modRt f).again = d.again ∧
    (d.modRt f).wantFront = d.wantFront ∧ (d.modRt f).winDone = d.winDone := by
  refine ⟨?_, ?_, ?_, ?_, ?_, ?_, ?_, ?_, ?_, ?_, ?_, ?_, ?_, ?_, ?_, ?_, ?_, ?_, ?_, ?_, ?_, ?_, ?_, ?_, ?_, ?_, ?_, ?_, ?_, ?_, ?_, ?_, ?_, ?_, ?_, ?_, ?_, ?_, ?_, ?_, ?_, ?_, ?_, ?_, ?_, ?_, ?_, ?_, ?_, ?_, ?_, ?_, ?_, ?_, ?_, ?_, ?_, ?_, ?_, ?_, ?_, ?_, ?_, ?_, ?_, ?_, ?_, ?_, ?_, ?_⟩ <;> rfl

@[simp] theorem Dev.atRest_frame (d : Dev) :
    (d.atRest).now = d.now ∧ (d.atRest).free = d.free ∧ (d.atRest).out = d.out ∧ (d.atRest).sys = d.sys ∧
    (d.atRest).evt = d.evt ∧ (d.atRest).sram = d.sram ∧ (d.atRest).intEnable = d.intEnable ∧
    (d.atRest).heartbeat = d.heartbeat ∧ (d.atRest).ctr = d.ctr ∧ (d.atRest).params = d.params ∧
    (d.atRest).pool = d.pool ∧ (d.atRest).units = d.units ∧ (d.atRest).metaPlace = d.metaPlace ∧
    (d.atRest).parts = d.parts ∧ (d.atRest).partRings = d.partRings ∧ (d.atRest).partMbx = d.partMbx ∧
    (d.atRest).keys = d.keys ∧ (d.atRest).wrapped0 = d.wrapped0 ∧ (d.atRest).wrapped1 = d.wrapped1 ∧
    (d.atRest).keyCount = d.keyCount ∧ (d.atRest).groups = d.groups ∧ (d.atRest).queues = d.queues ∧
    (d.atRest).jobs = d.jobs ∧ (d.atRest).nextJob = d.nextJob ∧ (d.atRest).tallies = d.tallies ∧
    (d.atRest).pairs = d.pairs ∧ (d.atRest).objs = d.objs ∧ (d.atRest).seqPages = d.seqPages ∧
    (d.atRest).nearUsed = d.nearUsed ∧ (d.atRest).regions = d.regions ∧ (d.atRest).serial = d.serial ∧
    (d.atRest).waitClear = d.waitClear ∧ (d.atRest).rebuilds = d.rebuilds ∧ (d.atRest).spareUsed = d.spareUsed ∧
    (d.atRest).hourStart = d.hourStart ∧ (d.atRest).peerMedian = d.peerMedian ∧ (d.atRest).ctxs = d.ctxs ∧
    (d.atRest).wins = d.wins ∧ (d.atRest).ranks = d.ranks ∧ (d.atRest).cxlTrans = d.cxlTrans ∧
    (d.atRest).heads = d.heads ∧ (d.atRest).leases = d.leases ∧ (d.atRest).dir = d.dir ∧
    (d.atRest).dirCached = d.dirCached ∧ (d.atRest).winTxns = d.winTxns ∧ (d.atRest).winWaits = d.winWaits ∧
    (d.atRest).ports = d.ports ∧ (d.atRest).arb = d.arb ∧ (d.atRest).rt = d.rt ∧ (d.atRest).queueGen0 = d.queueGen0 ∧
    (d.atRest).engGen = d.engGen ∧ (d.atRest).movGen = d.movGen ∧ (d.atRest).unitGen = d.unitGen ∧
    (d.atRest).portGen = d.portGen ∧ (d.atRest).headGen = d.headGen ∧ (d.atRest).tagTimes = d.tagTimes ∧
    (d.atRest).deferred = d.deferred ∧ (d.atRest).engReset = d.engReset ∧ (d.atRest).engFailed = d.engFailed ∧
    (d.atRest).pair = d.pair ∧ (d.atRest).hk = d.hk ∧ (d.atRest).pow = d.pow ∧ (d.atRest).tap = d.tap ∧
    (d.atRest).copies = d.copies ∧ (d.atRest).coreWrites = d.coreWrites ∧ (d.atRest).lostMeta = d.lostMeta ∧
    (d.atRest).again = d.again ∧ (d.atRest).wantFront = d.wantFront ∧ (d.atRest).winDone = d.winDone := by
  refine ⟨?_, ?_, ?_, ?_, ?_, ?_, ?_, ?_, ?_, ?_, ?_, ?_, ?_, ?_, ?_, ?_, ?_, ?_, ?_, ?_, ?_, ?_, ?_, ?_, ?_, ?_, ?_, ?_, ?_, ?_, ?_, ?_, ?_, ?_, ?_, ?_, ?_, ?_, ?_, ?_, ?_, ?_, ?_, ?_, ?_, ?_, ?_, ?_, ?_, ?_, ?_, ?_, ?_, ?_, ?_, ?_, ?_, ?_, ?_, ?_, ?_, ?_, ?_, ?_, ?_, ?_, ?_, ?_, ?_⟩ <;> rfl

@[simp] theorem Dev.putFlow_frame (d : Dev) (x : FlowRx) :
    (d.putFlow x).now = d.now ∧ (d.putFlow x).free = d.free ∧ (d.putFlow x).out = d.out ∧ (d.putFlow x).sys = d.sys ∧
    (d.putFlow x).evt = d.evt ∧ (d.putFlow x).sram = d.sram ∧ (d.putFlow x).intEnable = d.intEnable ∧
    (d.putFlow x).heartbeat = d.heartbeat ∧ (d.putFlow x).ctr = d.ctr ∧ (d.putFlow x).params = d.params ∧
    (d.putFlow x).pool = d.pool ∧ (d.putFlow x).units = d.units ∧ (d.putFlow x).metaPlace = d.metaPlace ∧
    (d.putFlow x).parts = d.parts ∧ (d.putFlow x).partRings = d.partRings ∧ (d.putFlow x).partMbx = d.partMbx ∧
    (d.putFlow x).keys = d.keys ∧ (d.putFlow x).wrapped0 = d.wrapped0 ∧ (d.putFlow x).wrapped1 = d.wrapped1 ∧
    (d.putFlow x).keyCount = d.keyCount ∧ (d.putFlow x).groups = d.groups ∧ (d.putFlow x).queues = d.queues ∧
    (d.putFlow x).jobs = d.jobs ∧ (d.putFlow x).nextJob = d.nextJob ∧ (d.putFlow x).tallies = d.tallies ∧
    (d.putFlow x).pairs = d.pairs ∧ (d.putFlow x).objs = d.objs ∧ (d.putFlow x).seqPages = d.seqPages ∧
    (d.putFlow x).nearUsed = d.nearUsed ∧ (d.putFlow x).regions = d.regions ∧ (d.putFlow x).serial = d.serial ∧
    (d.putFlow x).waitClear = d.waitClear ∧ (d.putFlow x).rebuilds = d.rebuilds ∧
    (d.putFlow x).spareUsed = d.spareUsed ∧ (d.putFlow x).hourStart = d.hourStart ∧
    (d.putFlow x).peerMedian = d.peerMedian ∧ (d.putFlow x).ctxs = d.ctxs ∧ (d.putFlow x).wins = d.wins ∧
    (d.putFlow x).ranks = d.ranks ∧ (d.putFlow x).cxlTrans = d.cxlTrans ∧ (d.putFlow x).heads = d.heads ∧
    (d.putFlow x).leases = d.leases ∧ (d.putFlow x).dir = d.dir ∧ (d.putFlow x).dirCached = d.dirCached ∧
    (d.putFlow x).winTxns = d.winTxns ∧ (d.putFlow x).winWaits = d.winWaits ∧ (d.putFlow x).ports = d.ports ∧
    (d.putFlow x).arb = d.arb ∧ (d.putFlow x).queueGen0 = d.queueGen0 ∧ (d.putFlow x).engGen = d.engGen ∧
    (d.putFlow x).movGen = d.movGen ∧ (d.putFlow x).unitGen = d.unitGen ∧ (d.putFlow x).portGen = d.portGen ∧
    (d.putFlow x).headGen = d.headGen ∧ (d.putFlow x).tagTimes = d.tagTimes ∧ (d.putFlow x).deferred = d.deferred ∧
    (d.putFlow x).engReset = d.engReset ∧ (d.putFlow x).engFailed = d.engFailed ∧ (d.putFlow x).pair = d.pair ∧
    (d.putFlow x).hk = d.hk ∧ (d.putFlow x).pow = d.pow ∧ (d.putFlow x).tap = d.tap ∧ (d.putFlow x).copies = d.copies ∧
    (d.putFlow x).cur = d.cur ∧ (d.putFlow x).stream = d.stream ∧ (d.putFlow x).coreWrites = d.coreWrites ∧
    (d.putFlow x).lostMeta = d.lostMeta ∧ (d.putFlow x).again = d.again ∧ (d.putFlow x).wantFront = d.wantFront ∧
    (d.putFlow x).winDone = d.winDone := by
  refine ⟨?_, ?_, ?_, ?_, ?_, ?_, ?_, ?_, ?_, ?_, ?_, ?_, ?_, ?_, ?_, ?_, ?_, ?_, ?_, ?_, ?_, ?_, ?_, ?_, ?_, ?_, ?_, ?_, ?_, ?_, ?_, ?_, ?_, ?_, ?_, ?_, ?_, ?_, ?_, ?_, ?_, ?_, ?_, ?_, ?_, ?_, ?_, ?_, ?_, ?_, ?_, ?_, ?_, ?_, ?_, ?_, ?_, ?_, ?_, ?_, ?_, ?_, ?_, ?_, ?_, ?_, ?_, ?_, ?_, ?_⟩ <;> rfl

@[simp] theorem Dev.dropReq_frame (d : Dev) (t : Nat) :
    (d.dropReq t).now = d.now ∧ (d.dropReq t).free = d.free ∧ (d.dropReq t).out = d.out ∧ (d.dropReq t).sys = d.sys ∧
    (d.dropReq t).evt = d.evt ∧ (d.dropReq t).sram = d.sram ∧ (d.dropReq t).intEnable = d.intEnable ∧
    (d.dropReq t).heartbeat = d.heartbeat ∧ (d.dropReq t).ctr = d.ctr ∧ (d.dropReq t).params = d.params ∧
    (d.dropReq t).pool = d.pool ∧ (d.dropReq t).units = d.units ∧ (d.dropReq t).metaPlace = d.metaPlace ∧
    (d.dropReq t).parts = d.parts ∧ (d.dropReq t).partRings = d.partRings ∧ (d.dropReq t).partMbx = d.partMbx ∧
    (d.dropReq t).keys = d.keys ∧ (d.dropReq t).wrapped0 = d.wrapped0 ∧ (d.dropReq t).wrapped1 = d.wrapped1 ∧
    (d.dropReq t).keyCount = d.keyCount ∧ (d.dropReq t).groups = d.groups ∧ (d.dropReq t).queues = d.queues ∧
    (d.dropReq t).jobs = d.jobs ∧ (d.dropReq t).nextJob = d.nextJob ∧ (d.dropReq t).tallies = d.tallies ∧
    (d.dropReq t).pairs = d.pairs ∧ (d.dropReq t).objs = d.objs ∧ (d.dropReq t).seqPages = d.seqPages ∧
    (d.dropReq t).nearUsed = d.nearUsed ∧ (d.dropReq t).regions = d.regions ∧ (d.dropReq t).serial = d.serial ∧
    (d.dropReq t).waitClear = d.waitClear ∧ (d.dropReq t).rebuilds = d.rebuilds ∧
    (d.dropReq t).spareUsed = d.spareUsed ∧ (d.dropReq t).hourStart = d.hourStart ∧
    (d.dropReq t).peerMedian = d.peerMedian ∧ (d.dropReq t).ctxs = d.ctxs ∧ (d.dropReq t).wins = d.wins ∧
    (d.dropReq t).ranks = d.ranks ∧ (d.dropReq t).cxlTrans = d.cxlTrans ∧ (d.dropReq t).heads = d.heads ∧
    (d.dropReq t).leases = d.leases ∧ (d.dropReq t).dir = d.dir ∧ (d.dropReq t).dirCached = d.dirCached ∧
    (d.dropReq t).winTxns = d.winTxns ∧ (d.dropReq t).winWaits = d.winWaits ∧ (d.dropReq t).ports = d.ports ∧
    (d.dropReq t).arb = d.arb ∧ (d.dropReq t).queueGen0 = d.queueGen0 ∧ (d.dropReq t).engGen = d.engGen ∧
    (d.dropReq t).movGen = d.movGen ∧ (d.dropReq t).unitGen = d.unitGen ∧ (d.dropReq t).portGen = d.portGen ∧
    (d.dropReq t).headGen = d.headGen ∧ (d.dropReq t).tagTimes = d.tagTimes ∧ (d.dropReq t).deferred = d.deferred ∧
    (d.dropReq t).engReset = d.engReset ∧ (d.dropReq t).engFailed = d.engFailed ∧ (d.dropReq t).pair = d.pair ∧
    (d.dropReq t).hk = d.hk ∧ (d.dropReq t).pow = d.pow ∧ (d.dropReq t).tap = d.tap ∧ (d.dropReq t).copies = d.copies ∧
    (d.dropReq t).cur = d.cur ∧ (d.dropReq t).stream = d.stream ∧ (d.dropReq t).coreWrites = d.coreWrites ∧
    (d.dropReq t).lostMeta = d.lostMeta ∧ (d.dropReq t).again = d.again ∧ (d.dropReq t).wantFront = d.wantFront ∧
    (d.dropReq t).winDone = d.winDone := by
  refine ⟨?_, ?_, ?_, ?_, ?_, ?_, ?_, ?_, ?_, ?_, ?_, ?_, ?_, ?_, ?_, ?_, ?_, ?_, ?_, ?_, ?_, ?_, ?_, ?_, ?_, ?_, ?_, ?_, ?_, ?_, ?_, ?_, ?_, ?_, ?_, ?_, ?_, ?_, ?_, ?_, ?_, ?_, ?_, ?_, ?_, ?_, ?_, ?_, ?_, ?_, ?_, ?_, ?_, ?_, ?_, ?_, ?_, ?_, ?_, ?_, ?_, ?_, ?_, ?_, ?_, ?_, ?_, ?_, ?_, ?_⟩ <;> rfl

@[simp] theorem Dev.setTrans_frame (d : Dev) (n : Nat) (l : List TransEntry) :
    (d.setTrans n l).now = d.now ∧ (d.setTrans n l).free = d.free ∧ (d.setTrans n l).out = d.out ∧
    (d.setTrans n l).sys = d.sys ∧ (d.setTrans n l).evt = d.evt ∧ (d.setTrans n l).sram = d.sram ∧
    (d.setTrans n l).intEnable = d.intEnable ∧ (d.setTrans n l).heartbeat = d.heartbeat ∧ (d.setTrans n l).ctr = d.ctr ∧
    (d.setTrans n l).params = d.params ∧ (d.setTrans n l).pool = d.pool ∧ (d.setTrans n l).units = d.units ∧
    (d.setTrans n l).metaPlace = d.metaPlace ∧ (d.setTrans n l).parts = d.parts ∧
    (d.setTrans n l).partRings = d.partRings ∧ (d.setTrans n l).partMbx = d.partMbx ∧ (d.setTrans n l).keys = d.keys ∧
    (d.setTrans n l).wrapped0 = d.wrapped0 ∧ (d.setTrans n l).wrapped1 = d.wrapped1 ∧
    (d.setTrans n l).keyCount = d.keyCount ∧ (d.setTrans n l).groups = d.groups ∧ (d.setTrans n l).queues = d.queues ∧
    (d.setTrans n l).jobs = d.jobs ∧ (d.setTrans n l).nextJob = d.nextJob ∧ (d.setTrans n l).tallies = d.tallies ∧
    (d.setTrans n l).pairs = d.pairs ∧ (d.setTrans n l).objs = d.objs ∧ (d.setTrans n l).seqPages = d.seqPages ∧
    (d.setTrans n l).nearUsed = d.nearUsed ∧ (d.setTrans n l).regions = d.regions ∧ (d.setTrans n l).serial = d.serial ∧
    (d.setTrans n l).waitClear = d.waitClear ∧ (d.setTrans n l).rebuilds = d.rebuilds ∧
    (d.setTrans n l).spareUsed = d.spareUsed ∧ (d.setTrans n l).hourStart = d.hourStart ∧
    (d.setTrans n l).peerMedian = d.peerMedian ∧ (d.setTrans n l).ctxs = d.ctxs ∧ (d.setTrans n l).wins = d.wins ∧
    (d.setTrans n l).ranks = d.ranks ∧ (d.setTrans n l).heads = d.heads ∧ (d.setTrans n l).leases = d.leases ∧
    (d.setTrans n l).dir = d.dir ∧ (d.setTrans n l).dirCached = d.dirCached ∧ (d.setTrans n l).winTxns = d.winTxns ∧
    (d.setTrans n l).winWaits = d.winWaits ∧ (d.setTrans n l).arb = d.arb ∧ (d.setTrans n l).rt = d.rt ∧
    (d.setTrans n l).queueGen0 = d.queueGen0 ∧ (d.setTrans n l).engGen = d.engGen ∧ (d.setTrans n l).movGen = d.movGen ∧
    (d.setTrans n l).unitGen = d.unitGen ∧ (d.setTrans n l).portGen = d.portGen ∧ (d.setTrans n l).headGen = d.headGen ∧
    (d.setTrans n l).tagTimes = d.tagTimes ∧ (d.setTrans n l).deferred = d.deferred ∧
    (d.setTrans n l).engReset = d.engReset ∧ (d.setTrans n l).engFailed = d.engFailed ∧ (d.setTrans n l).pair = d.pair ∧
    (d.setTrans n l).hk = d.hk ∧ (d.setTrans n l).pow = d.pow ∧ (d.setTrans n l).tap = d.tap ∧
    (d.setTrans n l).copies = d.copies ∧ (d.setTrans n l).cur = d.cur ∧ (d.setTrans n l).stream = d.stream ∧
    (d.setTrans n l).coreWrites = d.coreWrites ∧ (d.setTrans n l).lostMeta = d.lostMeta ∧
    (d.setTrans n l).again = d.again ∧ (d.setTrans n l).wantFront = d.wantFront ∧ (d.setTrans n l).winDone = d.winDone := by
  refine ⟨?_, ?_, ?_, ?_, ?_, ?_, ?_, ?_, ?_, ?_, ?_, ?_, ?_, ?_, ?_, ?_, ?_, ?_, ?_, ?_, ?_, ?_, ?_, ?_, ?_, ?_, ?_, ?_, ?_, ?_, ?_, ?_, ?_, ?_, ?_, ?_, ?_, ?_, ?_, ?_, ?_, ?_, ?_, ?_, ?_, ?_, ?_, ?_, ?_, ?_, ?_, ?_, ?_, ?_, ?_, ?_, ?_, ?_, ?_, ?_, ?_, ?_, ?_, ?_, ?_, ?_, ?_, ?_, ?_⟩ <;> (unfold Dev.setTrans; split <;> rfl)

@[simp] theorem Dev.keepTrans_frame (d : Dev) (f : TransEntry → Bool) :
    (d.keepTrans f).now = d.now ∧ (d.keepTrans f).free = d.free ∧ (d.keepTrans f).out = d.out ∧
    (d.keepTrans f).sys = d.sys ∧ (d.keepTrans f).evt = d.evt ∧ (d.keepTrans f).sram = d.sram ∧
    (d.keepTrans f).intEnable = d.intEnable ∧ (d.keepTrans f).heartbeat = d.heartbeat ∧ (d.keepTrans f).ctr = d.ctr ∧
    (d.keepTrans f).params = d.params ∧ (d.keepTrans f).pool = d.pool ∧ (d.keepTrans f).units = d.units ∧
    (d.keepTrans f).metaPlace = d.metaPlace ∧ (d.keepTrans f).parts = d.parts ∧
    (d.keepTrans f).partRings = d.partRings ∧ (d.keepTrans f).partMbx = d.partMbx ∧ (d.keepTrans f).keys = d.keys ∧
    (d.keepTrans f).wrapped0 = d.wrapped0 ∧ (d.keepTrans f).wrapped1 = d.wrapped1 ∧
    (d.keepTrans f).keyCount = d.keyCount ∧ (d.keepTrans f).groups = d.groups ∧ (d.keepTrans f).queues = d.queues ∧
    (d.keepTrans f).jobs = d.jobs ∧ (d.keepTrans f).nextJob = d.nextJob ∧ (d.keepTrans f).tallies = d.tallies ∧
    (d.keepTrans f).pairs = d.pairs ∧ (d.keepTrans f).objs = d.objs ∧ (d.keepTrans f).seqPages = d.seqPages ∧
    (d.keepTrans f).nearUsed = d.nearUsed ∧ (d.keepTrans f).regions = d.regions ∧ (d.keepTrans f).serial = d.serial ∧
    (d.keepTrans f).waitClear = d.waitClear ∧ (d.keepTrans f).rebuilds = d.rebuilds ∧
    (d.keepTrans f).spareUsed = d.spareUsed ∧ (d.keepTrans f).hourStart = d.hourStart ∧
    (d.keepTrans f).peerMedian = d.peerMedian ∧ (d.keepTrans f).ctxs = d.ctxs ∧ (d.keepTrans f).wins = d.wins ∧
    (d.keepTrans f).ranks = d.ranks ∧ (d.keepTrans f).heads = d.heads ∧ (d.keepTrans f).leases = d.leases ∧
    (d.keepTrans f).dir = d.dir ∧ (d.keepTrans f).dirCached = d.dirCached ∧ (d.keepTrans f).winTxns = d.winTxns ∧
    (d.keepTrans f).winWaits = d.winWaits ∧ (d.keepTrans f).arb = d.arb ∧ (d.keepTrans f).rt = d.rt ∧
    (d.keepTrans f).queueGen0 = d.queueGen0 ∧ (d.keepTrans f).engGen = d.engGen ∧ (d.keepTrans f).movGen = d.movGen ∧
    (d.keepTrans f).unitGen = d.unitGen ∧ (d.keepTrans f).portGen = d.portGen ∧ (d.keepTrans f).headGen = d.headGen ∧
    (d.keepTrans f).tagTimes = d.tagTimes ∧ (d.keepTrans f).deferred = d.deferred ∧
    (d.keepTrans f).engReset = d.engReset ∧ (d.keepTrans f).engFailed = d.engFailed ∧ (d.keepTrans f).pair = d.pair ∧
    (d.keepTrans f).hk = d.hk ∧ (d.keepTrans f).pow = d.pow ∧ (d.keepTrans f).tap = d.tap ∧
    (d.keepTrans f).copies = d.copies ∧ (d.keepTrans f).cur = d.cur ∧ (d.keepTrans f).stream = d.stream ∧
    (d.keepTrans f).coreWrites = d.coreWrites ∧ (d.keepTrans f).lostMeta = d.lostMeta ∧
    (d.keepTrans f).again = d.again ∧ (d.keepTrans f).wantFront = d.wantFront ∧ (d.keepTrans f).winDone = d.winDone := by
  refine ⟨?_, ?_, ?_, ?_, ?_, ?_, ?_, ?_, ?_, ?_, ?_, ?_, ?_, ?_, ?_, ?_, ?_, ?_, ?_, ?_, ?_, ?_, ?_, ?_, ?_, ?_, ?_, ?_, ?_, ?_, ?_, ?_, ?_, ?_, ?_, ?_, ?_, ?_, ?_, ?_, ?_, ?_, ?_, ?_, ?_, ?_, ?_, ?_, ?_, ?_, ?_, ?_, ?_, ?_, ?_, ?_, ?_, ?_, ?_, ?_, ?_, ?_, ?_, ?_, ?_, ?_, ?_, ?_, ?_⟩ <;> rfl

@[simp] theorem Dev.grantLines_frame (d : Dev) (n : Nat) (p : Packet) :
    (d.grantLines n p).now = d.now ∧ (d.grantLines n p).free = d.free ∧ (d.grantLines n p).out = d.out ∧
    (d.grantLines n p).sys = d.sys ∧ (d.grantLines n p).evt = d.evt ∧ (d.grantLines n p).sram = d.sram ∧
    (d.grantLines n p).intEnable = d.intEnable ∧ (d.grantLines n p).heartbeat = d.heartbeat ∧
    (d.grantLines n p).ctr = d.ctr ∧ (d.grantLines n p).params = d.params ∧ (d.grantLines n p).pool = d.pool ∧
    (d.grantLines n p).units = d.units ∧ (d.grantLines n p).metaPlace = d.metaPlace ∧
    (d.grantLines n p).parts = d.parts ∧ (d.grantLines n p).partRings = d.partRings ∧
    (d.grantLines n p).partMbx = d.partMbx ∧ (d.grantLines n p).keys = d.keys ∧
    (d.grantLines n p).wrapped0 = d.wrapped0 ∧ (d.grantLines n p).wrapped1 = d.wrapped1 ∧
    (d.grantLines n p).keyCount = d.keyCount ∧ (d.grantLines n p).groups = d.groups ∧
    (d.grantLines n p).queues = d.queues ∧ (d.grantLines n p).jobs = d.jobs ∧ (d.grantLines n p).nextJob = d.nextJob ∧
    (d.grantLines n p).tallies = d.tallies ∧ (d.grantLines n p).pairs = d.pairs ∧ (d.grantLines n p).objs = d.objs ∧
    (d.grantLines n p).seqPages = d.seqPages ∧ (d.grantLines n p).nearUsed = d.nearUsed ∧
    (d.grantLines n p).regions = d.regions ∧ (d.grantLines n p).serial = d.serial ∧
    (d.grantLines n p).waitClear = d.waitClear ∧ (d.grantLines n p).rebuilds = d.rebuilds ∧
    (d.grantLines n p).spareUsed = d.spareUsed ∧ (d.grantLines n p).hourStart = d.hourStart ∧
    (d.grantLines n p).peerMedian = d.peerMedian ∧ (d.grantLines n p).ctxs = d.ctxs ∧ (d.grantLines n p).wins = d.wins ∧
    (d.grantLines n p).ranks = d.ranks ∧ (d.grantLines n p).cxlTrans = d.cxlTrans ∧ (d.grantLines n p).heads = d.heads ∧
    (d.grantLines n p).leases = d.leases ∧ (d.grantLines n p).dir = d.dir ∧ (d.grantLines n p).dirCached = d.dirCached ∧
    (d.grantLines n p).winTxns = d.winTxns ∧ (d.grantLines n p).winWaits = d.winWaits ∧
    (d.grantLines n p).ports = d.ports ∧ (d.grantLines n p).rt = d.rt ∧ (d.grantLines n p).queueGen0 = d.queueGen0 ∧
    (d.grantLines n p).engGen = d.engGen ∧ (d.grantLines n p).movGen = d.movGen ∧
    (d.grantLines n p).unitGen = d.unitGen ∧ (d.grantLines n p).portGen = d.portGen ∧
    (d.grantLines n p).headGen = d.headGen ∧ (d.grantLines n p).tagTimes = d.tagTimes ∧
    (d.grantLines n p).deferred = d.deferred ∧ (d.grantLines n p).engReset = d.engReset ∧
    (d.grantLines n p).engFailed = d.engFailed ∧ (d.grantLines n p).pair = d.pair ∧ (d.grantLines n p).hk = d.hk ∧
    (d.grantLines n p).pow = d.pow ∧ (d.grantLines n p).tap = d.tap ∧ (d.grantLines n p).copies = d.copies ∧
    (d.grantLines n p).cur = d.cur ∧ (d.grantLines n p).stream = d.stream ∧
    (d.grantLines n p).coreWrites = d.coreWrites ∧ (d.grantLines n p).lostMeta = d.lostMeta ∧
    (d.grantLines n p).again = d.again ∧ (d.grantLines n p).wantFront = d.wantFront ∧
    (d.grantLines n p).winDone = d.winDone := by
  refine ⟨?_, ?_, ?_, ?_, ?_, ?_, ?_, ?_, ?_, ?_, ?_, ?_, ?_, ?_, ?_, ?_, ?_, ?_, ?_, ?_, ?_, ?_, ?_, ?_, ?_, ?_, ?_, ?_, ?_, ?_, ?_, ?_, ?_, ?_, ?_, ?_, ?_, ?_, ?_, ?_, ?_, ?_, ?_, ?_, ?_, ?_, ?_, ?_, ?_, ?_, ?_, ?_, ?_, ?_, ?_, ?_, ?_, ?_, ?_, ?_, ?_, ?_, ?_, ?_, ?_, ?_, ?_, ?_, ?_, ?_⟩ <;> (unfold Dev.grantLines; split <;> rfl)

@[simp] theorem Dev.settleWait_frame (d : Dev) (n t : Nat) :
    (d.settleWait n t).now = d.now ∧ (d.settleWait n t).free = d.free ∧ (d.settleWait n t).out = d.out ∧
    (d.settleWait n t).sys = d.sys ∧ (d.settleWait n t).evt = d.evt ∧ (d.settleWait n t).sram = d.sram ∧
    (d.settleWait n t).intEnable = d.intEnable ∧ (d.settleWait n t).heartbeat = d.heartbeat ∧
    (d.settleWait n t).params = d.params ∧ (d.settleWait n t).pool = d.pool ∧ (d.settleWait n t).units = d.units ∧
    (d.settleWait n t).metaPlace = d.metaPlace ∧ (d.settleWait n t).parts = d.parts ∧
    (d.settleWait n t).partRings = d.partRings ∧ (d.settleWait n t).partMbx = d.partMbx ∧
    (d.settleWait n t).keys = d.keys ∧ (d.settleWait n t).wrapped0 = d.wrapped0 ∧
    (d.settleWait n t).wrapped1 = d.wrapped1 ∧ (d.settleWait n t).keyCount = d.keyCount ∧
    (d.settleWait n t).groups = d.groups ∧ (d.settleWait n t).queues = d.queues ∧ (d.settleWait n t).jobs = d.jobs ∧
    (d.settleWait n t).nextJob = d.nextJob ∧ (d.settleWait n t).tallies = d.tallies ∧
    (d.settleWait n t).pairs = d.pairs ∧ (d.settleWait n t).objs = d.objs ∧ (d.settleWait n t).seqPages = d.seqPages ∧
    (d.settleWait n t).nearUsed = d.nearUsed ∧ (d.settleWait n t).regions = d.regions ∧
    (d.settleWait n t).serial = d.serial ∧ (d.settleWait n t).waitClear = d.waitClear ∧
    (d.settleWait n t).rebuilds = d.rebuilds ∧ (d.settleWait n t).spareUsed = d.spareUsed ∧
    (d.settleWait n t).hourStart = d.hourStart ∧ (d.settleWait n t).peerMedian = d.peerMedian ∧
    (d.settleWait n t).ctxs = d.ctxs ∧ (d.settleWait n t).wins = d.wins ∧ (d.settleWait n t).ranks = d.ranks ∧
    (d.settleWait n t).cxlTrans = d.cxlTrans ∧ (d.settleWait n t).heads = d.heads ∧
    (d.settleWait n t).leases = d.leases ∧ (d.settleWait n t).dir = d.dir ∧ (d.settleWait n t).dirCached = d.dirCached ∧
    (d.settleWait n t).winTxns = d.winTxns ∧ (d.settleWait n t).winWaits = d.winWaits ∧ (d.settleWait n t).arb = d.arb ∧
    (d.settleWait n t).rt = d.rt ∧ (d.settleWait n t).queueGen0 = d.queueGen0 ∧ (d.settleWait n t).engGen = d.engGen ∧
    (d.settleWait n t).movGen = d.movGen ∧ (d.settleWait n t).unitGen = d.unitGen ∧
    (d.settleWait n t).portGen = d.portGen ∧ (d.settleWait n t).headGen = d.headGen ∧
    (d.settleWait n t).tagTimes = d.tagTimes ∧ (d.settleWait n t).deferred = d.deferred ∧
    (d.settleWait n t).engReset = d.engReset ∧ (d.settleWait n t).engFailed = d.engFailed ∧
    (d.settleWait n t).pair = d.pair ∧ (d.settleWait n t).hk = d.hk ∧ (d.settleWait n t).pow = d.pow ∧
    (d.settleWait n t).tap = d.tap ∧ (d.settleWait n t).copies = d.copies ∧ (d.settleWait n t).cur = d.cur ∧
    (d.settleWait n t).stream = d.stream ∧ (d.settleWait n t).coreWrites = d.coreWrites ∧
    (d.settleWait n t).lostMeta = d.lostMeta ∧ (d.settleWait n t).again = d.again ∧
    (d.settleWait n t).wantFront = d.wantFront ∧ (d.settleWait n t).winDone = d.winDone := by
  refine ⟨?_, ?_, ?_, ?_, ?_, ?_, ?_, ?_, ?_, ?_, ?_, ?_, ?_, ?_, ?_, ?_, ?_, ?_, ?_, ?_, ?_, ?_, ?_, ?_, ?_, ?_, ?_, ?_, ?_, ?_, ?_, ?_, ?_, ?_, ?_, ?_, ?_, ?_, ?_, ?_, ?_, ?_, ?_, ?_, ?_, ?_, ?_, ?_, ?_, ?_, ?_, ?_, ?_, ?_, ?_, ?_, ?_, ?_, ?_, ?_, ?_, ?_, ?_, ?_, ?_, ?_, ?_, ?_, ?_⟩ <;> (unfold Dev.settleWait; dsimp only; split <;> (try rfl) <;> split <;> split <;> simp)

@[simp] theorem Dev.goTo_frame (d : Dev) (n : Nat) (x : PortState) :
    (d.goTo n x).now = d.now ∧ (d.goTo n x).free = d.free ∧ (d.goTo n x).out = d.out ∧ (d.goTo n x).sys = d.sys ∧
    (d.goTo n x).evt = d.evt ∧ (d.goTo n x).sram = d.sram ∧ (d.goTo n x).intEnable = d.intEnable ∧
    (d.goTo n x).heartbeat = d.heartbeat ∧ (d.goTo n x).ctr = d.ctr ∧ (d.goTo n x).params = d.params ∧
    (d.goTo n x).pool = d.pool ∧ (d.goTo n x).units = d.units ∧ (d.goTo n x).metaPlace = d.metaPlace ∧
    (d.goTo n x).parts = d.parts ∧ (d.goTo n x).partRings = d.partRings ∧ (d.goTo n x).partMbx = d.partMbx ∧
    (d.goTo n x).keys = d.keys ∧ (d.goTo n x).wrapped0 = d.wrapped0 ∧ (d.goTo n x).wrapped1 = d.wrapped1 ∧
    (d.goTo n x).keyCount = d.keyCount ∧ (d.goTo n x).groups = d.groups ∧ (d.goTo n x).queues = d.queues ∧
    (d.goTo n x).jobs = d.jobs ∧ (d.goTo n x).nextJob = d.nextJob ∧ (d.goTo n x).tallies = d.tallies ∧
    (d.goTo n x).pairs = d.pairs ∧ (d.goTo n x).objs = d.objs ∧ (d.goTo n x).seqPages = d.seqPages ∧
    (d.goTo n x).nearUsed = d.nearUsed ∧ (d.goTo n x).regions = d.regions ∧ (d.goTo n x).serial = d.serial ∧
    (d.goTo n x).waitClear = d.waitClear ∧ (d.goTo n x).rebuilds = d.rebuilds ∧ (d.goTo n x).spareUsed = d.spareUsed ∧
    (d.goTo n x).hourStart = d.hourStart ∧ (d.goTo n x).peerMedian = d.peerMedian ∧ (d.goTo n x).ctxs = d.ctxs ∧
    (d.goTo n x).wins = d.wins ∧ (d.goTo n x).ranks = d.ranks ∧ (d.goTo n x).cxlTrans = d.cxlTrans ∧
    (d.goTo n x).heads = d.heads ∧ (d.goTo n x).leases = d.leases ∧ (d.goTo n x).dir = d.dir ∧
    (d.goTo n x).dirCached = d.dirCached ∧ (d.goTo n x).winTxns = d.winTxns ∧ (d.goTo n x).winWaits = d.winWaits ∧
    (d.goTo n x).arb = d.arb ∧ (d.goTo n x).rt = d.rt ∧ (d.goTo n x).queueGen0 = d.queueGen0 ∧
    (d.goTo n x).engGen = d.engGen ∧ (d.goTo n x).movGen = d.movGen ∧ (d.goTo n x).unitGen = d.unitGen ∧
    (d.goTo n x).portGen = d.portGen ∧ (d.goTo n x).headGen = d.headGen ∧ (d.goTo n x).tagTimes = d.tagTimes ∧
    (d.goTo n x).deferred = d.deferred ∧ (d.goTo n x).engReset = d.engReset ∧ (d.goTo n x).engFailed = d.engFailed ∧
    (d.goTo n x).pair = d.pair ∧ (d.goTo n x).hk = d.hk ∧ (d.goTo n x).pow = d.pow ∧ (d.goTo n x).tap = d.tap ∧
    (d.goTo n x).copies = d.copies ∧ (d.goTo n x).cur = d.cur ∧ (d.goTo n x).stream = d.stream ∧
    (d.goTo n x).coreWrites = d.coreWrites ∧ (d.goTo n x).lostMeta = d.lostMeta ∧ (d.goTo n x).again = d.again ∧
    (d.goTo n x).wantFront = d.wantFront ∧ (d.goTo n x).winDone = d.winDone := by
  refine ⟨?_, ?_, ?_, ?_, ?_, ?_, ?_, ?_, ?_, ?_, ?_, ?_, ?_, ?_, ?_, ?_, ?_, ?_, ?_, ?_, ?_, ?_, ?_, ?_, ?_, ?_, ?_, ?_, ?_, ?_, ?_, ?_, ?_, ?_, ?_, ?_, ?_, ?_, ?_, ?_, ?_, ?_, ?_, ?_, ?_, ?_, ?_, ?_, ?_, ?_, ?_, ?_, ?_, ?_, ?_, ?_, ?_, ?_, ?_, ?_, ?_, ?_, ?_, ?_, ?_, ?_, ?_, ?_, ?_, ?_⟩ <;> rfl

@[simp] theorem Dev.takeCredit_frame (d : Dev) (n : Nat) (c : CreditRet) :
    (d.takeCredit n c).now = d.now ∧ (d.takeCredit n c).free = d.free ∧ (d.takeCredit n c).out = d.out ∧
    (d.takeCredit n c).sys = d.sys ∧ (d.takeCredit n c).evt = d.evt ∧ (d.takeCredit n c).sram = d.sram ∧
    (d.takeCredit n c).intEnable = d.intEnable ∧ (d.takeCredit n c).heartbeat = d.heartbeat ∧
    (d.takeCredit n c).params = d.params ∧ (d.takeCredit n c).pool = d.pool ∧ (d.takeCredit n c).units = d.units ∧
    (d.takeCredit n c).metaPlace = d.metaPlace ∧ (d.takeCredit n c).parts = d.parts ∧
    (d.takeCredit n c).partRings = d.partRings ∧ (d.takeCredit n c).partMbx = d.partMbx ∧
    (d.takeCredit n c).keys = d.keys ∧ (d.takeCredit n c).wrapped0 = d.wrapped0 ∧
    (d.takeCredit n c).wrapped1 = d.wrapped1 ∧ (d.takeCredit n c).keyCount = d.keyCount ∧
    (d.takeCredit n c).groups = d.groups ∧ (d.takeCredit n c).queues = d.queues ∧ (d.takeCredit n c).jobs = d.jobs ∧
    (d.takeCredit n c).nextJob = d.nextJob ∧ (d.takeCredit n c).tallies = d.tallies ∧
    (d.takeCredit n c).pairs = d.pairs ∧ (d.takeCredit n c).objs = d.objs ∧ (d.takeCredit n c).seqPages = d.seqPages ∧
    (d.takeCredit n c).nearUsed = d.nearUsed ∧ (d.takeCredit n c).regions = d.regions ∧
    (d.takeCredit n c).serial = d.serial ∧ (d.takeCredit n c).waitClear = d.waitClear ∧
    (d.takeCredit n c).rebuilds = d.rebuilds ∧ (d.takeCredit n c).spareUsed = d.spareUsed ∧
    (d.takeCredit n c).hourStart = d.hourStart ∧ (d.takeCredit n c).peerMedian = d.peerMedian ∧
    (d.takeCredit n c).ctxs = d.ctxs ∧ (d.takeCredit n c).wins = d.wins ∧ (d.takeCredit n c).ranks = d.ranks ∧
    (d.takeCredit n c).cxlTrans = d.cxlTrans ∧ (d.takeCredit n c).heads = d.heads ∧
    (d.takeCredit n c).leases = d.leases ∧ (d.takeCredit n c).dir = d.dir ∧ (d.takeCredit n c).dirCached = d.dirCached ∧
    (d.takeCredit n c).winTxns = d.winTxns ∧ (d.takeCredit n c).winWaits = d.winWaits ∧ (d.takeCredit n c).arb = d.arb ∧
    (d.takeCredit n c).rt = d.rt ∧ (d.takeCredit n c).queueGen0 = d.queueGen0 ∧ (d.takeCredit n c).engGen = d.engGen ∧
    (d.takeCredit n c).movGen = d.movGen ∧ (d.takeCredit n c).unitGen = d.unitGen ∧
    (d.takeCredit n c).portGen = d.portGen ∧ (d.takeCredit n c).headGen = d.headGen ∧
    (d.takeCredit n c).tagTimes = d.tagTimes ∧ (d.takeCredit n c).deferred = d.deferred ∧
    (d.takeCredit n c).engReset = d.engReset ∧ (d.takeCredit n c).engFailed = d.engFailed ∧
    (d.takeCredit n c).pair = d.pair ∧ (d.takeCredit n c).hk = d.hk ∧ (d.takeCredit n c).pow = d.pow ∧
    (d.takeCredit n c).tap = d.tap ∧ (d.takeCredit n c).copies = d.copies ∧ (d.takeCredit n c).cur = d.cur ∧
    (d.takeCredit n c).stream = d.stream ∧ (d.takeCredit n c).coreWrites = d.coreWrites ∧
    (d.takeCredit n c).lostMeta = d.lostMeta ∧ (d.takeCredit n c).again = d.again ∧
    (d.takeCredit n c).wantFront = d.wantFront ∧ (d.takeCredit n c).winDone = d.winDone := by
  refine ⟨?_, ?_, ?_, ?_, ?_, ?_, ?_, ?_, ?_, ?_, ?_, ?_, ?_, ?_, ?_, ?_, ?_, ?_, ?_, ?_, ?_, ?_, ?_, ?_, ?_, ?_, ?_, ?_, ?_, ?_, ?_, ?_, ?_, ?_, ?_, ?_, ?_, ?_, ?_, ?_, ?_, ?_, ?_, ?_, ?_, ?_, ?_, ?_, ?_, ?_, ?_, ?_, ?_, ?_, ?_, ?_, ?_, ?_, ?_, ?_, ?_, ?_, ?_, ?_, ?_, ?_, ?_, ?_, ?_⟩ <;> simp [Dev.takeCredit]

@[simp] theorem Dev.putTxn_frame (d : Dev) (t : WinTxn) (x : Option WinTxn) :
    (d.putTxn t x).now = d.now ∧ (d.putTxn t x).free = d.free ∧ (d.putTxn t x).out = d.out ∧
    (d.putTxn t x).sys = d.sys ∧ (d.putTxn t x).evt = d.evt ∧ (d.putTxn t x).sram = d.sram ∧
    (d.putTxn t x).intEnable = d.intEnable ∧ (d.putTxn t x).heartbeat = d.heartbeat ∧ (d.putTxn t x).ctr = d.ctr ∧
    (d.putTxn t x).params = d.params ∧ (d.putTxn t x).pool = d.pool ∧ (d.putTxn t x).units = d.units ∧
    (d.putTxn t x).metaPlace = d.metaPlace ∧ (d.putTxn t x).parts = d.parts ∧ (d.putTxn t x).partRings = d.partRings ∧
    (d.putTxn t x).partMbx = d.partMbx ∧ (d.putTxn t x).keys = d.keys ∧ (d.putTxn t x).wrapped0 = d.wrapped0 ∧
    (d.putTxn t x).wrapped1 = d.wrapped1 ∧ (d.putTxn t x).keyCount = d.keyCount ∧ (d.putTxn t x).groups = d.groups ∧
    (d.putTxn t x).queues = d.queues ∧ (d.putTxn t x).jobs = d.jobs ∧ (d.putTxn t x).nextJob = d.nextJob ∧
    (d.putTxn t x).tallies = d.tallies ∧ (d.putTxn t x).pairs = d.pairs ∧ (d.putTxn t x).objs = d.objs ∧
    (d.putTxn t x).seqPages = d.seqPages ∧ (d.putTxn t x).nearUsed = d.nearUsed ∧ (d.putTxn t x).regions = d.regions ∧
    (d.putTxn t x).serial = d.serial ∧ (d.putTxn t x).waitClear = d.waitClear ∧ (d.putTxn t x).rebuilds = d.rebuilds ∧
    (d.putTxn t x).spareUsed = d.spareUsed ∧ (d.putTxn t x).hourStart = d.hourStart ∧
    (d.putTxn t x).peerMedian = d.peerMedian ∧ (d.putTxn t x).ctxs = d.ctxs ∧ (d.putTxn t x).wins = d.wins ∧
    (d.putTxn t x).ranks = d.ranks ∧ (d.putTxn t x).cxlTrans = d.cxlTrans ∧ (d.putTxn t x).heads = d.heads ∧
    (d.putTxn t x).leases = d.leases ∧ (d.putTxn t x).dir = d.dir ∧ (d.putTxn t x).dirCached = d.dirCached ∧
    (d.putTxn t x).winWaits = d.winWaits ∧ (d.putTxn t x).ports = d.ports ∧ (d.putTxn t x).arb = d.arb ∧
    (d.putTxn t x).rt = d.rt ∧ (d.putTxn t x).queueGen0 = d.queueGen0 ∧ (d.putTxn t x).engGen = d.engGen ∧
    (d.putTxn t x).movGen = d.movGen ∧ (d.putTxn t x).unitGen = d.unitGen ∧ (d.putTxn t x).portGen = d.portGen ∧
    (d.putTxn t x).headGen = d.headGen ∧ (d.putTxn t x).tagTimes = d.tagTimes ∧ (d.putTxn t x).deferred = d.deferred ∧
    (d.putTxn t x).engReset = d.engReset ∧ (d.putTxn t x).engFailed = d.engFailed ∧ (d.putTxn t x).pair = d.pair ∧
    (d.putTxn t x).hk = d.hk ∧ (d.putTxn t x).pow = d.pow ∧ (d.putTxn t x).tap = d.tap ∧
    (d.putTxn t x).copies = d.copies ∧ (d.putTxn t x).cur = d.cur ∧ (d.putTxn t x).stream = d.stream ∧
    (d.putTxn t x).coreWrites = d.coreWrites ∧ (d.putTxn t x).lostMeta = d.lostMeta ∧ (d.putTxn t x).again = d.again ∧
    (d.putTxn t x).wantFront = d.wantFront ∧ (d.putTxn t x).winDone = d.winDone := by
  refine ⟨?_, ?_, ?_, ?_, ?_, ?_, ?_, ?_, ?_, ?_, ?_, ?_, ?_, ?_, ?_, ?_, ?_, ?_, ?_, ?_, ?_, ?_, ?_, ?_, ?_, ?_, ?_, ?_, ?_, ?_, ?_, ?_, ?_, ?_, ?_, ?_, ?_, ?_, ?_, ?_, ?_, ?_, ?_, ?_, ?_, ?_, ?_, ?_, ?_, ?_, ?_, ?_, ?_, ?_, ?_, ?_, ?_, ?_, ?_, ?_, ?_, ?_, ?_, ?_, ?_, ?_, ?_, ?_, ?_, ?_⟩ <;> rfl

end Sys2Proof.Machine
end

