-- ==== Sys2Proof/Laws/Events.lean ====
section
/-! SUPPORT. Everything that writing a line and raising an event can change. -/

namespace Sys2Proof.Machine

open Sys2Proof

/-- Marking a parity range stale touches the regions alone (R165). -/
@[simp] theorem Dev.markStale_frame (d : Dev) (m line : Nat) :
    (d.markStale m line).now = d.now ∧ (d.markStale m line).free = d.free ∧ (d.markStale m line).out = d.out ∧
    (d.markStale m line).sys = d.sys ∧ (d.markStale m line).evt = d.evt ∧ (d.markStale m line).sram = d.sram ∧
    (d.markStale m line).intEnable = d.intEnable ∧ (d.markStale m line).heartbeat = d.heartbeat ∧
    (d.markStale m line).ctr = d.ctr ∧ (d.markStale m line).params = d.params ∧ (d.markStale m line).pool = d.pool ∧
    (d.markStale m line).units = d.units ∧ (d.markStale m line).metaPlace = d.metaPlace ∧
    (d.markStale m line).parts = d.parts ∧ (d.markStale m line).partRings = d.partRings ∧
    (d.markStale m line).partMbx = d.partMbx ∧ (d.markStale m line).keys = d.keys ∧
    (d.markStale m line).wrapped0 = d.wrapped0 ∧ (d.markStale m line).wrapped1 = d.wrapped1 ∧
    (d.markStale m line).keyCount = d.keyCount ∧ (d.markStale m line).groups = d.groups ∧
    (d.markStale m line).queues = d.queues ∧ (d.markStale m line).jobs = d.jobs ∧
    (d.markStale m line).nextJob = d.nextJob ∧ (d.markStale m line).tallies = d.tallies ∧
    (d.markStale m line).pairs = d.pairs ∧ (d.markStale m line).objs = d.objs ∧
    (d.markStale m line).seqPages = d.seqPages ∧ (d.markStale m line).nearUsed = d.nearUsed ∧
    (d.markStale m line).serial = d.serial ∧ (d.markStale m line).waitClear = d.waitClear ∧
    (d.markStale m line).rebuilds = d.rebuilds ∧ (d.markStale m line).spareUsed = d.spareUsed ∧
    (d.markStale m line).hourStart = d.hourStart ∧ (d.markStale m line).peerMedian = d.peerMedian ∧
    (d.markStale m line).ctxs = d.ctxs ∧ (d.markStale m line).wins = d.wins ∧ (d.markStale m line).ranks = d.ranks ∧
    (d.markStale m line).cxlTrans = d.cxlTrans ∧ (d.markStale m line).heads = d.heads ∧
    (d.markStale m line).leases = d.leases ∧ (d.markStale m line).dir = d.dir ∧
    (d.markStale m line).dirCached = d.dirCached ∧ (d.markStale m line).winTxns = d.winTxns ∧
    (d.markStale m line).winWaits = d.winWaits ∧ (d.markStale m line).ports = d.ports ∧
    (d.markStale m line).arb = d.arb ∧ (d.markStale m line).rt = d.rt ∧ (d.markStale m line).queueGen0 = d.queueGen0 ∧
    (d.markStale m line).engGen = d.engGen ∧ (d.markStale m line).movGen = d.movGen ∧
    (d.markStale m line).unitGen = d.unitGen ∧ (d.markStale m line).portGen = d.portGen ∧
    (d.markStale m line).headGen = d.headGen ∧ (d.markStale m line).tagTimes = d.tagTimes ∧
    (d.markStale m line).deferred = d.deferred ∧ (d.markStale m line).engReset = d.engReset ∧
    (d.markStale m line).engFailed = d.engFailed ∧ (d.markStale m line).pair = d.pair ∧ (d.markStale m line).hk = d.hk ∧
    (d.markStale m line).pow = d.pow ∧ (d.markStale m line).tap = d.tap ∧ (d.markStale m line).copies = d.copies ∧
    (d.markStale m line).cur = d.cur ∧ (d.markStale m line).stream = d.stream ∧
    (d.markStale m line).coreWrites = d.coreWrites ∧ (d.markStale m line).lostMeta = d.lostMeta ∧
    (d.markStale m line).again = d.again ∧ (d.markStale m line).wantFront = d.wantFront ∧
    (d.markStale m line).winDone = d.winDone := by
  unfold Dev.markStale
  split
  · split <;> refine ⟨?_, ?_, ?_, ?_, ?_, ?_, ?_, ?_, ?_, ?_, ?_, ?_, ?_, ?_, ?_, ?_, ?_, ?_, ?_, ?_, ?_, ?_, ?_, ?_, ?_, ?_, ?_, ?_, ?_, ?_, ?_, ?_, ?_, ?_, ?_, ?_, ?_, ?_, ?_, ?_, ?_, ?_, ?_, ?_, ?_, ?_, ?_, ?_, ?_, ?_, ?_, ?_, ?_, ?_, ?_, ?_, ?_, ?_, ?_, ?_, ?_, ?_, ?_, ?_, ?_, ?_, ?_, ?_, ?_, ?_⟩ <;> rfl
  · refine ⟨?_, ?_, ?_, ?_, ?_, ?_, ?_, ?_, ?_, ?_, ?_, ?_, ?_, ?_, ?_, ?_, ?_, ?_, ?_, ?_, ?_, ?_, ?_, ?_, ?_, ?_, ?_, ?_, ?_, ?_, ?_, ?_, ?_, ?_, ?_, ?_, ?_, ?_, ?_, ?_, ?_, ?_, ?_, ?_, ?_, ?_, ?_, ?_, ?_, ?_, ?_, ?_, ?_, ?_, ?_, ?_, ?_, ?_, ?_, ?_, ?_, ?_, ?_, ?_, ?_, ?_, ?_, ?_, ?_, ?_⟩ <;> rfl

/-- A line write touches the arrays and the parity marks alone (R150, R165). -/
@[simp] theorem Dev.putLine_frame (d : Dev) (m line : Nat) (x : Line) :
    (d.putLine m line x).now = d.now ∧ (d.putLine m line x).free = d.free ∧ (d.putLine m line x).out = d.out ∧
    (d.putLine m line x).sys = d.sys ∧ (d.putLine m line x).evt = d.evt ∧ (d.putLine m line x).sram = d.sram ∧
    (d.putLine m line x).intEnable = d.intEnable ∧ (d.putLine m line x).heartbeat = d.heartbeat ∧
    (d.putLine m line x).ctr = d.ctr ∧ (d.putLine m line x).params = d.params ∧ (d.putLine m line x).units = d.units ∧
    (d.putLine m line x).metaPlace = d.metaPlace ∧ (d.putLine m line x).parts = d.parts ∧
    (d.putLine m line x).partRings = d.partRings ∧ (d.putLine m line x).partMbx = d.partMbx ∧
    (d.putLine m line x).keys = d.keys ∧ (d.putLine m line x).wrapped0 = d.wrapped0 ∧
    (d.putLine m line x).wrapped1 = d.wrapped1 ∧ (d.putLine m line x).keyCount = d.keyCount ∧
    (d.putLine m line x).groups = d.groups ∧ (d.putLine m line x).queues = d.queues ∧
    (d.putLine m line x).jobs = d.jobs ∧ (d.putLine m line x).nextJob = d.nextJob ∧
    (d.putLine m line x).tallies = d.tallies ∧ (d.putLine m line x).pairs = d.pairs ∧
    (d.putLine m line x).objs = d.objs ∧ (d.putLine m line x).seqPages = d.seqPages ∧
    (d.putLine m line x).nearUsed = d.nearUsed ∧ (d.putLine m line x).serial = d.serial ∧
    (d.putLine m line x).waitClear = d.waitClear ∧ (d.putLine m line x).rebuilds = d.rebuilds ∧
    (d.putLine m line x).spareUsed = d.spareUsed ∧ (d.putLine m line x).hourStart = d.hourStart ∧
    (d.putLine m line x).peerMedian = d.peerMedian ∧ (d.putLine m line x).ctxs = d.ctxs ∧
    (d.putLine m line x).wins = d.wins ∧ (d.putLine m line x).ranks = d.ranks ∧
    (d.putLine m line x).cxlTrans = d.cxlTrans ∧ (d.putLine m line x).heads = d.heads ∧
    (d.putLine m line x).leases = d.leases ∧ (d.putLine m line x).dir = d.dir ∧
    (d.putLine m line x).dirCached = d.dirCached ∧ (d.putLine m line x).winTxns = d.winTxns ∧
    (d.putLine m line x).winWaits = d.winWaits ∧ (d.putLine m line x).ports = d.ports ∧
    (d.putLine m line x).arb = d.arb ∧ (d.putLine m line x).rt = d.rt ∧ (d.putLine m line x).queueGen0 = d.queueGen0 ∧
    (d.putLine m line x).engGen = d.engGen ∧ (d.putLine m line x).movGen = d.movGen ∧
    (d.putLine m line x).unitGen = d.unitGen ∧ (d.putLine m line x).portGen = d.portGen ∧
    (d.putLine m line x).headGen = d.headGen ∧ (d.putLine m line x).tagTimes = d.tagTimes ∧
    (d.putLine m line x).deferred = d.deferred ∧ (d.putLine m line x).engReset = d.engReset ∧
    (d.putLine m line x).engFailed = d.engFailed ∧ (d.putLine m line x).pair = d.pair ∧ (d.putLine m line x).hk = d.hk ∧
    (d.putLine m line x).pow = d.pow ∧ (d.putLine m line x).tap = d.tap ∧ (d.putLine m line x).copies = d.copies ∧
    (d.putLine m line x).cur = d.cur ∧ (d.putLine m line x).stream = d.stream ∧
    (d.putLine m line x).coreWrites = d.coreWrites ∧ (d.putLine m line x).lostMeta = d.lostMeta ∧
    (d.putLine m line x).again = d.again ∧ (d.putLine m line x).wantFront = d.wantFront ∧
    (d.putLine m line x).winDone = d.winDone := by
  simp [Dev.putLine]

@[simp] theorem Dev.quietStore_frame (d : Dev) (c a : Nat) (x : Line) :
    (d.quietStore c a x).now = d.now ∧ (d.quietStore c a x).free = d.free ∧ (d.quietStore c a x).out = d.out ∧
    (d.quietStore c a x).sys = d.sys ∧ (d.quietStore c a x).evt = d.evt ∧ (d.quietStore c a x).sram = d.sram ∧
    (d.quietStore c a x).intEnable = d.intEnable ∧ (d.quietStore c a x).heartbeat = d.heartbeat ∧
    (d.quietStore c a x).ctr = d.ctr ∧ (d.quietStore c a x).params = d.params ∧ (d.quietStore c a x).units = d.units ∧
    (d.quietStore c a x).metaPlace = d.metaPlace ∧ (d.quietStore c a x).parts = d.parts ∧
    (d.quietStore c a x).partRings = d.partRings ∧ (d.quietStore c a x).partMbx = d.partMbx ∧
    (d.quietStore c a x).keys = d.keys ∧ (d.quietStore c a x).wrapped0 = d.wrapped0 ∧
    (d.quietStore c a x).wrapped1 = d.wrapped1 ∧ (d.quietStore c a x).keyCount = d.keyCount ∧
    (d.quietStore c a x).groups = d.groups ∧ (d.quietStore c a x).queues = d.queues ∧
    (d.quietStore c a x).jobs = d.jobs ∧ (d.quietStore c a x).nextJob = d.nextJob ∧
    (d.quietStore c a x).tallies = d.tallies ∧ (d.quietStore c a x).pairs = d.pairs ∧
    (d.quietStore c a x).objs = d.objs ∧ (d.quietStore c a x).seqPages = d.seqPages ∧
    (d.quietStore c a x).nearUsed = d.nearUsed ∧ (d.quietStore c a x).serial = d.serial ∧
    (d.quietStore c a x).waitClear = d.waitClear ∧ (d.quietStore c a x).rebuilds = d.rebuilds ∧
    (d.quietStore c a x).spareUsed = d.spareUsed ∧ (d.quietStore c a x).hourStart = d.hourStart ∧
    (d.quietStore c a x).peerMedian = d.peerMedian ∧ (d.quietStore c a x).ctxs = d.ctxs ∧
    (d.quietStore c a x).wins = d.wins ∧ (d.quietStore c a x).ranks = d.ranks ∧
    (d.quietStore c a x).cxlTrans = d.cxlTrans ∧ (d.quietStore c a x).heads = d.heads ∧
    (d.quietStore c a x).leases = d.leases ∧ (d.quietStore c a x).dir = d.dir ∧
    (d.quietStore c a x).dirCached = d.dirCached ∧ (d.quietStore c a x).winTxns = d.winTxns ∧
    (d.quietStore c a x).winWaits = d.winWaits ∧ (d.quietStore c a x).ports = d.ports ∧
    (d.quietStore c a x).arb = d.arb ∧ (d.quietStore c a x).rt = d.rt ∧ (d.quietStore c a x).queueGen0 = d.queueGen0 ∧
    (d.quietStore c a x).engGen = d.engGen ∧ (d.quietStore c a x).movGen = d.movGen ∧
    (d.quietStore c a x).unitGen = d.unitGen ∧ (d.quietStore c a x).portGen = d.portGen ∧
    (d.quietStore c a x).headGen = d.headGen ∧ (d.quietStore c a x).tagTimes = d.tagTimes ∧
    (d.quietStore c a x).deferred = d.deferred ∧ (d.quietStore c a x).engReset = d.engReset ∧
    (d.quietStore c a x).engFailed = d.engFailed ∧ (d.quietStore c a x).pair = d.pair ∧ (d.quietStore c a x).hk = d.hk ∧
    (d.quietStore c a x).pow = d.pow ∧ (d.quietStore c a x).tap = d.tap ∧ (d.quietStore c a x).copies = d.copies ∧
    (d.quietStore c a x).cur = d.cur ∧ (d.quietStore c a x).stream = d.stream ∧
    (d.quietStore c a x).lostMeta = d.lostMeta ∧ (d.quietStore c a x).again = d.again ∧
    (d.quietStore c a x).wantFront = d.wantFront ∧ (d.quietStore c a x).winDone = d.winDone := by
  unfold Dev.quietStore
  split
  · simp
  · split <;> simp

@[simp] theorem Dev.putDevEvent_frame (d : Dev) (e : Event) :
    (d.putDevEvent e).now = d.now ∧ (d.putDevEvent e).free = d.free ∧ (d.putDevEvent e).sys = d.sys ∧
    (d.putDevEvent e).intEnable = d.intEnable ∧ (d.putDevEvent e).heartbeat = d.heartbeat ∧
    (d.putDevEvent e).ctr = d.ctr ∧ (d.putDevEvent e).params = d.params ∧ (d.putDevEvent e).pool = d.pool ∧
    (d.putDevEvent e).units = d.units ∧ (d.putDevEvent e).metaPlace = d.metaPlace ∧ (d.putDevEvent e).parts = d.parts ∧
    (d.putDevEvent e).partRings = d.partRings ∧ (d.putDevEvent e).partMbx = d.partMbx ∧
    (d.putDevEvent e).keys = d.keys ∧ (d.putDevEvent e).wrapped0 = d.wrapped0 ∧
    (d.putDevEvent e).wrapped1 = d.wrapped1 ∧ (d.putDevEvent e).keyCount = d.keyCount ∧
    (d.putDevEvent e).groups = d.groups ∧ (d.putDevEvent e).queues = d.queues ∧ (d.putDevEvent e).jobs = d.jobs ∧
    (d.putDevEvent e).nextJob = d.nextJob ∧ (d.putDevEvent e).tallies = d.tallies ∧ (d.putDevEvent e).pairs = d.pairs ∧
    (d.putDevEvent e).objs = d.objs ∧ (d.putDevEvent e).seqPages = d.seqPages ∧
    (d.putDevEvent e).nearUsed = d.nearUsed ∧ (d.putDevEvent e).regions = d.regions ∧
    (d.putDevEvent e).serial = d.serial ∧ (d.putDevEvent e).waitClear = d.waitClear ∧
    (d.putDevEvent e).rebuilds = d.rebuilds ∧ (d.putDevEvent e).spareUsed = d.spareUsed ∧
    (d.putDevEvent e).hourStart = d.hourStart ∧ (d.putDevEvent e).peerMedian = d.peerMedian ∧
    (d.putDevEvent e).ctxs = d.ctxs ∧ (d.putDevEvent e).wins = d.wins ∧ (d.putDevEvent e).ranks = d.ranks ∧
    (d.putDevEvent e).cxlTrans = d.cxlTrans ∧ (d.putDevEvent e).heads = d.heads ∧ (d.putDevEvent e).leases = d.leases ∧
    (d.putDevEvent e).dir = d.dir ∧ (d.putDevEvent e).dirCached = d.dirCached ∧ (d.putDevEvent e).winTxns = d.winTxns ∧
    (d.putDevEvent e).winWaits = d.winWaits ∧ (d.putDevEvent e).ports = d.ports ∧ (d.putDevEvent e).arb = d.arb ∧
    (d.putDevEvent e).rt = d.rt ∧ (d.putDevEvent e).queueGen0 = d.queueGen0 ∧ (d.putDevEvent e).engGen = d.engGen ∧
    (d.putDevEvent e).movGen = d.movGen ∧ (d.putDevEvent e).unitGen = d.unitGen ∧
    (d.putDevEvent e).portGen = d.portGen ∧ (d.putDevEvent e).headGen = d.headGen ∧
    (d.putDevEvent e).tagTimes = d.tagTimes ∧ (d.putDevEvent e).deferred = d.deferred ∧
    (d.putDevEvent e).engReset = d.engReset ∧ (d.putDevEvent e).engFailed = d.engFailed ∧
    (d.putDevEvent e).pair = d.pair ∧ (d.putDevEvent e).hk = d.hk ∧ (d.putDevEvent e).pow = d.pow ∧
    (d.putDevEvent e).tap = d.tap ∧ (d.putDevEvent e).copies = d.copies ∧ (d.putDevEvent e).cur = d.cur ∧
    (d.putDevEvent e).stream = d.stream ∧ (d.putDevEvent e).coreWrites = d.coreWrites ∧
    (d.putDevEvent e).lostMeta = d.lostMeta ∧ (d.putDevEvent e).again = d.again ∧
    (d.putDevEvent e).wantFront = d.wantFront ∧ (d.putDevEvent e).winDone = d.winDone := by
  unfold Dev.putDevEvent
  split
  · simp
  · simp only []
    split <;> simp

@[simp] theorem Dev.putRingControl_frame (d : Dev) (p : Nat) :
    (d.putRingControl p).now = d.now ∧ (d.putRingControl p).free = d.free ∧ (d.putRingControl p).out = d.out ∧
    (d.putRingControl p).sys = d.sys ∧ (d.putRingControl p).evt = d.evt ∧ (d.putRingControl p).sram = d.sram ∧
    (d.putRingControl p).intEnable = d.intEnable ∧ (d.putRingControl p).heartbeat = d.heartbeat ∧
    (d.putRingControl p).ctr = d.ctr ∧ (d.putRingControl p).params = d.params ∧ (d.putRingControl p).units = d.units ∧
    (d.putRingControl p).metaPlace = d.metaPlace ∧ (d.putRingControl p).parts = d.parts ∧
    (d.putRingControl p).partRings = d.partRings ∧ (d.putRingControl p).partMbx = d.partMbx ∧
    (d.putRingControl p).keys = d.keys ∧ (d.putRingControl p).wrapped0 = d.wrapped0 ∧
    (d.putRingControl p).wrapped1 = d.wrapped1 ∧ (d.putRingControl p).keyCount = d.keyCount ∧
    (d.putRingControl p).groups = d.groups ∧ (d.putRingControl p).queues = d.queues ∧
    (d.putRingControl p).jobs = d.jobs ∧ (d.putRingControl p).nextJob = d.nextJob ∧
    (d.putRingControl p).tallies = d.tallies ∧ (d.putRingControl p).pairs = d.pairs ∧
    (d.putRingControl p).objs = d.objs ∧ (d.putRingControl p).seqPages = d.seqPages ∧
    (d.putRingControl p).nearUsed = d.nearUsed ∧ (d.putRingControl p).serial = d.serial ∧
    (d.putRingControl p).waitClear = d.waitClear ∧ (d.putRingControl p).rebuilds = d.rebuilds ∧
    (d.putRingControl p).spareUsed = d.spareUsed ∧ (d.putRingControl p).hourStart = d.hourStart ∧
    (d.putRingControl p).peerMedian = d.peerMedian ∧ (d.putRingControl p).ctxs = d.ctxs ∧
    (d.putRingControl p).wins = d.wins ∧ (d.putRingControl p).ranks = d.ranks ∧
    (d.putRingControl p).cxlTrans = d.cxlTrans ∧ (d.putRingControl p).heads = d.heads ∧
    (d.putRingControl p).leases = d.leases ∧ (d.putRingControl p).dir = d.dir ∧
    (d.putRingControl p).dirCached = d.dirCached ∧ (d.putRingControl p).winTxns = d.winTxns ∧
    (d.putRingControl p).winWaits = d.winWaits ∧ (d.putRingControl p).ports = d.ports ∧
    (d.putRingControl p).arb = d.arb ∧ (d.putRingControl p).rt = d.rt ∧ (d.putRingControl p).queueGen0 = d.queueGen0 ∧
    (d.putRingControl p).engGen = d.engGen ∧ (d.putRingControl p).movGen = d.movGen ∧
    (d.putRingControl p).unitGen = d.unitGen ∧ (d.putRingControl p).portGen = d.portGen ∧
    (d.putRingControl p).headGen = d.headGen ∧ (d.putRingControl p).tagTimes = d.tagTimes ∧
    (d.putRingControl p).deferred = d.deferred ∧ (d.putRingControl p).engReset = d.engReset ∧
    (d.putRingControl p).engFailed = d.engFailed ∧ (d.putRingControl p).pair = d.pair ∧ (d.putRingControl p).hk = d.hk ∧
    (d.putRingControl p).pow = d.pow ∧ (d.putRingControl p).tap = d.tap ∧ (d.putRingControl p).copies = d.copies ∧
    (d.putRingControl p).cur = d.cur ∧ (d.putRingControl p).stream = d.stream ∧
    (d.putRingControl p).lostMeta = d.lostMeta ∧ (d.putRingControl p).again = d.again ∧
    (d.putRingControl p).wantFront = d.wantFront ∧ (d.putRingControl p).winDone = d.winDone := by
  unfold Dev.putRingControl
  split <;> simp

@[simp] theorem Dev.putPartEvent_frame (d : Dev) (p : Nat) (e : Event) :
    (d.putPartEvent p e).now = d.now ∧ (d.putPartEvent p e).free = d.free ∧ (d.putPartEvent p e).out = d.out ∧
    (d.putPartEvent p e).sys = d.sys ∧ (d.putPartEvent p e).evt = d.evt ∧ (d.putPartEvent p e).sram = d.sram ∧
    (d.putPartEvent p e).intEnable = d.intEnable ∧ (d.putPartEvent p e).heartbeat = d.heartbeat ∧
    (d.putPartEvent p e).ctr = d.ctr ∧ (d.putPartEvent p e).params = d.params ∧ (d.putPartEvent p e).units = d.units ∧
    (d.putPartEvent p e).metaPlace = d.metaPlace ∧ (d.putPartEvent p e).parts = d.parts ∧
    (d.putPartEvent p e).partMbx = d.partMbx ∧ (d.putPartEvent p e).keys = d.keys ∧
    (d.putPartEvent p e).wrapped0 = d.wrapped0 ∧ (d.putPartEvent p e).wrapped1 = d.wrapped1 ∧
    (d.putPartEvent p e).keyCount = d.keyCount ∧ (d.putPartEvent p e).groups = d.groups ∧
    (d.putPartEvent p e).queues = d.queues ∧ (d.putPartEvent p e).jobs = d.jobs ∧
    (d.putPartEvent p e).nextJob = d.nextJob ∧ (d.putPartEvent p e).tallies = d.tallies ∧
    (d.putPartEvent p e).pairs = d.pairs ∧ (d.putPartEvent p e).objs = d.objs ∧
    (d.putPartEvent p e).seqPages = d.seqPages ∧ (d.putPartEvent p e).nearUsed = d.nearUsed ∧
    (d.putPartEvent p e).serial = d.serial ∧ (d.putPartEvent p e).waitClear = d.waitClear ∧
    (d.putPartEvent p e).rebuilds = d.rebuilds ∧ (d.putPartEvent p e).spareUsed = d.spareUsed ∧
    (d.putPartEvent p e).hourStart = d.hourStart ∧ (d.putPartEvent p e).peerMedian = d.peerMedian ∧
    (d.putPartEvent p e).ctxs = d.ctxs ∧ (d.putPartEvent p e).wins = d.wins ∧ (d.putPartEvent p e).ranks = d.ranks ∧
    (d.putPartEvent p e).cxlTrans = d.cxlTrans ∧ (d.putPartEvent p e).heads = d.heads ∧
    (d.putPartEvent p e).leases = d.leases ∧ (d.putPartEvent p e).dir = d.dir ∧
    (d.putPartEvent p e).dirCached = d.dirCached ∧ (d.putPartEvent p e).winTxns = d.winTxns ∧
    (d.putPartEvent p e).winWaits = d.winWaits ∧ (d.putPartEvent p e).ports = d.ports ∧
    (d.putPartEvent p e).arb = d.arb ∧ (d.putPartEvent p e).rt = d.rt ∧ (d.putPartEvent p e).queueGen0 = d.queueGen0 ∧
    (d.putPartEvent p e).engGen = d.engGen ∧ (d.putPartEvent p e).movGen = d.movGen ∧
    (d.putPartEvent p e).unitGen = d.unitGen ∧ (d.putPartEvent p e).portGen = d.portGen ∧
    (d.putPartEvent p e).headGen = d.headGen ∧ (d.putPartEvent p e).tagTimes = d.tagTimes ∧
    (d.putPartEvent p e).deferred = d.deferred ∧ (d.putPartEvent p e).engReset = d.engReset ∧
    (d.putPartEvent p e).engFailed = d.engFailed ∧ (d.putPartEvent p e).pair = d.pair ∧ (d.putPartEvent p e).hk = d.hk ∧
    (d.putPartEvent p e).pow = d.pow ∧ (d.putPartEvent p e).tap = d.tap ∧ (d.putPartEvent p e).copies = d.copies ∧
    (d.putPartEvent p e).cur = d.cur ∧ (d.putPartEvent p e).stream = d.stream ∧
    (d.putPartEvent p e).lostMeta = d.lostMeta ∧ (d.putPartEvent p e).again = d.again ∧
    (d.putPartEvent p e).wantFront = d.wantFront ∧ (d.putPartEvent p e).winDone = d.winDone := by
  unfold Dev.putPartEvent
  split
  · simp
  · split <;> simp

/-- Raising an event touches the outputs, the event rings and, for a FATAL event, the alert (R297, R300, R400). -/
@[simp] theorem Dev.raise_frame (d : Dev) (e : Event) :
    (d.raise e).now = d.now ∧ (d.raise e).free = d.free ∧ (d.raise e).intEnable = d.intEnable ∧
    (d.raise e).heartbeat = d.heartbeat ∧ (d.raise e).ctr = d.ctr ∧ (d.raise e).params = d.params ∧
    (d.raise e).units = d.units ∧ (d.raise e).metaPlace = d.metaPlace ∧ (d.raise e).parts = d.parts ∧
    (d.raise e).partMbx = d.partMbx ∧ (d.raise e).keys = d.keys ∧ (d.raise e).wrapped0 = d.wrapped0 ∧
    (d.raise e).wrapped1 = d.wrapped1 ∧ (d.raise e).keyCount = d.keyCount ∧ (d.raise e).groups = d.groups ∧
    (d.raise e).queues = d.queues ∧ (d.raise e).jobs = d.jobs ∧ (d.raise e).nextJob = d.nextJob ∧
    (d.raise e).tallies = d.tallies ∧ (d.raise e).pairs = d.pairs ∧ (d.raise e).objs = d.objs ∧
    (d.raise e).seqPages = d.seqPages ∧ (d.raise e).nearUsed = d.nearUsed ∧ (d.raise e).serial = d.serial ∧
    (d.raise e).waitClear = d.waitClear ∧ (d.raise e).rebuilds = d.rebuilds ∧ (d.raise e).spareUsed = d.spareUsed ∧
    (d.raise e).hourStart = d.hourStart ∧ (d.raise e).peerMedian = d.peerMedian ∧ (d.raise e).ctxs = d.ctxs ∧
    (d.raise e).wins = d.wins ∧ (d.raise e).ranks = d.ranks ∧ (d.raise e).cxlTrans = d.cxlTrans ∧
    (d.raise e).heads = d.heads ∧ (d.raise e).leases = d.leases ∧ (d.raise e).dir = d.dir ∧
    (d.raise e).dirCached = d.dirCached ∧ (d.raise e).winTxns = d.winTxns ∧ (d.raise e).winWaits = d.winWaits ∧
    (d.raise e).ports = d.ports ∧ (d.raise e).arb = d.arb ∧ (d.raise e).rt = d.rt ∧
    (d.raise e).queueGen0 = d.queueGen0 ∧ (d.raise e).engGen = d.engGen ∧ (d.raise e).movGen = d.movGen ∧
    (d.raise e).unitGen = d.unitGen ∧ (d.raise e).portGen = d.portGen ∧ (d.raise e).headGen = d.headGen ∧
    (d.raise e).tagTimes = d.tagTimes ∧ (d.raise e).deferred = d.deferred ∧ (d.raise e).engReset = d.engReset ∧
    (d.raise e).engFailed = d.engFailed ∧ (d.raise e).pair = d.pair ∧ (d.raise e).hk = d.hk ∧ (d.raise e).pow = d.pow ∧
    (d.raise e).tap = d.tap ∧ (d.raise e).copies = d.copies ∧ (d.raise e).cur = d.cur ∧ (d.raise e).stream = d.stream ∧
    (d.raise e).lostMeta = d.lostMeta ∧ (d.raise e).again = d.again ∧ (d.raise e).wantFront = d.wantFront ∧
    (d.raise e).winDone = d.winDone := by
  unfold Dev.raise
  cases e.part <;> simp only [] <;> split <;> simp

/-- An event of no partition touches neither the arrays nor the regions. -/
theorem Dev.raise_frame_device (d : Dev) (e : Event) (h : e.part = none) :
    (d.raise e).pool = d.pool ∧ (d.raise e).regions = d.regions ∧ (d.raise e).partRings = d.partRings := by
  unfold Dev.raise
  rw [h]
  simp only []
  split <;> simp

/-- An event that is not FATAL leaves the boot and life-cycle state. -/
theorem Dev.raise_sys (d : Dev) (e : Event) (h : severity e ≠ 3) : (d.raise e).sys = d.sys := by
  unfold Dev.raise
  cases e.part <;> simp [h]

/-- An event raised is among the outputs. -/
theorem Dev.raise_out (d : Dev) (e : Event) : ∃ r, (d.raise e).out = d.out ++ .event e :: r := by
  have hd : ∃ r, ((d.emit (.event e)).putDevEvent e).out = d.out ++ .event e :: r := by
    unfold Dev.putDevEvent
    split
    · exact ⟨[], rfl⟩
    · simp only []
      split
      · exact ⟨[.msix 1], by simp [Dev.emit]⟩
      · exact ⟨[], by simp [Dev.emit]⟩
  obtain ⟨r, hr⟩ := hd
  refine ⟨r, ?_⟩
  unfold Dev.raise
  cases e.part <;> simp only [] <;> split <;> simp [hr]

theorem foldl_poison_cells (l : List Extent) (f : Extent → Bool) (g : Extent → Nat × Nat) (p : Pool) :
    (l.foldl (fun q e => if f e then q else q.poisonLine (g e).1 (g e).2) p).cells = p.cells := by
  induction l generalizing p with
  | nil => rfl
  | cons e l ih =>
    simp only [List.foldl_cons]
    rw [ih]
    split <;> simp

@[simp] theorem Dev.reformParity_cells (d : Dev) (g : ParityGroup) (es : List Extent) (off : Nat) :
    (d.reformParity g es off).cells = d.pool.cells := by
  unfold Dev.reformParity
  simp only [Pool.setFault_cells]
  exact foldl_poison_cells (es.drop 1) (fun e => d.readableLine (d.groupLine e off).1 (d.groupLine e off).2)
    (fun e => d.groupLine e off) d.pool

/-- The parity step of a write changes no data that a line holds. -/
@[simp] theorem Dev.parityPool_cells (d : Dev) (m line : Nat) : (d.parityPool m line).cells = d.pool.cells := by
  unfold Dev.parityPool
  split
  · split
    · rfl
    · simp only []
      split
      · rfl
      · split
        · simp [Pool.setFault_cells]
        · simp
  · rfl

@[simp] theorem Dev.putLine_pool (d : Dev) (m line : Nat) (x : Line) :
    (d.putLine m line x).pool = (d.parityPool m line).store m line x := by
  unfold Dev.putLine
  generalize (d.parityPool m line).store m line x = q
  unfold Dev.markStale
  split
  · split <;> rfl
  · rfl

end Sys2Proof.Machine
end

