-- ==== Sys2Proof/Laws/Parity.lean ====
section
/-! SUPPORT. A parity line moves, with a write to one of its group's lines, by that line's old and new stored data (R164). -/

namespace Sys2Proof.Machine

open Sys2Proof

/-- The XOR of lines over a list, from a start value. -/
theorem xor_foldl_start {α : Type} (f : α → Line) (es : List α) (a : Line) :
    es.foldl (fun acc e => acc ^^^ f e) a = a ^^^ es.foldl (fun acc e => acc ^^^ f e) 0 := by
  induction es generalizing a with
  | nil => simp
  | cons x r ih =>
    simp only [List.foldl_cons]
    rw [ih (a ^^^ f x), ih (0 ^^^ f x)]
    simp [BitVec.xor_assoc]

/-- Changing one of the lines moves the XOR by the line's old and new value. -/
theorem xor_foldl_change {α : Type} (f g : α → Line) (e : α) (es : List α) (hn : es.Nodup) (he : e ∈ es)
    (h : ∀ x ∈ es, x ≠ e → g x = f x) :
    es.foldl (fun acc x => acc ^^^ g x) 0 = es.foldl (fun acc x => acc ^^^ f x) 0 ^^^ f e ^^^ g e := by
  induction es with
  | nil => cases he
  | cons x r ih =>
    simp only [List.foldl_cons]
    rw [xor_foldl_start g r (0 ^^^ g x), xor_foldl_start f r (0 ^^^ f x)]
    have z : ∀ a : Line, (0 : Line) ^^^ a = a := fun a => BitVec.zero_xor
    rw [z, z]
    obtain ⟨hx, hr⟩ := List.nodup_cons.mp hn
    rcases List.mem_cons.mp he with rfl | he'
    · have same : r.foldl (fun acc y => acc ^^^ g y) 0 = r.foldl (fun acc y => acc ^^^ f y) 0 := by
        apply List.foldl_ext
        intro acc y hy
        rw [h y (List.mem_cons_of_mem _ hy) (fun q => hx (q ▸ hy))]
      rw [same]
      ext i
      simp only [BitVec.getElem_xor]
      cases (f e)[i] <;> cases (g e)[i] <;> simp
    · have hxe : x ≠ e := fun q => hx (q ▸ he')
      rw [ih hr he' (fun y hy hye => h y (List.mem_cons_of_mem _ hy) hye), h x (List.mem_cons_self ..) hxe]
      simp [BitVec.xor_assoc]

/-- A parity line after one line of its group changed: new parity is old parity, XOR the line's old stored data, XOR its new (R164). -/
theorem Dev.parityField_change (d t : Dev) (exts : List Extent) (off : Nat) (e : Extent) (hn : (exts.drop 1).Nodup)
    (he : e ∈ exts.drop 1) (hl : ∀ x, t.groupLine x off = d.groupLine x off)
    (h : ∀ x ∈ exts.drop 1, x ≠ e → t.storedField (d.groupLine x off).1 (d.groupLine x off).2 =
      d.storedField (d.groupLine x off).1 (d.groupLine x off).2) :
    t.parityField exts off = d.parityField exts off ^^^ d.storedField (d.groupLine e off).1 (d.groupLine e off).2 ^^^
      t.storedField (d.groupLine e off).1 (d.groupLine e off).2 := by
  unfold Dev.parityField
  simp only [hl]
  exact xor_foldl_change (fun x => d.storedField (d.groupLine x off).1 (d.groupLine x off).2)
    (fun x => t.storedField (d.groupLine x off).1 (d.groupLine x off).2) e _ hn he h

end Sys2Proof.Machine
end

