-- ==== Sys2Proof/Laws/Records.lean ====
section
/-! SUPPORT. What the changed record of each update is, and that the other records stay. -/

namespace Sys2Proof.Machine

open Sys2Proof

@[simp] theorem Dev.count_bump_same (d : Dev) (c : Ctr) (n : Nat) : (d.bump c n).count c = d.count c + BitVec.ofNat 64 n := by
  simp [Dev.count, Dev.bump]

theorem Dev.count_bump_other (d : Dev) {c e : Ctr} (n : Nat) (h : e ≠ c) : (d.bump c n).count e = d.count e := by
  simp [Dev.count, Dev.bump, ctrGet_ctrAdd_other _ n h]

@[simp] theorem Dev.emit_out (d : Dev) (o : Output) : (d.emit o).out = d.out ++ [o] := rfl
@[simp] theorem Dev.reach_now (d : Dev) (t : Nat) : (d.reach t).now = max d.now t := rfl

@[simp] theorem Dev.param_setParam_same (d : Dev) (c i : Nat) (v : U64) : (d.setParam c i v).param c i = v := by
  simp [Dev.param, Dev.setParam]

@[simp] theorem Dev.queue_modQueue_same (d : Dev) (q : Nat) (f : Queue → Queue) : (d.modQueue q f).queue q = f (d.queue q) := by
  simp [Dev.queue, Dev.modQueue]

theorem Dev.queue_modQueue_other (d : Dev) {q p : Nat} (f : Queue → Queue) (h : p ≠ q) : (d.modQueue q f).queue p = d.queue p := by
  simp [Dev.queue, Dev.modQueue, tgetD_tmod_other _ _ _ _ h]

@[simp] theorem Dev.unit_modUnit_same (d : Dev) (m : Nat) (f : MemUnit → MemUnit) : (d.modUnit m f).unit m = f (d.unit m) := by
  simp [Dev.unit, Dev.modUnit]

theorem Dev.unit_modUnit_other (d : Dev) {m k : Nat} (f : MemUnit → MemUnit) (h : k ≠ m) : (d.modUnit m f).unit k = d.unit k := by
  simp [Dev.unit, Dev.modUnit, tgetD_tmod_other _ _ _ _ h]

@[simp] theorem Dev.partn_modPart_same (d : Dev) (p : Nat) (f : Partition → Partition) : (d.modPart p f).partn p = f (d.partn p) := by
  simp [Dev.partn, Dev.modPart]

theorem Dev.partn_modPart_other (d : Dev) {p k : Nat} (f : Partition → Partition) (h : k ≠ p) : (d.modPart p f).partn k = d.partn k := by
  simp [Dev.partn, Dev.modPart, tgetD_tmod_other _ _ _ _ h]

@[simp] theorem Dev.port_modPort_same (d : Dev) (n : Nat) (f : Port → Port) : (d.modPort n f).port n = f (d.port n) := by
  simp [Dev.port, Dev.modPort]

theorem Dev.port_modPort_other (d : Dev) {n k : Nat} (f : Port → Port) (h : k ≠ n) : (d.modPort n f).port k = d.port k := by
  simp [Dev.port, Dev.modPort, tgetD_tmod_other _ _ _ _ h]

@[simp] theorem Dev.head_modHead_same (d : Dev) (n : Nat) (f : Head → Head) : (d.modHead n f).head n = f (d.head n) := by
  simp [Dev.head, Dev.modHead]

theorem Dev.head_modHead_other (d : Dev) {n k : Nat} (f : Head → Head) (h : k ≠ n) : (d.modHead n f).head k = d.head k := by
  simp [Dev.head, Dev.modHead, tgetD_tmod_other _ _ _ _ h]

@[simp] theorem Dev.obj_modObj_same (d : Dev) (r i : Nat) (f : Obj → Obj) : (d.modObj r i f).obj r i = f (d.obj r i) := by
  simp [Dev.obj, Dev.modObj]

@[simp] theorem Dev.pages_modPages_same (d : Dev) (r : Nat) (f : SeqPages → SeqPages) : (d.modPages r f).pages r = f (d.pages r) := by
  simp [Dev.pages, Dev.modPages]

@[simp] theorem Dev.group_modGroup_same (d : Dev) (p g : Nat) (f : Group → Group) : (d.modGroup p g f).group p g = f (d.group p g) := by
  simp [Dev.group, Dev.modGroup]

@[simp] theorem Dev.tally_setTally_same (d : Dev) (t : Nat) (v : Tally) : (d.setTally t v).tally t = v := by
  simp [Dev.tally, Dev.setTally]

theorem Dev.tally_setTally_other (d : Dev) {t u : Nat} (v : Tally) (h : u ≠ t) : (d.setTally t v).tally u = d.tally u := by
  simp [Dev.tally, Dev.setTally, tgetD_tset_other _ _ _ h]

@[simp] theorem Dev.modPair_pair (d : Dev) (f : Pair → Pair) : (d.modPair f).pair = f d.pair := rfl

/-- A dropped job is gone. -/
@[simp] theorem Dev.job_dropJob (d : Dev) (i : Nat) : (d.dropJob i).job i = none := by
  simp [Dev.job, Dev.dropJob, List.find?_eq_none]

end Sys2Proof.Machine
end

