-- ==== Sys2Proof/Machine/Layouts.lean ====
section
/-! DEFINITION. The records of device metadata as they lie in memory, least significant bit first (R5): objects and their version slots,
queues, leases, windows, contexts and their segments, rank-table and routing entries, head bindings. Where in metadata a record lies
no rule says (log entry 53). -/

namespace Sys2Proof.Machine

open Sys2Proof

/-- An object record (R51, Table 3.1). -/
def objectRecord (r i : Nat) (o : Obj) : Line :=
  BitVec.ofNat 512 (packBits [(0, 16, r), (16, 16, i), (32, 8, o.gen.toNat), (40, 1, o.flat.toNat),
    (41, 2, match o.state with
      | .free => 0
      | .live => 1
      | .destroying => 2),
    (43, 1, o.pinned.toNat), (44, 4, o.gqM1), (48, 8, o.layersM1), (56, 3, o.kvFormat), (59, 2, o.headDim), (64, 5, o.kvHeadsM1),
    (69, 11, o.chunks), (80, 23, o.length), (128, 21, o.kvBlockBytes), (160, 16, o.summaryBlockBytes), (176, 20, o.kvChunkPages),
    (196, 13, o.sumChunkPages), (224, 32, o.workingRoot), (256, 32, o.latestVersion.toNat), (288, 16, o.parentIndex),
    (304, 8, o.parentGen.toNat), (320, 32, o.flatPages)])

/-- A published-version slot (R58, Table 3.3). -/
def slotRecord (x : PlateSlot) : BitVec 128 :=
  BitVec.ofNat 128 (packBits [(0, 32, x.version.toNat), (32, 26, x.root),
    (58, 2, match x.state with
      | .free => 0
      | .published => 1
      | .discarding => 2),
    (64, 16, x.openCount), (80, 8, x.gen.toNat), (88, 23, x.length)])

/-- A queue record (R113, Table 6.1). -/
def queueRecord (q : Nat) (x : Queue) : Line :=
  BitVec.ofNat 512 (packBits [(0, 18, q), (18, 5, x.partition), (23, 1, x.anyContext.toNat), (24, 16, x.context), (40, 5, x.sqLog2),
    (45, 5, x.cqLog2), (50, 4, x.group), (54, 2, x.prioCap),
    (56, 2, match x.state with
      | .disabled => 0
      | .active => 1
      | .parked => 2
      | .error => 3),
    (58, 8, x.gen.toNat), (66, 8, x.weight), (128, 64, x.sqBase), (192, 64, x.cqBase), (256, 32, x.sqTail.toNat), (288, 32, x.sqHead.toNat),
    (320, 32, x.cqTail.toNat), (352, 32, x.cqHead.toNat), (384, 17, x.inFlight)])

/-- A lease record (R241, Table 10.4). -/
def leaseRecord (n : Nat) (l : Lease) : BitVec 256 :=
  BitVec.ofNat 256 (packBits [(0, 16, n),
    (16, 2, match l.state with
      | .free => 0
      | .held => 1
      | .fenced => 2
      | .clearing => 3),
    (18, 1, l.head.isNone.toNat), (19, 3, l.head.getD 0), (32, 16, if l.head.isNone then l.context else 0), (48, 12, l.duration),
    (64, 64, l.expiry), (128, 16, l.region), (144, 14, l.first), (158, 14, l.count - 1)])

/-- A valid window record (R208, Table 9.4). -/
def windowRecord (w : WinRec) : BitVec 128 :=
  BitVec.ofNat 128 (packBits [(0, 16, w.job), (16, 12, w.window), (28, 1, 1), (32, 16, w.rankLo), (48, 16, w.rankHi), (64, 16, w.context)])

/-- A segment (Table 9.6). -/
def segmentRecord (s : Segment) : BitVec 256 :=
  BitVec.ofNat 256 (packBits [(0, 64, s.base), (64, 40, s.lines),
    (104, 3, match s.kind with
      | .invalid => 0
      | .region => 1
      | .doorbell => 2
      | .remote => 3
      | .reserved => 4),
    (107, 1, s.r.toNat), (108, 1, s.w.toNat), (109, 1, s.a.toNat), (112, 16, s.targetId), (128, 64, s.targetOff), (192, 12, s.remoteWindow)])

/-- A context's header (Table 9.5). -/
def contextHeader (n : Nat) (c : Context) : Line :=
  BitVec.ofNat 512 (packBits [(0, 16, n), (16, 1, c.valid.toNat), (17, 5, c.partition), (24, 16, c.job), (40, 3, c.tc)])

/-- A context record, 320 bytes: the header and eight segments (R209). -/
def contextRecord (n : Nat) (c : Context) : List Byte :=
  bytesOf 64 (contextHeader n c) ++ (List.range 8).flatMap (fun i => bytesOf 32 (segmentRecord (lgetD c.segments i {})))

/-- A rank-table entry (R204, Table 9.1). -/
def rankEntry (t : RankTable) (rank : Nat) : U32 :=
  match tget t.entries rank with
  | some ep => BitVec.ofNat 32 (packBits [(0, 16, ep), (16, 1, 1)])
  | none => 0xFFFF

/-- A routing entry (R222, Table 9.9). -/
def routeEntry (x : RtVersion) (dest : Nat) : U64 :=
  match tget x.routes dest with
  | some r => BitVec.ofNat 64 (packBits [(0, 32, r.spray.toNat), (32, 5, r.escapePort), (37, 1, 1)])
  | none => 0

/-- A head's binding record (R236, Table 10.2). -/
def bindingRecord (h : Nat) (x : Head) : BitVec 256 :=
  BitVec.ofNat 256 (packBits ((List.range 8).map (fun i => (16 * i, 16, tgetD x.dcr i 0)) ++
    (List.range 8).map (fun i => (128 + i, 1, (tget x.dcr i).isSome.toNat)) ++
    [(136, 16, x.doorbell.getD 0), (152, 1, x.doorbell.isSome.toNat), (153, 3, h)]))

end Sys2Proof.Machine
end

