-- ==== Sys2Proof/WellFormed.lean ====
section
/-! DEFINITION. Well-formed commands: every operand fits the field or the count the spec gives it. Numbers that a Huanik
command checks itself are bounded here only by the width of the field that carries them. -/

namespace Sys2Proof

/-- A doorbell write: the aperture spans 16 MiB below the partition's mailbox pages; a single access has 1 to 64 bytes
(R117). -/
def DbWrite.wf (w : DbWrite) : Bool := decide (w.ctx < 65536) && decide (0 < w.len) && decide (w.len ≤ 64)

/-- A packet header: every field within its width (Table 9.2), `units` a 6-bit count. -/
def Packet.wf (p : Packet) : Bool :=
  decide (p.tc < 8) && decide (p.flowTc < 8) && decide (p.hops < 16) && decide (p.status < 256) &&
  decide (p.dstEp < 65536) && decide (p.srcEp < 65536) && decide (p.job < 65536) && decide (p.srcRank < 65536) &&
  decide (p.window < 4096) && decide (p.reqTag < 65536) && decide (p.lines < 64) && decide (p.units < 64) && decide (p.data.length ≤ 63)

/-- A slot of a frame. -/
def Slot.wf (s : Slot) : Bool :=
  match s with
  | .empty => true
  | .head p => Packet.wf p
  | .body _ | .reserved _ => true

/-- A frame: 19 slots at most, a 4-bit type (R180, Table 8.2). -/
def Frame.wf (f : Frame) : Bool :=
  decide (f.ftype < 16) && decide (f.slots.length ≤ 19) && f.slots.all Slot.wf &&
  decide (f.crA.tc < 8) && decide (f.crB.tc < 8)

/-- A frame has two FEC codewords (R183). -/
def FrameCond.wf (c : FrameCond) : Bool := decide (c.corrected + c.uncorrectable ≤ 2)

/-- A PARAM frame: each field within its width, at most 1,024 bytes of certificate chain (Table 8.5). -/
def ParamBody.wf (b : ParamBody) : Bool :=
  decide (b.version < 256) && decide (b.port < 256) &&
  (match b.content with
   | .cert _ _ part _ _ => decide (part.length ≤ 1024)
   | _ => true)

/-- A flow (R213). -/
def FlowId.wf (f : FlowId) : Bool := decide (f.src < 65536) && decide (f.dst < 65536) && decide (f.tc < 8)

/-- A command header (Table 12.3). -/
def CmdHdr.wf (h : CmdHdr) : Bool :=
  decide (h.version < 256) && decide (h.partition < 256) && decide (h.bufOff < 4294967296) && decide (h.bufLen < 4294967296) &&
  (match h.src with
   | .part p => decide (p < 32)
   | _ => true)

/-- An extent-list entry (Table 2.3): a 6-bit unit and a 10-bit slot. -/
def Extent.wf (e : Extent) : Bool := decide (e.unit < 64) && decide (e.slot < 1024)

/-- A context record (Tables 9.5 and 9.6): at most eight segments. -/
def ContextIn.wf (c : ContextIn) : Bool := decide (c.segments.length ≤ 8)

/-- A window record (Table 9.4). -/
def WindowIn.wf (w : WindowIn) : Bool := decide (w.rankLo < 65536) && decide (w.rankHi < 65536)

/-- An atomic inside a line is naturally aligned (R130). -/
def OtherAccess.wf (a : OtherAccess) : Bool :=
  match a with
  | .atomic _ o _ _ => decide (o < 64)
  | _ => true

/-- A well-formed command. -/
def Instr.wf (i : Instr) : Bool :=
  match i with
  | .queueDoorbell w => DbWrite.wf w
  | .apertureReservedWrite w => DbWrite.wf w
  | .partMailboxDoorbell w => DbWrite.wf w
  | .partEventRingDoorbell w => DbWrite.wf w
  | .descriptorFetch queue => decide (queue < 262144)
  | .dispatch part group => decide (part < 32) && decide (group < 16)
  | .completionWrite _ => true
  | .copy _ => true
  | .fill _ => true
  | .chainElementFetch _ => true
  | .moverBurstDone _ => true
  | .moverAbort _ => true
  | .kvAppend _ => true
  | .attend _ => true
  | .kvGather _ => true
  | .summaryRebuild _ => true
  | .plateOpen _ => true
  | .plateClose _ => true
  | .plateCloseDestroy _ => true
  | .platePublish _ => true
  | .plateFork _ => true
  | .pageFreeBackground region => decide (region < 65536)
  | .reduceWrite _ => true
  | .atomic _ => true
  | .lockAcquire _ => true
  | .lockRelease _ => true
  | .lockOwnerRecheck _ => true
  | .lockWaitTimeout _ => true
  | .tallyAdd _ => true
  | .tallyWait _ => true
  | .tallyWaitSatisfied _ => true
  | .tallyWaitTimeout _ => true
  | .nop _ => true
  | .lineRead m line _ _ => decide (m < 112) && decide (line < 4294967296)
  | .lineWrite m line _ => decide (m < 112) && decide (line < 4294967296)
  | .readModifyWrite m line _ _ _ _ => decide (m < 112) && decide (line < 4294967296)
  | .metadataWrite _ _ => true
  | .metadataRead _ quadrant _ _ _ => decide (quadrant < 4)
  | .translationCacheFill port ctx _ => decide (port < 36) && decide (ctx < 65536)
  | .directoryFill region _ => decide (region < 65536)
  | .parityRangeClean region _ _ => decide (region < 65536)
  | .parityRecomputeDone region _ _ => decide (region < 65536)
  | .transitPassStart m => decide (m < 112)
  | .transitLineCheck m _ _ => decide (m < 112)
  | .transitEscalate m => decide (m < 112)
  | .ceRateHourRollover => true
  | .rebuildStart h unit => CmdHdr.wf h && decide (unit < 4294967296)
  | .rebuildPageCopied unit => decide (unit < 48)
  | .refreshDue m rank _ => decide (m < 112) && decide (rank < 8)
  | .refreshCatchup m rank => decide (m < 112) && decide (rank < 8)
  | .rowThrottleWindowEnd m bank => decide (m < 112) && decide (bank < 1024)
  | .dramTempCrossing m _ _ _ => decide (m < 112)
  | .migratePageCopied region => decide (region < 65536)
  | .nearPromote part => decide (part < 32)
  | .summaryPageMove region object page _ => decide (region < 65536) && decide (object < 65536) && decide (page < 67108864)
  | .summaryOldPageFree region => decide (region < 65536)
  | .shutterSlotCleared m slot => decide (m < 112) && decide (slot < 1024)
  | .leaseExpiry lease => decide (lease < 65536)
  | .dataFrameReceive port f c => decide (port < 32) && Frame.wf f && FrameCond.wf c
  | .controlFrameReceive port f c => decide (port < 32) && Frame.wf f && FrameCond.wf c
  | .paramFrameReceive port b c => decide (port < 32) && ParamBody.wf b && FrameCond.wf c
  | .nakResendTimeout port => decide (port < 32)
  | .replayTimeout port => decide (port < 32)
  | .ackTimer port => decide (port < 32)
  | .packetTransmit port tc => decide (port < 32) && decide (tc < 8)
  | .linkRekey port => decide (port < 32)
  | .detectSuccess port => decide (port < 32)
  | .trainingStateTimeout port => decide (port < 32)
  | .backoffExpiry port => decide (port < 32)
  | .equaliseDone port => decide (port < 32)
  | .alignDone port => decide (port < 32)
  | .absentSignalDetect port => decide (port < 32)
  | .partnerSignalLost port => decide (port < 32)
  | .frameAlignmentLost port => decide (port < 32)
  | .eyeMarginLow port => decide (port < 32)
  | .retrainTimeout port => decide (port < 32)
  | .downExpiry port => decide (port < 32)
  | .portControlEnable h port => CmdHdr.wf h && decide (port < 4294967296)
  | .portControlDisable h port => CmdHdr.wf h && decide (port < 4294967296)
  | .portControlRetrain h port => CmdHdr.wf h && decide (port < 4294967296)
  | .portControlCreditAdv h port _ => CmdHdr.wf h && decide (port < 4294967296)
  | .readRequest port p => decide (port < 32) && Packet.wf p
  | .writeRequest port p => decide (port < 32) && Packet.wf p
  | .writePartialRequest port p => decide (port < 32) && Packet.wf p
  | .atomicRequest port p => decide (port < 32) && Packet.wf p
  | .mirrorWriteReceive port p => decide (port < 32) && Packet.wf p
  | .malformedDrop port p => decide (port < 32) && Packet.wf p
  | .replyReceive port p => decide (port < 32) && Packet.wf p
  | .lossDeclaration flow => FlowId.wf flow
  | .lostNoticeReceive port p => decide (port < 32) && Packet.wf p
  | .replyLostReceive port p => decide (port < 32) && Packet.wf p
  | .skipReceive port p => decide (port < 32) && Packet.wf p
  | .requestTimeout tag => decide (tag < 65536)
  | .sendRecordExpiry flow _ => FlowId.wf flow
  | .sprayLatencyWindow _ => true
  | .escapeToTc7 port tc => decide (port < 32) && decide (tc < 8)
  | .transitForward port p => decide (port < 32) && Packet.wf p
  | .gateEntryBoundary port => decide (port < 32)
  | .telemetrySample port => decide (port < 32)
  | .routeLoad h version _ => CmdHdr.wf h && decide (version < 4294967296)
  | .routeFlip h version => CmdHdr.wf h && decide (version < 4294967296)
  | .routeRetire h version => CmdHdr.wf h && decide (version < 4294967296)
  | .cxlMemRead head hpa => decide (head < 8) && decide (hpa % 64 = 0)
  | .cxlMemWrite head hpa _ _ => decide (head < 8) && decide (hpa % 64 = 0)
  | .bar2DoorbellWrite head _ _ _ => decide (head < 8)
  | .windowReadShared head hpa => decide (head < 8) && decide (hpa % 64 = 0)
  | .windowReadOwnership head hpa => decide (head < 8) && decide (hpa % 64 = 0)
  | .windowMeminv head hpa => decide (head < 8) && decide (hpa % 64 = 0)
  | .windowWriteback head hpa _ => decide (head < 8) && decide (hpa % 64 = 0)
  | .windowCleanEviction head hpa => decide (head < 8) && decide (hpa % 64 = 0)
  | .windowOtherAccess region _ acc => decide (region < 65536) && OtherAccess.wf acc
  | .windowBusyRetry region _ => decide (region < 65536)
  | .bisnpResponse region _ head _ _ => decide (region < 65536) && decide (head < 8)
  | .biTimeout region _ => decide (region < 65536)
  | .perstAssert port => decide (port < 4)
  | .perstDeassert port => decide (port < 4)
  | .configRetryWindowEnd head => decide (head < 8)
  | .cxlReset head => decide (head < 8)
  | .headRemoval head => decide (head < 8)
  | .cxlLinkDown head => decide (head < 8)
  | .dcAddExtent head _ => decide (head < 8)
  | .addDcResponse head _ _ _ => decide (head < 8)
  | .releaseDc head _ _ => decide (head < 8)
  | .dcForcedRelease head _ _ => decide (head < 8)
  | .cxlIdentify head => decide (head < 8)
  | .getEventRecords head _ => decide (head < 8)
  | .clearEventRecords head _ _ _ => decide (head < 8)
  | .getEventInterruptPolicy head => decide (head < 8)
  | .setEventInterruptPolicy head _ => decide (head < 8)
  | .getFwInfo head => decide (head < 8)
  | .transferFw head _ _ _ _ _ => decide (head < 8)
  | .activateFw head _ _ => decide (head < 8)
  | .getTimestamp head => decide (head < 8)
  | .setTimestamp head _ => decide (head < 8)
  | .getSupportedLogs head => decide (head < 8)
  | .getLog head _ _ _ => decide (head < 8)
  | .identifyMemoryDevice head => decide (head < 8)
  | .getHealthInfo head => decide (head < 8)
  | .getAlertConfiguration head => decide (head < 8)
  | .setAlertConfiguration head _ => decide (head < 8)
  | .getPoisonList head => decide (head < 8)
  | .getDcConfiguration head => decide (head < 8)
  | .getDcExtentList head => decide (head < 8)
  | .cxlMailboxUnsupported head _ => decide (head < 8)
  | .spdmRequest _ _ => true
  | .ideKmKeyProg head _ _ _ => decide (head < 8)
  | .mbxAttach head => decide (head < 8)
  | .mbxCmdDoorbell head _ _ => decide (head < 8)
  | .mbxRspDoorbell head _ _ => decide (head < 8)
  | .mbxEvtDoorbell head _ _ => decide (head < 8)
  | .registerWrite head _ _ _ => decide (head < 8)
  | .mbxHeartbeatTick => true
  | .paceSlotBoundary part => decide (part < 32)
  | .huanikNop h => CmdHdr.wf h
  | .runtimeLoad h _ _ _ _ _ _ _ => CmdHdr.wf h
  | .lcTransition h _ _ _ _ _ => CmdHdr.wf h
  | .fwInfo h => CmdHdr.wf h
  | .fwDownload h _ _ => CmdHdr.wf h
  | .fwVerify h _ _ => CmdHdr.wf h
  | .fwActivate h => CmdHdr.wf h
  | .fwConfirm h => CmdHdr.wf h
  | .partCreate h _ => CmdHdr.wf h
  | .partTenantChange h => CmdHdr.wf h
  | .partDestroy h => CmdHdr.wf h
  | .partMailbox h ctx _ _ => CmdHdr.wf h && decide (ctx < 4294967296)
  | .partEventRing h ctx _ _ => CmdHdr.wf h && decide (ctx < 4294967296)
  | .partAddUnit h _ unit => CmdHdr.wf h && decide (unit < 4294967296)
  | .regionCreate h _ => CmdHdr.wf h
  | .regionDestroy h region => CmdHdr.wf h && decide (region < 4294967296)
  | .regionMigrate h region _ _ _ _ => CmdHdr.wf h && decide (region < 4294967296)
  | .regionQuery h region => CmdHdr.wf h && decide (region < 4294967296)
  | .objectCreate h _ => CmdHdr.wf h
  | .contextWrite h c => CmdHdr.wf h && ContextIn.wf c
  | .windowWrite h _ w => CmdHdr.wf h && WindowIn.wf w
  | .rankTableLoad h _ _ => CmdHdr.wf h
  | .headBind h _ => CmdHdr.wf h
  | .queueCreate h _ => CmdHdr.wf h
  | .queueReset h queue => CmdHdr.wf h && decide (queue < 4294967296)
  | .queueAbort h queue => CmdHdr.wf h && decide (queue < 4294967296)
  | .queueDestroy h queue => CmdHdr.wf h && decide (queue < 4294967296)
  | .tallyPair h producer consumer _ => CmdHdr.wf h && decide (producer < 4294967296) && decide (consumer < 4294967296)
  | .tallyUnpair h tally => CmdHdr.wf h && decide (tally < 4294967296)
  | .tallySet h tally _ => CmdHdr.wf h && decide (tally < 4294967296)
  | .leaseCreate h ctx region _ _ _ => CmdHdr.wf h && decide (ctx < 4294967296) && decide (region < 4294967296)
  | .leaseRenew h lease => CmdHdr.wf h && decide (lease < 4294967296)
  | .leaseQuery h lease => CmdHdr.wf h && decide (lease < 4294967296)
  | .modeChange h _ => CmdHdr.wf h
  | .unitModeAck _ _ => true
  | .modeChangeTimeout => true
  | .paramSet h _ _ _ => CmdHdr.wf h
  | .policeSet h _ _ => CmdHdr.wf h
  | .gateCtrlSet h _ _ => CmdHdr.wf h
  | .gateEntrySet h _ _ => CmdHdr.wf h
  | .pairEnableSet h _ => CmdHdr.wf h
  | .forceClaim h _ => CmdHdr.wf h
  | .domeReq h _ => CmdHdr.wf h
  | .logRead h m => CmdHdr.wf h && decide (m < 4294967296)
  | .logClear h m => CmdHdr.wf h && decide (m < 4294967296)
  | .countersRead h _ => CmdHdr.wf h
  | .injectFlip h ext line _ => CmdHdr.wf h && Extent.wf ext && decide (line < 4294967296)
  | .rawModeEnter h ext => CmdHdr.wf h && Extent.wf ext
  | .rawWrite h ext line _ _ => CmdHdr.wf h && Extent.wf ext && decide (line < 4294967296)
  | .rawRead h ext line => CmdHdr.wf h && Extent.wf ext && decide (line < 4294967296)
  | .rawModeExit h ext => CmdHdr.wf h && Extent.wf ext
  | .heartbeatSend => true
  | .heartbeatReceive port p _ => decide (port < 32) && Packet.wf p
  | .ringMessageReceive _ _ _ => true
  | .heartbeatPeriod => true
  | .discrepancyTimer => true
  | .pairTakeover => true
  | .mirrorHoldEnd => true
  | .resyncStart => true
  | .resyncPageDone => true
  | .returnRequest => true
  | .returnTimeout => true
  | .returnRetry => true
  | .handoffTimeout => true
  | .ringWholeTimer => true
  | .mringLockLoss => true
  | .mringLockGain => true
  | .standbyPatrol _ _ => true
  | .engineIdleSelftest engine _ => decide (engine < 64)
  | .portLoopbackTest _ => true
  | .engineHangDetect engine => decide (engine < 64)
  | .moverHangDetect mover channel => decide (mover < 32) && decide (channel < 16)
  | .mcHangDetect m rank bank => decide (m < 112) && decide (rank < 8) && decide (bank < 1024)
  | .mgmtCoreHangDetect => true
  | .xbarSecHangDetect _ quadrant => decide (quadrant < 4)
  | .engineReset engine => decide (engine < 64)
  | .engineResetDone engine _ => decide (engine < 64)
  | .moverReset mover => decide (mover < 32)
  | .tagIncrementDeferred _ => true
  | .subchannelRetrain m => decide (m < 112)
  | .retrainDone m _ _ => decide (m < 112)
  | .retrainFailTimeout m => decide (m < 112)
  | .partitionResetDone part => decide (part < 32)
  | .warmReset _ _ _ => true
  | .warmResetDone => true
  | .engineSlowWindow part group _ => decide (part < 32) && decide (group < 16)
  | .memoryUnitSlow m _ _ => decide (m < 112)
  | .powerGrant => true
  | .drawSample _ => true
  | .thermalSample _ => true
  | .thermalLimitStep => true
  | .voltageLoopTick _ => true
  | .dramCalibration m rank => decide (m < 112) && decide (rank < 8)
  | .domeEntry => true
  | .domeRefused => true
  | .domeWake _ _ _ => true
  | .wakeRailTimeout => true
  | .pldmRequest _ => true
  | .powerGoodDeassert => true
  | .resetNAssert => true
  | .selfRefreshTimeout => true
  | .memoryRailFault _ => true
  | .resetNRelease _ _ => true
  | .trainingDone _ => true
  | .warmNPulse _ _ _ => true
  | .tapReset => true
  | .extest _ => true
  | .idcode => true
  | .samplePreload _ _ => true
  | .clamp => true
  | .highz => true
  | .extestPulse _ => true
  | .extestTrain _ => true
  | .bypass => true
  | .ddrAlert channel _ _ => decide (channel < 24)
  | .cxlLinkUp link => decide (link.head < 8)
  | .configRequest head _ => decide (head < 8)
  | .hdmDecoderCommit head _ _ _ ways _ _ _ => decide (head < 8) && decide (0 < ways)
  | .mailboxRingWrite head _ _ => decide (head < 8)
  | .queueDepthSample _ => true
  | .powerUp => true

end Sys2Proof
end

