-- ==== Sys2Proof/Tests/Slice0.lean ====
section
/-! SUPPORT. Tests: ill-formed terms are refused, worked values of the spec, and for every claim a state and operands that meet
its hypotheses, at which its conclusion holds (or, where values that nothing can evaluate lie in the next state, what does not rest on them). -/

set_option Elab.async false

namespace Sys2Proof.Tests

open Sys2Proof Sys2Proof.Machine Sys2Proof.Safety

/-- Whether an outcome is the next state `t`. -/
def yields (o : Host.Outcome State Fault Refusal) (t : State) : Bool :=
  match o with
  | .next u => decide (u = t)
  | _ => false

/-- Whether an outcome is a next state that `p` accepts. -/
def ends (o : Host.Outcome State Fault Refusal) (p : State → Bool) : Bool :=
  match o with
  | .next u => p u
  | _ => false

/-- A sample device: Huanik runs; partition 1 owns subchannels 0 to 2, region 3 on slot 0 of subchannel 0, context 7 with
region 3 at address 0, and queue 9. -/
def dev0 : Dev :=
  { now := 5000000000
    sys := { stage := .running, resetN := true, powerGood := true, lifeCycle := .provisioned, outputsHiZ := false }
    units := [(0, { trained := true, slots := 128, cleared := [0] }), (1, { trained := true, slots := 128 }), (2, { trained := true, slots := 128 })]
    parts := [(1, { state := .active, subchannels := 7, pseudoChannels := 1, engines := 3, movers := 1, queueBase := 8, queueCount := 8, tallyBase := 16, tallyCount := 16 })]
    regions := [(3, { partition := 1, grainM8 := 0, width := 1, tier := .capacity, extents := [⟨false, 0, 0⟩] })]
    ctxs := [(7, { valid := true, partition := 1, job := 2, segments := [{ base := 0, lines := 1024, kind := .region, r := true, w := true, a := true, targetId := 3 }] })]
    queues := [(9, { exists_ := true, partition := 1, context := 7, state := .active, weight := 1, sqLog2 := 6, cqLog2 := 6, sqBase := 0, cqBase := 8192 })]
    groups := [(16, { engines := 3, movers := 1 })] }

/-- The sample state over a device. -/
def st (d : Dev) : State := { dev := d }

/-- A descriptor of an opcode with body words. -/
def desc (op : Nat) (body : List (Nat × Nat × Nat)) : Line :=
  BitVec.ofNat 512 (packBits ([(0, 8, op), (8, 4, 1), (24, 16, 77), (40, 16, 7)] ++ body))

/-- A dispatched descriptor of queue 9, as job 4. -/
def job4 (x : Line) (u : JobUnit) : Job :=
  { id := 4, queue := 9, queueGen := 0, modeGen := 0, partition := 1, desc := x, slotAddr := 0, unit := u, dispatchedAt := 1000 }

/-- The sample device with one job. -/
def devJ (j : Job) : Dev := { dev0 with jobs := [j], nextJob := 5 }

/-- The sample device with SEQUENCE region 5 on slot 1 of subchannel 1, object 2 of it with 64 tokens of room and one token, and
context 7 with the region at address 0x100000. -/
def devS (o : Obj) (sp : SeqPages) (js : List Job) : Dev :=
  { dev0 with
    parts := [(1, { (dev0.partn 1) with pseudoChannels := 0 })]
    regions := dev0.regions ++ [(5, { partition := 1, grainM8 := 0, width := 1, tier := .sequence, extents := [⟨false, 1, 1⟩] })]
    ctxs := [(7, { (dev0.context 7) with segments := (dev0.context 7).segments ++ [{ base := 0x100000, lines := 1024, kind := .region, r := true, w := true, a := true, targetId := 5 }] })]
    objs := [(objKey 5 2, o)]
    seqPages := [(5, sp)]
    jobs := js
    nextJob := 5 }

/-- A small sequence object: one layer, one head of 64 elements of format 0, one chunk. -/
def obj2 : Obj :=
  { state := .live, gen := 3, chunks := 1, length := 1, workingRoot := 9, kvBlockBytes := 64 * (2 * 64 + 4), summaryBlockBytes := 132
    kvChunkPages := 9, sumChunkPages := 1 }

/-- The sample device with head 0 up, bound to context 7 for DC region 0 and for doorbells, with one decoder; region 3 is in the
window when `win` says so. -/
def devH (win : Bool) (dir : Tab DirEntry) : Dev :=
  { dev0 with
    sys := { dev0.sys with trainStarted := 1 }
    parts := [(1, { (dev0.partn 1) with dirWays := 1 })]
    regions := [(3, { partition := 1, grainM8 := 0, width := 1, tier := .capacity, window := win, extents := [⟨false, 0, 0⟩] })]
    ctxs := [(7, { (dev0.context 7) with segments := (dev0.context 7).segments ++ [{ base := 0x200000, lines := 64, kind := .doorbell, w := true, targetOff := 64 }] })]
    heads := [(0, { linkUp := true, rate := 64, width := 16, cfgReady := true, dcr := [(0, 7)], doorbell := some 7, decoders := [(0, { base := 0x1000000, size := 0x10000000, ways := 1, gran := 256, dpaBase := 0, bi := true })] })]
    dir := dir }

/-- A dynamic-capacity extent of region 3, with the lease it has, if any. -/
def dcx (l : Option Nat) : DcExtent := { dpa := 0, length := 268435456, region := 3, r := true, w := true, offset := 0, duration := 30, lease := l }

/-- A lease on region 3. -/
def lease3 (h : Option Nat) : Lease := { state := .held, head := h, context := 7, duration := 30, expiry := 6000000000, region := 3, first := 0, count := 1 }

/-- The sample device with port 3. -/
def devP (p : Port) : Dev := { dev0 with ports := [(3, p)] }

/-- A header of the fabric manager, for partition 1. -/
def fmH : CmdHdr := { src := .fm, seq := 0, partition := 1 }

/-- A header of the device ring, for partition 1. -/
def devHd : CmdHdr := { src := .device, seq := 0, partition := 1 }

/-- The sample state over a device, with one command in the device ring. -/
def st1 (d : Dev) : State := { dev := d, mbx := { hostSeq := 1 } }

/-- The sample device in a pool: endpoint 0, rank 1 of job 2 at endpoint 5 by port 3, window 1 of the job onto context 7, and a flow
from endpoint 5 that expects number 4. -/
def devR : Dev :=
  { dev0 with
    ports := [(3, { state := .active })]
    ranks := [(2, { parts := [1], entries := [(0, 0), (1, 5)] })]
    wins := [(0, { job := 2, window := 1, rankLo := 0, rankHi := 3, context := 7 })]
    rt := { v0 := { state := .active, routes := [(5, { spray := 8, escapePort := 3 })] }, flows := [{ flow := { src := 5, dst := 0, tc := 2 }, e := 4 }] } }

/-- A packet from endpoint 5, the next of its flow. -/
def pkt5 (k : PktKind) : Packet := { kind := k, tc := 2, flowTc := 2, srcEp := 5, dstEp := 0, job := 2, srcRank := 1, window := 1, flowSeq := 4 }

theorem test_doorbells_1 :
    (have s : State := (st dev0)
     have w : DbWrite := { ctx := 7, off := 72, len := 8, value := 0x40 }
     have q : Nat := 9
     have x : Queue := (dev0.queue 9)
     decide ((w.off = 8 * q) ∧
       (q < 262144) ∧
       (w.len = 8) ∧
       (s.dev.queue q = x) ∧
       (x.exists_ = true) ∧
       (s.dev.sys.domeReqAt = none) ∧
       ((s.dev.partn x.partition).state ≠ .resetting) ∧
       ((w.ctx = x.context ∨ (x.anyContext = true ∧ (s.dev.context w.ctx).partition = x.partition))) ∧
       ((x.state = .active ∨ x.state = .parked)) ∧
       ((w.value.truncate 32 - x.sqHead).toNat ≤ 2 ^ x.sqLog2) ∧
       ((w.value.truncate 32 - x.sqTail).toNat ≤ 2 ^ x.sqLog2) ∧
       ((x.cqTail - (w.value >>> 32).truncate 32).toNat ≤ 2 ^ x.cqLog2) ∧
       (((w.value >>> 32).truncate 32 - x.cqHead).toNat ≤ 2 ^ x.cqLog2) ∧
       (yields (exec (.queueDoorbell w) s) (s.onDev fun d => d.modQueue q fun y =>
      { y with sqTail := w.value.truncate 32, cqHead := (w.value >>> 32).truncate 32 }) = true))) = true := by decide +kernel

theorem test_doorbells_2 :
    (have s : State := (st dev0)
     have w : DbWrite := { ctx := 7, off := 0x200200, len := 8, value := 0 }
     decide ((s.dev.sys.domeReqAt = none) ∧
       (0x200200 ≤ w.off) ∧
       (yields (exec (.apertureReservedWrite w) s) (s.onDev fun d => (d.bump .dbRejected).raise
      { code := .doorbellRejected, context := some w.ctx, detail0 := some (BitVec.ofNat 64 w.off), detail1 := some (statusWord .bounds) }) = true))) = true := by decide +kernel

theorem test_doorbells_3 :
    (have s : State := (st { dev0 with partMbx := [(1, { ctx := 7, cmdAddr := 0, rspAddr := 4096 })] })
     have w : DbWrite := { ctx := 7, off := 0x200008, len := 8, value := 64 }
     have p : Nat := 1
     have m : PartMbx := { ctx := 7, cmdAddr := 0, rspAddr := 4096 }
     decide ((w.off = 0x200000 + 8 * p) ∧
       (p < 32) ∧
       (w.len = 8) ∧
       (tget s.dev.partMbx p = some m) ∧
       (s.dev.sys.domeReqAt = none) ∧
       ((s.dev.partn p).state ≠ .resetting) ∧
       (w.ctx = m.ctx) ∧
       ((w.value.truncate 32 - m.cmdDone).toNat ≤ 64) ∧
       ((w.value.truncate 32 - m.cmdTail).toNat ≤ 64) ∧
       ((m.cmdDone - (w.value >>> 32).truncate 32).toNat ≤ 64) ∧
       (((w.value >>> 32).truncate 32 - m.rspHead).toNat ≤ 64) ∧
       (yields (exec (.partMailboxDoorbell w) s) (s.onDev fun d =>
      let m' := { m with cmdTail := w.value.truncate 32, rspHead := (w.value >>> 32).truncate 32 }
      { d with partMbx := tset d.partMbx p m' }) = true))) = true := by decide +kernel

theorem test_doorbells_4 :
    (have s : State := (st { dev0 with partRings := [(1, { ctx := 7, addr := 0, log2 := 6, tail := 3 })] })
     have w : DbWrite := { ctx := 7, off := 0x200108, len := 8, value := 3 }
     have p : Nat := 1
     have g : PartRing := { ctx := 7, addr := 0, log2 := 6, tail := 3 }
     decide ((w.off = 0x200100 + 8 * p) ∧
       (p < 32) ∧
       (w.len = 8) ∧
       (tget s.dev.partRings p = some g) ∧
       (s.dev.sys.domeReqAt = none) ∧
       ((s.dev.partn p).state ≠ .resetting) ∧
       ((s.dev.context w.ctx).valid = true) ∧
       ((s.dev.context w.ctx).partition = p) ∧
       (w.value >>> 32 = 0) ∧
       ((g.tail - w.value.truncate 32).toNat ≤ 2 ^ g.log2) ∧
       ((w.value.truncate 32 - g.head).toNat ≤ 2 ^ g.log2) ∧
       (g.unreported = 0) ∧
       (yields (exec (.partEventRingDoorbell w) s) (s.onDev fun d =>
      let g' := { g with head := w.value.truncate 32 }
      { d with partRings := tset d.partRings p g' }) = true))) = true := by decide +kernel

theorem test_doorbells_5 :
    (have s : State := (st dev0)
     have w : DbWrite := { ctx := 7, off := 73, len := 8, value := 0x40 }
     have q : Nat := 9
     have x : Queue := (dev0.queue 9)
     decide ((w.off / 8 = q) ∧
       (q < 262144) ∧
       (s.dev.queue q = x) ∧
       (x.exists_ = true) ∧
       (s.dev.sys.domeReqAt = none) ∧
       ((s.dev.partn x.partition).state ≠ .resetting) ∧
       ((w.off % 8 ≠ 0 ∨ w.len ≠ 8)) ∧
       (yields (exec (.queueDoorbell w) s) (s.onDev fun d => (d.bump .dbRejected).raise
      { code := .doorbellRejected, part := some x.partition, context := some w.ctx, queue := some q, detail0 := some (BitVec.ofNat 64 w.off), detail1 := some (statusWord .format) }) = true))) = true := by decide +kernel

theorem test_doorbells_6 :
    (have s : State := (st dev0)
     have w : DbWrite := { ctx := 6, off := 72, len := 8, value := 0x40 }
     have q : Nat := 9
     have x : Queue := (dev0.queue 9)
     decide ((w.off / 8 = q) ∧
       (q < 262144) ∧
       (s.dev.queue q = x) ∧
       (x.exists_ = true) ∧
       (s.dev.sys.domeReqAt = none) ∧
       ((s.dev.partn x.partition).state ≠ .resetting) ∧
       (w.off % 8 = 0) ∧
       (w.len = 8) ∧
       (w.ctx ≠ x.context) ∧
       ((x.anyContext = false ∨ (s.dev.context w.ctx).partition ≠ x.partition)) ∧
       (yields (exec (.queueDoorbell w) s) (s.onDev fun d => (d.bump .dbRejected).raise
      { code := .doorbellRejected, part := some x.partition, context := some w.ctx, queue := some q, detail0 := some (BitVec.ofNat 64 w.off), detail1 := some (statusWord .rights) }) = true))) = true := by decide +kernel

theorem test_doorbells_7 :
    (have s : State := (st (dev0.modQueue 9 fun x => { x with state := .error }))
     have w : DbWrite := { ctx := 7, off := 72, len := 8, value := 0x40 }
     have q : Nat := 9
     have x : Queue := ((dev0.modQueue 9 fun x => { x with state := .error }).queue 9)
     decide ((w.off / 8 = q) ∧
       (q < 262144) ∧
       (s.dev.queue q = x) ∧
       (x.exists_ = true) ∧
       (s.dev.sys.domeReqAt = none) ∧
       ((s.dev.partn x.partition).state ≠ .resetting) ∧
       (w.off % 8 = 0) ∧
       (w.len = 8) ∧
       (w.ctx = x.context) ∧
       ((x.state = .disabled ∨ x.state = .error)) ∧
       (yields (exec (.queueDoorbell w) s) (s.onDev fun d => d.bump .dbInactive) = true))) = true := by decide +kernel

theorem test_doorbells_8 :
    (have s : State := (st dev0)
     have w : DbWrite := { ctx := 7, off := 72, len := 8, value := 0x41 }
     have q : Nat := 9
     have x : Queue := (dev0.queue 9)
     decide ((w.off / 8 = q) ∧
       (q < 262144) ∧
       (s.dev.queue q = x) ∧
       (x.exists_ = true) ∧
       (s.dev.sys.domeReqAt = none) ∧
       ((s.dev.partn x.partition).state ≠ .resetting) ∧
       (w.off % 8 = 0) ∧
       (w.len = 8) ∧
       (w.ctx = x.context) ∧
       ((x.state = .active ∨ x.state = .parked)) ∧
       ((2 ^ x.sqLog2 < (w.value.truncate 32 - x.sqHead).toNat ∨ 2 ^ x.cqLog2 < (x.cqTail - (w.value >>> 32).truncate 32).toNat)) ∧
       (yields (exec (.queueDoorbell w) s) (s.onDev fun d => (d.modQueue q fun y => { y with state := .error }).raise
      { code := .queueError, part := some x.partition, context := some x.context, queue := some q, detail0 := some (BitVec.ofNat 64 q), detail1 := some (statusWord .format) }) = true))) = true := by decide +kernel

theorem test_fetchAndDispatch_1 :
    (have s : State := (st (dev0.modQueue 9 fun x => { x with sqTail := 5, sqHead := 4 }))
     have q : Nat := 9
     have x : Queue := ((dev0.modQueue 9 fun x => { x with sqTail := 5, sqHead := 4 }).queue 9)
     have r : Nat := 3
     have off : Nat := 256
     have m : Nat := 0
     have line : Nat := 4
     decide ((s.dev.sys.live = true) ∧
       (s.dev.queue q = x) ∧
       (x.exists_ = true) ∧
       (x.state = .active) ∧
       (x.sqHead ≠ x.sqTail) ∧
       (x.inFlight + (x.cqTail - x.cqHead).toNat < 2 ^ x.cqLog2) ∧
       (s.dev.locate x.context (x.sqBase + 64 * (x.sqHead.toNat % 2 ^ x.sqLog2)) 64 .r = .ok (r, off)) ∧
       (ValidLine s.dev r off m line) ∧
       (Calm s.dev 1) ∧
       (yields (exec (.descriptorFetch q) s) (s.onDev fun d => (((ready d).activate m line).modQueue q fun y => { y with
      sqHead := y.sqHead + 1, inFlight := y.inFlight + 1 }).modQueue q fun y => { y with
      fetched := y.fetched ++
        [{ desc := d.lineData m line, slotAddr := x.sqBase + 64 * (x.sqHead.toNat % 2 ^ x.sqLog2) }] }) = true))) = true := by decide +kernel

theorem test_fetchAndDispatch_2 :
    (have s : State := (st (dev0.modQueue 9 fun x => { x with inFlight := 1, fetched := [{ desc := desc 0x7F [], slotAddr := 64 }] }))
     have p : Nat := 1
     have g : Nat := 0
     have q : Nat := 9
     have l : Nat := 0
     have x : Queue := ((dev0.modQueue 9 fun x => { x with inFlight := 1, fetched := [{ desc := desc 0x7F [], slotAddr := 64 }] }).queue 9)
     have f : Fetched := { desc := desc 0x7F [], slotAddr := 64 }
     have rest : List Fetched := []
     have u : JobUnit := .dispatcher
     decide ((s.dev.sys.live = true) ∧
       (s.dev.readyQueues p g = [(q, l)]) ∧
       (s.dev.queue q = x) ∧
       (x.partition = p) ∧
       (x.group = g) ∧
       (x.fetched = f :: rest) ∧
       (x.weight = 1) ∧
       (s.dev.ready x = true) ∧
       (s.dev.descCheck x f.desc = none) ∧
       (s.dev.takeUnit (s.dev.group p g) f.desc = some u) ∧
       (yields (exec (.dispatch p g) s) (s.onDev fun d =>
      { (d.modGroup p g fun y => { y with
          lastDispatch := tset y.lastDispatch l d.now, lastServed := tset y.lastServed l q }).modQueue q
            (fun y => { y with fetched := rest, state := if dOpcode f.desc = 0x41 then .parked else y.state }) with
        nextJob := d.nextJob + 1
        jobs := d.jobs ++
          [{ id := d.nextJob, queue := q, queueGen := x.gen, modeGen := d.sys.modeGen, partition := p, desc := f.desc, slotAddr := f.slotAddr, unit := u, dispatchedAt := d.now, lastAccess := d.now, holds := descHolds f.desc, snap := d.snapshotOf f.desc, waiting := dOpcode f.desc == 0x41, result := none }] }) = true))) = true := by decide +kernel

theorem test_completionWritten_1 :
    (have s : State := (st ((devJ { job4 (desc 0x40 [(13, 1, 1), (56, 20, 17)]) .dispatcher with result := some { status := .ok, result := 5 } }).modQueue 9 fun x => { x with inFlight := 1, cqTail := 65 }))
     have i : Nat := 4
     have j : Job := ({ job4 (desc 0x40 [(13, 1, 1), (56, 20, 17)]) .dispatcher with result := some { status := .ok, result := 5 } })
     have res : Result := { status := .ok, result := 5 }
     have x : Queue := (((devJ { job4 (desc 0x40 [(13, 1, 1), (56, 20, 17)]) .dispatcher with result := some { status := .ok, result := 5 } }).modQueue 9 fun x => { x with inFlight := 1, cqTail := 65 }).queue 9)
     have r : Nat := 3
     have off : Nat := 8224
     have m : Nat := 0
     have line : Nat := 128
     decide ((s.dev.job i = some j) ∧
       (j.id = i) ∧
       (j.result = some res) ∧
       (j.holds = []) ∧
       (j.before = none) ∧
       (s.dev.pair.mirrors = []) ∧
       (s.dev.queue j.queue = x) ∧
       (x.gen = j.queueGen) ∧
       (s.dev.locate x.context (x.cqBase + 32 * (x.cqTail.toNat % 2 ^ x.cqLog2)) 32 .w = .ok (r, off)) ∧
       (off % 32 = 0) ∧
       (ValidLine s.dev r (off / 64 * 64) m line) ∧
       (FreeToWrite s.dev r) ∧
       (Calm s.dev 1) ∧
       (yields (exec (.completionWrite i) s) (s.onDev fun d =>
      let record := completionBytes (dTag j.desc) res.status j.queueGen res.residue res.result d.now j.modeGen
        (phaseOf x.cqTail.toNat (2 ^ x.cqLog2))
      let written := ((((ready d).dropJob i).activate m line).putLine m line (mergeBytes (d.lineData m line)
          (BitVec.ofNat 512 (natOfBytes record * 2 ^ (8 * (off % 64)))) (BitVec.ofNat 64 ((2 ^ 32 - 1) * 2 ^ (off % 64))))).modQueue
        j.queue (fun y => { y with cqTail := y.cqTail + 1, inFlight := y.inFlight - 1 })
      let signalled := if dTallyEn j.desc = true ∧ tallyIn (d.partn j.partition) (dTally j.desc) = true then
          written.signalTally (dTally j.desc) j.partition
        else written
      if dOpcode j.desc = 0x7F ∧ res.status = .ok then signalled.renewByNop (dCtx j.desc) else signalled) = true))) = true := by decide +kernel

theorem test_staleCompletionDropped_1 :
    (have s : State := (st ((devJ { job4 (desc 0x40 [(13, 1, 1), (56, 20, 17)]) .dispatcher with result := some { status := .ok, result := 5 } }).modQueue 9 fun x => { x with gen := 1 }))
     have i : Nat := 4
     have j : Job := ({ job4 (desc 0x40 [(13, 1, 1), (56, 20, 17)]) .dispatcher with result := some { status := .ok, result := 5 } })
     have res : Result := { status := .ok, result := 5 }
     decide ((s.dev.job i = some j) ∧
       (j.id = i) ∧
       (j.result = some res) ∧
       (j.holds = []) ∧
       (j.before = none) ∧
       (s.dev.pair.mirrors = []) ∧
       ((s.dev.queue j.queue).gen ≠ j.queueGen) ∧
       (yields (exec (.completionWrite i) s) (s.onDev fun d => ((ready d).dropJob i).bump .rstStaleCompletions) = true))) = true := by decide +kernel

theorem test_dispatcherDescriptors_1 :
    (have s : State := (st (devJ (job4 (desc 0x7F []) .dispatcher)))
     have i : Nat := 4
     have j : Job := (job4 (desc 0x7F []) .dispatcher)
     decide ((Running s.dev i j 0x7F) ∧
       (yields (exec (.nop i) s) (s.onDev fun d => ended (ready d) j .ok 0 0) = true))) = true := by decide +kernel

theorem test_dispatcherDescriptors_2 :
    (have s : State := (st (devJ (job4 (desc 0x40 [(128, 20, 17), (192, 64, 6)]) .dispatcher)))
     have i : Nat := 4
     have j : Job := (job4 (desc 0x40 [(128, 20, 17), (192, 64, 6)]) .dispatcher)
     have t : Nat := 17
     decide ((Running s.dev i j 0x40) ∧
       (t = field j.desc 128 20) ∧
       (tallyIn (s.dev.partn j.partition) t = true) ∧
       (yields (exec (.tallyAdd i) s) (s.onDev fun d =>
      let cleared := if bit j.desc 148 then (ready d).setTally t { value := (d.tally t).value } else ready d
      let after := cleared.tallyAfter t (BitVec.ofNat 64 (field j.desc 192 64)).toInt
      ended (cleared.setTally t after.1) j after.2 after.1.value (tallyFlags after.1)) = true))) = true := by decide +kernel

theorem test_dispatcherDescriptors_3 :
    (have s : State := (st (devJ (job4 (desc 0x40 [(128, 20, 15), (192, 64, 6)]) .dispatcher)))
     have i : Nat := 4
     have j : Job := (job4 (desc 0x40 [(128, 20, 15), (192, 64, 6)]) .dispatcher)
     have t : Nat := 15
     decide ((Running s.dev i j 0x40) ∧
       (t = field j.desc 128 20) ∧
       (tallyIn (s.dev.partn j.partition) t = false) ∧
       (yields (exec (.tallyAdd i) s) (s.onDev fun d => ended (ready d) j .bounds 0 0) = true))) = true := by decide +kernel

theorem test_dispatcherDescriptors_4 :
    (have s : State := (st (devJ (job4 (desc 0x41 [(128, 20, 16), (192, 64, 6), (256, 32, 9)]) .dispatcher)))
     have i : Nat := 4
     have j : Job := (job4 (desc 0x41 [(128, 20, 16), (192, 64, 6), (256, 32, 9)]) .dispatcher)
     decide ((Running s.dev i j 0x41) ∧
       (tallyIn (s.dev.partn j.partition) (field j.desc 128 20) = true) ∧
       (yields (exec (.tallyWait i) s) (s.onDev fun d =>
      ((ready d).putJob { j with waiting := true }).modQueue j.queue fun y =>
        { y with state := if y.state = .active ∧ y.gen = j.queueGen then .parked else y.state }) = true))) = true := by decide +kernel

theorem test_dispatcherDescriptors_5 :
    (have i : Nat := 4
     have j : Job := job4 (desc 0x41 [(128, 20, 15), (192, 64, 6), (256, 32, 9)]) .dispatcher
     have s : State := st ((devJ j).modQueue 9 fun x => { x with state := .parked })
     decide ((Running s.dev i j 0x41) ∧
       (tallyIn (s.dev.partn j.partition) (field j.desc 128 20) = false) ∧
       ((s.dev.queue j.queue).state = .parked) ∧
       (yields (exec (.tallyWait i) s) (s.onDev fun d =>
      (ended (ready d) j .bounds 0 0).modQueue j.queue fun y => { y with state := .active }) = true))) = true := by decide +kernel

theorem test_dispatcherDescriptors_6 :
    (have s : State := (st ((({ devJ { job4 (desc 0x41 [(128, 20, 16), (192, 64, 6), (256, 32, 9)]) .dispatcher with waiting := true } with tallies := [(16, { value := 6 })] }) : Dev).modQueue 9 fun x => { x with state := .parked }))
     have i : Nat := 4
     have j : Job := ({ job4 (desc 0x41 [(128, 20, 16), (192, 64, 6), (256, 32, 9)]) .dispatcher with waiting := true })
     have v : Tally := { value := 6 }
     decide ((Running s.dev i j 0x41) ∧
       (j.waiting = true) ∧
       (s.dev.tally (field j.desc 128 20) = v) ∧
       (field j.desc 192 64 ≤ v.value.toNat) ∧
       ((s.dev.queue j.queue).state = .parked) ∧
       (yields (exec (.tallyWaitSatisfied i) s) (s.onDev fun d =>
      (ended d j .ok v.value (tallyFlags v)).modQueue j.queue fun y => { y with state := .active }) = true))) = true := by decide +kernel

theorem test_dispatcherDescriptors_7 :
    (have s : State := (st ((({ devJ { job4 (desc 0x41 [(128, 20, 16), (192, 64, 6), (256, 32, 9)]) .dispatcher with waiting := true } with tallies := [(16, { value := 6 })] }) : Dev).modQueue 9 fun x => { x with state := .parked }))
     have i : Nat := 4
     have j : Job := ({ job4 (desc 0x41 [(128, 20, 16), (192, 64, 6), (256, 32, 9)]) .dispatcher with waiting := true })
     have v : Tally := { value := 6 }
     decide ((Running s.dev i j 0x41) ∧
       (j.waiting = true) ∧
       (s.dev.tally (field j.desc 128 20) = v) ∧
       (field j.desc 256 32 ≠ 0) ∧
       ((s.dev.queue j.queue).state = .parked) ∧
       (yields (exec (.tallyWaitTimeout i) s) (s.onDev fun d =>
      (ended { d with now := max d.now (j.dispatchedAt + field j.desc 256 32 * 1000) } j .timeout v.value (tallyFlags v)).modQueue
        j.queue fun y => { y with state := .active }) = true))) = true := by decide +kernel

theorem test_chainsBegin_1 :
    (have s : State := (st (devJ (job4 (desc 1 [(128, 64, 0), (192, 64, 4096), (256, 32, 128)]) (.mover 0 0))))
     have i : Nat := 4
     have n : Nat := 128
     have j : Job := (job4 (desc 1 [(128, 64, 0), (192, 64, 4096), (256, 32, 128)]) (.mover 0 0))
     have c : Chain := { started := true, turn := true, elem := j.desc, elemAddr := j.slotAddr, lastBurst := s.dev.now }
     have a : Nat × Nat := (3, 0)
     have b : Nat × Nat := (3, 4096)
     decide ((Running s.dev i j 1) ∧
       (j.chain = none) ∧
       (s.dev.runsNow j = true) ∧
       (s.dev.elemRanges (dCtx j.desc) j.desc = none) ∧
       (bit j.desc 480 = false) ∧
       (bit j.desc 481 = false) ∧
       (c = { started := true, turn := true, elem := j.desc, elemAddr := j.slotAddr, lastBurst := s.dev.now }) ∧
       (s.dev.burstSize (dCtx j.desc) c = n) ∧
       (s.dev.srcSide (dCtx j.desc) { c with burst := n } = .ok (some (.region a.1 a.2))) ∧
       (s.dev.dstSide (dCtx j.desc) { c with burst := n } = .ok (.region b.1 b.2)) ∧
       (yields (exec (.copy i) s) (s.onDev fun d => (ready d).putJob { j with chain := some { c with burst := n } }) = true))) = true := by decide +kernel

theorem test_chainsBegin_2 :
    (have s : State := (st (devJ (job4 (desc 2 [(128, 64, 0x1122), (192, 64, 4096), (256, 32, 128)]) (.mover 0 0))))
     have i : Nat := 4
     have n : Nat := 128
     have j : Job := (job4 (desc 2 [(128, 64, 0x1122), (192, 64, 4096), (256, 32, 128)]) (.mover 0 0))
     have c : Chain := { started := true, turn := true, elem := j.desc, elemAddr := j.slotAddr, lastBurst := s.dev.now }
     have b : Nat × Nat := (3, 4096)
     decide ((Running s.dev i j 2) ∧
       (j.chain = none) ∧
       (s.dev.runsNow j = true) ∧
       (s.dev.elemRanges (dCtx j.desc) j.desc = none) ∧
       (bit j.desc 481 = false) ∧
       (c = { started := true, turn := true, elem := j.desc, elemAddr := j.slotAddr, lastBurst := s.dev.now }) ∧
       (s.dev.burstSize (dCtx j.desc) c = n) ∧
       (s.dev.dstSide (dCtx j.desc) { c with burst := n } = .ok (.region b.1 b.2)) ∧
       (yields (exec (.fill i) s) (s.onDev fun d => (ready d).putJob { j with chain := some { c with burst := n } }) = true))) = true := by decide +kernel

theorem test_chainsBegin_3 :
    (have i : Nat := 4
     have j : Job := { job4 (desc 2 [(128, 64, 0x1122), (192, 64, 4096), (256, 32, 128), (416, 64, (makeHandle 5 2 0 0 3).toNat), (481, 1, 1)]) (.mover 0 0) with holds := [{ region := 5, object := 2, slot := 0 }] }
     have o : Obj := { state := .live, flat := true, gen := 3, flatPages := 2, length := 131072, workingRoot := 9 }
     have s : State := st (devS o {} [j])
     have k : Nat := ((under s.dev i j).exclusiveAll 5 2 (elemPages j.desc)).1.2
     have c : Chain := { started := true, turn := false, elem := j.desc, elemAddr := j.slotAddr, lastBurst := s.dev.now }
     have e : Dev := ((under s.dev i j).exclusiveAll 5 2 (elemPages j.desc)).2
     decide ((Running s.dev i j 2) ∧
       (j.chain = none) ∧
       (s.dev.runsNow j = true) ∧
       (s.dev.elemRanges (dCtx j.desc) j.desc = none) ∧
       (bit j.desc 481 = true) ∧
       ((descHolds j.desc).all (fun h => j.holds.contains h) = true) ∧
       (c = { started := true, turn := false, elem := j.desc, elemAddr := j.slotAddr, lastBurst := s.dev.now }) ∧
       (s.dev.inTurn { j with chain := some c } = true) ∧
       (s.dev.obj (hRegion (field j.desc 416 64)) (hIndex (field j.desc 416 64)) = o) ∧
       (o.state = .live) ∧
       (o.gen.toNat = hObjGen (field j.desc 416 64)) ∧
       (((under s.dev i j).exclusiveAll 5 2 (elemPages j.desc)).1.1 = .ok) ∧
       (Undisturbed s.dev e) ∧
       (ends (exec (.fill i) s) (fun t => (t.dev.job i).any (fun x => x.chain.any (fun y => y.started && y.burst == min 4096 (field j.desc 256 32)))) = true))) = true := by decide +kernel

theorem test_chainsBegin_4 :
    (have i : Nat := 4
     have j : Job := { job4 (desc 2 [(128, 64, 0x1122), (192, 64, 4096), (256, 32, 128), (416, 64, (makeHandle 5 2 0 0 3).toNat), (481, 1, 1)]) (.mover 0 0) with holds := [{ region := 5, object := 2, slot := 0 }] }
     have s : State := st (devS { state := .live, flat := true, gen := 3, flatPages := 2, length := 131072, workingRoot := 9 } {} [{ j with id := 3, unit := .mover 1 0 }, j])
     have c : Chain := { started := true, turn := false, elem := j.desc, elemAddr := j.slotAddr, lastBurst := s.dev.now }
     decide ((Running s.dev i j 2) ∧
       (j.chain = none) ∧
       (s.dev.runsNow j = true) ∧
       (s.dev.elemRanges (dCtx j.desc) j.desc = none) ∧
       (bit j.desc 481 = true) ∧
       ((descHolds j.desc).all (fun h => j.holds.contains h) = true) ∧
       (c = { started := true, turn := false, elem := j.desc, elemAddr := j.slotAddr, lastBurst := s.dev.now }) ∧
       (s.dev.inTurn { j with chain := some c } = false) ∧
       (yields (exec (.fill i) s) (s.onDev fun d => (ready d).putJob { j with chain := some c }) = true))) = true := by decide +kernel

theorem test_chainsBegin_5 :
    (have s : State := (st ((devJ { job4 (desc 1 []) (.mover 0 0) with chain := some { started := true, done := 3, elem := desc 2 [(288, 64, 640)], needFetch := true } }).putLine 0 10 (BitVec.ofNat 512 (packBits [(0, 8, 2), (8, 4, 1), (128, 64, 5), (192, 64, 4096), (256, 32, 64)]))))
     have i : Nat := 4
     have n : Nat := 64
     have j : Job := ({ job4 (desc 1 []) (.mover 0 0) with chain := some { started := true, done := 3, elem := desc 2 [(288, 64, 640)], needFetch := true } })
     have c : Chain := { started := true, done := 3, elem := desc 2 [(288, 64, 640)], needFetch := true }
     have r : Nat := 3
     have off : Nat := 640
     have m : Nat := 0
     have line : Nat := 10
     have x : Line := (BitVec.ofNat 512 (packBits [(0, 8, 2), (8, 4, 1), (128, 64, 5), (192, 64, 4096), (256, 32, 64)]))
     have c' : Chain := { c with started := true, turn := true, elem := x, elemAddr := field c.elem 288 64, moved := 0, needFetch := false, reading := false, lastBurst := s.dev.now, buffer := [] }
     have b : Nat × Nat := (3, 4096)
     decide ((Running s.dev i j 1) ∧
       (j.chain = some c) ∧
       (c.started = true) ∧
       (c.needFetch = true) ∧
       (c.abort = false) ∧
       (c.outstanding = []) ∧
       (c.fail = none) ∧
       (c.done < 65536) ∧
       (s.dev.side (dCtx j.desc) false 0 (field c.elem 288 64) 64 .r = .ok (.region r off)) ∧
       (ValidLine s.dev r off m line) ∧
       (Calm s.dev 1) ∧
       (s.dev.lineData m line = x) ∧
       (dOpcode x = 2) ∧
       (field x 8 4 = 1) ∧
       (field x 12 116 = 0) ∧
       (s.dev.elemCheck (dCtx j.desc) x = none) ∧
       (bit x 481 = false) ∧
       (c' = { c with started := true, turn := true, elem := x, elemAddr := field c.elem 288 64, moved := 0, needFetch := false, reading := false, lastBurst := s.dev.now, buffer := [] }) ∧
       (s.dev.burstSize (dCtx j.desc) c' = n) ∧
       (s.dev.dstSide (dCtx j.desc) { c' with burst := n } = .ok (.region b.1 b.2)) ∧
       (yields (exec (.chainElementFetch i) s) (s.onDev fun d =>
      ((under d i j).activate m line).atRest.putJob { j with chain := some { c' with burst := n } }) = true))) = true := by decide +kernel

theorem test_burstsAndAborts_1 :
    (have i : Nat := 4
     have n : Nat := 2
     have r : Nat := 3
     have off : Nat := 4096
     have c : Chain := { started := true, turn := true, burst := 128, elem := desc 2 [(128, 64, 0x1122), (192, 64, 4096), (256, 32, 128)], elemAddr := 64 }
     have j : Job := { job4 c.elem (.mover 0 0) with chain := some c }
     have s : State := st (devJ j)
     have u : Nat → Nat × Nat := (fun k => (0, 64 + k))
     decide ((Running s.dev i j 2) ∧
       (j.chain = some c) ∧
       (c.started = true) ∧
       (c.turn = true) ∧
       (c.needFetch = false) ∧
       (c.outstanding = []) ∧
       (c.reading = false) ∧
       (c.abort = false) ∧
       (dOpcode c.elem = 2) ∧
       (c.burst = 64 * n) ∧
       (c.moved + 64 * n = field c.elem 256 32) ∧
       (field c.elem 288 64 = 0) ∧
       (c.badLines = 0) ∧
       (s.dev.dstSide (dCtx j.desc) c = .ok (.region r off)) ∧
       (FreeToWrite s.dev r) ∧
       (Calm s.dev n) ∧
       (Lines s.dev r off n u) ∧
       (s.dev.regions.any (fun x => x.2.durable || x.2.window) = false) ∧
       (yields (exec (.moverBurstDone i) s) (s.onDev fun d =>
      let c' := { c with done := c.done + 1, moved := c.moved + 64 * n, lastBurst := d.now, buffer := [], firstBad := field c.elem 192 64 + c.moved }
      (ended (written (under d i j) n u fun _ => fillLine c.elem) { j with chain := some c' } .ok (BitVec.ofNat 64 (c.done + 1)) 0).atRest) = true))) = true := by decide +kernel

theorem test_burstsAndAborts_2 :
    (have i : Nat := 4
     have n : Nat := 2
     have r : Nat := 3
     have off : Nat := 4096
     have r' : Nat := 3
     have off' : Nat := 0
     have c : Chain := { started := true, turn := true, burst := 128, elem := desc 1 [(128, 64, 0), (192, 64, 4096), (256, 32, 128)], elemAddr := 64 }
     have j : Job := { job4 c.elem (.mover 0 0) with chain := some c }
     have s : State := st ((devJ j).putLine 0 1 0x77)
     have u : Nat → Nat × Nat := (fun k => (0, 64 + k))
     have v : Nat → Nat × Nat := (fun k => (0, k))
     decide ((Running s.dev i j 1) ∧
       (j.chain = some c) ∧
       (c.started = true) ∧
       (c.turn = true) ∧
       (c.needFetch = false) ∧
       (c.outstanding = []) ∧
       (c.reading = false) ∧
       (c.abort = false) ∧
       (dOpcode c.elem = 1) ∧
       (c.burst = 64 * n) ∧
       (c.moved + 64 * n = field c.elem 256 32) ∧
       (field c.elem 288 64 = 0) ∧
       (c.badLines = 0) ∧
       (s.dev.srcSide (dCtx j.desc) c = .ok (some (.region r' off'))) ∧
       (s.dev.dstSide (dCtx j.desc) c = .ok (.region r off)) ∧
       (FreeToWrite s.dev r) ∧
       (Calm s.dev (2 * n)) ∧
       (Lines s.dev r off n u) ∧
       (s.dev.regions.any (fun x => x.2.durable || x.2.window) = false) ∧
       ((∀ k, k < n → ValidLine s.dev r' (off' + 64 * k) (v k).1 (v k).2)) ∧
       (yields (exec (.moverBurstDone i) s) (s.onDev fun d =>
      let c' := { c with done := c.done + 1, moved := c.moved + 64 * n, lastBurst := d.now, buffer := [], firstBad := field c.elem 192 64 + c.moved }
      (ended (written (activated (under d i j) n v) n u fun k => d.lineData (v k).1 (v k).2)
        { j with chain := some c' } .ok (BitVec.ofNat 64 (c.done + 1)) 0).atRest) = true))) = true := by decide +kernel

theorem test_burstsAndAborts_3 :
    (have i : Nat := 4
     have c : Chain := { started := true, turn := true, needFetch := true, abort := true, elem := desc 1 [(128, 64, 0), (192, 64, 4096), (256, 32, 128)], elemAddr := 64, moved := 64 }
     have j : Job := { job4 c.elem (.mover 0 0) with chain := some c }
     have s : State := st (devJ j)
     decide ((s.dev.job i = some j) ∧
       (j.id = i) ∧
       (j.result = none) ∧
       ((dOpcode j.desc = 1 ∨ dOpcode j.desc = 2)) ∧
       (j.chain = some c) ∧
       (c.abort = true) ∧
       (c.outstanding = []) ∧
       (c.started = true) ∧
       ((c.turn = false ∨ c.needFetch = true)) ∧
       (yields (exec (.moverAbort i) s) (s.onDev fun d =>
      ((ended (under d i j) j .part (BitVec.ofNat 64 c.elemAddr) (BitVec.ofNat 32 (field c.elem 256 32 - c.moved))).moverAborted j
        .part).atRest) = true))) = true := by decide +kernel

theorem test_burstsAndAborts_4 :
    (have i : Nat := 4
     have n : Nat := 1
     have r : Nat := 3
     have off : Nat := 4096
     have c : Chain := { started := true, turn := true, burst := 64, abort := true, elem := desc 2 [(128, 64, 0x1122), (192, 64, 4096), (256, 32, 128)], elemAddr := 64 }
     have j : Job := { job4 c.elem (.mover 0 0) with chain := some c }
     have s : State := st (devJ j)
     have u : Nat → Nat × Nat := fun k => (0, 64 + k)
     decide ((Running s.dev i j 2) ∧
       (j.id = i) ∧
       (j.chain = some c) ∧
       (c.abort = true) ∧
       (c.outstanding = []) ∧
       (c.started = true) ∧
       (c.turn = true) ∧
       (c.needFetch = false) ∧
       (c.reading = false) ∧
       (dOpcode c.elem = 2) ∧
       (c.burst = 64 * n) ∧
       (c.moved + 64 * n ≠ field c.elem 256 32) ∧
       (c.badLines = 0) ∧
       (s.dev.dstSide (dCtx j.desc) c = .ok (.region r off)) ∧
       (FreeToWrite s.dev r) ∧
       (Calm s.dev n) ∧
       (Lines s.dev r off n u) ∧
       (s.dev.regions.any (fun x => x.2.durable || x.2.window) = false) ∧
       (yields (exec (.moverAbort i) s) (s.onDev fun d =>
      let c' := { c with moved := c.moved + 64 * n, lastBurst := d.now, buffer := [], firstBad := field c.elem 192 64 + c.moved }
      let j' := { j with chain := some c' }
      ((ended ((written (under d i j) n u fun _ => fillLine c.elem).putJob j') j' .part (BitVec.ofNat 64 c.elemAddr)
        (BitVec.ofNat 32 (field c.elem 256 32 - c'.moved))).moverAborted j' .part).atRest) = true))) = true := by decide +kernel

theorem test_atomicsAndLocks_1 :
    (have s : State := (st (((devJ (job4 (desc 0x30 [(128, 64, 0), (192, 64, 4096), (256, 24, 2), (280, 3, 0)]) (.mover 0 0))).putLine 0 1 0x3F80).putLine 0 65 0x4000))
     have i : Nat := 4
     have j : Job := (job4 (desc 0x30 [(128, 64, 0), (192, 64, 4096), (256, 24, 2), (280, 3, 0)]) (.mover 0 0))
     have c : Chain := {}
     have r : Nat := 3
     have off : Nat := 4096
     have r' : Nat := 3
     have off' : Nat := 0
     have u : Nat × Nat := (0, 64)
     have v : Nat × Nat := (0, 0)
     decide ((Running s.dev i j 0x30) ∧
       (j.chain.getD {} = c) ∧
       (c.abort = false) ∧
       (c.outstanding = []) ∧
       (c.buffer = []) ∧
       (s.dev.runsNow j = true) ∧
       (s.dev.side (dCtx j.desc) false 0 (field j.desc 128 64 + c.moved) 64 .r = .ok (.region r' off')) ∧
       (s.dev.side (dCtx j.desc) false 0 (field j.desc 192 64 + c.moved) 64 .w = .ok (.region r off)) ∧
       (FreeToWrite s.dev r) ∧
       (ValidLine s.dev r' off' v.1 v.2) ∧
       (ValidLine s.dev r off u.1 u.2) ∧
       (Calm s.dev 3) ∧
       (yields (exec (.reduceWrite i) s) (s.onDev fun d =>
      let c' := { c with started := true, moved := c.moved + 64, buffer := [], lastBurst := d.now }
      let e := (((under d i j).activate v.1 v.2).activate u.1 u.2).writeLine u.1 u.2
        (reduceLine (field j.desc 280 3) (d.lineData u.1 u.2) (d.lineData v.1 v.2))
      (if c.moved + 64 = 64 * field j.desc 256 24 then
        ended e { j with chain := some c' } .ok 0 (BitVec.ofNat 32 (field j.desc 256 24))
      else e.putJob { j with chain := some c' }).atRest) = true))) = true := by decide +kernel

theorem test_atomicsAndLocks_2 :
    (have s : State := (st ((devJ (job4 (desc 0x31 [(128, 64, 72), (192, 8, 0x10), (256, 64, 5)]) .memory)).putLine 0 1 (BitVec.ofNat 512 (7 * 2 ^ 64 + 1))))
     have i : Nat := 4
     have j : Job := (job4 (desc 0x31 [(128, 64, 72), (192, 8, 0x10), (256, 64, 5)]) .memory)
     have n : Nat := 8
     have r : Nat := 3
     have off : Nat := 72
     have m : Nat := 0
     have line : Nat := 1
     have x : Line := (BitVec.ofNat 512 (7 * 2 ^ 64 + 1))
     decide ((Running s.dev i j 0x31) ∧
       (n = (if bit j.desc 196 then 8 else 4)) ∧
       (s.dev.locate (dCtx j.desc) (field j.desc 128 64) n .a = .ok (r, off)) ∧
       (FreeToWrite s.dev r) ∧
       (ValidLine s.dev r off m line) ∧
       (ValidLine s.dev r (off / 64 * 64) m line) ∧
       (Calm s.dev 2) ∧
       (s.dev.lineData m line = x) ∧
       (yields (exec (.atomic i) s) (s.onDev fun d =>
      let old := field x (8 * (off % 64)) (8 * n)
      let new := atomicNew (8 * n) (field j.desc 192 4) old (field j.desc 256 64 % 2 ^ (8 * n)) (field j.desc 320 64 % 2 ^ (8 * n))
      (ended (((under d i j).activate m line).writeLine m line (mergeBytes x (BitVec.ofNat 512 (new * 2 ^ (8 * (off % 64))))
        (BitVec.ofNat 64 ((2 ^ n - 1) * 2 ^ (off % 64))))) j .ok (BitVec.ofNat 64 old) 0).atRest) = true))) = true := by decide +kernel

theorem test_atomicsAndLocks_3 :
    (have s : State := (st ((devJ (job4 (desc 0x32 [(128, 64, 64), (192, 32, 5)]) .memory)).putLine 0 1 (BitVec.ofNat 512 (7 * 2 ^ 64))))
     have i : Nat := 4
     have j : Job := (job4 (desc 0x32 [(128, 64, 64), (192, 32, 5)]) .memory)
     have r : Nat := 3
     have off : Nat := 64
     have m : Nat := 0
     have line : Nat := 1
     have x : Line := (BitVec.ofNat 512 (7 * 2 ^ 64))
     decide ((Running s.dev i j 0x32) ∧
       (j.waiting = false) ∧
       (s.dev.locate (dCtx j.desc) (field j.desc 128 64) 64 .a = .ok (r, off)) ∧
       (FreeToWrite s.dev r) ∧
       (ValidLine s.dev r off m line) ∧
       (Calm s.dev 2) ∧
       (s.dev.lineData m line = x) ∧
       (lockRsvOk x = true) ∧
       (bit x 0 = false) ∧
       ((s.dev.queue j.queue).state = .active) ∧
       (yields (exec (.lockAcquire i) s) (s.onDev fun d =>
      let y := lockTaken x j.queue j.queueGen (dCtx j.desc)
      (ended (((under d i j).activate m line).writeLine m line y) j .ok (BitVec.ofNat 64 (field y 64 64)) 0).atRest) = true))) = true := by decide +kernel

theorem test_atomicsAndLocks_4 :
    (have s : State := (st ((devJ (job4 (desc 0x32 [(128, 64, 64), (192, 32, 5)]) .memory)).putLine 0 1 (BitVec.ofNat 512 (packBits [(0, 1, 1), (8, 18, 9), (48, 16, 7), (64, 64, 2)]))))
     have i : Nat := 4
     have j : Job := (job4 (desc 0x32 [(128, 64, 64), (192, 32, 5)]) .memory)
     have r : Nat := 3
     have off : Nat := 64
     have m : Nat := 0
     have line : Nat := 1
     have x : Line := (BitVec.ofNat 512 (packBits [(0, 1, 1), (8, 18, 9), (48, 16, 7), (64, 64, 2)]))
     decide ((Running s.dev i j 0x32) ∧
       (j.id = i) ∧
       (j.waiting = false) ∧
       (s.dev.locate (dCtx j.desc) (field j.desc 128 64) 64 .a = .ok (r, off)) ∧
       (FreeToWrite s.dev r) ∧
       (ValidLine s.dev r off m line) ∧
       (Calm s.dev 1) ∧
       (s.dev.lineData m line = x) ∧
       (lockRsvOk x = true) ∧
       (bit x 0 = true) ∧
       (s.dev.ownerLive x = true) ∧
       ((s.dev.unit m).lockWaiters.length < 256) ∧
       (field j.desc 192 32 ≠ 0) ∧
       ((s.dev.queue j.queue).gen = j.queueGen) ∧
       (yields (exec (.lockAcquire i) s) (s.onDev fun d =>
      let w : LockWaiter := { job := i, line := lockKey r off }
      (((((under d i j).activate m line).modUnit m fun u => { u with lockWaiters := u.lockWaiters ++ [w] }).putJob
        { j with waiting := true }).modQueue j.queue fun y =>
          { y with state := if y.state = .active ∧ y.gen = j.queueGen then .parked else y.state }).atRest) = true))) = true := by decide +kernel

theorem test_atomicsAndLocks_5 :
    (have s : State := (st ((devJ (job4 (desc 0x33 [(128, 64, 64)]) .memory)).putLine 0 1 (BitVec.ofNat 512 (packBits [(0, 1, 1), (8, 18, 9), (48, 16, 7), (64, 64, 2)]))))
     have i : Nat := 4
     have j : Job := (job4 (desc 0x33 [(128, 64, 64)]) .memory)
     have r : Nat := 3
     have off : Nat := 64
     have m : Nat := 0
     have line : Nat := 1
     have x : Line := (BitVec.ofNat 512 (packBits [(0, 1, 1), (8, 18, 9), (48, 16, 7), (64, 64, 2)]))
     decide ((Running s.dev i j 0x33) ∧
       (s.dev.locate (dCtx j.desc) (field j.desc 128 64) 64 .a = .ok (r, off)) ∧
       (FreeToWrite s.dev r) ∧
       (ValidLine s.dev r off m line) ∧
       (Calm s.dev 2) ∧
       (s.dev.lineData m line = x) ∧
       (lockRsvOk x = true) ∧
       (bit x 0 = true) ∧
       (field x 8 18 = j.queue) ∧
       (field x 32 8 = j.queueGen.toNat) ∧
       ((s.dev.unit m).lockWaiters = []) ∧
       (yields (exec (.lockRelease i) s) (s.onDev fun d =>
      (ended (((under d i j).activate m line).writeLine m line (x &&& ~~~1#512)) j .ok 0 0).atRest) = true))) = true := by decide +kernel

theorem test_atomicsAndLocks_6 :
    (have s : State := (st ((((devJ { job4 (desc 0x32 [(128, 64, 64), (192, 32, 5)]) .memory with waiting := true }).putLine 0 1 (BitVec.ofNat 512 (packBits [(0, 1, 1), (8, 18, 8), (48, 16, 7), (64, 64, 2)]))).modQueue 9 fun x => { x with state := .parked }).modUnit 0 fun u => { u with lockWaiters := [{ job := 4, line := lockKey 3 64 }] }))
     have i : Nat := 4
     have j : Job := ({ job4 (desc 0x32 [(128, 64, 64), (192, 32, 5)]) .memory with waiting := true })
     have r : Nat := 3
     have off : Nat := 64
     have m : Nat := 0
     have line : Nat := 1
     have x : Line := (BitVec.ofNat 512 (packBits [(0, 1, 1), (8, 18, 8), (48, 16, 7), (64, 64, 2)]))
     decide ((Running s.dev i j 0x32) ∧
       (j.id = i) ∧
       (j.waiting = true) ∧
       (s.dev.locate (dCtx j.desc) (field j.desc 128 64) 64 .a = .ok (r, off)) ∧
       (FreeToWrite s.dev r) ∧
       (ValidLine s.dev r off m line) ∧
       (Calm s.dev 2) ∧
       (s.dev.lineData m line = x) ∧
       (bit x 0 = true) ∧
       (s.dev.ownerLive x = false) ∧
       ((s.dev.queue j.queue).state = .parked) ∧
       (yields (exec (.lockOwnerRecheck i) s) (s.onDev fun d =>
      let y := lockTaken x j.queue j.queueGen (dCtx j.desc)
      let e := (((under d i j).activate m line).dropWaiter i).writeLine m line y
      ((ended e j .abandoned (BitVec.ofNat 64 (field y 64 64)) 0).modQueue j.queue fun z => { z with state := .active }).atRest) = true))) = true := by decide +kernel

theorem test_atomicsAndLocks_7 :
    (have s : State := (st ((((devJ { job4 (desc 0x32 [(128, 64, 64), (192, 32, 5)]) .memory with waiting := true }).putLine 0 1 (BitVec.ofNat 512 (packBits [(0, 1, 1), (8, 18, 8), (48, 16, 7), (64, 64, 2)]))).modQueue 9 fun x => { x with state := .parked }).modUnit 0 fun u => { u with lockWaiters := [{ job := 4, line := lockKey 3 64 }] }))
     have i : Nat := 4
     have j : Job := ({ job4 (desc 0x32 [(128, 64, 64), (192, 32, 5)]) .memory with waiting := true })
     decide ((Running s.dev i j 0x32) ∧
       (j.id = i) ∧
       (j.waiting = true) ∧
       ((s.dev.queue j.queue).state = .parked) ∧
       (yields (exec (.lockWaitTimeout i) s) (s.onDev fun d =>
      let e := { d with
        now := max d.now (j.dispatchedAt + field j.desc 192 32 * 1000)
        units := d.units.map (fun u => (u.1, { u.2 with lockWaiters := u.2.lockWaiters.filter (fun w => w.job != i) })) }
      (ended e j .timeout 0 0).modQueue j.queue fun z => { z with state := .active }) = true))) = true := by decide +kernel

theorem test_sequenceDescriptors_1 :
    (have s : State := (st (devS obj2 {} [(job4 (desc 0x10 [(128, 64, (makeHandle 5 2 0 0 3).toNat), (192, 23, 1), (215, 1, 1), (216, 16, 1), (256, 64, 0)]) (.engines [0]))]))
     have i : Nat := 4
     have j : Job := (job4 (desc 0x10 [(128, 64, (makeHandle 5 2 0 0 3).toNat), (192, 23, 1), (215, 1, 1), (216, 16, 1), (256, 64, 0)]) (.engines [0]))
     have r : Nat := 5
     have k : Nat := 2
     have o : Obj := obj2
     have e : Dev := (match (under s.dev i j).appendLines j with | .ok x => x.1 | .error d => d)
     have v : View := (match (under s.dev i j).appendLines j with | .ok x => x.2.1 | .error _ => {})
     have all : Tab Line := (match (under s.dev i j).appendLines j with | .ok x => x.2.2 | .error _ => [])
     have len : Nat := 2
     have before : List Nat := s.dev.windowHomes r o.workingRoot o o.length
     have stored : Dev := ((((e.putJob { j with before := some (s.dev.workingNow r o) }).putLines r v all).modObj r k (fun y => { y with length := len })).moveWindow r k before)
     decide ((Running s.dev i j 0x10) ∧
       (s.dev.inTurn j = true) ∧
       (r = hRegion (dW0 j.desc)) ∧
       (k = hIndex (dW0 j.desc)) ∧
       (s.dev.obj r k = o) ∧
       (((under s.dev i j).appendLines j).toOption.isSome = true) ∧
       (len = (if bit j.desc 215 then field j.desc 192 23 + field j.desc 216 16 else o.length)) ∧
       (Undisturbed s.dev stored) ∧
       (ends (exec (.kvAppend i) s) (fun t => (t.dev.obj r k).length == len && (t.dev.job i).any (fun x => x.result.any (fun y => y.status == .ok))) = true))) = true := by decide +kernel

theorem test_sequenceDescriptors_2 :
    (have i : Nat := 4
     have sn : Snapshot := { region := 5, length := 1, view := { root := 9 } }
     have j : Job := { job4 (desc 0x11 [(128, 64, (makeHandle 5 2 0 0 3).toNat), (320, 64, 0), (384, 64, 4096), (448, 32, 0x3F800000)]) (.engines [0]) with snap := some sn }
     have s : State := st (devS obj2 {} [j])
     have o : Obj := obj2
     have qb : List Byte := ((under s.dev i j).readBytes (dCtx j.desc) (field j.desc 320 64) (queryBytes o j.desc)).2.1
     have d1 : Dev := ((under s.dev i j).readBytes (dCtx j.desc) (field j.desc 320 64) (queryBytes o j.desc)).2.2
     have d2 : Dev := (d1.attendAll (hRegion (dW0 j.desc)) sn.view o (attendOps j.desc sn.length)
      ((List.range o.heads).map (fun h => (h, ((chunksOf o.dim (attendHeads o * (attendOps j.desc sn.length).n) (bf16s qb)).drop
        (h * (attendOps j.desc sn.length).g * (attendOps j.desc sn.length).n)).take
          ((attendOps j.desc sn.length).g * (attendOps j.desc sn.length).n))))).2.2
     have k : Nat := (d1.attendAll (hRegion (dW0 j.desc)) sn.view o (attendOps j.desc sn.length)
      ((List.range o.heads).map (fun h => (h, ((chunksOf o.dim (attendHeads o * (attendOps j.desc sn.length).n) (bf16s qb)).drop
        (h * (attendOps j.desc sn.length).g * (attendOps j.desc sn.length).n)).take
          ((attendOps j.desc sn.length).g * (attendOps j.desc sn.length).n))))).1.2
     have outs : List (List F32 × F32) := (d1.attendAll (hRegion (dW0 j.desc)) sn.view o (attendOps j.desc sn.length)
      ((List.range o.heads).map (fun h => (h, ((chunksOf o.dim (attendHeads o * (attendOps j.desc sn.length).n) (bf16s qb)).drop
        (h * (attendOps j.desc sn.length).g * (attendOps j.desc sn.length).n)).take
          ((attendOps j.desc sn.length).g * (attendOps j.desc sn.length).n))))).2.1.1
     have d3 : Dev := (d2.writeBytes (dCtx j.desc) (field j.desc 384 64) (padTo (outTotal o j.desc) (padTo (outBytes o j.desc)
      (outs.flatMap (fun p => p.1.flatMap (fun y => if bit j.desc 211 then bytesOf 2 (bf16 (ofF32 y)) else bytesOf 4 y))) ++
      outs.flatMap (fun p => bytesOf 4 p.2)))).2
     have blocks : Nat := (d1.attendAll (hRegion (dW0 j.desc)) sn.view o (attendOps j.desc sn.length)
      ((List.range o.heads).map (fun h => (h, ((chunksOf o.dim (attendHeads o * (attendOps j.desc sn.length).n) (bf16s qb)).drop
        (h * (attendOps j.desc sn.length).g * (attendOps j.desc sn.length).n)).take
          ((attendOps j.desc sn.length).g * (attendOps j.desc sn.length).n))))).2.1.2
     decide ((Running s.dev i j 0x11) ∧
       (j.snap = some sn) ∧
       (s.dev.obj (hRegion (dW0 j.desc)) (hIndex (dW0 j.desc)) = o) ∧
       (o.flat = false) ∧
       ((attendOps j.desc sn.length).layer < o.layers) ∧
       (field j.desc 204 4 = o.gqM1) ∧
       (localTokens (attendOps j.desc sn.length) ≤ sn.length) ∧
       ((under s.dev i j).readBytes (dCtx j.desc) (field j.desc 320 64) (queryBytes o j.desc) = (.ok, qb, d1)) ∧
       ((bf16s qb).any (fun f => !f.finite) = false) ∧
       (d1.attendAll (hRegion (dW0 j.desc)) sn.view o (attendOps j.desc sn.length)
      ((List.range o.heads).map (fun h => (h, ((chunksOf o.dim (attendHeads o * (attendOps j.desc sn.length).n) (bf16s qb)).drop
        (h * (attendOps j.desc sn.length).g * (attendOps j.desc sn.length).n)).take
          ((attendOps j.desc sn.length).g * (attendOps j.desc sn.length).n)))) = ((.ok, k), (outs, blocks), d2)) ∧
       (d2.writeBytes (dCtx j.desc) (field j.desc 384 64) (padTo (outTotal o j.desc) (padTo (outBytes o j.desc)
      (outs.flatMap (fun p => p.1.flatMap (fun y => if bit j.desc 211 then bytesOf 2 (bf16 (ofF32 y)) else bytesOf 4 y))) ++
      outs.flatMap (fun p => bytesOf 4 p.2))) = (.ok, d3)) ∧
       (Undisturbed s.dev d3) ∧
       (yields (exec (.attend i) s) { s with dev := (ended d3 j .ok (BitVec.ofNat 64 (attendOps j.desc sn.length).len) (BitVec.ofNat 32 blocks)).atRest } = true))) = true := by decide +kernel

theorem test_sequenceDescriptors_3 :
    (have i : Nat := 4
     have sn : Snapshot := { region := 5, length := 1, view := { root := 9 } }
     have j : Job := { job4 (desc 0x12 [(128, 64, (makeHandle 5 2 0 0 3).toNat), (216, 16, 1), (256, 64, 4096)]) (.engines [0]) with snap := some sn }
     have s : State := st (devS obj2 {} [j])
     have o : Obj := obj2
     have bs : List Byte := ((under s.dev i j).gatherRows (hRegion (dW0 j.desc)) sn.view o (gatherOrder o (field j.desc 232 8) (field j.desc 240 8 + 1) (field j.desc 192 23) (field j.desc 216 16))).2.1
     have d1 : Dev := ((under s.dev i j).gatherRows (hRegion (dW0 j.desc)) sn.view o (gatherOrder o (field j.desc 232 8) (field j.desc 240 8 + 1) (field j.desc 192 23) (field j.desc 216 16))).2.2
     have d2 : Dev := (d1.writeBytes (dCtx j.desc) (field j.desc 256 64) bs).2
     have k : Nat := ((under s.dev i j).gatherRows (hRegion (dW0 j.desc)) sn.view o (gatherOrder o (field j.desc 232 8) (field j.desc 240 8 + 1) (field j.desc 192 23) (field j.desc 216 16))).1.2
     decide ((Running s.dev i j 0x12) ∧
       (j.snap = some sn) ∧
       (s.dev.obj (hRegion (dW0 j.desc)) (hIndex (dW0 j.desc)) = o) ∧
       (o.flat = false) ∧
       (field j.desc 192 23 + field j.desc 216 16 ≤ sn.length) ∧
       (field j.desc 232 8 + field j.desc 240 8 + 1 ≤ o.layers) ∧
       ((if bit j.desc 215 = true then
        (under s.dev i j).gatherRaw (hRegion (dW0 j.desc)) sn.view o
          (rawBlocks (field j.desc 232 8) (field j.desc 240 8 + 1) (field j.desc 192 23) (field j.desc 216 16))
      else (under s.dev i j).gatherRows (hRegion (dW0 j.desc)) sn.view o
          (gatherOrder o (field j.desc 232 8) (field j.desc 240 8 + 1) (field j.desc 192 23) (field j.desc 216 16))) = ((.ok, k), bs, d1)) ∧
       (d1.writeBytes (dCtx j.desc) (field j.desc 256 64) bs = (.ok, d2)) ∧
       (Undisturbed s.dev d2) ∧
       (yields (exec (.kvGather i) s) { s with dev := (ended d2 j .ok 0 (BitVec.ofNat 32 ((bs.length + 63) / 64))).atRest } = true))) = true := by decide +kernel

theorem test_sequenceDescriptors_4 :
    (have s : State := (st (devS obj2 {} [(job4 (desc 0x13 [(128, 64, (makeHandle 5 2 0 0 3).toNat), (208, 16, 1)]) (.engines [0]))]))
     have i : Nat := 4
     have j : Job := (job4 (desc 0x13 [(128, 64, (makeHandle 5 2 0 0 3).toNat), (208, 16, 1)]) (.engines [0]))
     have r : Nat := 5
     have o : Obj := obj2
     have ls : List Nat := [0]
     have named : List Nat := (namedLines obj2 0 0 1).dedup
     have d1 : Dev := ((under s.dev i j).exclusiveAll r (hIndex (dW0 j.desc)) (((named.map (fun l => l / 1024)).dedup).map (fun p => (p, true)))).2
     have k' : Nat := ((under s.dev i j).exclusiveAll r (hIndex (dW0 j.desc)) (((named.map (fun l => l / 1024)).dedup).map (fun p => (p, true)))).1.2
     have slots : List (Nat × Nat) := ([0].flatMap (fun l => (sharingBlocks obj2 l 0 1).map (fun b => (l, b))))
     have d2 : Dev := (d1.rebuildSlots r (d1.viewOf r o.workingRoot) o slots).2.2
     have k : Nat := (d1.rebuildSlots r (d1.viewOf r o.workingRoot) o slots).1.2
     have ps : List (Nat × List Byte) := (d1.rebuildSlots r (d1.viewOf r o.workingRoot) o slots).2.1
     have stored : Dev := d2.putLines r (d1.viewOf r o.workingRoot)
      (named.map (fun l => (l, (tgetD (ps.foldl (fun p q => addBytes p q.1 q.2) []) l (0, 0)).1)))
     decide ((Running s.dev i j 0x13) ∧
       (s.dev.inTurn j = true) ∧
       (r = hRegion (dW0 j.desc)) ∧
       (s.dev.obj r (hIndex (dW0 j.desc)) = o) ∧
       (o.state = .live) ∧
       (o.gen.toNat = hObjGen (dW0 j.desc)) ∧
       (hSlot (dW0 j.desc) = 0) ∧
       (o.flat = false) ∧
       (field j.desc 192 16 + field j.desc 208 16 ≤ o.chunks * 64) ∧
       (field j.desc 224 8 + (field j.desc 232 8 + 1) ≤ o.layers) ∧
       (ls = (List.range (field j.desc 232 8 + 1)).map (fun l => field j.desc 224 8 + l)) ∧
       (named = (ls.flatMap (fun l => namedLines o l (field j.desc 192 16) (field j.desc 208 16))).dedup) ∧
       (slots = ls.flatMap (fun l => (sharingBlocks o l (field j.desc 192 16) (field j.desc 208 16)).map (fun b => (l, b)))) ∧
       (((under s.dev i j).exclusiveAll r (hIndex (dW0 j.desc)) (((named.map (fun l => l / 1024)).dedup).map (fun p => (p, true)))).1.1 = .ok) ∧
       ((d1.rebuildSlots r (d1.viewOf r o.workingRoot) o slots).1.1 = .ok) ∧
       (Undisturbed s.dev stored) ∧
       (ends (exec (.summaryRebuild i) s) (fun t => (t.dev.job i).any (fun x => x.result.any (fun y => y.status == .ok))) = true))) = true := by decide +kernel

theorem test_plateDescriptors_1 :
    (have s : State := (st (devS { obj2 with slots := [(1, { version := 1, root := 8, state := .published, gen := 4, length := 1, openCount := 1 })], latestVersion := 1 } {} [(job4 (desc 0x20 [(128, 64, (makeHandle 5 2 0 0 3).toNat)]) (.engines [0]))]))
     have i : Nat := 4
     have j : Job := (job4 (desc 0x20 [(128, 64, (makeHandle 5 2 0 0 3).toNat)]) (.engines [0]))
     have r : Nat := 5
     have k : Nat := 2
     have t : Nat := 1
     have o : Obj := { obj2 with slots := [(1, { version := 1, root := 8, state := .published, gen := 4, length := 1, openCount := 1 })], latestVersion := 1 }
     have sl : PlateSlot := { version := 1, root := 8, state := .published, gen := 4, length := 1, openCount := 1 }
     decide ((Running s.dev i j 0x20) ∧
       (r = hRegion (dW0 j.desc)) ∧
       (k = hIndex (dW0 j.desc)) ∧
       (s.dev.obj r k = o) ∧
       (o.slots.find? (fun x => x.2.state == .published &&
      x.2.version.toNat == (if field j.desc 192 32 = 0 then o.latestVersion.toNat else field j.desc 192 32) &&
      (if field j.desc 192 32 = 0 then o.latestVersion.toNat else field j.desc 192 32) != 0) = some (t, sl)) ∧
       (sl.openCount < 65535) ∧
       (yields (exec (.plateOpen i) s) (s.onDev fun d =>
      let sl' := { sl with openCount := sl.openCount + 1 }
      ended ((ready d).modObj r k fun y => { y with slots := tset y.slots t sl' }) j .ok (makeHandle r k t sl.gen o.gen) sl.version) = true))) = true := by decide +kernel

theorem test_plateDescriptors_2 :
    (have s : State := (st (devS { obj2 with slots := [(1, { version := 1, root := 8, state := .published, gen := 4, length := 1, openCount := 1 })], latestVersion := 1 } {} [{ job4 (desc 0x21 [(128, 64, (makeHandle 5 2 1 4 3).toNat)]) (.engines [0]) with holds := [{ region := 5, object := 2, slot := 1 }] }]))
     have i : Nat := 4
     have j : Job := ({ job4 (desc 0x21 [(128, 64, (makeHandle 5 2 1 4 3).toNat)]) (.engines [0]) with holds := [{ region := 5, object := 2, slot := 1 }] })
     have r : Nat := 5
     have k : Nat := 2
     have t : Nat := 1
     have o : Obj := { obj2 with slots := [(1, { version := 1, root := 8, state := .published, gen := 4, length := 1, openCount := 1 })], latestVersion := 1 }
     decide ((Running s.dev i j 0x21) ∧
       (bit j.desc 224 = false) ∧
       (r = hRegion (dW0 j.desc)) ∧
       (k = hIndex (dW0 j.desc)) ∧
       (t = hSlot (dW0 j.desc)) ∧
       (t ≠ 0) ∧
       (s.dev.obj r k = o) ∧
       ((o.slot t).state = .published) ∧
       ((2 ≤ (o.slot t).openCount ∨ ((o.slot t).openCount = 1 ∧ o.state = .live ∧ (o.slot t).version = o.latestVersion))) ∧
       (yields (exec (.plateClose i) s) (s.onDev fun d =>
      let sl' := { o.slot t with openCount := (o.slot t).openCount - 1 }
      ended ((ready d).modObj r k fun y => { y with slots := tset y.slots t sl' }) j .ok 0
        (BitVec.ofNat 32 ((o.slot t).openCount - 1))) = true))) = true := by decide +kernel

theorem test_plateDescriptors_3 :
    (have s : State := (st (devS obj2 {} [{ job4 (desc 0x21 [(128, 64, (makeHandle 5 2 0 0 3).toNat), (224, 1, 1)]) (.engines [0]) with holds := [{ region := 5, object := 2, slot := 0 }] }]))
     have i : Nat := 4
     have j : Job := ({ job4 (desc 0x21 [(128, 64, (makeHandle 5 2 0 0 3).toNat), (224, 1, 1)]) (.engines [0]) with holds := [{ region := 5, object := 2, slot := 0 }] })
     have r : Nat := 5
     have k : Nat := 2
     have o : Obj := obj2
     decide ((Running s.dev i j 0x21) ∧
       (bit j.desc 224 = true) ∧
       (s.dev.inTurn j = true) ∧
       (r = hRegion (dW0 j.desc)) ∧
       (k = hIndex (dW0 j.desc)) ∧
       (hSlot (dW0 j.desc) = 0) ∧
       (s.dev.obj r k = o) ∧
       (o.state = .live) ∧
       (o.gen.toNat = hObjGen (dW0 j.desc)) ∧
       (o.slots = []) ∧
       (s.dev.held r k 0 none = true) ∧
       (yields (exec (.plateCloseDestroy i) s) (s.onDev fun d =>
      ended ((ready d).modObj r k fun y => { y with state := .destroying }) j .ok 0 0) = true))) = true := by decide +kernel

theorem test_plateDescriptors_4 :
    (have s : State := (st (devS obj2 { roots := [(9, [(0, 12)])], maps := [(12, [(0, (false, 13))])], counts := [(12, 1), (13, 1)], used := [9, 12, 13] } [(job4 (desc 0x22 [(128, 64, (makeHandle 5 2 0 0 3).toNat)]) (.engines [0]))]))
     have i : Nat := 4
     have j : Job := (job4 (desc 0x22 [(128, 64, (makeHandle 5 2 0 0 3).toNat)]) (.engines [0]))
     have r : Nat := 5
     have k : Nat := 2
     have t : Nat := 1
     have o : Obj := obj2
     have root : Nat := (((under s.dev i j).copyRoot r k o.workingRoot).getD (0, {})).1
     have d1 : Dev := (((under s.dev i j).copyRoot r k o.workingRoot).getD (0, {})).2
     decide ((Running s.dev i j 0x22) ∧
       (s.dev.inTurn j = true) ∧
       (r = hRegion (dW0 j.desc)) ∧
       (k = hIndex (dW0 j.desc)) ∧
       (hSlot (dW0 j.desc) = 0) ∧
       (s.dev.obj r k = o) ∧
       (o.state = .live) ∧
       (o.gen.toNat = hObjGen (dW0 j.desc)) ∧
       (o.latestVersion ≠ 0xFFFFFFFE) ∧
       (o.slots.any (fun x => x.2.state == .published && x.2.version == o.latestVersion) = false) ∧
       ((List.range 16).find? (fun x => x != 0 && (o.slot x).state == .free) = some t) ∧
       (((under s.dev i j).copyRoot r k o.workingRoot).isSome = true) ∧
       (Undisturbed s.dev d1) ∧
       (ends (exec (.platePublish i) s) (fun t => (t.dev.obj r k).latestVersion == o.latestVersion + 1 && (t.dev.job i).any (fun x => x.result.any (fun y => y.status == .ok))) = true))) = true := by decide +kernel

theorem test_plateDescriptors_5 :
    (have s : State := (st (devS obj2 { roots := [(9, [(0, 12)])], maps := [(12, [(0, (false, 13))])], counts := [(12, 1), (13, 1)], used := [9, 12, 13] } [(job4 (desc 0x23 [(128, 64, (makeHandle 5 2 0 0 3).toNat)]) (.engines [0]))]))
     have i : Nat := 4
     have j : Job := (job4 (desc 0x23 [(128, 64, (makeHandle 5 2 0 0 3).toNat)]) (.engines [0]))
     have r : Nat := 5
     have k : Nat := 2
     have n : Nat := 0
     have o : Obj := obj2
     have root : Nat := (((under s.dev i j).copyRoot r k o.workingRoot).getD (0, {})).1
     have d1 : Dev := (((under s.dev i j).copyRoot r k o.workingRoot).getD (0, {})).2
     have d2 : Dev := (d1.modObj r n fun old => { o with
        gen := (d1.obj r n).gen, state := .live, pinned := false, length := o.length, workingRoot := root, workingFreed := false,
        latestVersion := 0, parentIndex := k, parentGen := o.gen, nearFullRaised := false,
        slots := old.slots.map (fun x => (x.1, { gen := x.2.gen })) }).moveWindow r n []
     decide ((Running s.dev i j 0x23) ∧
       (s.dev.inTurn j = true) ∧
       (r = hRegion (dW0 j.desc)) ∧
       (k = hIndex (dW0 j.desc)) ∧
       (hSlot (dW0 j.desc) = 0) ∧
       (s.dev.obj r k = o) ∧
       (o.state = .live) ∧
       (o.gen.toNat = hObjGen (dW0 j.desc)) ∧
       (firstFree ((s.dev.objs.filter (fun x => decide (x.1 / 65536 = r) && x.2.state != .free)).map (fun x => x.1 % 65536)) 0 65536 = some n) ∧
       (((under s.dev i j).copyRoot r k o.workingRoot).isSome = true) ∧
       (Undisturbed s.dev d2) ∧
       (ends (exec (.plateFork i) s) (fun t => (t.dev.obj r n).parentIndex == k && (t.dev.job i).any (fun x => x.result.any (fun y => y.status == .ok))) = true))) = true := by decide +kernel

theorem test_plateDescriptors_6 :
    (have s : State := st (devS obj2 { freeing := [((false, 20), some 4)], used := [20, 9] } [])
     have r : Nat := 5
     have h : Nat := 20
     have by_ : Option Nat := some 4
     have e : Dev := (((ready s.dev).modPages r fun p => { p with freeing := [] }).modPages r fun p => { p with maps := terase p.maps h, windows := terase p.windows h }).setUsed r h false
     decide ((s.dev.sys.live = true) ∧
       ((s.dev.pages r).freeing = [((false, h), by_)]) ∧
       (by_.any (fun i => (s.dev.job i).isSome) = false) ∧
       (s.dev.pageRead r (false, h) = false) ∧
       (tget (s.dev.pages r).maps h = none) ∧
       (tget (s.dev.pages r).windows h = none) ∧
       (e = (((ready s.dev).modPages r fun p => { p with freeing := [] }).modPages r fun p =>
      { p with maps := terase p.maps h, windows := terase p.windows h }).setUsed r h false) ∧
       (Undisturbed s.dev e) ∧
       (yields (exec (.pageFreeBackground r) s) { s with dev := e } = true))) = true := by decide +kernel

theorem test_demandReadOutcomes_1 :
    (have d : Dev := dev0
     have m : Nat := 0
     have line : Nat := 5
     have f : LineFault := {}
     have x1 : BitVec 640 := 0
     have x2 : BitVec 640 := 0
     decide (((d.unit m).dead = false) ∧
       ((d.unit m).retrain = none) ∧
       (d.pool.fault m line = f) ∧
       (errPositions (decide (48 ≤ m)) (f.mask ^^^ x1) = []) ∧
       (f.poison = false) ∧
       (d.demandRead m line x1 x2 = (.ok, d.lineData m line, d)))) = true := by decide +kernel

theorem test_demandReadOutcomes_2 :
    (have d : Dev := ({ dev0 with pool := { dev0.pool with faults := [(5, { mask := 6 })] } })
     have m : Nat := 0
     have line : Nat := 5
     have p : Nat := 0
     have f : LineFault := { mask := 6 }
     have x1 : BitVec 640 := 0
     have x2 : BitVec 640 := 0
     decide (((d.unit m).dead = false) ∧
       ((d.unit m).retrain = none) ∧
       (d.pool.fault m line = f) ∧
       (errPositions (decide (48 ≤ m)) (f.mask ^^^ x1) = [p]) ∧
       (f.poison = false) ∧
       (d.demandRead m line x1 x2 = (.ok, d.lineData m line, d.logCorrection m line p 0)))) = true := by decide +kernel

theorem test_demandReadOutcomes_3 :
    (have d : Dev := ({ dev0 with pool := { dev0.pool with faults := [(5, { poison := true, mask := 6 })] } })
     have m : Nat := 0
     have line : Nat := 5
     have f : LineFault := { poison := true, mask := 6 }
     have x1 : BitVec 640 := 0
     have x2 : BitVec 640 := 0
     decide (((d.unit m).dead = false) ∧
       ((d.unit m).retrain = none) ∧
       (d.pool.fault m line = f) ∧
       ((errPositions (decide (48 ≤ m)) (f.mask ^^^ x1)).length ≤ 1) ∧
       (f.poison = true) ∧
       (d.demandRead m line x1 x2 = (.poison, 0, d.bump .diPoisonReads)))) = true := by decide +kernel

theorem test_demandReadOutcomes_4 :
    (have d : Dev := dev0
     have m : Nat := 0
     have line : Nat := 5
     have f : LineFault := {}
     have x1 : BitVec 640 := (BitVec.ofNat 640 (2 ^ 64 + 1))
     have x2 : BitVec 640 := 0
     decide (((d.unit m).dead = false) ∧
       ((d.unit m).retrain = none) ∧
       (d.pool.fault m line = f) ∧
       ((errPositions (decide (48 ≤ m)) (f.mask ^^^ x1)).length = 2) ∧
       (errPositions (decide (48 ≤ m)) (f.mask ^^^ x2) = []) ∧
       (f.poison = false) ∧
       (d.demandRead m line x1 x2 = (.ok, d.lineData m line, (d.bump .diTransient).logTransient m line)))) = true := by decide +kernel

theorem test_demandReadOutcomes_5 :
    (have d : Dev := dev0
     have m : Nat := 0
     have line : Nat := 5
     have p : Nat := 2
     have f : LineFault := {}
     have x1 : BitVec 640 := (BitVec.ofNat 640 (2 ^ 64 + 1))
     have x2 : BitVec 640 := (BitVec.ofNat 640 (2 ^ 130))
     decide (((d.unit m).dead = false) ∧
       ((d.unit m).retrain = none) ∧
       (d.pool.fault m line = f) ∧
       ((errPositions (decide (48 ≤ m)) (f.mask ^^^ x1)).length = 2) ∧
       (errPositions (decide (48 ≤ m)) (f.mask ^^^ x2) = [p]) ∧
       (f.poison = false) ∧
       (d.demandRead m line x1 x2 = (.ok, d.lineData m line, (d.bump .diTransient).logCorrection m line p 2)))) = true := by decide +kernel

theorem test_demandReadOutcomes_6 :
    (have d : Dev := ({ dev0 with regions := [] })
     have m : Nat := 0
     have line : Nat := 5
     have f : LineFault := {}
     have x1 : BitVec 640 := (BitVec.ofNat 640 (2 ^ 64 + 1))
     have x2 : BitVec 640 := (BitVec.ofNat 640 (2 ^ 64 + 1))
     decide (((d.unit m).dead = false) ∧
       ((d.unit m).retrain = none) ∧
       (d.pool.fault m line = f) ∧
       ((errPositions (decide (48 ≤ m)) (f.mask ^^^ x1)).length = 2) ∧
       ((errPositions (decide (48 ≤ m)) (f.mask ^^^ x2)).length = 2) ∧
       (d.lineGroup m line = none) ∧
       (d.demandRead m line x1 x2 =
      (let e := { d.bump .diUeTotal with pool := d.pool.poisonLine m line }
       (.uncorrectable, 0, e.raise (e.lineEvent .ueDemand (e.unitOwner m) m line)))))) = true := by decide +kernel

theorem test_demandReadOutcomes_7 :
    (have d : Dev := ({ dev0 with regions := [(3, { partition := 1, grainM8 := 0, width := 1, tier := .capacity, durable := true, extents := [⟨false, 0, 0⟩], parity := [{ parity := ⟨false, 2, 0⟩, members := [0] }] })] })
     have m : Nat := 0
     have line : Nat := 5
     have e : Dev := ((d.bump .diUeTotal).reconstruct m line).2
     have f : LineFault := {}
     have w : Line := ((d.bump .diUeTotal).reconstruct m line).1
     have x1 : BitVec 640 := (BitVec.ofNat 640 (2 ^ 64 + 1))
     have x2 : BitVec 640 := (BitVec.ofNat 640 (2 ^ 64 + 1))
     decide (((d.unit m).dead = false) ∧
       ((d.unit m).retrain = none) ∧
       (d.pool.fault m line = f) ∧
       ((errPositions (decide (48 ≤ m)) (f.mask ^^^ x1)).length = 2) ∧
       ((errPositions (decide (48 ≤ m)) (f.mask ^^^ x2)).length = 2) ∧
       ((d.bump .diUeTotal).canReconstruct m line = true) ∧
       ((d.bump .diUeTotal).reconstruct m line = (w, e)) ∧
       (d.demandRead m line x1 x2 =
      (let e1 := { e with pool := if f.poison then e.pool.poisonLine m line else e.pool.store m line w }
       (.ok, w, (e1.bump .diUeRecon).raise (e1.lineEvent .ueReconstructed (e1.unitOwner m) m line)))))) = true := by decide +kernel

theorem test_demandReadOutcomes_8 :
    (have d : Dev := { dev0 with regions := [] }.modUnit 0 fun u => { u with dead := true }
     have m : Nat := 0
     have line : Nat := 5
     have x1 : BitVec 640 := (BitVec.ofNat 640 (2 ^ 64 + 1))
     have x2 : BitVec 640 := (BitVec.ofNat 640 (2 ^ 64 + 1))
     decide (((d.unit m).dead = true) ∧
       (d.lineGroup m line = none) ∧
       (d.demandRead m line x1 x2 = (.poison, 0, d.bump .diPoisonReads)))) = true := by decide +kernel

theorem test_demandReadOutcomes_9 :
    (have d : Dev := (({ dev0 with regions := [(3, { partition := 1, grainM8 := 0, width := 1, tier := .capacity, durable := true, extents := [⟨false, 0, 0⟩], parity := [{ parity := ⟨false, 2, 0⟩, members := [0] }] })] } : Dev).modUnit 0 (fun u => { u with dead := true })).modUnit 2 (fun u => { u with dead := true })
     have m : Nat := 0
     have line : Nat := 5
     have x1 : BitVec 640 := (BitVec.ofNat 640 (2 ^ 64 + 1))
     have x2 : BitVec 640 := (BitVec.ofNat 640 (2 ^ 64 + 1))
     decide (((d.unit m).dead = true) ∧
       ((d.lineGroup m line).isSome = true) ∧
       (d.canReconstruct m line = false) ∧
       (d.demandRead m line x1 x2 = (.uncorrectable, 0, d)))) = true := by decide +kernel

theorem test_lineAccesses_1 :
    (have s : State := st (dev0.putLine 0 5 0x1234)
     have m : Nat := 0
     have line : Nat := 5
     have x1 : BitVec 640 := 0
     have x2 : BitVec 640 := 0
     have a : Dev := { s.dev with out := [] }.activate m line
     have y : Nat × Nat := a.lineServed m line
     decide ((s.dev.sys.live = true) ∧
       (s.dev.lineExists m line = true) ∧
       (s.dev.unitServes m = true) ∧
       (s.dev.awaitsClear m line = false) ∧
       (s.dev.mustWait m line false = false) ∧
       ({ s.dev with out := [] }.activate m line = a) ∧
       (a.isRaw m line = false) ∧
       (a.metaIndex m line = none) ∧
       (a.lineServed m line = y) ∧
       (yields (exec (.lineRead m line x1 x2) s) (
      let answer := a.copyRead y.1 y.2 x1 x2
      { s with dev := if answer.1 = .ok ∧ answer.2.2.parityUnknown y.1 y.2 = true then
        answer.2.2.drawLine.2.emit (.line .ok answer.2.2.drawLine.1)
      else answer.2.2.emit (.line answer.1 answer.2.1) }) = true))) = true := by decide +kernel

theorem test_lineAccesses_2 :
    (have d : Dev := { ((devS obj2 { windows := [(20, 3)], used := [20] } []).modUnit 48 fun u => { u with trained := true, slots := 4, cleared := [0] }) with pool := { dev0.pool with faults := [(lineKey 48 3072, { poison := true })] } }
     have m : Nat := 48
     have line : Nat := 3072
     have x1 : BitVec 640 := 0
     have x2 : BitVec 640 := 0
     have e : Dev := (d.demandRead m line x1 x2).2.2
     have h : Nat × Nat := (e.windowHome m line).getD (0, 0)
     have e' : Dev := (e.demandRead h.1 h.2 0 0).2.2
     have st : Status := (d.demandRead m line x1 x2).1
     have st' : Status := (e.demandRead h.1 h.2 0 0).1
     have w : Line := (d.demandRead m line x1 x2).2.1
     have w' : Line := (e.demandRead h.1 h.2 0 0).2.1
     decide ((d.demandRead m line x1 x2 = (st, w, e)) ∧
       ((st = .poison ∨ st = .uncorrectable)) ∧
       (e.windowHome m line = some h) ∧
       (e.demandRead h.1 h.2 0 0 = (st', w', e')) ∧
       (d.copyRead m line x1 x2 =
      (st', w', if st' = .ok then e'.putLine m line w' else { e' with pool := e'.pool.poisonLine m line })))) = true := by decide +kernel

theorem test_lineAccesses_3 :
    (have s : State := st ({ dev0 with pool := { dev0.pool with rawExtents := [⟨false, 0, 0⟩], raw := [(5, (0x77, 1))] } })
     have m : Nat := 0
     have line : Nat := 5
     have x1 : BitVec 640 := 0
     have x2 : BitVec 640 := 0
     have a : Dev := { s.dev with out := [] }.activate m line
     decide ((s.dev.sys.live = true) ∧
       (s.dev.lineExists m line = true) ∧
       (s.dev.unitServes m = true) ∧
       (s.dev.mustWait m line false = false) ∧
       ({ s.dev with out := [] }.activate m line = a) ∧
       (s.dev.isRaw m line = true) ∧
       (a.isRaw m line = true) ∧
       (yields (exec (.lineRead m line x1 x2) s) { s with dev := a.emit (.line .ok ((a.rawStored m line).setWidth 512)) } = true))) = true := by decide +kernel

theorem test_lineAccesses_4 :
    (have s : State := (st dev0)
     have m : Nat := 0
     have line : Nat := 5
     have x : Line := 7
     have a : Dev := { s.dev with out := [] }.activate m line
     have y : Nat × Nat := a.lineServed m line
     decide ((s.dev.sys.live = true) ∧
       (s.dev.lineExists m line = true) ∧
       (s.dev.unitServes m = true) ∧
       ((s.dev.lineHeld m line).1 = false) ∧
       (s.dev.awaitsClear m line = false) ∧
       (s.dev.mustWait m line true = false) ∧
       ({ s.dev with out := [] }.activate m line = a) ∧
       (a.isRaw m line = false) ∧
       (a.metaIndex m line = none) ∧
       (a.lineServed m line = y) ∧
       (yields (exec (.lineWrite m line x) s) { s with dev := (a.putLine y.1 y.2 x).emit (.lineAck .ok) } = true))) = true := by decide +kernel

theorem test_lineAccesses_5 :
    (have s : State := st ({ dev0 with pool := { dev0.pool with rawExtents := [⟨false, 0, 0⟩], raw := [(5, (0x77, 1))] } })
     have m : Nat := 0
     have line : Nat := 5
     have x : Line := 7
     have a : Dev := { s.dev with out := [] }.activate m line
     decide ((s.dev.sys.live = true) ∧
       (s.dev.lineExists m line = true) ∧
       (s.dev.unitServes m = true) ∧
       ((s.dev.lineHeld m line).1 = false) ∧
       (s.dev.mustWait m line true = false) ∧
       ({ s.dev with out := [] }.activate m line = a) ∧
       (s.dev.isRaw m line = true) ∧
       (a.isRaw m line = true) ∧
       (ends (exec (.lineWrite m line x) s) (fun t => t.dev.pool.raw.length == 1) = true))) = true := by decide +kernel

theorem test_lineAccesses_6 :
    (have s : State := st (dev0.modUnit 0 fun u => { u with cleared := [] })
     have m : Nat := 0
     have line : Nat := 5
     have x : Line := 7
     decide ((s.dev.sys.live = true) ∧
       (s.dev.lineExists m line = true) ∧
       (s.dev.unitServes m = true) ∧
       (s.dev.lineHeld m line = (false, none)) ∧
       ((s.dev.awaitsClear m line = true ∨ s.dev.mustWait m line true = true)) ∧
       (yields (exec (.lineWrite m line x) s) (s.onDev fun d =>
      (d.modUnit m fun u => { u with held := u.held ++ [.write line x] }).emit .lineWaits) = true))) = true := by decide +kernel

theorem test_lineAccesses_7 :
    (have s : State := st { dev0 with parts := [] }
     have m : Nat := 0
     have line : Nat := 5
     have x : Line := 7
     decide ((s.dev.sys.live = true) ∧
       (s.dev.lineExists m line = true) ∧
       (s.dev.unitServes m = false) ∧
       (yields (exec (.lineWrite m line x) s) (s.onDev fun d => d) = true))) = true := by decide +kernel

theorem test_lineAccesses_8 :
    (have s : State := (st (dev0.putLine 0 5 0x1234))
     have m : Nat := 0
     have line : Nat := 5
     have x : Line := 0xFFFF
     have en : U64 := 1
     have x1 : BitVec 640 := 0
     have x2 : BitVec 640 := 0
     have a : Dev := { s.dev with out := [] }.activate m line
     have y : Nat × Nat := a.lineServed m line
     decide ((s.dev.sys.live = true) ∧
       (s.dev.lineExists m line = true) ∧
       (s.dev.unitServes m = true) ∧
       ((s.dev.lineHeld m line).1 = false) ∧
       (s.dev.awaitsClear m line = false) ∧
       (s.dev.mustWait m line true = false) ∧
       ({ s.dev with out := [] }.activate m line = a) ∧
       (a.isRaw m line = false) ∧
       (a.metaIndex m line = none) ∧
       (a.lineServed m line = y) ∧
       (yields (exec (.readModifyWrite m line x en x1 x2) s) (
      let old := a.demandRead y.1 y.2 x1 x2
      { s with dev := if old.1 = .ok then (old.2.2.putLine y.1 y.2 (mergeBytes old.2.1 x en)).emit (.lineAck .ok)
        else old.2.2.emit (.lineAck old.1) }) = true))) = true := by decide +kernel

theorem test_lineAccesses_9 :
    (have s : State := st dev0
     have m : Nat := 0
     have line : Nat := 128 * slotLines
     have x : Line := 7
     have en : U64 := 1
     have x1 : BitVec 640 := 0
     have x2 : BitVec 640 := 0
     decide ((s.dev.lineExists m line = false) ∧
       (((match exec (.lineRead m line x1 x2) s with | .fault .absentLine => true | _ => false) = true) ∧ ((match exec (.lineWrite m line x) s with | .fault .absentLine => true | _ => false) = true) ∧ ((match exec (.readModifyWrite m line x en x1 x2) s with | .fault .absentLine => true | _ => false) = true)))) = true := by decide +kernel

theorem test_fullWriteClearsPoison_1 :
    (have s : State := (st ({ dev0 with pool := { dev0.pool with faults := [(5, { poison := true })] } }))
     have m : Nat := 0
     have line : Nat := 5
     have x : Line := 7
     decide ((s.dev.sys.live = true) ∧
       (s.dev.lineExists m line = true) ∧
       (s.dev.unitServes m = true) ∧
       (s.dev.awaitsClear m line = false) ∧
       (s.dev.mustWait m line true = false) ∧
       (s.dev.isRaw m line = false) ∧
       (s.dev.metaIndex m line = none) ∧
       (s.dev.rebuilds = []) ∧
       ((s.dev.lineHeld m line).1 = false) ∧
       (memWf s.dev.pool.cells = true) ∧
       (ends (exec (.lineWrite m line x) s) (fun t => decide (t.dev.pool.fault m line = {} ∧ t.dev.pool.data m line = x)) = true))) = true := by decide +kernel

theorem test_fullWriteClearsPoison_2 :
    (have s : State := (st ({ dev0 with pool := { dev0.pool with faults := [(5, { poison := true })] } }))
     have m : Nat := 0
     have line : Nat := 5
     have x : Line := 7
     have en : U64 := 1
     decide ((s.dev.sys.live = true) ∧
       (s.dev.lineExists m line = true) ∧
       (s.dev.unitServes m = true) ∧
       (s.dev.awaitsClear m line = false) ∧
       (s.dev.mustWait m line true = false) ∧
       (s.dev.isRaw m line = false) ∧
       (s.dev.metaIndex m line = none) ∧
       (s.dev.rebuilds = []) ∧
       ((s.dev.lineHeld m line).1 = false) ∧
       ((s.dev.unit m).retrain = none) ∧
       ((s.dev.unit m).dead = false) ∧
       (s.dev.pool.fault m line = { poison := true }) ∧
       (((s.dev.unit m).raaimt = 0 ∨ s.dev.partRings = [])) ∧
       (ends (exec (.readModifyWrite m line x en 0 0) s) (fun t => decide (t.dev.pool = s.dev.pool ∧ .lineAck .poison ∈ t.dev.out)) = true))) = true := by decide +kernel

theorem test_metadataAndTranslation_1 :
    (have s : State := (st ({ dev0 with metaPlace := { present := true, copy0 := [(0, 2)], copy1 := [(1, 2)], seq := 1 } }))
     have idx : Nat := 9
     have x : Line := 0xAB
     have a : Nat × Nat := (0, 8388617)
     have b : Nat × Nat := (1, 8388617)
     decide ((s.dev.sys.live = true) ∧
       (s.dev.metaLine false idx = some a) ∧
       (s.dev.metaLine true idx = some b) ∧
       (yields (exec (.metadataWrite idx x) s) (s.onDev fun d =>
      { d with pool := (d.pool.store a.1 a.2 x).store b.1 b.2 x }.emit (.lineAck .ok)) = true))) = true := by decide +kernel

theorem test_metadataAndTranslation_2 :
    (have s : State := (st (({ dev0 with metaPlace := { present := true, copy0 := [(0, 2)], copy1 := [(1, 2)], seq := 1 } } : Dev).putLine 0 8388617 0xCD))
     have idx : Nat := 9
     have q : Nat := 0
     have k : MetaStruct := (.queue 9)
     have x1 : BitVec 640 := 0
     have a : Nat × Nat := (0, 8388617)
     have b : Nat × Nat := (1, 8388617)
     decide ((s.dev.sys.live = true) ∧
       (s.dev.metaLine false idx = some a) ∧
       (s.dev.metaLine true idx = some b) ∧
       ((a.1 / 12 = q ∨ b.1 / 12 ≠ q)) ∧
       ((s.dev.unit a.1).dead = false) ∧
       (s.dev.pool.fault a.1 a.2 = {}) ∧
       (yields (exec (.metadataRead idx q k 0 x1) s) (s.onDev fun d => d.emit (.line .ok (d.metaData idx a.1 a.2))) = true))) = true := by decide +kernel

theorem test_metadataAndTranslation_3 :
    (have s : State := st ((({ dev0 with metaPlace := { present := true, copy0 := [(0, 2)], copy1 := [(1, 2)], seq := 1 } } : Dev).modUnit 0 (fun u => { u with dead := true })).modUnit 1 (fun u => { u with dead := true }))
     have idx : Nat := 9
     have q : Nat := 0
     have k : MetaStruct := (.queue 9)
     have x0 : BitVec 640 := 0
     have x1 : BitVec 640 := 0
     have e : Dev := ((({ s.dev with out := [] } : Dev).metaRead idx q x0 x1).getD (none, {})).2
     decide ((s.dev.sys.live = true) ∧
       ({ s.dev with out := [] }.metaRead idx q x0 x1 = some (none, e)) ∧
       (yields (exec (.metadataRead idx q k x0 x1) s) (s.onDev fun _ => ((e.raise { code := .metadataLost, part := e.metaOwner k, detail1 := some (metaCode k) }).metaLost k).emit (.line .uncorrectable 0)) = true))) = true := by decide +kernel

theorem test_metadataAndTranslation_4 :
    (have s : State := st ({ dev0 with metaPlace := { present := true, copy0 := [(0, 2)], copy1 := [(1, 2)], seq := 1 } })
     have n : Nat := 4
     have c : Nat := 7
     have a : Nat := 300
     have g : Segment := { base := 0, lines := 1024, kind := .region, r := true, w := true, a := true, targetId := 3 }
     have r : Region := { partition := 1, grainM8 := 0, width := 1, tier := .capacity, extents := [⟨false, 0, 0⟩] }
     have x : TransEntry := ⟨c, g.targetId, (decomposeIdx (grainBytes r.grainM8) r.width r.salt.toNat (g.targetOff + (a - g.base))).1⟩
     have w : Line := ((({ s.dev with out := [] } : Dev).metaRead (r.listLine + x.ext / 16) (if n < 32 then n / 8 else n - 32) 0 0).getD (none, {})).1.getD 0
     have e : Dev := ((({ s.dev with out := [] } : Dev).metaRead (r.listLine + x.ext / 16) (if n < 32 then n / 8 else n - 32) 0 0).getD (none, {})).2
     decide ((s.dev.sys.live = true) ∧
       (n < 36) ∧
       ((s.dev.context c).valid = true) ∧
       (segOf (s.dev.context c) a = some g) ∧
       (g.kind = .region) ∧
       (tget s.dev.regions g.targetId = some r) ∧
       (r.migrating = false) ∧
       (x = ⟨c, g.targetId, (decomposeIdx (grainBytes r.grainM8) r.width r.salt.toNat (g.targetOff + (a - g.base))).1⟩) ∧
       ((s.dev.transOf n).contains x = false) ∧
       ((s.dev.transOf n).length < 4096) ∧
       ((({ s.dev with out := [] } : Dev).metaRead (r.listLine + x.ext / 16) (if n < 32 then n / 8 else n - 32) 0 0).any (fun y => y.1.isSome) = true) ∧
       (ends (exec (.translationCacheFill n c a) s) (fun t => (t.dev.transOf n).contains x) = true))) = true := by decide +kernel

theorem test_metadataAndTranslation_5 :
    (have s : State := st (dev0.setTrans 4 [⟨7, 9, 1⟩, ⟨7, 3, 0⟩])
     have n : Nat := 4
     have c : Nat := 7
     have a : Nat := 300
     have g : Segment := { base := 0, lines := 1024, kind := .region, r := true, w := true, a := true, targetId := 3 }
     have r : Region := { partition := 1, grainM8 := 0, width := 1, tier := .capacity, extents := [⟨false, 0, 0⟩] }
     have x : TransEntry := ⟨c, g.targetId, (decomposeIdx (grainBytes r.grainM8) r.width r.salt.toNat (g.targetOff + (a - g.base))).1⟩
     decide ((s.dev.sys.live = true) ∧
       (n < 36) ∧
       ((s.dev.context c).valid = true) ∧
       (segOf (s.dev.context c) a = some g) ∧
       (g.kind = .region) ∧
       (tget s.dev.regions g.targetId = some r) ∧
       (r.migrating = false) ∧
       (x = ⟨c, g.targetId, (decomposeIdx (grainBytes r.grainM8) r.width r.salt.toNat (g.targetOff + (a - g.base))).1⟩) ∧
       ((s.dev.transOf n).contains x = true) ∧
       (yields (exec (.translationCacheFill n c a) s) (s.onDev fun d => d.setTrans n (x :: (d.transOf n).erase x)) = true))) = true := by decide +kernel

theorem test_parityRanges_1 :
    (have s : State := (st { dev0 with regions := [(3, { partition := 1, grainM8 := 0, width := 1, tier := .capacity, durable := true, extents := [⟨false, 0, 0⟩], parity := [{ parity := ⟨false, 2, 0⟩, members := [0], stale := [(4, 4900000000)] }] })] })
     have r : Nat := 3
     have g : Nat := 0
     have k : Nat := 4
     have t : Nat := 4900000000
     have reg : Region := ({ partition := 1, grainM8 := 0, width := 1, tier := .capacity, durable := true, extents := [⟨false, 0, 0⟩], parity := [{ parity := ⟨false, 2, 0⟩, members := [0], stale := [(4, 4900000000)] }] })
     have pg : ParityGroup := ({ parity := ⟨false, 2, 0⟩, members := [0], stale := [(4, 4900000000)] })
     decide ((s.dev.sys.live = true) ∧
       (tget s.dev.regions r = some reg) ∧
       (reg.durable = true) ∧
       (reg.newParity = []) ∧
       (reg.parity[g]? = some pg) ∧
       (tget pg.stale k = some t) ∧
       (pg.unprotected.contains k = false) ∧
       (yields (exec (.parityRangeClean r g k) s) (s.onDev fun d =>
      let reg' := { reg with parity := reg.parity.mapIdx fun i x => if i = g then { x with stale := terase x.stale k } else x }
      { d with now := max d.now (t + 1000000000), regions := tset d.regions r reg' }) = true))) = true := by decide +kernel

theorem test_parityRanges_2 :
    (have s : State := (st { dev0 with regions := [(3, { partition := 1, grainM8 := 0, width := 1, tier := .capacity, durable := true, extents := [⟨false, 0, 0⟩], parity := [{ parity := ⟨false, 2, 0⟩, members := [0], stale := [(4, 4900000000)], unprotected := [4] }] })] })
     have r : Nat := 3
     have g : Nat := 0
     have k : Nat := 4
     have reg : Region := ({ partition := 1, grainM8 := 0, width := 1, tier := .capacity, durable := true, extents := [⟨false, 0, 0⟩], parity := [{ parity := ⟨false, 2, 0⟩, members := [0], stale := [(4, 4900000000)], unprotected := [4] }] })
     have pg : ParityGroup := ({ parity := ⟨false, 2, 0⟩, members := [0], stale := [(4, 4900000000)], unprotected := [4] })
     decide ((s.dev.sys.live = true) ∧
       (tget s.dev.regions r = some reg) ∧
       (reg.durable = true) ∧
       (reg.newParity = []) ∧
       (reg.parity[g]? = some pg) ∧
       (pg.unprotected.contains k = true) ∧
       (ends (exec (.parityRecomputeDone r g k) s) (fun t => (tget t.dev.regions r).any (fun x => x.parity.all (fun y => y.stale == [] && y.unprotected == []))) = true))) = true := by decide +kernel

theorem test_transitAndRefresh_1 :
    (have s : State := (st (dev0.modUnit 0 fun u => { u with passDone := true }))
     have m : Nat := 0
     decide ((s.dev.sys.live = true) ∧
       (s.dev.transitRuns m = true) ∧
       ((s.dev.unit m).passDone = true) ∧
       (yields (exec (.transitPassStart m) s) (s.onDev fun d =>
      let t := if (d.unit m).overdue then d.now else max d.now ((d.unit m).passStart + (d.param 0x0010 0).toNat * 3600000000000)
      { d with now := t }.modUnit m fun v => { v with
        transitLine := 0, transitPass := v.transitPass + 1, passStart := t, passDone := false, overdue := false, shareTenths := 0 }) = true))) = true := by decide +kernel

theorem test_transitAndRefresh_2 :
    (have s : State := (st (dev0.modUnit 0 fun u => { u with transitLine := 536870911 }))
     have m : Nat := 0
     have l : Nat := 536870911
     have x1 : BitVec 640 := 0
     have x2 : BitVec 640 := 0
     have e : Dev := ({ s.dev with out := [] } : Dev).scrubLine m l x1 x2
     decide ((s.dev.sys.live = true) ∧
       (s.dev.transitRuns m = true) ∧
       ((s.dev.unit m).passDone = false) ∧
       ((s.dev.unit m).transitLine = l) ∧
       ({ s.dev with out := [] }.scrubLine m l x1 x2 = e) ∧
       (yields (exec (.transitLineCheck m x1 x2) s) { s with dev := e.modUnit m fun u => { u with
      transitLine := l + 1
      passDone := decide (s.dev.unitLines m ≤ l + 1)
      shareTenths := if s.dev.unitLines m ≤ l + 1 then 0 else u.shareTenths } } = true))) = true := by decide +kernel

theorem test_transitAndRefresh_3 :
    (have d : Dev := dev0
     have m : Nat := 0
     have l : Nat := 5
     have x2 : BitVec 640 := 0
     decide ((d.isRaw m l = false) ∧
       (d.pool.fault m l = {}) ∧
       (d.scrubLine m l 0 x2 = d))) = true := by decide +kernel

theorem test_transitAndRefresh_4 :
    (have d : Dev := { dev0 with pool := { dev0.pool with faults := [(5, { mask := 6 })] } }
     have m : Nat := 0
     have l : Nat := 5
     have p : Nat := 0
     have x1 : BitVec 640 := 0
     have x2 : BitVec 640 := 0
     decide ((d.isRaw m l = false) ∧
       (errPositions (decide (48 ≤ m)) ((d.pool.fault m l).mask ^^^ x1) = [p]) ∧
       ((d.pool.fault m l).poison = false) ∧
       (d.scrubLine m l x1 x2 = (let e := d.logCorrection m l p 1; { e with pool := e.pool.setFault m l {} })))) = true := by decide +kernel

theorem test_transitAndRefresh_5 :
    (have d : Dev := { dev0 with regions := [], pool := { dev0.pool with faults := [(5, { mask := BitVec.ofNat 640 (2 ^ 64 + 1) })] } }
     have m : Nat := 0
     have l : Nat := 5
     have x1 : BitVec 640 := 0
     have x2 : BitVec 640 := 0
     decide ((d.isRaw m l = false) ∧
       ((errPositions (decide (48 ≤ m)) ((d.pool.fault m l).mask ^^^ x1)).length = 2) ∧
       ((errPositions (decide (48 ≤ m)) ((d.pool.fault m l).mask ^^^ x2)).length = 2) ∧
       (d.metaIndex m l = none) ∧
       (d.lineGroup m l = none) ∧
       (d.isSpare m (l / slotLines) = false) ∧
       (d.scrubLine m l x1 x2 = (let e := { d.bump .diUeTotal with pool := d.pool.poisonLine m l }
      e.raise (e.lineEvent .ueScrub (e.unitOwner m) m l))))) = true := by decide +kernel

theorem test_transitAndRefresh_6 :
    (have s : State := (st dev0)
     have m : Nat := 0
     have old : Nat := 0
     have pct : Nat := 50
     have new : Nat := 5
     decide ((s.dev.sys.live = true) ∧
       (s.dev.transitRuns m = true) ∧
       ((s.dev.unit m).passDone = false) ∧
       ((s.dev.unit m).shareTenths = old) ∧
       (((old < 5 ∧ pct = 50 ∧ new = 5) ∨ (5 ≤ old ∧ old < 10 ∧ pct = 75 ∧ new = 10) ∨ (10 ≤ old ∧ old < 20 ∧ pct = 90 ∧ new = 20))) ∧
       (yields (exec (.transitEscalate m) s) (s.onDev fun d =>
      { d with now := max d.now ((d.unit m).passStart + (d.param 0x0010 0).toNat * 3600000000000 * pct / 100) }.modUnit m fun v =>
        { v with shareTenths := new, overdue := v.overdue }) = true))) = true := by decide +kernel

theorem test_transitAndRefresh_7 :
    (have s : State := (st (dev0.modUnit 0 fun u => { u with shareTenths := 20 }))
     have m : Nat := 0
     decide ((s.dev.sys.live = true) ∧
       (s.dev.transitRuns m = true) ∧
       ((s.dev.unit m).passDone = false) ∧
       (20 ≤ (s.dev.unit m).shareTenths) ∧
       ((s.dev.unit m).shareTenths < 50) ∧
       (yields (exec (.transitEscalate m) s) (s.onDev fun d =>
      let e := { d with now := max d.now ((d.unit m).passStart + (d.param 0x0010 0).toNat * 3600000000000) }.modUnit m fun v =>
        { v with shareTenths := 50, overdue := true }
      e.raise (e.lineEvent .scrubOverdue (e.unitOwner m) m (d.unit m).transitLine)) = true))) = true := by decide +kernel

theorem test_transitAndRefresh_8 :
    (have s : State := st { (dev0.bump (.diUnitNew 0) 9).bump (.diUnitNew 1) 5 with hourStart := 1 }
     decide ((s.dev.sys.live = true) ∧
       (ends (exec .ceRateHourRollover s) (fun t => (List.range 112).all (fun m => t.dev.count (.diUnitNew m) == 0) && t.dev.count .diCeTotal == s.dev.count .diCeTotal && t.dev.peerMedian == (10, 0) && t.dev.hourStart == 1 + 3600000000000 && t.dev.now == t.dev.hourStart && decide (t.dev.units = s.dev.units.map (fun u => (u.1, { u.2 with rateAlarm := false })))) = true))) = true := by decide +kernel

theorem test_transitAndRefresh_9 :
    (have s : State := st (dev0.modUnit 0 fun u => { u with postponed := [(1, 2)] })
     have m : Nat := 0
     have k : Nat := 1
     have n : Nat := 2
     decide ((s.dev.sys.live = true) ∧
       (s.dev.powered m = true) ∧
       (tgetD (s.dev.unit m).postponed k 0 = n) ∧
       (n + 1 < 8) ∧
       (yields (exec (.refreshDue m k true) s) (s.onDev fun d => d.modUnit m fun u => { u with postponed := tset u.postponed k (n + 1) }) = true))) = true := by decide +kernel

theorem test_transitAndRefresh_10 :
    (have s : State := (st (dev0.modUnit 0 fun u => { u with postponed := [(1, 7)], raa := [(33, 50)], raaimt := 5 }))
     have m : Nat := 0
     have k : Nat := 1
     have n : Nat := 7
     have queued : Bool := true
     decide ((s.dev.sys.live = true) ∧
       (s.dev.powered m = true) ∧
       (tgetD (s.dev.unit m).postponed k 0 = n) ∧
       ((queued = false ∨ 8 ≤ n + 1)) ∧
       (yields (exec (.refreshDue m k queued) s) (s.onDev fun d => (d.modUnit m fun u => { u with
      postponed := tset u.postponed k 0
      raa := u.raa.map (fun x => if x.1 / 32 = k then (x.1, x.2 - (n + 1) * u.raaimt) else x) }).emit (.refresh m k (n + 1))) = true))) = true := by decide +kernel

theorem test_transitAndRefresh_11 :
    (have s : State := (st (dev0.modUnit 0 fun u => { u with postponed := [(1, 7)], raa := [(33, 50)], raaimt := 5 }))
     have m : Nat := 0
     have k : Nat := 1
     have n : Nat := 7
     decide ((s.dev.sys.live = true) ∧
       (s.dev.powered m = true) ∧
       (tgetD (s.dev.unit m).postponed k 0 = n) ∧
       (n ≠ 0) ∧
       (yields (exec (.refreshCatchup m k) s) (s.onDev fun d => (d.modUnit m fun u => { u with
      postponed := tset u.postponed k 0
      raa := u.raa.map (fun x => if x.1 / 32 = k then (x.1, x.2 - n * u.raaimt) else x) }).emit (.refresh m k n)) = true))) = true := by decide +kernel

theorem test_transitAndRefresh_12 :
    (have m : Nat := 0
     have b : Nat := 3
     have t : Throttle := { bank := 3, stream := .engine 1, left := 40, until_ := 6000000000 }
     have s : State := st (dev0.modUnit 0 fun u => { u with throttles := [t], raaimt := 5, throttleEpisode := [3] })
     decide ((s.dev.sys.live = true) ∧
       ((s.dev.unit m).throttles.find? (fun x => x.bank == b) = some t) ∧
       (tgetD (s.dev.unit m).raa b 0 < (s.dev.unit m).raaimt) ∧
       ((s.dev.unit m).held = []) ∧
       (yields (exec (.rowThrottleWindowEnd m b) s) (s.onDev fun d => { d with now := max d.now t.until_ }.modUnit m fun u => { u with
      throttles := u.throttles.filter (fun x => x.bank != b)
      throttleEpisode := u.throttleEpisode.filter (fun x => x != b) }) = true))) = true := by decide +kernel

theorem test_transitAndRefresh_13 :
    (have m : Nat := 0
     have b : Nat := 3
     have t : Throttle := { bank := 3, stream := .engine 1, left := 40, until_ := 6000000000 }
     have s : State := st (dev0.modUnit 0 fun u => { u with throttles := [t], raaimt := 5, raa := [(3, 5)] })
     decide ((s.dev.sys.live = true) ∧
       ((s.dev.unit m).throttles.find? (fun x => x.bank == b) = some t) ∧
       ((s.dev.unit m).raaimt ≤ tgetD (s.dev.unit m).raa b 0) ∧
       ((s.dev.unit m).held = []) ∧
       (yields (exec (.rowThrottleWindowEnd m b) s) (s.onDev fun d => { d with now := max d.now t.until_ }.modUnit m fun u => { u with
      throttles := u.throttles.map (fun (x : Throttle) => if x.bank == b then
        { x with until_ := t.until_ + 64000, left := streamRate u b t.stream (max d.now t.until_) / 2 } else x) }) = true))) = true := by decide +kernel

theorem test_transitAndRefresh_14 :
    (have s : State := (st dev0)
     have m : Nat := 0
     have a : Nat := 80
     have b : Nat := 160
     have h : Bool := true
     decide ((s.dev.sys.live = true) ∧
       ((s.dev.unit m).trained = true) ∧
       (yields (exec (.dramTempCrossing m h a b) s) (s.onDev fun d =>
      (d.modUnit m fun u => { u with hot := h, raaimt := a, raammt := b }).rfmSweep m) = true))) = true := by decide +kernel

theorem test_pagesMove_1 :
    (have s : State := (st { ({ dev0 with metaPlace := { present := true, copy0 := [(0, 2)], copy1 := [(1, 2)], seq := 1 } } : Dev).modUnit 1 (fun u => { u with cleared := [100] }) with rebuilds := [{ unit := 0, dead := false, todo := [], cur := some (2, 1, 100), cursor := 3, started := true }] })
     have u : Nat := 0
     have p : Nat := 1
     have slot : Nat := 2
     have v : Nat := 1
     have f : Nat := 100
     have b : Rebuild := ({ unit := 0, dead := false, todo := [], cur := some (2, 1, 100), cursor := 3, started := true })
     have d0 : Dev := ({ s.dev with out := [] } : Dev).haveCopy p true u
     have e : Dev := (d0.rebuildPage u slot v f b.cursor).endCopy true u
     decide ((s.dev.sys.live = true) ∧
       (s.dev.rebuilds = [b]) ∧
       (b.unit = u) ∧
       (b.started = true) ∧
       (b.cur = some (slot, v, f)) ∧
       ((s.dev.unit u).retrain = none) ∧
       ((s.dev.unit v).cleared.contains f = true) ∧
       (b.cursor + 1 < 4096) ∧
       ((s.dev.unitOwner u).getD 0 = p) ∧
       ({ s.dev with out := [] }.haveCopy p true u = d0) ∧
       (d0.copyRuns p true u = true) ∧
       ((d0.rebuildPage u slot v f b.cursor).endCopy true u = e) ∧
       (e.rebuilds = [b]) ∧
       ((e.unit u).held = []) ∧
       (yields (exec (.rebuildPageCopied u) s) { s with dev := { e with rebuilds := [{ b with cursor := b.cursor + 1 }] } } = true))) = true := by decide +kernel

theorem test_pagesMove_2 :
    (have u : Nat := 0
     have p : Nat := 1
     have slot : Nat := 2
     have v : Nat := 1
     have f : Nat := 100
     have b : Rebuild := ({ unit := 0, dead := false, todo := [], cur := some (2, 1, 100), cursor := 3, started := true })
     have s : State := st (({ ({ dev0 with metaPlace := { present := true, copy0 := [(0, 2)], copy1 := [(1, 2)], seq := 1 }, jobs := [job4 (desc 1 []) (.mover 0 0)], nextJob := 5 } : Dev).modUnit 1 (fun u => { u with cleared := [100] }) with rebuilds := [b] } : Dev))
     have d0 : Dev := ({ s.dev with out := [] } : Dev).haveCopy p true u
     decide ((s.dev.sys.live = true) ∧
       (s.dev.rebuilds = [b]) ∧
       (b.unit = u) ∧
       (b.started = true) ∧
       (b.cur = some (slot, v, f)) ∧
       ((s.dev.unit u).retrain = none) ∧
       ((s.dev.unit v).cleared.contains f = true) ∧
       ((s.dev.unitOwner u).getD 0 = p) ∧
       ({ s.dev with out := [] }.haveCopy p true u = d0) ∧
       (d0.copyRuns p true u = false) ∧
       ((s.dev.unit u).held = []) ∧
       (yields (exec (.rebuildPageCopied u) s) { s with dev := d0 } = true))) = true := by decide +kernel

theorem test_pagesMove_3 :
    (have s : State := (st { dev0.modUnit 1 (fun u => { u with cleared := [4] }) with regions := [(3, { partition := 1, grainM8 := 8, width := 1, tier := .capacity, extents := [⟨false, 0, 0⟩], migrating := true, newWidth := 1, newSalt := 5, newTier := .capacity, newExtents := [⟨false, 1, 4⟩], cursor := 0 })] })
     have r : Nat := 3
     have reg : Region := ({ partition := 1, grainM8 := 8, width := 1, tier := .capacity, extents := [⟨false, 0, 0⟩], migrating := true, newWidth := 1, newSalt := 5, newTier := .capacity, newExtents := [⟨false, 1, 4⟩], cursor := 0 })
     have d0 : Dev := ({ s.dev with out := [] } : Dev).haveCopy reg.partition false r
     have e : Dev := (d0.migratePage reg reg.cursor).endCopy false r
     decide ((s.dev.sys.live = true) ∧
       (tget s.dev.regions r = some reg) ∧
       (reg.migrating = true) ∧
       (s.dev.allCleared (reg.newExtents ++ reg.newParity.map ParityGroup.parity) = true) ∧
       (reg.cursor + 1 < reg.extents.length * 4096) ∧
       ({ s.dev with out := [] }.haveCopy reg.partition false r = d0) ∧
       (d0.copyRuns reg.partition false r = true) ∧
       ((d0.migratePage reg reg.cursor).endCopy false r = e) ∧
       (tget e.regions r = some reg) ∧
       (e.units.all (fun u => u.2.held.isEmpty) = true) ∧
       (yields (exec (.migratePageCopied r) s) { s with dev := { e with regions := tset e.regions r { reg with cursor := reg.cursor + 1 } } } = true))) = true := by decide +kernel

theorem test_pagesMove_4 :
    (have s : State := (st { dev0.modUnit 1 (fun u => { u with cleared := [4] }) with regions := [(3, { partition := 1, grainM8 := 8, width := 1, tier := .capacity, extents := [⟨false, 0, 0⟩], migrating := true, newWidth := 1, newSalt := 5, newTier := .capacity, newExtents := [⟨false, 1, 4⟩], cursor := 4095 })], ports := [(0, { trans := [⟨7, 3, 0⟩] })] })
     have r : Nat := 3
     have reg : Region := ({ partition := 1, grainM8 := 8, width := 1, tier := .capacity, extents := [⟨false, 0, 0⟩], migrating := true, newWidth := 1, newSalt := 5, newTier := .capacity, newExtents := [⟨false, 1, 4⟩], cursor := 4095 })
     have d0 : Dev := ({ s.dev with out := [] } : Dev).haveCopy reg.partition false r
     have e : Dev := (d0.migratePage reg reg.cursor).endCopy false r
     decide ((s.dev.sys.live = true) ∧
       (tget s.dev.regions r = some reg) ∧
       (reg.migrating = true) ∧
       (s.dev.allCleared (reg.newExtents ++ reg.newParity.map ParityGroup.parity) = true) ∧
       (reg.cursor + 1 = reg.extents.length * 4096) ∧
       ({ s.dev with out := [] }.haveCopy reg.partition false r = d0) ∧
       (d0.copyRuns reg.partition false r = true) ∧
       ((d0.migratePage reg reg.cursor).endCopy false r = e) ∧
       (tget e.regions r = some reg) ∧
       (e.units.all (fun u => u.2.held.isEmpty) = true) ∧
       (ends (exec (.migratePageCopied r) s) (fun t => (tget t.dev.regions r).any (fun x => x.extents == reg.newExtents && x.salt == 5 && !x.migrating) && (t.dev.port 0).trans == [] && t.dev.waitClear == [(0, 0)]) = true))) = true := by decide +kernel

theorem test_pagesMove_5 :
    (have s : State := (st { ({ dev0.modUnit 48 (fun u => { u with trained := true, slots := 4, cleared := [0, 1, 2, 3] }) with regions := [(3, { partition := 1, grainM8 := 0, width := 1, tier := .nearIfFree, extents := [⟨false, 0, 0⟩] })] } : Dev) with parts := [(1, { (({ dev0.modUnit 48 (fun u => { u with trained := true, slots := 4, cleared := [0, 1, 2, 3] }) with regions := [(3, { partition := 1, grainM8 := 0, width := 1, tier := .nearIfFree, extents := [⟨false, 0, 0⟩] })] } : Dev).partn 1) with pseudoChannels := 3 })] })
     have p : Nat := 1
     have r : Nat := 3
     have reg : Region := ({ partition := 1, grainM8 := 0, width := 1, tier := .nearIfFree, extents := [⟨false, 0, 0⟩] })
     have rest : List (Nat × Region) := []
     have e : Dev := ((({ s.dev with out := [] } : Dev).startMigration r reg.width .nearIfFree true 25 reg.salt none).getD {})
     decide ((s.dev.sys.live = true) ∧
       (s.dev.demoted p = (r, reg) :: rest) ∧
       (reg.extents.length * 4096 + 16384 ≤ s.dev.poolLeft p) ∧
       ({ s.dev with out := [] }.startMigration r reg.width .nearIfFree true 25 reg.salt none = some e) ∧
       (yields (exec (.nearPromote p) s) { s with dev := e } = true))) = true := by decide +kernel

theorem test_pagesMove_6 :
    (have s : State := (st (devS obj2 { moved := [(false, 30, [1])], used := [30] } []))
     have r : Nat := 5
     have k : Nat := 30
     have js : List Nat := [1]
     have e : Dev := ((ready s.dev).modPages r fun p => { p with moved := [] }).setUsed r k false
     decide ((s.dev.sys.live = true) ∧
       ((s.dev.pages r).moved = [(false, k, js)]) ∧
       ((∀ i ∈ js, s.dev.job i = none)) ∧
       (((ready s.dev).modPages r fun p => { p with moved := [] }).setUsed r k false = e) ∧
       (Undisturbed s.dev e) ∧
       (yields (exec (.summaryOldPageFree r) s) { s with dev := e } = true))) = true := by decide +kernel

theorem test_pagesMove_7 :
    (have s : State := (st ({ devS obj2 { roots := [(9, [(0, 12)])], maps := [(12, [(9, (false, 13))])], counts := [(12, 1), (13, 1)], used := [9, 12, 13] } [] with parts := [(1, dev0.partn 1)], units := [(1, { trained := true, slots := 128 }), (48, { trained := true, cleared := [4] })] } : Dev))
     have r : Nat := 5
     have i : Nat := 2
     have p : Nat := 9
     have near : Bool := true
     have reg : Region := ({ partition := 1, grainM8 := 0, width := 1, tier := .sequence, extents := [⟨false, 1, 1⟩] })
     have o : Obj := obj2
     have old : Bool × Nat := (false, 13)
     have new : Bool × Nat := ((((ready s.dev).takeNear reg.partition).map (fun x => ((true, x.1), x.2))).getD ((true, 0), {})).1
     have d1 : Dev := ((((ready s.dev).takeNear reg.partition).map (fun x => ((true, x.1), x.2))).getD ((true, 0), {})).2
     have d2 : Dev := d1.copyPage r old new
     have d3 : Dev := (d2.setCount r new ((d2.pages r).count old)).setCount r old 0
     have e : Dev := (((d3.pages r).maps.flatMap (fun m => (m.2.filter (fun y => y.2 == old)).map (fun y => (m.1, y.1)))).foldl
      (fun f y => f.setEntry r y.1 y.2 new) d3).modPages r (fun g => { g with moved := g.moved ++ [(old.1, old.2,
        (d2.jobs.filter (fun j => j.snap.any (fun s => s.names r old) || j.before.any (fun s => s.names r old))).map (fun j => j.id))] })
     decide ((s.dev.sys.live = true) ∧
       (tget s.dev.regions r = some reg) ∧
       (s.dev.idleMover reg.partition = true) ∧
       (s.dev.obj r i = o) ∧
       (o.state ≠ .free) ∧
       (o.flat = false) ∧
       (o.chunkPages ≠ 0) ∧
       (o.kvChunkPages ≤ p % o.chunkPages) ∧
       (s.dev.mappedPage r i p = some old) ∧
       (old.1 ≠ near) ∧
       (((ready s.dev).takeNear reg.partition).isSome = true) ∧
       (Undisturbed s.dev e) ∧
       (ends (exec (.summaryPageMove r i p near) s) (fun t => t.dev.mappedPage r i p == some new) = true))) = true := by decide +kernel

theorem test_cxlMemAccesses_1 :
    (have s : State := (st ((devH false []).putLine 0 5 0x99))
     have h : Nat := 0
     have hpa : Nat := (0x1000000 + 320)
     have r : Nat := 3
     have off : Nat := 320
     have m : Nat := 0
     have line : Nat := 5
     have reg : Region := { partition := 1, grainM8 := 0, width := 1, tier := .capacity, window := false, extents := [⟨false, 0, 0⟩] }
     have e : Dev := ((ready s.dev).cxlLocate h hpa [.r]).2
     decide ((Reaches s.dev h hpa [.r] r off reg e) ∧
       (ValidLine e r off m line) ∧
       (Calm e 1) ∧
       (yields (exec (.cxlMemRead h hpa) s) { s with dev := ((e.activate m line).emit (.cxlData h (e.lineData m line) false)).atRest } = true))) = true := by decide +kernel

theorem test_cxlMemAccesses_2 :
    (have s : State := (st (devH false []))
     have h : Nat := 0
     have hpa : Nat := (0x1000000 + 320)
     have r : Nat := 3
     have off : Nat := 320
     have m : Nat := 0
     have line : Nat := 5
     have reg : Region := { partition := 1, grainM8 := 0, width := 1, tier := .capacity, window := false, extents := [⟨false, 0, 0⟩] }
     have e : Dev := ((ready s.dev).cxlLocate h hpa [.w]).2
     have x : Line := 0x99
     decide ((Reaches s.dev h hpa [.w] r off reg e) ∧
       (ValidLine e r off m line) ∧
       (FreeToWrite e r) ∧
       (Calm e 1) ∧
       (yields (exec (.cxlMemWrite h hpa x (BitVec.allOnes 64)) s) { s with dev := ((e.writeLine m line x).emit (.cxlDone h)).atRest } = true))) = true := by decide +kernel

theorem test_cxlMemAccesses_3 :
    (have s : State := (st ((devH false []).putLine 0 5 0x1234))
     have h : Nat := 0
     have hpa : Nat := (0x1000000 + 320)
     have r : Nat := 3
     have off : Nat := 320
     have m : Nat := 0
     have line : Nat := 5
     have reg : Region := { partition := 1, grainM8 := 0, width := 1, tier := .capacity, window := false, extents := [⟨false, 0, 0⟩] }
     have e : Dev := ((ready s.dev).cxlLocate h hpa [.w]).2
     have x : Line := 0xFFFF
     have en : U64 := 2
     decide ((Reaches s.dev h hpa [.w] r off reg e) ∧
       (ValidLine e r off m line) ∧
       (FreeToWrite e r) ∧
       (Calm e 1) ∧
       (en ≠ BitVec.allOnes 64) ∧
       (yields (exec (.cxlMemWrite h hpa x en) s) { s with dev :=
      (((e.activate m line).putLine m line (mergeBytes (e.lineData m line) x en)).emit (.cxlDone h)).atRest } = true))) = true := by decide +kernel

theorem test_cxlMemAccesses_4 :
    (have s : State := (st (devH false []))
     have h : Nat := 0
     have off : Nat := 0x200008
     have len : Nat := 8
     have c : Nat := 7
     have v : U64 := 5
     have g : Segment := { base := 0x200000, lines := 64, kind := .doorbell, w := true, targetOff := 64 }
     decide (((s.dev.head h).linkUp = true) ∧
       (off < 4194304) ∧
       ((s.dev.head h).doorbell = some c) ∧
       ((s.dev.context c).valid = true) ∧
       (segOf (s.dev.context c) off = some g) ∧
       (g.kind = .doorbell) ∧
       (g.w = true) ∧
       (yields (exec (.bar2DoorbellWrite h off len (some v)) s) (s.onDev fun d =>
      d.ringDoorbell { ctx := c, off := g.targetOff + (off - g.base), len := len, value := v }) = true))) = true := by decide +kernel

theorem test_cxlMemAccesses_5 :
    (have s : State := st (devH false [])
     have h : Nat := 0
     have off : Nat := 0x200008
     have len : Nat := 8
     decide (((s.dev.head h).linkUp = true) ∧
       (off < 4194304) ∧
       (yields (exec (.bar2DoorbellWrite h off len none) s) (s.onDev fun d => d.emit (.bar2Data h len (2 ^ (8 * len) - 1))) = true))) = true := by decide +kernel

theorem test_cxlMemAccesses_6 :
    (have s : State := (st (devH false []))
     have h : Nat := 0
     have hpa : Nat := 0x1000000000
     have e : Status := .bounds
     decide ((s.dev.memOpen h = true) ∧
       ((ready s.dev).cxlLocate h hpa [.r] = (.error e, ready s.dev)) ∧
       (tget (s.dev.head h).lastRefused (statusCode e) = none) ∧
       (yields (exec (.cxlMemRead h hpa) s) (s.onDev fun d =>
      ((((ready d).bump (.cxRefused h (statusCode e))).modHead h
        (fun x => { x with lastRefused := tset x.lastRefused (statusCode e) d.now })).raise
        { code := .cxlAccessRefused, unit := some (.cxlHead, h), detail0 := some (BitVec.ofNat 64 hpa), detail1 := some (statusWord e) }).emit (.cxlData h 0 true)) = true))) = true := by decide +kernel

theorem test_cxlMemAccesses_7 :
    (have s : State := (st ((devH false []).modHead 0 fun x => { x with lastRefused := [(4, 4999999999)] }))
     have h : Nat := 0
     have hpa : Nat := 0x1000000000
     have t : Nat := 4999999999
     have x : Line := 5
     have en : U64 := 1
     have e : Status := .bounds
     decide ((s.dev.memOpen h = true) ∧
       ((ready s.dev).cxlLocate h hpa [.w] = (.error e, ready s.dev)) ∧
       (tget (s.dev.head h).lastRefused (statusCode e) = some t) ∧
       (s.dev.now < t + 1000000) ∧
       (yields (exec (.cxlMemWrite h hpa x en) s) (s.onDev fun d =>
      ((ready d).bump (.cxRefused h (statusCode e))).emit (.cxlDone h)) = true))) = true := by decide +kernel

theorem test_windowRequests_1 :
    (have s : State := (st (devH true []))
     have h : Nat := 0
     have hpa : Nat := (0x1000000 + 320)
     have r : Nat := 3
     have off : Nat := 320
     have m : Nat := 0
     have l : Nat := 5
     have reg : Region := ({ partition := 1, grainM8 := 0, width := 1, tier := .capacity, window := true, extents := [⟨false, 0, 0⟩] })
     have e : Dev := ((ready s.dev).cxlLocate h hpa [.r]).2
     decide ((Reaches s.dev h hpa [.r] r off reg e) ∧
       (reg.window = true) ∧
       (FreeWindow e) ∧
       (e.dirOf r (off / 64) = {}) ∧
       (GoodWindowLine e r (off / 64) m l) ∧
       (Calm e 1) ∧
       (yields (exec (.windowReadShared h hpa) s) { s with dev :=
      (((e.activate m l).setDir r (off / 64) { state := .e, holder := h }).emit (.cxlGrant h .e (some (e.lineData m l)))).atRest } = true))) = true := by decide +kernel

theorem test_windowRequests_2 :
    (have s : State := (st (devH true []))
     have h : Nat := 0
     have hpa : Nat := (0x1000000 + 320)
     have r : Nat := 3
     have off : Nat := 320
     have m : Nat := 0
     have l : Nat := 5
     have reg : Region := ({ partition := 1, grainM8 := 0, width := 1, tier := .capacity, window := true, extents := [⟨false, 0, 0⟩] })
     have e : Dev := ((ready s.dev).cxlLocate h hpa [.r, .w]).2
     decide ((Reaches s.dev h hpa [.r, .w] r off reg e) ∧
       (reg.window = true) ∧
       (FreeWindow e) ∧
       (e.dirOf r (off / 64) = {}) ∧
       (GoodWindowLine e r (off / 64) m l) ∧
       (Calm e 1) ∧
       (yields (exec (.windowReadOwnership h hpa) s) { s with dev :=
      (((e.activate m l).setDir r (off / 64) { state := .m, holder := h }).emit (.cxlGrant h .m (some (e.lineData m l)))).atRest } = true))) = true := by decide +kernel

theorem test_windowRequests_3 :
    (have s : State := (st (devH true [(dirKey 3 5, { state := .f, holder := 0, sharers := 1 })]))
     have h : Nat := 0
     have hpa : Nat := (0x1000000 + 320)
     have r : Nat := 3
     have off : Nat := 320
     have reg : Region := ({ partition := 1, grainM8 := 0, width := 1, tier := .capacity, window := true, extents := [⟨false, 0, 0⟩] })
     have e : Dev := ((ready s.dev).cxlLocate h hpa [.w]).2
     have x : DirEntry := { state := .f, holder := 0, sharers := 1 }
     decide ((h < 8) ∧
       (Reaches s.dev h hpa [.w] r off reg e) ∧
       (reg.window = true) ∧
       (FreeWindow e) ∧
       (e.dirOf r (off / 64) = x) ∧
       (x.state = .f) ∧
       (x.holder = h) ∧
       (x.sharers = putBit 0 h true) ∧
       (Calm e 1) ∧
       (yields (exec (.windowMeminv h hpa) s) { s with dev :=
      ((e.setDir r (off / 64) { state := .m, holder := h }).emit (.cxlGrant h .m none)).atRest } = true))) = true := by decide +kernel

theorem test_windowRequests_4 :
    (have s : State := (st (devH true [(dirKey 3 5, { state := .m, holder := 2 })]))
     have h : Nat := 0
     have g : Nat := 2
     have hpa : Nat := (0x1000000 + 320)
     have r : Nat := 3
     have off : Nat := 320
     have reg : Region := ({ partition := 1, grainM8 := 0, width := 1, tier := .capacity, window := true, extents := [⟨false, 0, 0⟩] })
     have e : Dev := ((ready s.dev).cxlLocate h hpa [.r]).2
     have x : DirEntry := { state := .m, holder := 2 }
     decide ((Reaches s.dev h hpa [.r] r off reg e) ∧
       (reg.window = true) ∧
       (FreeWindow e) ∧
       (e.dirOf r (off / 64) = x) ∧
       ((x.state = .e ∨ x.state = .m)) ∧
       (x.holder = g) ∧
       (g ≠ h) ∧
       (Calm e 1) ∧
       (yields (exec (.windowReadShared h hpa) s) { s with dev :=
      ({ e with winTxns := [{ region := r, line := off / 64, req := .readShared h, waiting := [g], started := e.now, who := (e.cur, e.stream) }] }.emit (.biSnoop g .data r (off / 64))).atRest } = true))) = true := by decide +kernel

theorem test_windowRequests_5 :
    (have s : State := st { devH true [] with winTxns := [{ region := 3, line := 5, req := .readShared 2, waiting := [4], started := 4000000000, who := (none, .other) }] }
     have h : Nat := 0
     have hpa : Nat := (0x1000000 + 320)
     have r : Nat := 3
     have off : Nat := 320
     have reg : Region := ({ partition := 1, grainM8 := 0, width := 1, tier := .capacity, window := true, extents := [⟨false, 0, 0⟩] })
     have e : Dev := ((ready s.dev).cxlLocate h hpa [.r]).2
     decide ((Reaches s.dev h hpa [.r] r off reg e) ∧
       (reg.window = true) ∧
       (e.winTxns.any (fun t => t.region == r && t.line == off / 64) = true) ∧
       (yields (exec (.windowReadShared h hpa) s) (
      let w : WinWait := { region := r, line := off / 64, req := .readShared h, who := (e.cur, e.stream) }
      { s with dev := { e with winWaits := e.winWaits ++ [w] }.atRest }) = true))) = true := by decide +kernel

theorem test_windowRequests_6 :
    (have s : State := st ((devH false []).putLine 0 5 0x99)
     have h : Nat := 0
     have hpa : Nat := 0x1000000 + 320
     have r : Nat := 3
     have off : Nat := 320
     have m : Nat := 0
     have l : Nat := 5
     have reg : Region := { partition := 1, grainM8 := 0, width := 1, tier := .capacity, window := false, extents := [⟨false, 0, 0⟩] }
     have e : Dev := ((ready s.dev).cxlLocate h hpa [.w]).2
     have i : Instr := .windowMeminv h hpa
     have needs : List Right := [.w]
     decide ((reg.window = false) ∧
       (((i = .windowReadShared h hpa ∧ needs = [.r]) ∨ (i = .windowReadOwnership h hpa ∧ needs = [.r, .w]) ∨
      (i = .windowMeminv h hpa ∧ needs = [.w]))) ∧
       (Reaches s.dev h hpa needs r off reg e) ∧
       (ValidLine e r off m l) ∧
       (Calm e 1) ∧
       (yields (exec i s) { s with dev := ((e.activate m l).emit (.cxlData h (e.lineData m l) false)).atRest } = true))) = true := by decide +kernel

theorem test_windowReleases_1 :
    (have s : State := (st (devH true [(dirKey 3 5, { state := .m, holder := 0 })]))
     have h : Nat := 0
     have hpa : Nat := (0x1000000 + 320)
     have r : Nat := 3
     have off : Nat := 320
     have m : Nat := 0
     have l : Nat := 5
     have x : Line := 0x77
     have reg : Region := ({ partition := 1, grainM8 := 0, width := 1, tier := .capacity, window := true, extents := [⟨false, 0, 0⟩] })
     have e : Dev := ((ready s.dev).cxlLocate h hpa [.w]).2
     have y : DirEntry := { state := .m, holder := 0 }
     decide ((Reaches s.dev h hpa [.w] r off reg e) ∧
       (reg.window = true) ∧
       (FreeWindow e) ∧
       (e.dirOf r (off / 64) = y) ∧
       ((y.state = .e ∨ y.state = .m)) ∧
       (y.holder = h) ∧
       (e.paired r = false) ∧
       (reg.migrating = false) ∧
       (e.rebuilds = []) ∧
       (e.winPlace r (off / 64) = some (m, l)) ∧
       (Calm e 1) ∧
       (yields (exec (.windowWriteback h hpa x) s) { s with dev :=
      (((e.writeLine m l x).setDir r (off / 64) {}).emit (.cxlDone h)).atRest } = true))) = true := by decide +kernel

theorem test_windowReleases_2 :
    (have s : State := (st (devH true [(dirKey 3 5, { state := .f, holder := 0, sharers := 5 })]))
     have h : Nat := 0
     have g : Nat := 2
     have hpa : Nat := (0x1000000 + 320)
     have r : Nat := 3
     have off : Nat := 320
     have reg : Region := ({ partition := 1, grainM8 := 0, width := 1, tier := .capacity, window := true, extents := [⟨false, 0, 0⟩] })
     have e : Dev := ((ready s.dev).cxlLocate h hpa [.r]).2
     have y : DirEntry := { state := .f, holder := 0, sharers := 5 }
     decide ((h < 8) ∧
       (g < 8) ∧
       (g ≠ h) ∧
       (Reaches s.dev h hpa [.r] r off reg e) ∧
       (reg.window = true) ∧
       (FreeWindow e) ∧
       (off / 64 < 68719476736) ∧
       (Calm e 1) ∧
       (y.state = .f) ∧
       (y.holder = h) ∧
       (y.sharers = putBit (putBit 0 h true) g true) ∧
       (e.dir = [(dirKey r (off / 64), y)]) ∧
       (yields (exec (.windowCleanEviction h hpa) s) { s with dev :=
      ({ e with dir := [(dirKey r (off / 64), { y with state := .s, sharers := putBit y.sharers h false })] }.emit (.cxlDone h)).atRest } = true))) = true := by decide +kernel

theorem test_windowReleases_3 :
    (have s : State := (st ((devH true []).putLine 0 5 0x99))
     have r : Nat := 3
     have line : Nat := 5
     have m : Nat := 0
     have l : Nat := 5
     have reg : Region := ({ partition := 1, grainM8 := 0, width := 1, tier := .capacity, window := true, extents := [⟨false, 0, 0⟩] })
     decide ((s.dev.sys.live = true) ∧
       (tget s.dev.regions r = some reg) ∧
       (reg.window = true) ∧
       (reg.failed = false) ∧
       (GoodWindowLine s.dev r line m l) ∧
       (FreeWindow s.dev) ∧
       (s.dev.dirOf r line = {}) ∧
       (Calm s.dev 1) ∧
       (yields (exec (.windowOtherAccess r line .read) s) (s.onDev fun d => (d.activate m l).emit (.line .ok (d.lineData m l))) = true))) = true := by decide +kernel

theorem test_windowReleases_4 :
    (have s : State := (st ((devH true []).putLine 0 5 0x99))
     have r : Nat := 3
     have line : Nat := 5
     have m : Nat := 0
     have l : Nat := 5
     have reg : Region := ({ partition := 1, grainM8 := 0, width := 1, tier := .capacity, window := true, extents := [⟨false, 0, 0⟩] })
     have x : Line := 0x55
     decide ((s.dev.sys.live = true) ∧
       (tget s.dev.regions r = some reg) ∧
       (reg.window = true) ∧
       (reg.failed = false) ∧
       (s.dev.winPlace r line = some (m, l)) ∧
       (FreeWindow s.dev) ∧
       (s.dev.dirOf r line = {}) ∧
       (s.dev.paired r = false) ∧
       (reg.migrating = false) ∧
       (s.dev.rebuilds = []) ∧
       (Calm s.dev 1) ∧
       (yields (exec (.windowOtherAccess r line (.write x (BitVec.allOnes 64))) s) (s.onDev fun d => ((d.writeLine m l x).setDir r line {}).emit (.lineAck .ok)) = true))) = true := by decide +kernel

theorem test_windowReleases_5 :
    (have s : State := (st ((devH true []).putLine 0 5 0x99))
     have r : Nat := 3
     have line : Nat := 5
     have offset : Nat := 4
     have m : Nat := 0
     have l : Nat := 5
     have reg : Region := ({ partition := 1, grainM8 := 0, width := 1, tier := .capacity, window := true, extents := [⟨false, 0, 0⟩] })
     have op : U8 := 0x10
     have x : U64 := 1
     have y : U64 := 2
     decide ((s.dev.sys.live = true) ∧
       (tget s.dev.regions r = some reg) ∧
       (reg.window = true) ∧
       (reg.failed = false) ∧
       (s.dev.winPlace r line = some (m, l)) ∧
       (offset % (if op.toNat / 16 % 2 = 1 then 8 else 4) ≠ 0) ∧
       (yields (exec (.windowOtherAccess r line (.atomic op offset x y)) s) (s.onDev fun d => d.emit (.line .format 0)) = true))) = true := by decide +kernel

theorem test_windowReleases_6 :
    (have s : State := (st (devH true []))
     have r : Nat := 3
     have line : Nat := 5
     have reg : Region := ({ partition := 1, grainM8 := 0, width := 1, tier := .capacity, window := true, extents := [⟨false, 0, 0⟩] })
     decide ((s.dev.sys.live = true) ∧
       (tget s.dev.regions r = some reg) ∧
       (reg.window = true) ∧
       (s.dev.dirCached = []) ∧
       (0 < (s.dev.partn reg.partition).dirWays) ∧
       (yields (exec (.directoryFill r line) s) (s.onDev fun d => { d with dirCached := [dirKey r line] }) = true))) = true := by decide +kernel

theorem test_windowTransactions_1 :
    (have s : State := (st { devH true [(dirKey 3 5, { state := .m, holder := 2 })] with winTxns := [{ region := 3, line := 5, req := .readShared 0, waiting := [2], started := 4000000000 }] })
     have h : Nat := 2
     have g : Nat := 0
     have r : Nat := 3
     have line : Nat := 5
     have m : Nat := 0
     have l : Nat := 5
     have x : Line := 0xABCD
     have reg : Region := { partition := 1, grainM8 := 0, width := 1, tier := .capacity, window := true, extents := [⟨false, 0, 0⟩] }
     have t : WinTxn := { region := 3, line := 5, req := .readShared 0, waiting := [2], started := 4000000000 }
     have e : DirEntry := { state := .m, holder := 2 }
     decide ((h ≠ g) ∧
       (s.dev.winTxns = [t]) ∧
       (t.region = r) ∧
       (t.line = line) ∧
       (t.waiting = [h]) ∧
       (t.req = .readShared g) ∧
       (s.dev.dirOf r line = e) ∧
       (e.state = .m) ∧
       (e.holder = h) ∧
       (tget s.dev.regions r = some reg) ∧
       (s.dev.paired r = false) ∧
       (reg.migrating = false) ∧
       (s.dev.rebuilds = []) ∧
       (s.dev.winPlace r line = some (m, l)) ∧
       ((s.dev.unit m).dead = false) ∧
       (Calm s.dev 2) ∧
       (yields (exec (.bisnpResponse r line h .keepsShared (some x)) s) (s.onDev fun d =>
      let w := ({ d.writeLine m l x with winTxns := [] } : Dev).activate m l
      (w.setDir r line { state := .f, holder := g, sharers := putBit (putBit 0 h true) g true }).emit
        (.cxlGrant g .f (some (w.lineData m l)))) = true))) = true := by decide +kernel

theorem test_windowTransactions_2 :
    (have s : State := (st { devH true [(dirKey 3 5, { state := .m, holder := 2 })] with regions := [], winTxns := [{ region := 3, line := 5, req := .readShared 0, waiting := [2], started := 4000000000 }] })
     have h : Nat := 2
     have g : Nat := 0
     have r : Nat := 3
     have line : Nat := 5
     have t : WinTxn := { region := 3, line := 5, req := .readShared 0, waiting := [2], started := 4000000000 }
     decide ((s.dev.winTxns = [t]) ∧
       (t.region = r) ∧
       (t.line = line) ∧
       (t.waiting = [h]) ∧
       (t.req = .readShared g) ∧
       (yields (exec (.biTimeout r line) s) (s.onDev fun d =>
      let e := (d.reach (t.started + (d.param 0x0032 h).toNat * 1000000)).raise
        { code := .biTimeout, part := (tget d.regions r).map (fun y => y.partition), unit := some (.cxlHead, h), detail0 := some (BitVec.ofNat 64 (dirKey r line)), detail1 := some (statusWord .timeout) }
      ({ e with winTxns := [] }).cxlRefuse g .timeout true (dirKey r line) none) = true))) = true := by decide +kernel

theorem test_windowTransactions_3 :
    (have s : State := (st { devH true [(dirKey 3 5, { state := .m, holder := 2 })] with winTxns := [{ region := 3, line := 5, req := .readShared 0, waiting := [2], started := 4000000000 }], winWaits := [{ region := 3, line := 5, req := .readOwn 0, age := 3 }] })
     have r : Nat := 3
     have line : Nat := 5
     have h : Nat := 0
     have t : WinTxn := { region := 3, line := 5, req := .readShared 0, waiting := [2], started := 4000000000 }
     have w : WinWait := { region := 3, line := 5, req := .readOwn 0, age := 3 }
     decide ((s.dev.winTxns = [t]) ∧
       (t.region = r) ∧
       (t.line = line) ∧
       (s.dev.winWaits = [w]) ∧
       (w.region = r) ∧
       (w.line = line) ∧
       (w.req = .readOwn h) ∧
       (w.who.1 = none) ∧
       (yields (exec (.windowBusyRetry r line) s) (s.onDev fun d =>
      let w' := { w with age := w.age + 1, reserved := w.reserved || decide ((d.param 0x0031 h).toNat ≤ w.age + 1) }
      { d with winWaits := [w'] }) = true))) = true := by decide +kernel

theorem test_windowTransactions_4 :
    (have s : State := st { devH true [] with winWaits := [{ region := 3, line := 5, req := .readOwn 0, age := 3, who := (none, .other) }] }
     have r : Nat := 3
     have line : Nat := 5
     have h : Nat := 0
     have m : Nat := 0
     have l : Nat := 5
     have w : WinWait := { region := 3, line := 5, req := .readOwn 0, age := 3, who := (none, .other) }
     decide ((s.dev.winTxns = []) ∧
       (s.dev.winWaits = [w]) ∧
       (w.region = r) ∧
       (w.line = line) ∧
       (w.req = .readOwn h) ∧
       (w.who.1 = none) ∧
       (s.dev.dirOf r line = {}) ∧
       (GoodWindowLine s.dev r line m l) ∧
       (Calm s.dev 1) ∧
       (yields (exec (.windowBusyRetry r line) s) (s.onDev fun d =>
      (({ d with winWaits := [] }.activate m l).setDir r line { state := .m, holder := h }).emit
        (.cxlGrant h .m (some (d.lineData m l)))) = true))) = true := by decide +kernel

theorem test_heads_1 :
    (have s : State := (st (devH false []))
     have n : Nat := 0
     decide ((n < 4) ∧
       (s.dev.sys.resetN = true) ∧
       (s.dev.sys.warmPhase = false) ∧
       (bit s.dev.sys.cfg.bifurcated n = false) ∧
       (s.dev.dir = []) ∧
       (FreeWindow s.dev) ∧
       (s.dev.tagFree (.head (2 * n)) = true) ∧
       (yields (exec (.perstAssert n) s) (s.onDev fun d =>
      let e := { d with sys := { d.sys with
        perstAsserted := putBit d.sys.perstAsserted n true, trainStarted := putBit d.sys.trainStarted n false } }
      (e.incTag (.head (2 * n))).modHead (2 * n) (fun x =>
        { x with linkUp := false, cfgReady := false, d3hot := false, decoders := [], ideKeys := [] })) = true))) = true := by decide +kernel

theorem test_heads_2 :
    (have s : State := (st { devH false [] with sys := { (devH false []).sys with resetN := false } })
     have n : Nat := 0
     decide ((s.dev.sys.resetN = false) ∧
       (yields (exec (.perstAssert n) s) (s.onDev fun d => { d with sys := { d.sys with
      perstAsserted := putBit d.sys.perstAsserted n true, trainStarted := putBit d.sys.trainStarted n false } }) = true))) = true := by decide +kernel

theorem test_heads_3 :
    (have s : State := (st (devH false []))
     have n : Nat := 0
     decide ((yields (exec (.perstDeassert n) s) (s.onDev fun d => { d with sys := { d.sys with
      perstAsserted := putBit d.sys.perstAsserted n false, trainStarted := putBit d.sys.trainStarted n d.sys.resetN } }) = true))) = true := by decide +kernel

theorem test_heads_4 :
    (have s : State := (st (devH false []))
     have h : Nat := 0
     decide ((s.dev.headExists h = true) ∧
       (bit s.dev.sys.trainStarted (h / 2) = true) ∧
       (yields (exec (.configRetryWindowEnd h) s) (s.onDev fun d => d.modHead h fun x => { x with cfgReady := true }) = true))) = true := by decide +kernel

theorem test_heads_5 :
    (have s : State := st (devH false [])
     have h : Nat := 0
     decide ((s.dev.headExists h = true) ∧
       (bit s.dev.sys.trainStarted (h / 2) = true) ∧
       ((s.dev.head h).cfgReady = true) ∧
       (((yields (exec (.configRequest h (.power true)) s) (s.onDev fun d => (d.modHead h fun x => { x with d3hot := true }).emit (.cfgDone h)) = true) ∧
       yields (exec (.configRequest h .capabilities) s) (s.onDev fun d => d.emit (.capabilities h cxlFeatures)) = true ∧
       yields (exec (.configRequest h .cdat) s) (s.onDev fun d => d.emit (.cdat h [(.capacityRead, 300), (.nearRead, 200),
         (.fullWrite, 200), (.windowReadExtra, 150), (.expiryToFence, 10000), (.headBandwidth, 112)])) = true ∧
       yields (exec (.configRequest h .other) s) (s.onDev fun d => d.emit (.cfgDone h)) = true)))) = true := by decide +kernel

theorem test_heads_6 :
    (have s : State := (st ((devH false []).modHead 0 fun x => { x with cfgReady := false }))
     have h : Nat := 0
     have q : CfgReq := .cdat
     decide ((s.dev.headExists h = true) ∧
       (bit s.dev.sys.trainStarted (h / 2) = true) ∧
       ((s.dev.head h).cfgReady = false) ∧
       (yields (exec (.configRequest h q) s) (s.onDev fun d => d.emit (.cfgRetry h)) = true))) = true := by decide +kernel

theorem test_heads_7 :
    (have s : State := (st (devH false []))
     have h : Nat := 0
     have rate : Nat := 64
     have w : Nat := 4
     decide ((s.dev.headExists h = true) ∧
       (bit s.dev.sys.trainStarted (h / 2) = true) ∧
       ((w = 8 ∨ w = 4 ∨ (w = 16 ∧ bit s.dev.sys.cfg.bifurcated (h / 2) = false))) ∧
       (yields (exec (.cxlLinkUp { head := h, rate := rate, width := w }) s) (s.onDev fun d => d.modHead h fun x =>
      { x with linkUp := true, removed := false, rate := rate, width := w }) = true))) = true := by decide +kernel

theorem test_heads_8 :
    (have s : State := (st (devH false []))
     have h : Nat := 0
     decide ((yields (exec (.cxlLinkDown h) s) (s.onDev fun d => d.modHead h fun x => { x with linkUp := false }) = true))) = true := by decide +kernel

theorem test_heads_9 :
    (have s : State := (st (devH false []))
     have h : Nat := 0
     have i : Nat := 1
     have base : Nat := 0
     have size : Nat := 4096
     have ways : Nat := 1
     have gran : Nat := 256
     have dpa : Nat := 0
     have bi : Bool := true
     decide ((s.dev.headExists h = true) ∧
       ((s.dev.head h).linkUp = true) ∧
       (i < 8) ∧
       (ways ∈ [1, 2, 3, 4, 6, 8, 12, 16]) ∧
       (gran ∈ [256, 512, 1024, 2048, 4096, 8192, 16384]) ∧
       (yields (exec (.hdmDecoderCommit h i base size ways gran dpa bi) s) (s.onDev fun d =>
      let dec : Decoder := { base := base, size := size, ways := ways, gran := gran, dpaBase := dpa, bi := bi }
      d.modHead h fun x => { x with decoders := tset x.decoders i dec }) = true))) = true := by decide +kernel

theorem test_heads_10 :
    (have s : State := (st (devH true [(dirKey 3 5, { state := .m, holder := 0 })]))
     have h : Nat := 0
     have k : Nat := (dirKey 3 5)
     have e : DirEntry := { state := .m, holder := 0 }
     decide ((s.dev.headExists h = true) ∧
       (s.dev.dir = [(k, e)]) ∧
       ((e.state = .e ∨ e.state = .m)) ∧
       (e.holder = h) ∧
       (FreeWindow s.dev) ∧
       (yields (exec (.cxlReset h) s) (s.onDev fun d => { d with dir := [] }.raise
      { code := .windowLinesLost, unit := some (.cxlHead, h), detail1 := some 1 }) = true))) = true := by decide +kernel

theorem test_heads_11 :
    (have s : State := (st (devH true [(dirKey 3 5, { state := .m, holder := 0 })]))
     have h : Nat := 0
     have k : Nat := (dirKey 3 5)
     have e : DirEntry := { state := .m, holder := 0 }
     decide ((s.dev.headExists h = true) ∧
       (s.dev.dir = [(k, e)]) ∧
       ((e.state = .e ∨ e.state = .m)) ∧
       (e.holder = h) ∧
       (FreeWindow s.dev) ∧
       (yields (exec (.headRemoval h) s) (s.onDev fun d => ({ d with dir := [] }.raise
      { code := .windowLinesLost, unit := some (.cxlHead, h), detail1 := some 1 }).modHead h
        (fun x => { x with linkUp := false, removed := true })) = true))) = true := by decide +kernel

theorem test_dynamicCapacity_1 :
    (have s : State := (st (({ devH false [] with ctxs := [(7, { (dev0.context 7) with segments := [] })] } : Dev).modHead 0 fun x => { x with offered := [] }))
     have h : Nat := 0
     have x : DcExtentIn := { dpa := 0, length := 268435456, region := 3, r := true, w := true, offset := 0, duration := 0 }
     decide ((s.dev.headExists h = true) ∧
       ((s.dev.head h).offered = []) ∧
       (s.dev.dcAll h [x] [] = true) ∧
       (1 ≤ s.dev.leasesLeft) ∧
       (yields (exec (.dcAddExtent h [x]) s) (s.onDev fun d =>
      (((d.modHead h fun y => { y with offered := y.offered ++ [dcOf x] }).headEvent h
        [1, BitVec.ofNat 64 x.dpa, BitVec.ofNat 64 x.length])).emit (.dcAdd h true)) = true))) = true := by decide +kernel

theorem test_dynamicCapacity_2 :
    (have s : State := (st (({ devH false [] with ctxs := [(7, { (dev0.context 7) with segments := [] })] } : Dev).modHead 0 fun x => { x with offered := [] }))
     have h : Nat := 0
     have xs : List DcExtentIn := [{ dpa := 64, length := 268435456, region := 3, r := true, w := true, offset := 0, duration := 0 }]
     decide (((s.dev.head h).offered = []) ∧
       (s.dev.dcAll h xs [] = false) ∧
       (yields (exec (.dcAddExtent h xs) s) (s.onDev fun d => d.emit (.dcAdd h false)) = true))) = true := by decide +kernel

theorem test_dynamicCapacity_3 :
    (have s : State := (st (({ devH false [] with ctxs := [(7, { (dev0.context 7) with segments := [] })] } : Dev).modHead 0 fun x => { x with offered := [dcx none] }))
     have h : Nat := 0
     have dpa : Nat := 0
     have len : Nat := 268435456
     have c : Nat := 7
     have n : Nat := 0
     have x : DcExtent := (dcx none)
     have r : Region := { partition := 1, grainM8 := 0, width := 1, tier := .capacity, extents := [⟨false, 0, 0⟩] }
     decide ((s.dev.headExists h = true) ∧
       ((s.dev.head h).offered = [x]) ∧
       (x.dpa = dpa) ∧
       (x.length = len) ∧
       ((s.dev.head h).dcContext dpa = some c) ∧
       (s.dev.freeLease = some n) ∧
       (tget s.dev.regions x.region = some r) ∧
       (yields (exec (.addDcResponse h dpa len true) s) (s.onDev fun d =>
      let l : Lease :=
        { state := .held, head := some h, context := c, duration := x.duration, expiry := d.now + x.duration * 1000000000
          region := x.region, first := (leaseRange r x.offset x.length).1, count := (leaseRange r x.offset x.length).2 }
      let e := (d.modHead h fun y => { y with offered := [] }).setSegments c (addSegment (d.context c).segments (dcSegment x))
      ({ e with leases := tset e.leases n l }.modHead h fun y => { y with extents := y.extents ++ [{ x with lease := some n }] }).emit
        (.cxlMbox h 0 [])) = true))) = true := by decide +kernel

theorem test_dynamicCapacity_4 :
    (have s : State := (st (({ devH false [] with ctxs := [(7, { (dev0.context 7) with segments := [] })] } : Dev).modHead 0 fun x => { x with offered := [dcx none] }))
     have h : Nat := 0
     have dpa : Nat := 0
     have len : Nat := 268435456
     have x : DcExtent := (dcx none)
     decide ((s.dev.headExists h = true) ∧
       ((s.dev.head h).offered = [x]) ∧
       (x.dpa = dpa) ∧
       (x.length = len) ∧
       (yields (exec (.addDcResponse h dpa len false) s) (s.onDev fun d =>
      (d.modHead h fun y => { y with offered := [] }).emit (.cxlMbox h 0 [])) = true))) = true := by decide +kernel

theorem test_dynamicCapacity_5 :
    (have s : State := (st ({ (({ devH false [] with ctxs := [(7, { (dev0.context 7) with segments := [] })] } : Dev).modHead 0 fun x => { x with extents := [dcx (some 6)] }) with leases := [(6, lease3 (some 0))] }))
     have h : Nat := 0
     have c : Nat := 7
     have k : Nat := 6
     have x : DcExtent := (dcx (some 6))
     have l : Lease := (lease3 (some 0))
     have r : Region := ({ partition := 1, grainM8 := 0, width := 1, tier := .capacity, extents := [⟨false, 0, 0⟩] })
     decide ((s.dev.headExists h = true) ∧
       ((s.dev.head h).extents = [x]) ∧
       (x.released = false) ∧
       (x.lease = some k) ∧
       (s.dev.leases = [(k, l)]) ∧
       ((s.dev.head h).dcContext x.dpa = some c) ∧
       (tget s.dev.regions x.region = some r) ∧
       (r.width ≠ 0) ∧
       (x.dpa % 268435456 = 0) ∧
       (x.length % 268435456 = 0) ∧
       (x.length ≠ 0) ∧
       (ends (exec (.releaseDc h x.dpa x.length) s) (fun t => decide ((t.dev.head h).extents = [{ x with released := true }] ∧
      (t.dev.context c).segments = cutSegments (s.dev.context c).segments (x.dpa % 4398046511104) x.length ∧
      (tget t.dev.leases k).any (fun y => y.state == .clearing) = true ∧ .cxlMbox h 0 [] ∈ t.dev.out)) = true))) = true := by decide +kernel

theorem test_dynamicCapacity_6 :
    (have s : State := (st ({ (({ devH false [] with ctxs := [(7, { (dev0.context 7) with segments := [] })] } : Dev).modHead 0 fun x => { x with extents := [dcx (some 6)] }) with leases := [(6, lease3 (some 0))] }))
     have h : Nat := 0
     have n : Nat := 6
     have x : DcExtent := (dcx (some 6))
     decide (((s.dev.head h).extents = [x]) ∧
       (x.released = false) ∧
       (x.lease = some n) ∧
       (x.length ≠ 0) ∧
       (yields (exec (.dcForcedRelease h x.dpa x.length) s) (s.onDev fun d => d.expireLease n) = true))) = true := by decide +kernel

theorem test_dynamicCapacity_7 :
    (have s : State := (st { devH false [] with leases := [(6, lease3 none)] })
     have n : Nat := 6
     have l : Lease := (lease3 none)
     have r : Region := ({ partition := 1, grainM8 := 0, width := 1, tier := .capacity, extents := [⟨false, 0, 0⟩] })
     decide ((s.dev.sys.live = true) ∧
       (s.dev.sys.outageFrom = none) ∧
       (s.dev.sys.coldRetained = false) ∧
       (s.dev.leases = [(n, l)]) ∧
       (l.state = .held) ∧
       (l.head = none) ∧
       (tget s.dev.regions l.region = some r) ∧
       (r.migrating = false) ∧
       (l.count ≠ 0) ∧
       (l.first + l.count ≤ r.extents.length) ∧
       (s.dev.jobs = []) ∧
       (ends (exec (.leaseExpiry n) s) (fun t => decide (tget t.dev.leases n = some { l with state := .clearing }) && t.dev.now == 6000000000 && t.dev.waitClear == [(0, 0)] && t.dev.objs == [] && t.dev.out.contains (.event { code := .leaseExpired, part := some 1, detail0 := some 6, detail1 := some 10 })) = true))) = true := by decide +kernel

theorem test_linkStates_1 :
    (have s : State := (st (devP { state := .detect }))
     have n : Nat := 3
     decide (((s.dev.port n).state = .detect) ∧
       (yields (exec (.detectSuccess n) s) (s.onDev fun d => d.modPort n fun x => { x with state := .equalise, since := d.now }) = true))) = true := by decide +kernel

theorem test_linkStates_2 :
    (have s : State := (st (devP { state := .equalise }))
     have n : Nat := 3
     decide (((s.dev.port n).state = .equalise) ∧
       (yields (exec (.equaliseDone n) s) (s.onDev fun d => d.modPort n fun x => { x with state := .align, since := d.now }) = true))) = true := by decide +kernel

theorem test_linkStates_3 :
    (have s : State := (st (devP { state := .retrain }))
     have n : Nat := 3
     decide (((s.dev.port n).state = .retrain) ∧
       ((s.dev.port n).retrainStep = 0) ∧
       (yields (exec (.equaliseDone n) s) (s.onDev fun d => d.modPort n fun x => { x with retrainStep := 1 }) = true))) = true := by decide +kernel

theorem test_linkStates_4 :
    (have s : State := (st (devP { state := .align }))
     have n : Nat := 3
     decide (((s.dev.port n).state = .align) ∧
       (ends (exec (.alignDone n) s) (fun t => (t.dev.port n).state == .param) = true))) = true := by decide +kernel

theorem test_linkStates_5 :
    (have s : State := (st (devP { state := .retrain, retrainStep := 1 }))
     have n : Nat := 3
     decide (((s.dev.port n).state = .retrain) ∧
       ((s.dev.port n).retrainStep = 1) ∧
       (ends (exec (.alignDone n) s) (fun t => (t.dev.port n).retrainStep == 2) = true))) = true := by decide +kernel

theorem test_linkStates_6 :
    (have s : State := (st (devP { state := .param, since := 4999000000 }))
     have n : Nat := 3
     have t : Nat := 15000000
     decide ((stateBound (s.dev.port n).state = some t) ∧
       (yields (exec (.trainingStateTimeout n) s) (s.onDev fun d =>
      let e := d.reach ((d.port n).since + t)
      e.modPort n fun x => { x with state := .backoff, since := e.now }) = true))) = true := by decide +kernel

theorem test_linkStates_7 :
    (have s : State := (st (devP { state := .backoff, since := 4999000000, attempt := 15 }))
     have n : Nat := 3
     decide (((s.dev.port n).state = .backoff) ∧
       ((s.dev.port n).attempt < 16) ∧
       (yields (exec (.backoffExpiry n) s) (s.onDev fun d =>
      let e := d.reach ((d.port n).since + min (2 ^ ((d.port n).attempt - 1)) 1024 * 1000000)
      e.modPort n fun x => { x with state := .detect, since := e.now, attempt := (d.port n).attempt + 1, flapping := false }) = true))) = true := by decide +kernel

theorem test_linkStates_8 :
    (have s : State := (st (devP { state := .backoff, since := 4999000000, attempt := 16 }))
     have n : Nat := 3
     decide (((s.dev.port n).state = .backoff) ∧
       (16 ≤ (s.dev.port n).attempt) ∧
       (yields (exec (.backoffExpiry n) s) (s.onDev fun d => (d.modPort n fun x => { x with state := .absent, since := d.now }).raise
      { code := .swAbsent, unit := some (.swPort, n), detail0 := some (d.port n).partnerId, detail1 := some (BitVec.ofNat 64 (d.port n).attempt) }) = true))) = true := by decide +kernel

theorem test_linkStates_9 :
    (have s : State := (st (devP { state := .absent }))
     have n : Nat := 3
     decide (((s.dev.port n).state = .absent) ∧
       (yields (exec (.absentSignalDetect n) s) (s.onDev fun d =>
      let e := d.reach (d.now + 1000000)
      e.modPort n fun x => { x with state := .detect, since := e.now, attempt := 1, flapping := false }) = true))) = true := by decide +kernel

theorem test_linkStates_10 :
    (have s : State := (st (devP { state := .param }))
     have n : Nat := 3
     decide ((((s.dev.port n).state = .equalise ∨ (s.dev.port n).state = .align ∨ (s.dev.port n).state = .param)) ∧
       (yields (exec (.partnerSignalLost n) s) (s.onDev fun d => d.modPort n fun x => { x with state := .backoff, since := d.now }) = true))) = true := by decide +kernel

theorem test_linkStates_11 :
    (have s : State := (st (devP { state := .down, since := 4999500000 }))
     have n : Nat := 3
     decide ((s.dev.sys.live = true) ∧
       ((s.dev.port n).state = .down) ∧
       (yields (exec (.downExpiry n) s) (s.onDev fun d =>
      let e := d.reach ((d.port n).since + (if (d.port n).flapping then 1000000000 else 1000000))
      e.modPort n fun x => { x with state := .detect, since := e.now, attempt := 1, flapping := false }) = true))) = true := by decide +kernel

theorem test_linkStates_12 :
    (have s : State := (st (devP { state := .active, retrainTimes := [1] }))
     have n : Nat := 3
     have ts : List Nat := [1, 5000000000]
     decide (((s.dev.port n).state = .active) ∧
       (ts = (s.dev.port n).retrainTimes.filter (fun t => decide (s.dev.now < t + 10000000000)) ++ [s.dev.now]) ∧
       (ts.length < 9) ∧
       (yields (exec (.frameAlignmentLost n) s) (s.onDev fun d => (d.bump (.swRetrains n)).modPort n fun x =>
      { x with retrainTimes := ts, state := .retrain, since := d.now, retrainStep := 0, phase := 0, nakSince := none
               badRun := 0, badTimes := [], replayFrom := none, txKey := 0, rxKey := 0, rxNextKey := 0 }) = true))) = true := by decide +kernel

theorem test_linkStates_13 :
    (have s : State := (st (devP { state := .active }))
     have n : Nat := 3
     have ts : List Nat := [5000000000]
     decide (((s.dev.port n).state = .active) ∧
       (ts = (s.dev.port n).retrainTimes.filter (fun t => decide (s.dev.now < t + 10000000000)) ++ [s.dev.now]) ∧
       (ts.length < 9) ∧
       (yields (exec (.eyeMarginLow n) s) (s.onDev fun d => (d.bump (.swRetrains n)).modPort n fun x =>
      { x with retrainTimes := ts, state := .retrain, since := d.now, retrainStep := 0, phase := 0, nakSince := none
               badRun := 0, badTimes := [], replayFrom := none, txKey := 0, rxKey := 0, rxNextKey := 0 }) = true))) = true := by decide +kernel

theorem test_linkStates_14 :
    (have s : State := (st (devP { state := .active, retrainTimes := [1,2,3,4,5,6,7,8] }))
     have n : Nat := 3
     have ts : List Nat := [1,2,3,4,5,6,7,8,5000000000]
     decide (((s.dev.port n).state = .active) ∧
       (ts = (s.dev.port n).retrainTimes.filter (fun t => decide (s.dev.now < t + 10000000000)) ++ [s.dev.now]) ∧
       (9 ≤ ts.length) ∧
       (yields (exec (.frameAlignmentLost n) s) (s.onDev fun d => (((d.bump (.swRetrains n)).modPort n fun x =>
      { x with retrainTimes := ts, state := .retrain, since := d.now, retrainStep := 0, phase := 0, nakSince := none
               badRun := 0, badTimes := [], replayFrom := none, txKey := 0, rxKey := 0, rxNextKey := 0 }).enterDown n true).raise
      { code := .swFlapping, unit := some (.swPort, n), detail0 := some (d.port n).partnerId, detail1 := some (BitVec.ofNat 64 ts.length) }) = true))) = true := by decide +kernel

theorem test_linkStates_15 :
    (have s : State := (st (devP { state := .retrain, egress := [{ p := { kind := .read, srcEp := 9, dstEp := 4 }, at_ := 0 }] }))
     have n : Nat := 3
     decide (((s.dev.port n).state = .retrain) ∧
       (yields (exec (.partnerSignalLost n) s) (s.onDev fun d => d.enterDown n false) = true))) = true := by decide +kernel

theorem test_linkStates_16 :
    (have s : State := (st (devP { state := .retrain, since := 4999000000 }))
     have n : Nat := 3
     decide (((s.dev.port n).state = .retrain) ∧
       (yields (exec (.retrainTimeout n) s) (s.onDev fun d => (d.reach ((d.port n).since + 60000000)).enterDown n false) = true))) = true := by decide +kernel

theorem test_linkStates_17 :
    (have s : State := (st (devP { state := .retrain, retrainTimes := [4] }))
     have n : Nat := 3
     decide (((s.dev.port n).state = .retrain) ∧
       ((s.dev.port n).unacked = []) ∧
       ((s.dev.port n).egress = []) ∧
       ((s.dev.port n).rxPartial = none) ∧
       ((s.dev.port n).stallSince = []) ∧
       ((s.dev.port n).gateSince = []) ∧
       (s.dev.rt.sprays = []) ∧
       (s.dev.ports.all (fun x => x.2.exclSince.isNone) = true) ∧
       (s.dev.downWaits n = false) ∧
       (s.dev.tagFree (.port n) = true) ∧
       (yields (exec (.partnerSignalLost n) s) (s.onDev fun d => ((d.incTag (.port n)).bump (.swDowns n)).modPort n fun x =>
      { x.fresh with state := .down, since := d.now, flapping := false }) = true))) = true := by decide +kernel

theorem test_framesReceived_1 :
    (have s : State := (st (devP { state := .active, rxExp := 7, rxUnacked := 127, badRun := 3 }))
     have n : Nat := 3
     have f : Frame := { ftype := 1, seq := 7, crA := { tc := 0, hdr := 4, data := 9 }, crB := { tc := 1 }, slots := [.head { kind := .write, tc := 2, units := 1 }, .body 5] ++ List.replicate 17 .empty }
     decide (((s.dev.port n).state = .active) ∧
       (f.ftype = 1) ∧
       (badFrame f {} = false) ∧
       (f.nak = false) ∧
       (f.seq = (s.dev.port n).rxExp) ∧
       (ends (exec (.dataFrameReceive n f {}) s) (fun t => (t.dev.port n).rxExp == 8 && (t.dev.port n).badRun == 0) = true))) = true := by decide +kernel

theorem test_framesReceived_2 :
    (have s : State := (st (devP { state := .active, rxExp := 7 }))
     have n : Nat := 3
     have f : Frame := { ftype := 2, control := 0x90004 }
     decide (((s.dev.port n).state = .active) ∧
       (f.ftype = 2) ∧
       (badFrame f {} = false) ∧
       (f.nak = false) ∧
       (yields (exec (.controlFrameReceive n f {}) s) (s.onDev fun d =>
      let d1 := (((d.modPort n fun x => { x with badRun := 0 }).takeKeyPhase n f.keyPhase).takeCredit n f.crA).takeCredit n f.crB
      let d2 := if f.ackValid then d1.takeAck n f.ackSeq else d1
      (slotCredits f.control).zipIdx.foldl (fun e x =>
        e.takeCredit n { tc := x.2, hdr := BitVec.ofNat 16 x.1.1, data := BitVec.ofNat 20 x.1.2 }) d2) = true))) = true := by decide +kernel

theorem test_framesReceived_3 :
    (have s : State := (st (devP { state := .active, rxExp := 7, badRun := 14, badTimes := [1, 4999999999] }))
     have n : Nat := 3
     have f : Frame := { ftype := 1, seq := 7 }
     have c : FrameCond := { tagFail := true }
     decide (((s.dev.port n).state = .active) ∧
       (badFrame f c = true) ∧
       ((s.dev.port n).badTimes.length < 16) ∧
       ((s.dev.port n).badRun < 15) ∧
       ((s.dev.port n).nakSince = none) ∧
       (ends (exec (.dataFrameReceive n f c) s) (fun t => (t.dev.port n).nakSince == some t.dev.now) = true))) = true := by decide +kernel

theorem test_framesReceived_4 :
    (have s : State := (st (devP { state := .active, rxExp := 7, badRun := 15 }))
     have n : Nat := 3
     have f : Frame := { ftype := 7 }
     have c : FrameCond := { corrected := 1 }
     decide (((s.dev.port n).state = .active) ∧
       (badFrame f c = true) ∧
       ((s.dev.port n).badRun = 15) ∧
       (yields (exec (.controlFrameReceive n f c) s) (s.onDev fun d =>
      ((d.countFrame n c).modPort n fun x =>
        { x with badTimes := x.badTimes.filter (fun t => decide (d.now < t + 1000000)) ++ [d.now], badRun := 16 }).enterRetrain n) = true))) = true := by decide +kernel

theorem test_linkTimersAndSending_1 :
    (have s : State := (st (devP { state := .active, nakSince := some 4999999000 }))
     have n : Nat := 3
     have t : Nat := 4999999000
     decide (((s.dev.port n).state = .active) ∧
       ((s.dev.port n).nakSince = some t) ∧
       (ends (exec (.nakResendTimeout n) s) (fun t => (t.dev.port n).nakSince == some t.dev.now) = true))) = true := by decide +kernel

theorem test_linkTimersAndSending_2 :
    (have s : State := (st (devP { state := .active, unacked := [{ f := { seq := 9, slots := [.empty] }, sentAt := 4999999000, replays := 3 }] }))
     have n : Nat := 3
     have t : TxFrame := ({ f := { seq := 9, slots := [.empty] }, sentAt := 4999999000, replays := 3 })
     have r : List TxFrame := []
     decide (((s.dev.port n).state = .active) ∧
       ((s.dev.port n).unacked = t :: r) ∧
       (t.replays < 4) ∧
       (ends (exec (.replayTimeout n) s) (fun t => (t.dev.port n).state == .active) = true))) = true := by decide +kernel

theorem test_linkTimersAndSending_3 :
    (have s : State := (st (devP { state := .active, unacked := [{ f := { seq := 9, slots := [.empty] }, sentAt := 4999999000, replays := 4 }] }))
     have n : Nat := 3
     have t : TxFrame := ({ f := { seq := 9, slots := [.empty] }, sentAt := 4999999000, replays := 4 })
     have r : List TxFrame := []
     decide (((s.dev.port n).state = .active) ∧
       ((s.dev.port n).unacked = t :: r) ∧
       (4 ≤ t.replays) ∧
       (yields (exec (.replayTimeout n) s) (s.onDev fun d => (d.reach (t.sentAt + (d.param 0x0020 n).toNat * 1000)).enterRetrain n) = true))) = true := by decide +kernel

theorem test_linkTimersAndSending_4 :
    (have s : State := (st (devP { state := .active, rxUnacked := 3, rxFirstUnacked := 4999999900 }))
     have n : Nat := 3
     decide (((s.dev.port n).state = .active) ∧
       ((s.dev.port n).rxUnacked ≠ 0) ∧
       (ends (exec (.ackTimer n) s) (fun t => (t.dev.port n).rxUnacked == 0) = true))) = true := by decide +kernel

theorem test_linkTimersAndSending_5 :
    (have s : State := (st (devP { state := .active, egress := [{ p := { kind := .write, tc := 2, units := 1, data := [5], srcEp := 0, dstEp := 4 }, at_ := 4999999900 }], partnerAdv := List.replicate 8 (4, 4), stallSince := [(2, 4999999990)] }))
     have n : Nat := 3
     have tc : Nat := 2
     have e : EgressPkt := ({ p := { kind := .write, tc := 2, units := 1, data := [5], srcEp := 0, dstEp := 4 }, at_ := 4999999900 })
     decide (((s.dev.port n).egress.find? (fun x => x.p.tc == tc) = some e) ∧
       ((s.dev.port n).state = .active) ∧
       ((s.dev.port n).unacked.length + (packetFrames e.p).length ≤ 1024) ∧
       (s.dev.flowRoom e.p = true) ∧
       ((s.dev.port n).hasCredit e.p = true) ∧
       (s.dev.gateOpen n tc (spanFrames e.p) = true) ∧
       (ends (exec (.packetTransmit n tc) s) (fun t => (t.dev.port n).egress == []) = true))) = true := by decide +kernel

theorem test_linkTimersAndSending_6 :
    (have s : State := (st (devP { state := .active, egress := [{ p := { kind := .write, tc := 2, units := 1, data := [5], srcEp := 0, dstEp := 4 }, at_ := 4999999900 }], partnerAdv := List.replicate 8 (4, 0) }))
     have n : Nat := 3
     have tc : Nat := 2
     have e : EgressPkt := ({ p := { kind := .write, tc := 2, units := 1, data := [5], srcEp := 0, dstEp := 4 }, at_ := 4999999900 })
     decide (((s.dev.port n).egress.find? (fun x => x.p.tc == tc) = some e) ∧
       ((s.dev.port n).state = .active) ∧
       ((s.dev.port n).unacked.length + (packetFrames e.p).length ≤ 1024) ∧
       (s.dev.flowRoom e.p = true) ∧
       ((s.dev.port n).hasCredit e.p = false) ∧
       ((s.dev.port n).stallSince = []) ∧
       ((s.dev.port n).gateSince = []) ∧
       (yields (exec (.packetTransmit n tc) s) (s.onDev fun d => d.modPort n fun x => { x with stallSince := [(tc, (d.now, d.now))] }) = true))) = true := by decide +kernel

theorem test_linkTimersAndSending_7 :
    (have s : State := (st (devP { state := .active, keyFrames := 68719476736 }))
     have n : Nat := 3
     decide ((68719476736 ≤ (s.dev.port n).keyFrames) ∧
       (ends (exec (.linkRekey n) s) (fun t => (t.dev.port n).keyEpoch == (s.dev.port n).keyEpoch + 1 && (t.dev.port n).keyFrames == 0) = true))) = true := by decide +kernel

theorem test_paramAndPortControl_1 :
    (have s : State := st (devP { state := .param })
     have n : Nat := 3
     have b : ParamBody := { deviceId := 55, content := .hello 1 }
     have x : BitVec 256 := 1
     decide (((s.dev.port n).state = .param) ∧
       ((s.dev.port n).phase = 0) ∧
       (b.version = 1) ∧
       (b.rsvd = false) ∧
       (b.content = .hello x) ∧
       (True))) = true := by decide +kernel

theorem test_paramAndPortControl_2 :
    (have s : State := st (devP { state := .param, phase := 1, partnerChain := [7] })
     have n : Nat := 3
     have b : ParamBody := { deviceId := 55, content := .cert 2 1 [8] true 55 }
     have len : BitVec 32 := 2
     have off : BitVec 32 := 1
     have part : List Byte := [8]
     decide (((s.dev.port n).state = .param) ∧
       ((s.dev.port n).phase = 1) ∧
       (b.version = 1) ∧
       (b.rsvd = false) ∧
       (b.content = .cert len off part true b.deviceId) ∧
       (off.toNat = (s.dev.port n).partnerChain.length) ∧
       (len.toNat ≤ off.toNat + part.length) ∧
       (ends (exec (.paramFrameReceive n b {}) s) (fun t => (t.dev.port n).phase == 2) = true))) = true := by decide +kernel

theorem test_paramAndPortControl_3 :
    (have s : State := st (devP { state := .param, phase := 1 })
     have n : Nat := 3
     have b : ParamBody := { deviceId := 55, content := .cert 2 0 [7] true 55 }
     have len : BitVec 32 := 2
     have off : BitVec 32 := 0
     have part : List Byte := [7]
     have ok : Bool := true
     have id : U64 := 55
     decide (((s.dev.port n).state = .param) ∧
       ((s.dev.port n).phase = 1) ∧
       (b.version = 1) ∧
       (b.rsvd = false) ∧
       (b.content = .cert len off part ok id) ∧
       (off.toNat = (s.dev.port n).partnerChain.length) ∧
       (off.toNat + part.length < len.toNat) ∧
       (yields (exec (.paramFrameReceive n b {}) s) (s.onDev fun d =>
      d.modPort n fun y => { y with partnerChain := y.partnerChain ++ part }) = true))) = true := by decide +kernel

theorem test_paramAndPortControl_4 :
    (have s : State := st (devP { state := .param, phase := 1, partnerChain := [7] })
     have n : Nat := 3
     have b : ParamBody := { deviceId := 55, content := .cert 2 1 [8] false 55 }
     have len : BitVec 32 := 2
     have off : BitVec 32 := 1
     have part : List Byte := [8]
     have id : U64 := 55
     decide (((s.dev.port n).state = .param) ∧
       ((s.dev.port n).phase = 1) ∧
       (b.version = 1) ∧
       (b.rsvd = false) ∧
       (b.content = .cert len off part false id) ∧
       (off.toNat = (s.dev.port n).partnerChain.length) ∧
       (len.toNat ≤ off.toNat + part.length) ∧
       (yields (exec (.paramFrameReceive n b {}) s) (s.onDev fun d =>
      (d.modPort n fun y => { y with partnerChain := y.partnerChain ++ part, state := .blocked, since := d.now }).raise
        { code := .swAuthFail, unit := some (.swPort, n), detail0 := some b.deviceId }) = true))) = true := by decide +kernel

theorem test_paramAndPortControl_5 :
    (have s : State := st (devP { state := .param, phase := 2 })
     have n : Nat := 3
     have b : ParamBody := { deviceId := 55, content := .keys 3 4 true }
     have k : BitVec 776 := 3
     have sg : BitVec 768 := 4
     decide (((s.dev.port n).state = .param) ∧
       ((s.dev.port n).phase = 2) ∧
       (b.version = 1) ∧
       (b.rsvd = false) ∧
       (b.content = .keys k sg true) ∧
       (ends (exec (.paramFrameReceive n b {}) s) (fun t => (t.dev.port n).phase == 3) = true))) = true := by decide +kernel

theorem test_paramAndPortControl_6 :
    (have s : State := st (devP { state := .param, phase := 2 })
     have n : Nat := 3
     have b : ParamBody := { deviceId := 55, content := .keys 3 4 false }
     have k : BitVec 776 := 3
     have sg : BitVec 768 := 4
     decide (((s.dev.port n).state = .param) ∧
       ((s.dev.port n).phase = 2) ∧
       (b.version = 1) ∧
       (b.rsvd = false) ∧
       (b.content = .keys k sg false) ∧
       (yields (exec (.paramFrameReceive n b {}) s) (s.onDev fun d => (d.modPort n fun y => { y with state := .blocked, since := d.now }).raise
      { code := .swAuthFail, unit := some (.swPort, n), detail0 := some b.deviceId }) = true))) = true := by decide +kernel

theorem test_paramAndPortControl_7 :
    (have s : State := st (devP { state := .param, phase := 3 })
     have n : Nat := 3
     have b : ParamBody := { deviceId := 55, content := .credits 0x30002 }
     have adv : Line := 0x30002
     decide (((s.dev.port n).state = .param) ∧
       ((s.dev.port n).phase = 3) ∧
       (b.version = 1) ∧
       (b.rsvd = false) ∧
       (b.content = .credits adv) ∧
       (ends (exec (.paramFrameReceive n b {}) s) (fun t => (t.dev.port n).phase == 5) = true))) = true := by decide +kernel

theorem test_paramAndPortControl_8 :
    (have s : State := st (devP { state := .param, phase := 5 })
     have n : Nat := 3
     have b : ParamBody := { deviceId := 55, content := .ready }
     decide (((s.dev.port n).state = .param) ∧
       ((s.dev.port n).phase = 5) ∧
       (b.version = 1) ∧
       (b.rsvd = false) ∧
       (b.content = .ready) ∧
       ((s.dev.port n).replayFrom = none) ∧
       (yields (exec (.paramFrameReceive n b {}) s) (s.onDev fun d =>
      d.modPort n fun y => { y with state := .active, since := d.now, attempt := 1 }) = true))) = true := by decide +kernel

theorem test_paramAndPortControl_9 :
    (have s : State := st (devP { state := .param, phase := 2 })
     have n : Nat := 3
     have b : ParamBody := { deviceId := 55, content := .ready }
     have c : FrameCond := { tagFail := true }
     decide (((s.dev.port n).state = .param) ∧
       ((c.uncorrectable ≠ 0 ∨ c.tagFail = true ∨ b.rsvd = true ∨ (b.version = 1 ∧ phaseNo b.content ≠ (s.dev.port n).phase))) ∧
       (ends (exec (.paramFrameReceive n b c) s) (fun t => (t.dev.port n).phase == 2) = true))) = true := by decide +kernel

theorem test_paramAndPortControl_10 :
    (have s : State := (st1 (devP { state := .blocked }))
     have h : CmdHdr := devHd
     have n : Nat := 3
     decide ((Accepts s h { device := true, fm := true } none) ∧
       (n < 32) ∧
       (((s.dev.port n).state = .disabled ∨ (s.dev.port n).state = .absent ∨ (s.dev.port n).state = .blocked)) ∧
       (yields (exec (.portControlEnable h n) s) (answered s h 0x0701 .ok [] fun d => d.modPort n fun x =>
      { x with state := .detect, since := d.now, attempt := 1, flapping := false }) = true))) = true := by decide +kernel

theorem test_paramAndPortControl_11 :
    (have s : State := (st (devP { state := .param }))
     have h : CmdHdr := fmH
     have n : Nat := 3
     decide ((Accepts s h { device := true, fm := true } none) ∧
       (n < 32) ∧
       ((s.dev.port n).state ≠ .active) ∧
       ((s.dev.port n).state ≠ .retrain) ∧
       (yields (exec (.portControlDisable h n) s) (answered s h 0x0701 .ok [] fun d => d.modPort n fun x =>
      { x with state := .disabled, since := d.now }) = true))) = true := by decide +kernel

theorem test_paramAndPortControl_12 :
    (have s : State := (st (devP { state := .active }))
     have h : CmdHdr := fmH
     have n : Nat := 3
     decide ((Accepts s h { device := true, fm := true } none) ∧
       (n < 32) ∧
       ((s.dev.port n).state = .active) ∧
       (yields (exec (.portControlDisable h n) s) (answered s h 0x0701 .ok [] fun d =>
      (d.enterDown n false).modPort n fun x => { x with state := .disabled, since := d.now }) = true))) = true := by decide +kernel

theorem test_paramAndPortControl_13 :
    (have s : State := (st (devP { state := .active }))
     have h : CmdHdr := fmH
     have n : Nat := 3
     decide ((Accepts s h { device := true, fm := true } none) ∧
       (n < 32) ∧
       ((s.dev.port n).state = .active) ∧
       (yields (exec (.portControlRetrain h n) s) (answered s h 0x0701 .ok [] fun d => d.enterRetrain n) = true))) = true := by decide +kernel

theorem test_paramAndPortControl_14 :
    (have s : State := (st (devP { state := .active }))
     have h : CmdHdr := fmH
     have n : Nat := 3
     have adv : List (Nat × Nat) := (List.replicate 8 (512, 2048))
     decide ((Accepts s h { device := true, fm := true } none) ∧
       (n < 32) ∧
       (creditsOk adv = true) ∧
       (yields (exec (.portControlCreditAdv h n adv) s) (answered s h 0x0701 .ok [] fun d => d.modPort n fun x => { x with creditAdv := adv }) = true))) = true := by decide +kernel

theorem test_requestsExecuted_1 :
    (have s : State := (st { devR with pool := devR.pool.store 0 5 77 })
     have n : Nat := 3
     have c : Nat := 7
     have r : Nat := 3
     have off : Nat := 256
     have p : Packet := ({ pkt5 .read with lines := 2, addr := 256, reqTag := 9 })
     have x : FlowRx := { flow := { src := 5, dst := 0, tc := 2 }, e := 4 }
     have g : Segment := ((dev0.context 7).segments.headD { base := 0, lines := 0, kind := .invalid })
     have u : Nat → Nat × Nat := (fun k => (0, 4 + k))
     have e : Dev := serving s.dev n p x c
     decide ((p.kind = .read) ∧
       (Served s.dev n p x c g .r e) ∧
       (g.kind = .region) ∧
       (e.locate c p.addr.toNat (64 * p.lines) .r = .ok (r, off)) ∧
       ((∀ k, k < p.lines → ValidLine e r (64 * (off / 64 + k)) (u k).1 (u k).2)) ∧
       (Calm e p.lines) ∧
       (yields (exec (.readRequest n p) s) { s with dev :=
      ((activated e p.lines u).reply p .ok ((List.range p.lines).map fun k => e.lineData (u k).1 (u k).2)).atRest } = true))) = true := by decide +kernel

theorem test_requestsExecuted_2 :
    (have s : State := (st devR)
     have n : Nat := 3
     have c : Nat := 7
     have r : Nat := 3
     have off : Nat := 256
     have p : Packet := ({ pkt5 .write with units := 2, data := [8, 9], addr := 256, reqTag := 9 })
     have x : FlowRx := { flow := { src := 5, dst := 0, tc := 2 }, e := 4 }
     have g : Segment := ((dev0.context 7).segments.headD { base := 0, lines := 0, kind := .invalid })
     have u : Nat → Nat × Nat := (fun k => (0, 4 + k))
     have e : Dev := serving s.dev n p x c
     decide ((p.kind = .write) ∧
       (Served s.dev n p x c g .w e) ∧
       (g.kind = .region) ∧
       (e.locate c p.addr.toNat (64 * p.units) .w = .ok (r, off)) ∧
       (FreeToWrite e r) ∧
       (Lines e r off p.units u) ∧
       (Calm e p.units) ∧
       (yields (exec (.writeRequest n p) s) { s with dev :=
      ((written e p.units u fun k => lgetD p.data k 0).reply p .ok []).atRest } = true))) = true := by decide +kernel

theorem test_requestsExecuted_3 :
    (have s : State := (st { devR with pool := devR.pool.store 0 4 77 })
     have n : Nat := 3
     have c : Nat := 7
     have r : Nat := 3
     have off : Nat := 256
     have m : Nat := 0
     have line : Nat := 4
     have p : Packet := ({ pkt5 .writePartial with units := 1, data := [0x1234], addr := 256, byteEn := 2 })
     have x : FlowRx := { flow := { src := 5, dst := 0, tc := 2 }, e := 4 }
     have g : Segment := ((dev0.context 7).segments.headD { base := 0, lines := 0, kind := .invalid })
     have y : Line := 0x1234
     have e : Dev := serving s.dev n p x c
     decide ((p.kind = .writePartial) ∧
       (p.posted = false) ∧
       (p.byteEn ≠ BitVec.allOnes 64) ∧
       (p.data = [y]) ∧
       (Served s.dev n p x c g .w e) ∧
       (g.kind = .region) ∧
       (e.locate c p.addr.toNat 64 .w = .ok (r, off)) ∧
       (FreeToWrite e r) ∧
       (ValidLine e r off m line) ∧
       (Calm e 1) ∧
       (yields (exec (.writePartialRequest n p) s) { s with dev :=
      (((e.activate m line).putLine m line (mergeBytes (e.lineData m line) y p.byteEn)).reply p .ok []).atRest } = true))) = true := by decide +kernel

theorem test_requestsExecuted_4 :
    (have s : State := (st { devR with ctxs := [(7, { (dev0.context 7) with segments := (dev0.context 7).segments ++ [{ base := 0x200000, lines := 64, kind := .doorbell, w := true, targetOff := 64 }] })] })
     have n : Nat := 3
     have c : Nat := 7
     have k : Nat := 1
     have p : Packet := ({ pkt5 .writePartial with posted := true, units := 1, data := [0x40 <<< 64], addr := 0x200000, byteEn := 0xFF00 })
     have x : FlowRx := { flow := { src := 5, dst := 0, tc := 2 }, e := 4 }
     have g : Segment := { base := 0x200000, lines := 64, kind := .doorbell, w := true, targetOff := 64 }
     have y : Line := (0x40 <<< 64)
     have e : Dev := serving s.dev n p x c
     decide ((p.kind = .writePartial) ∧
       (p.posted = true) ∧
       (p.data = [y]) ∧
       (Served s.dev n p x c g .w e) ∧
       (g.kind = .doorbell) ∧
       (k < 8) ∧
       (p.byteEn = BitVec.ofNat 64 (255 * 2 ^ (8 * k))) ∧
       (yields (exec (.writePartialRequest n p) s) { s with dev := (e.ringDoorbell
      { ctx := c, off := g.targetOff + (p.addr.toNat - g.base) + 8 * k, len := 8, value := BitVec.ofNat 64 (field y (64 * k) 64) }).atRest } = true))) = true := by decide +kernel

theorem test_requestsExecuted_5 :
    (have s : State := (st { devR with pool := devR.pool.store 0 4 (7 <<< 64) })
     have n : Nat := 3
     have c : Nat := 7
     have r : Nat := 3
     have off : Nat := 256
     have m : Nat := 0
     have line : Nat := 4
     have w : Nat := 8
     have p : Packet := ({ pkt5 .atomic with units := 1, data := [5 ||| (8 <<< 128)], addr := 256, atomicOp := 0x10 })
     have x : FlowRx := { flow := { src := 5, dst := 0, tc := 2 }, e := 4 }
     have g : Segment := ((dev0.context 7).segments.headD { base := 0, lines := 0, kind := .invalid })
     have y : Line := (5 ||| (8 <<< 128))
     have z : Line := (7 <<< 64)
     have e : Dev := serving s.dev n p x c
     decide ((p.kind = .atomic) ∧
       (p.data = [y]) ∧
       (Served s.dev n p x c g .a e) ∧
       (g.kind = .region) ∧
       (e.locate c p.addr.toNat 64 .a = .ok (r, off)) ∧
       (FreeToWrite e r) ∧
       (off % 64 = 0) ∧
       (ValidLine e r off m line) ∧
       (e.lineData m line = z) ∧
       (w = (if bit p.atomicOp 4 then 8 else 4)) ∧
       (field y 128 8 % w = 0) ∧
       (field y 128 8 + w ≤ 64) ∧
       (ValidLine e r (off + field y 128 8) m line) ∧
       (Calm e 2) ∧
       (yields (exec (.atomicRequest n p) s) (
      let o := field y 128 8
      let old := field z (8 * o) (8 * w)
      let new := atomicNew (8 * w) (p.atomicOp.toNat % 16) old (field y 0 64 % 2 ^ (8 * w)) (field y 64 64 % 2 ^ (8 * w))
      let stored := (e.activate m line).writeLine m line
        (mergeBytes z (BitVec.ofNat 512 (new * 2 ^ (8 * o))) (BitVec.ofNat 64 ((2 ^ w - 1) * 2 ^ o)))
      { s with dev := (stored.reply p .ok [BitVec.ofNat 512 old]).atRest }) = true))) = true := by decide +kernel

theorem test_requestsExecuted_6 :
    (have s : State := (st { devR with pair := { enable := true, role := .standby, partnerEp := 5, entries := [(0, { region := 3, valid := true })] } })
     have n : Nat := 3
     have c : Nat := 7
     have r : Nat := 3
     have off : Nat := 256
     have p : Packet := ({ pkt5 .mirrorWrite with units := 1, data := [9], addr := 256, claim := 5 <<< 64 })
     have x : FlowRx := { flow := { src := 5, dst := 0, tc := 2 }, e := 4 }
     have g : Segment := ((dev0.context 7).segments.headD { base := 0, lines := 0, kind := .invalid })
     have u : Nat → Nat × Nat := (fun k => (0, 4 + k))
     have e : Dev := serving s.dev n p x c
     decide ((p.kind = .mirrorWrite) ∧
       (Served s.dev n p x c g .w e) ∧
       (g.kind = .region) ∧
       (r = g.targetId) ∧
       (off = g.targetOff + (p.addr.toNat - g.base)) ∧
       (e.pair.role = .standby) ∧
       (p.srcEp = e.pair.partnerEp) ∧
       (e.seenKey ≤ p.claim.toNat) ∧
       ((tget e.regions r).any (fun reg => !reg.window && !reg.migrating) = true) ∧
       (e.rebuilds = []) ∧
       (Lines e r off p.units u) ∧
       (Calm e p.units) ∧
       (True))) = true := by decide +kernel

theorem test_dropsAndReplies_1 :
    (have s : State := (st devR)
     have n : Nat := 3
     have p : Packet := (pkt5 .reserved)
     have x : FlowRx := { flow := { src := 5, dst := 0, tc := 2 }, e := 4 }
     decide ((p.kind = .reserved) ∧
       (NextOfFlow s.dev n p x) ∧
       (yields (exec (.malformedDrop n p) s) (s.onDev fun d => (inOrder d n p x).bump .rtMalformedDrop) = true))) = true := by decide +kernel

theorem test_dropsAndReplies_2 :
    (have s : State := (st devR)
     have n : Nat := 3
     have p : Packet := ({ pkt5 .writePartial with posted := true, addr := 3 })
     have x : FlowRx := { flow := { src := 5, dst := 0, tc := 2 }, e := 4 }
     decide ((p.kind = .writePartial) ∧
       (p.posted = true) ∧
       (badRequest p = true) ∧
       (NextOfFlow s.dev n p x) ∧
       (s.dev.rankEp p.job p.srcRank = some p.srcEp) ∧
       (yields (exec (.malformedDrop n p) s) (s.onDev fun d => (inOrder d n p x).bump .rtMalformedDrop) = true))) = true := by decide +kernel

theorem test_dropsAndReplies_3 :
    (have s : State := (st devR)
     have n : Nat := 3
     have p : Packet := ({ pkt5 .read with srcRank := 0 })
     have x : FlowRx := { flow := { src := 5, dst := 0, tc := 2 }, e := 4 }
     decide ((p.kind = .read) ∧
       (NextOfFlow s.dev n p x) ∧
       (s.dev.rankEp p.job p.srcRank ≠ some p.srcEp) ∧
       (yields (exec (.readRequest n p) s) (s.onDev fun d => (inOrder d n p x).bump .rtSpoof) = true))) = true := by decide +kernel

theorem test_dropsAndReplies_4 :
    (have s : State := (st devR)
     have n : Nat := 3
     have p : Packet := ({ pkt5 .write with addr := 3 })
     have x : FlowRx := { flow := { src := 5, dst := 0, tc := 2 }, e := 4 }
     decide ((p.kind = .write) ∧
       (p.posted = false) ∧
       (badRequest p = true) ∧
       (NextOfFlow s.dev n p x) ∧
       (s.dev.rankEp p.job p.srcRank = some p.srcEp) ∧
       (yields (exec (.writeRequest n p) s) (s.onDev fun d => (inOrder d n p x).reply p .format []) = true))) = true := by decide +kernel

theorem test_dropsAndReplies_5 :
    (have s : State := (st devR)
     have n : Nat := 3
     have p : Packet := (pkt5 .writeAck)
     have x : FlowRx := { flow := { src := 5, dst := 0, tc := 2 }, e := 4 }
     decide (((p.kind = .readReply ∨ p.kind = .writeAck ∨ p.kind = .atomicReply)) ∧
       (NextOfFlow s.dev n p x) ∧
       (s.dev.rt.reqs.find? (fun r => r.tag == p.reqTag && r.pkt.dstEp == p.srcEp) = none) ∧
       (yields (exec (.replyReceive n p) s) (s.onDev fun d => (inOrder d n p x).bump .rtUnmatched) = true))) = true := by decide +kernel

theorem test_dropsAndReplies_6 :
    (have s : State := (st { devR with rt := { devR.rt with reqs := [{ tag := 0, pkt := { kind := .write, srcEp := 0, dstEp := 5, flowSeq := 11 }, unit := (.mover 1), sentAt := 4999999000, port := 3, purpose := .huanik }] } })
     have n : Nat := 3
     have p : Packet := ({ pkt5 .writeAck with gen := 3 })
     have x : FlowRx := { flow := { src := 5, dst := 0, tc := 2 }, e := 4 }
     have r : OutReq := { tag := 0, pkt := { kind := .write, srcEp := 0, dstEp := 5, flowSeq := 11 }, unit := (.mover 1), sentAt := 4999999000, port := 3, purpose := .huanik }
     decide (((p.kind = .readReply ∨ p.kind = .writeAck ∨ p.kind = .atomicReply)) ∧
       (NextOfFlow s.dev n p x) ∧
       (s.dev.rt.reqs.find? (fun y => y.tag == p.reqTag && y.pkt.dstEp == p.srcEp) = some r) ∧
       (p.gen ≠ s.dev.domGen r.unit) ∧
       (yields (exec (.replyReceive n p) s) (s.onDev fun d =>
      ((inOrder d n p x).bump .rtUnmatched).bump (.rstStaleReplies (domKind r.unit))) = true))) = true := by decide +kernel

theorem test_dropsAndReplies_7 :
    (have s : State := (st { devR with rt := { devR.rt with reqs := [{ tag := 0, pkt := { kind := .write, srcEp := 0, dstEp := 5, flowSeq := 11 }, unit := (.mover 1), sentAt := 4999999000, port := 3, purpose := (.mirror 0) }] } })
     have n : Nat := 3
     have p : Packet := (pkt5 .writeAck)
     have x : FlowRx := { flow := { src := 5, dst := 0, tc := 2 }, e := 4 }
     have r : OutReq := { tag := 0, pkt := { kind := .write, srcEp := 0, dstEp := 5, flowSeq := 11 }, unit := (.mover 1), sentAt := 4999999000, port := 3, purpose := (.mirror 0) }
     have e : Dev := (inOrder s.dev n p x).answer r (statusOfCode p.status) p.data
     decide (((p.kind = .readReply ∨ p.kind = .writeAck ∨ p.kind = .atomicReply)) ∧
       (NextOfFlow s.dev n p x) ∧
       (s.dev.rt.reqs.find? (fun y => y.tag == p.reqTag && y.pkt.dstEp == p.srcEp) = some r) ∧
       (p.gen = s.dev.domGen r.unit) ∧
       ((inOrder s.dev n p x).answer r (statusOfCode p.status) p.data = e) ∧
       (e.again = false) ∧
       (e.winDone = []) ∧
       (yields (exec (.replyReceive n p) s) { s with dev := e.atRest } = true))) = true := by decide +kernel

theorem test_dropsAndReplies_8 :
    (have d : Dev := { devR with rt := { devR.rt with reqs := [{ tag := 0, pkt := { kind := .write, srcEp := 0, dstEp := 5, flowSeq := 11 }, unit := (.mover 1), sentAt := 4999999000, port := 3, purpose := (.mirror 0) }] } }
     have r : OutReq := { tag := 0, pkt := { kind := .write, srcEp := 0, dstEp := 5, flowSeq := 11 }, unit := (.mover 1), sentAt := 4999999000, port := 3, purpose := (.mirror 0) }
     have i : Nat := 0
     have st : Status := .ok
     have data : List Line := []
     decide ((r.purpose = .mirror i) ∧
       (d.answer r st data = (d.dropReq r.tag).mirrorAnswer i st))) = true := by decide +kernel

theorem test_dropsAndReplies_9 :
    (have d : Dev := { devR with rt := { devR.rt with reqs := [{ tag := 0, pkt := { kind := .write, srcEp := 0, dstEp := 5, flowSeq := 11 }, unit := (.mover 1), sentAt := 4999999000, port := 3, purpose := (.huanik) }] } }
     have r : OutReq := { tag := 0, pkt := { kind := .write, srcEp := 0, dstEp := 5, flowSeq := 11 }, unit := (.mover 1), sentAt := 4999999000, port := 3, purpose := (.huanik) }
     have st : Status := .ok
     have data : List Line := []
     decide ((r.purpose = .huanik) ∧
       (d.answer r st data = d.dropReq r.tag))) = true := by decide +kernel

theorem test_dropsAndReplies_10 :
    (have d : Dev := { devR with rt := { devR.rt with reqs := [{ tag := 0, pkt := { kind := .write, srcEp := 0, dstEp := 5, flowSeq := 11 }, unit := (.mover 1), sentAt := 4999999000, port := 3, purpose := (.moverRead 4 2) }] } }
     have r : OutReq := { tag := 0, pkt := { kind := .write, srcEp := 0, dstEp := 5, flowSeq := 11 }, unit := (.mover 1), sentAt := 4999999000, port := 3, purpose := (.moverRead 4 2) }
     have i : Nat := 4
     have o : Nat := 2
     have st : Status := .ok
     have data : List Line := []
     decide ((r.purpose = .moverRead i o) ∧
       (d.answer r st data = (d.dropReq r.tag).chainAnswer i r.tag (some o) st data))) = true := by decide +kernel

theorem test_noticesAndTimers_1 :
    (have s : State := (st { devR with rt := { devR.rt with reqs := [{ tag := 0, pkt := { kind := .write, srcEp := 0, dstEp := 5, flowSeq := 11 }, unit := (.mover 1), sentAt := 4999999000, port := 3, purpose := .huanik }], records := [{ flow := { src := 0, dst := 5, tc := 0 }, seq := 11, pkt := { kind := .write, srcEp := 0, dstEp := 5, flowSeq := 11 }, sentAt := 4999900000 }] } })
     have n : Nat := 3
     have p : Packet := ({ pkt5 .lost with tc := 7, flowTc := 7, flowSeq := 0, addr := (BitVec.ofNat 64 (11 + 2 ^ 32)) })
     have q : U24 := 11
     have v : SendRec := { flow := { src := 0, dst := 5, tc := 0 }, seq := 11, pkt := { kind := .write, srcEp := 0, dstEp := 5, flowSeq := 11 }, sentAt := 4999900000 }
     have r : OutReq := { tag := 0, pkt := { kind := .write, srcEp := 0, dstEp := 5, flowSeq := 11 }, unit := (.mover 1), sentAt := 4999999000, port := 3, purpose := .huanik }
     decide ((p.kind = .lost) ∧
       (Notice s.dev n p) ∧
       (noticeSeqs p = [q]) ∧
       (s.dev.rt.records.find? (fun y => y.flow == { src := s.dev.selfEp, dst := p.srcEp, tc := (noticeOf p).2.1 } && y.seq == q &&
      decide (s.dev.now ≤ y.sentAt + 200000)) = some v) ∧
       ((v.pkt.kind = .write ∨ v.pkt.kind = .read)) ∧
       (s.dev.rt.reqs.find? (fun y => y.tag == v.pkt.reqTag && y.pkt.dstEp == v.pkt.dstEp && y.pkt.flowSeq == v.seq) = some r) ∧
       (r.resent = false) ∧
       (((arrived s.dev n p).resend r).1 = true) ∧
       (yields (exec (.lostNoticeReceive n p) s) (s.onDev fun d => ((arrived d n p).resend r).2) = true))) = true := by decide +kernel

theorem test_noticesAndTimers_2 :
    (have s : State := (st { devR with rt := { devR.rt with reqs := [{ ({ tag := 0, pkt := { kind := .write, srcEp := 0, dstEp := 5, flowSeq := 11 }, unit := (.mover 1), sentAt := 4999999000, port := 3, purpose := .huanik } : OutReq) with resent := true }], records := [{ flow := { src := 0, dst := 5, tc := 0 }, seq := 11, pkt := { kind := .write, srcEp := 0, dstEp := 5, flowSeq := 11 }, sentAt := 4999900000 }] } })
     have n : Nat := 3
     have p : Packet := ({ pkt5 .lost with tc := 7, flowTc := 7, flowSeq := 0, addr := (BitVec.ofNat 64 (11 + 2 ^ 32)) })
     have q : U24 := 11
     have v : SendRec := { flow := { src := 0, dst := 5, tc := 0 }, seq := 11, pkt := { kind := .write, srcEp := 0, dstEp := 5, flowSeq := 11 }, sentAt := 4999900000 }
     have r : OutReq := ({ ({ tag := 0, pkt := { kind := .write, srcEp := 0, dstEp := 5, flowSeq := 11 }, unit := (.mover 1), sentAt := 4999999000, port := 3, purpose := .huanik } : OutReq) with resent := true })
     have e : Dev := (arrived s.dev n p).answer r .timeout []
     decide ((p.kind = .lost) ∧
       (Notice s.dev n p) ∧
       (noticeSeqs p = [q]) ∧
       (s.dev.rt.records.find? (fun y => y.flow == { src := s.dev.selfEp, dst := p.srcEp, tc := (noticeOf p).2.1 } && y.seq == q &&
      decide (s.dev.now ≤ y.sentAt + 200000)) = some v) ∧
       ((v.pkt.kind = .write ∨ v.pkt.kind = .read)) ∧
       (s.dev.rt.reqs.find? (fun y => y.tag == v.pkt.reqTag && y.pkt.dstEp == v.pkt.dstEp && y.pkt.flowSeq == v.seq) = some r) ∧
       (r.resent = true) ∧
       ((arrived s.dev n p).answer r .timeout [] = e) ∧
       (e.again = false) ∧
       (e.winDone = []) ∧
       (yields (exec (.lostNoticeReceive n p) s) { s with dev := e.atRest } = true))) = true := by decide +kernel

theorem test_noticesAndTimers_3 :
    (have s : State := (st devR)
     have n : Nat := 3
     have p : Packet := ({ pkt5 .lost with tc := 7, flowTc := 7, flowSeq := 0, addr := (BitVec.ofNat 64 (11 + 2 ^ 32)) })
     decide ((p.kind = .lost) ∧
       (Notice s.dev n p) ∧
       (noticeSeqs p ≠ []) ∧
       (s.dev.rt.records = []) ∧
       (yields (exec (.lostNoticeReceive n p) s) (s.onDev fun d => (arrived d n p).bump .rtNoticeIgnored) = true))) = true := by decide +kernel

theorem test_noticesAndTimers_4 :
    (have s : State := (st { devR with rt := { devR.rt with reqs := [{ tag := 0, pkt := { kind := .atomic, srcEp := 0, dstEp := 5, flowSeq := 11 }, unit := (.mover 1), sentAt := 4999999000, port := 3, purpose := .huanik }] } })
     have n : Nat := 3
     have p : Packet := ({ pkt5 .replyLost with tc := 7, flowTc := 7, flowSeq := 0, addr := (BitVec.ofNat 64 (11 + 2 ^ 32)) })
     have r : OutReq := { tag := 0, pkt := { kind := .atomic, srcEp := 0, dstEp := 5, flowSeq := 11 }, unit := (.mover 1), sentAt := 4999999000, port := 3, purpose := .huanik }
     have e : Dev := (arrived s.dev n p).answer r .timeout []
     decide ((p.kind = .replyLost) ∧
       (Notice s.dev n p) ∧
       (s.dev.rt.reqs.find? (fun y => y.tag == p.reqTag && y.pkt.dstEp == p.srcEp && y.pkt.gen == p.gen) = some r) ∧
       (r.pkt.kind = .atomic) ∧
       ((arrived s.dev n p).answer r .timeout [] = e) ∧
       (e.again = false) ∧
       (e.winDone = []) ∧
       (yields (exec (.replyLostReceive n p) s) { s with dev := e.atRest } = true))) = true := by decide +kernel

theorem test_noticesAndTimers_5 :
    (have s : State := (st devR)
     have n : Nat := 3
     have p : Packet := ({ pkt5 .skip with tc := 7, flowTc := 7, flowSeq := 0, addr := (BitVec.ofNat 64 (4 + 2 * 2 ^ 24 + 2 ^ 32)) })
     have x : FlowRx := { flow := { src := 5, dst := 0, tc := 2 }, e := 4 }
     decide ((p.kind = .skip) ∧
       (Notice s.dev n p) ∧
       (s.dev.flow { src := p.srcEp, dst := s.dev.selfEp, tc := (noticeOf p).2.1 } = some x) ∧
       (noticeSeqs p = [x.e]) ∧
       (x.held = []) ∧
       (x.gone = []) ∧
       (yields (exec (.skipReceive n p) s) (s.onDev fun d =>
      ((arrived d n p).putFlow { x with e := x.e + 1, missing := x.missing.filter (fun m => m.1 != x.e) }).bump .rtLostDeclared) = true))) = true := by decide +kernel

theorem test_noticesAndTimers_6 :
    (have s : State := st { devR with rt := { devR.rt with flows := [{ flow := { src := 5, dst := 0, tc := 2 }, e := 4, missing := [(4, 4999999000)], held := [{ port := 3, pkt := { pkt5 .reserved with flowSeq := 5 }, part := none }] }] } }
     have f : FlowId := { src := 5, dst := 0, tc := 2 }
     have x : FlowRx := { flow := { src := 5, dst := 0, tc := 2 }, e := 4, missing := [(4, 4999999000)], held := [{ port := 3, pkt := { pkt5 .reserved with flowSeq := 5 }, part := none }] }
     have t : Nat := 4999999000
     have q : HeldPkt := { port := 3, pkt := { pkt5 .reserved with flowSeq := 5 }, part := none }
     have e : Dev := (((((ready s.dev).reach (t + (s.dev.param 0x0022 0).toNat * 1000)).putFlow
      { x with e := x.e + 2, held := [], missing := [] }).bump .rtLostDeclared).sendBack (numberNotice .lost f.src f.tc x.e 1)).deliver
        q.port q.pkt
     decide ((s.dev.flow f = some x) ∧
       (x.missing = [(x.e, t)]) ∧
       (x.held = [q]) ∧
       (q.pkt.flowSeq = x.e + 1) ∧
       (x.gone = []) ∧
       (((((((ready s.dev).reach (t + (s.dev.param 0x0022 0).toNat * 1000)).putFlow
      { x with e := x.e + 2, held := [], missing := [] }).bump .rtLostDeclared).sendBack (numberNotice .lost f.src f.tc x.e 1)).deliver
        q.port q.pkt) = e) ∧
       (e.again = false) ∧
       (e.winDone = []) ∧
       (yields (exec (.lossDeclaration f) s) { s with dev := e.atRest } = true))) = true := by decide +kernel

theorem test_noticesAndTimers_7 :
    (have s : State := (st { devR with rt := { devR.rt with reqs := [{ tag := 0, pkt := { kind := .write, srcEp := 0, dstEp := 5, flowSeq := 11 }, unit := (.mover 1), sentAt := 4999999000, port := 3, purpose := .huanik }] } })
     have t : Nat := 0
     have r : OutReq := { tag := 0, pkt := { kind := .write, srcEp := 0, dstEp := 5, flowSeq := 11 }, unit := (.mover 1), sentAt := 4999999000, port := 3, purpose := .huanik }
     have e : Dev := ((ready s.dev).reach (r.sentAt + (s.dev.param 0x0023 0).toNat * 1000)).answer r .timeout []
     decide ((s.dev.rt.reqs.find? (fun y => y.tag == t) = some r) ∧
       (((ready s.dev).reach (r.sentAt + (s.dev.param 0x0023 0).toNat * 1000)).answer r .timeout [] = e) ∧
       (e.again = false) ∧
       (e.winDone = []) ∧
       (yields (exec (.requestTimeout t) s) { s with dev := e.atRest } = true))) = true := by decide +kernel

theorem test_noticesAndTimers_8 :
    (have s : State := (st { devR with rt := { devR.rt with reqs := [{ tag := 0, pkt := { kind := .write, srcEp := 0, dstEp := 5, flowSeq := 11 }, unit := (.mover 1), sentAt := 4999999000, port := 3, purpose := .huanik }], records := [{ flow := { src := 0, dst := 5, tc := 0 }, seq := 11, pkt := { kind := .write, srcEp := 0, dstEp := 5, flowSeq := 11 }, sentAt := 4999900000 }] } })
     have f : FlowId := { src := 0, dst := 5, tc := 0 }
     have q : U24 := 11
     have v : SendRec := { flow := { src := 0, dst := 5, tc := 0 }, seq := 11, pkt := { kind := .write, srcEp := 0, dstEp := 5, flowSeq := 11 }, sentAt := 4999900000 }
     decide ((s.dev.rt.records.find? (fun y => y.flow == f && y.seq == q) = some v) ∧
       (yields (exec (.sendRecordExpiry f q) s) (s.onDev fun d => (d.reach (v.sentAt + 200000)).modRt fun y =>
      { y with records := y.records.filter (fun z => z != v) }) = true))) = true := by decide +kernel

theorem test_transitAndSpray_1 :
    (have s : State := (st { devR with params := [(0x0003 * 65536, 1)], ports := [(3, { state := .active }), (4, { state := .active })], rt := { v0 := { state := .active, routes := [(6, { spray := 0x18, escapePort := 3 })] }, rotate := 4 } })
     have n : Nat := 3
     have m : Nat := 4
     have p : Packet := { pkt5 .read with dstEp := 6 }
     have r : Route := { spray := 0x18, escapePort := 3 }
     decide ((p.dstEp ≠ s.dev.selfEp) ∧
       (s.dev.mayTake n p = true) ∧
       (s.dev.transitOn = true) ∧
       (0 < p.hops) ∧
       ((s.dev.rt.version p.epoch).state ≠ .invalid) ∧
       (tget (s.dev.rt.version p.epoch).routes p.dstEp = some r) ∧
       (s.dev.routePort r p.tc = some m) ∧
       (yields (exec (.transitForward n p) s) (s.onDev fun d =>
      (((d.grantLines n p).takeRx n p).modRt fun y => { y with lastPort := tset y.lastPort p.srcEp n }).enqueue m
        { p with hops := p.hops - 1 }) = true))) = true := by decide +kernel

theorem test_transitAndSpray_2 :
    (have s : State := (st { devR with params := [(0x0003 * 65536, 1)], ports := [(3, { state := .active }), (4, { state := .active })], rt := { v0 := { state := .active, routes := [(6, { spray := 0x18, escapePort := 3 })] }, rotate := 4 } })
     have n : Nat := 3
     have p : Packet := { pkt5 .read with dstEp := 6, hops := 0 }
     decide ((p.dstEp ≠ s.dev.selfEp) ∧
       (s.dev.mayTake n p = true) ∧
       (s.dev.transitOn = true) ∧
       (p.hops = 0) ∧
       (yields (exec (.transitForward n p) s) (s.onDev fun d =>
      (((d.grantLines n p).takeRx n p).modRt fun y => { y with lastPort := tset y.lastPort p.srcEp n }).bump .rtHopDrop) = true))) = true := by decide +kernel

theorem test_transitAndSpray_3 :
    (have s : State := (st devR)
     have n : Nat := 3
     have p : Packet := { pkt5 .read with dstEp := 6 }
     decide ((p.dstEp ≠ s.dev.selfEp) ∧
       (s.dev.mayTake n p = true) ∧
       (s.dev.transitOn = false) ∧
       (yields (exec (.transitForward n p) s) (s.onDev fun d =>
      (((d.grantLines n p).takeRx n p).modRt fun y => { y with lastPort := tset y.lastPort p.srcEp n }).bump .rtTransitDrop) = true))) = true := by decide +kernel

theorem test_transitAndSpray_4 :
    (have s : State := st { devR with ports := [(4, { state := .active, egress := [{ p := { pkt5 .read with dstEp := 6 }, at_ := 4999999000 }], stallSince := [(2, (4999990000, 4999990000))] }), (3, { state := .active })], rt := { v0 := { state := .active, routes := [(6, { spray := 0x18, escapePort := 3 })] } } }
     have n : Nat := 4
     have tc : Nat := 2
     have e : EgressPkt := { p := { pkt5 .read with dstEp := 6 }, at_ := 4999999000 }
     have r : Route := { spray := 0x18, escapePort := 3 }
     have w : Nat × Nat := (4999990000, 4999990000)
     decide (((s.dev.port n).egress.find? (fun y => y.p.tc == tc) = some e) ∧
       (tget (s.dev.port n).stallSince tc = some w) ∧
       (tc ≠ 7) ∧
       (e.p.srcEp ≠ s.dev.selfEp) ∧
       ((s.dev.port n).hasCredit e.p = false) ∧
       (tget (s.dev.rt.version e.p.epoch).routes e.p.dstEp = some r) ∧
       (s.dev.portActive r.escapePort = true) ∧
       (yields (exec (.escapeToTc7 n tc) s) (s.onDev fun d =>
      ((((((d.reach (w.1 + 20000)).settleWait n tc).modPort n fun y =>
          { y with egress := y.egress.erase e, stallSince := terase y.stallSince tc }).settleWait n tc).enqueue r.escapePort
        { e.p with tc := 7, escaped := true }).bump (.swEscaped n))) = true))) = true := by decide +kernel

theorem test_transitAndSpray_5 :
    (have s : State := st { devR with ports := [(3, { state := .active, latSum := 300, latCount := 3 }), (4, { state := .active, latSum := 60, latCount := 1 })], rt := { v0 := { state := .active, routes := [(6, { spray := 0x18, escapePort := 3 })] }, sprays := [{ spray := 0x18, port := 3, slow := 1 }] } }
     have v : U32 := 0x18
     have known : List (Nat × Nat) := (measuredRuns s.dev v).1
     have runs : List SprayRun := (measuredRuns s.dev v).2
     have ties : List Nat := [4, 3]
     decide ((s.dev.rt.spraySets = [v]) ∧
       (measuredRuns s.dev v = (known, runs)) ∧
       ((∀ y ∈ runs, y.excluded = false ∧ y.slow < 2)) ∧
       (yields (exec (.sprayLatencyWindow ties) s) (s.onDev fun d => ((restarted ((d.reach (d.rt.windowAt + 64000)).settleExcluded.modRt fun y =>
      { y with sprays := runs ++ y.sprays.filter (fun z => z.spray != v) })).modRt fun y => { y with windowAt := max d.now (d.rt.windowAt + 64000) }).settleExcluded) = true))) = true := by decide +kernel

theorem test_transitAndSpray_6 :
    (have s : State := st { devR with ports := [(3, { state := .active, latSum := 900, latCount := 3 }), (4, { state := .active, latSum := 60, latCount := 1 }), (5, { state := .active, latSum := 100, latCount := 2 })], rt := { v0 := { state := .active, routes := [(6, { spray := 0x38, escapePort := 3 })] }, sprays := [{ spray := 0x38, port := 3, slow := 1 }] } }
     have v : U32 := 0x38
     have known : List (Nat × Nat) := (measuredRuns s.dev v).1
     have x : SprayRun := (measuredRuns s.dev v).2.headD { spray := 0, port := 0 }
     have b : List SprayRun := []
     have c : List SprayRun := (measuredRuns s.dev v).2.tail
     have ties : List Nat := [5, 3]
     decide ((s.dev.rt.spraySets = [v]) ∧
       (measuredRuns s.dev v = (known, b ++ [x] ++ c)) ∧
       ((∀ y ∈ b ++ c, y.excluded = false ∧ y.slow < 2)) ∧
       (x.excluded = false) ∧
       (2 ≤ x.slow) ∧
       (b ++ c ≠ []) ∧
       (yields (exec (.sprayLatencyWindow ties) s) (s.onDev fun d =>
      ((restarted (((d.reach (d.rt.windowAt + 64000)).settleExcluded.modRt fun y =>
        { y with sprays := b ++ [{ x with excluded := true, good := 0 }] ++ c ++ y.sprays.filter (fun z => z.spray != v) }).raise
        { code := .swSlow, unit := some (.swPort, x.port), detail0 := some (BitVec.ofNat 64 x.slow) })).modRt
          fun y => { y with windowAt := max d.now (d.rt.windowAt + 64000) }).settleExcluded) = true))) = true := by decide +kernel

theorem test_gatesTelemetryAndRoutes_1 :
    (have s : State := (st ({ devP { state := .active, gateOn := true } with params := [(0x0025 * 65536 + 3, 1), (0x0027 * 65536 + 384, 1000 + 5 * 2 ^ 20), (0x0027 * 65536 + 385, 2000 + 5 * 2 ^ 20)], now := 3000000500 }))
     have n : Nat := 3
     have e : Nat := 1000
     have x : Nat × Nat := (1000, 5)
     decide (((s.dev.port n).gateOn = true) ∧
       (entryAt (s.dev.schedule n (s.dev.port n).gateB) 0
      (phaseAt s.dev.now (s.dev.port n).gateOffset (cycleOf (s.dev.schedule n (s.dev.port n).gateB))) = some (x, e)) ∧
       (e ≠ cycleOf (s.dev.schedule n (s.dev.port n).gateB)) ∧
       (yields (exec (.gateEntryBoundary n) s) (s.onDev fun d => (d.reach (d.now + (e -
      phaseAt d.now (d.port n).gateOffset (cycleOf (d.schedule n (d.port n).gateB))))).settleWaits n) = true))) = true := by decide +kernel

theorem test_gatesTelemetryAndRoutes_2 :
    (have s : State := (st ({ devP { state := .active, gateOn := true } with params := [(0x0025 * 65536 + 3, 2), (0x0027 * 65536 + 384, 1000 + 5 * 2 ^ 20), (0x0027 * 65536 + 385, 2000 + 5 * 2 ^ 20)], now := 3000002500 }))
     have n : Nat := 3
     have e : Nat := 3000
     have x : Nat × Nat := (2000, 5)
     decide (((s.dev.port n).gateOn = true) ∧
       (entryAt (s.dev.schedule n (s.dev.port n).gateB) 0
      (phaseAt s.dev.now (s.dev.port n).gateOffset (cycleOf (s.dev.schedule n (s.dev.port n).gateB))) = some (x, e)) ∧
       (e = cycleOf (s.dev.schedule n (s.dev.port n).gateB)) ∧
       (yields (exec (.gateEntryBoundary n) s) (s.onDev fun d => (((d.reach (d.now + (e -
      phaseAt d.now (d.port n).gateOffset (cycleOf (d.schedule n (d.port n).gateB))))).settleWaits n).modPort n fun y =>
        { y with gateOn := bit (d.param 0x0025 n) 0, gateB := bit (d.param 0x0025 n) 1
                 gateOffset := (d.param 0x0026 n).toNat }).settleWaits n) = true))) = true := by decide +kernel

theorem test_gatesTelemetryAndRoutes_3 :
    (have s : State := (st { devP { state := .active } with params := [(0x0025 * 65536 + 3, 3)] })
     have n : Nat := 3
     decide (((s.dev.port n).gateOn = false) ∧
       (bit (s.dev.param 0x0025 n) 0 = true) ∧
       (s.dev.schedule n (bit (s.dev.param 0x0025 n) 1) = []) ∧
       (yields (exec (.gateEntryBoundary n) s) (s.onDev fun d => ((d.settleWaits n).modPort n fun y =>
      { y with gateOn := true, gateB := bit (d.param 0x0025 n) 1, gateOffset := (d.param 0x0026 n).toNat }).settleWaits n) = true))) = true := by decide +kernel

theorem test_gatesTelemetryAndRoutes_4 :
    (have s : State := (st (devP { state := .active, egress := [{ p := { kind := .write, tc := 2, units := 3 }, at_ := 4999999000 }] }))
     have n : Nat := 3
     have e : Nat → Option EgressPkt := fun t => (s.dev.port n).egress.find? (fun y => y.p.tc == t)
     decide ((e 2 = (s.dev.port n).egress.head?) ∧
       (yields (exec (.telemetrySample n) s) (s.onDev fun d =>
      let t := max d.now ((d.port n).sampledAt + 1000)
      (List.range 8).foldl (fun f k =>
        (f.bump (.swQdepthHist n k (if (e k).isSome then depthBucket ((d.port n).queuedUnits k) else 0))).bump
          (.swQdelayHist n k (((e k).map (fun y => delayBucket (t - y.at_))).getD 0)))
        (({ d with now := t } : Dev).modPort n fun y => { y with sampledAt := t })) = true))) = true := by decide +kernel

theorem test_gatesTelemetryAndRoutes_5 :
    (have s : State := (st devR)
     have h : CmdHdr := fmH
     have v : Bool := true
     have es : List RouteIn := [{ dest := 9, spray := 1, escapePort := 0, valid := true }]
     decide ((Accepts s h { device := true, fm := true } none) ∧
       (es.any (fun e => e.rsvd || decide (65536 ≤ e.dest ∨ 32 ≤ e.escapePort)) = false) ∧
       ((s.dev.rt.version v).state = .invalid) ∧
       (yields (exec (.routeLoad h v.toNat es) s) (answered s h 0x0304 .ok [] fun d => d.modRt fun y => y.setVersion v
      { state := .loaded, routes := es.foldl (fun t e =>
          if e.valid then tset t e.dest { spray := e.spray, escapePort := e.escapePort } else terase t e.dest) [] }) = true))) = true := by decide +kernel

theorem test_gatesTelemetryAndRoutes_6 :
    (have s : State := (st { devR with rt := { devR.rt with v1 := { state := .loaded } } })
     have h : CmdHdr := fmH
     have v : Bool := true
     decide ((Accepts s h { device := true, fm := true } none) ∧
       ((s.dev.rt.version v).state = .loaded) ∧
       ((s.dev.rt.version (!v)).state = .active) ∧
       (yields (exec (.routeFlip h v.toNat) s) (answered s h 0x0305 .ok [] fun d => (d.settleExcluded.modRt fun y =>
      (y.setVersion v { y.version v with state := .active }).setVersion (!v)
        { y.version (!v) with state := .draining }).settleExcluded) = true))) = true := by decide +kernel

theorem test_gatesTelemetryAndRoutes_7 :
    (have s : State := st { devR with rt := { devR.rt with v0 := {}, v1 := { state := .loaded } } }
     have h : CmdHdr := fmH
     have v : Bool := true
     decide ((Accepts s h { device := true, fm := true } none) ∧
       ((s.dev.rt.version v).state = .loaded) ∧
       ((s.dev.rt.version (!v)).state = .invalid) ∧
       (yields (exec (.routeFlip h v.toNat) s) (answered s h 0x0305 .ok [] fun d => (d.settleExcluded.modRt fun y =>
      y.setVersion v { y.version v with state := .active }).settleExcluded) = true))) = true := by decide +kernel

theorem test_gatesTelemetryAndRoutes_8 :
    (have s : State := (st { devR with rt := { devR.rt with v1 := { state := .draining } } })
     have h : CmdHdr := fmH
     have v : Bool := true
     decide ((Accepts s h { device := true, fm := true } none) ∧
       ((s.dev.rt.version v).state = .draining) ∧
       (s.dev.ports.any (fun y => y.2.drain v != 0) = false) ∧
       (yields (exec (.routeRetire h v.toNat) s) (answered s h 0x0306 .ok [] fun d =>
      (d.settleExcluded.modRt fun y => y.setVersion v {}).settleExcluded) = true))) = true := by decide +kernel

theorem test_mailboxAttach_1 :
    (have s : State := ({ dev := dev0, mbx := { owned := true, epoch := 4, hostSeq := 7 } })
     have h : Nat := 2
     decide ((s.hasMailbox h = true) ∧
       (yields (exec (.mbxAttach h) s) ({ s with mbx := { s.mbx with epoch := s.mbx.epoch + 1, ownerHead := h, owned := true } }.onDev fun d =>
      d.raise { code := .driverAttach, detail0 := some (BitVec.ofNat 64 h), detail1 := some (BitVec.ofNat 64 s.mbx.ownerHead) }) = true))) = true := by decide +kernel

theorem test_mailboxAttach_2 :
    (have s : State := ({ dev := dev0, mbx := { owned := true, epoch := 4, hostSeq := 7 } })
     have h : Nat := 2
     have v : U64 := 5
     decide ((s.hasMailbox h = true) ∧
       (yields (exec (.registerWrite h 0x020 8 (some v)) s) ({ s with
      mbx := { s.mbx with epoch := s.mbx.epoch + 1, ownerHead := h, owned := true } }.onDev fun d =>
      d.raise { code := .driverAttach, detail0 := some (BitVec.ofNat 64 h), detail1 := some (BitVec.ofNat 64 s.mbx.ownerHead) }) = true))) = true := by decide +kernel

theorem test_mailboxRings_1 :
    (have s : State := ({ dev := dev0, mbx := { owned := true, epoch := 4, hostSeq := 3, devSeq := 3, rspHead := 1 } })
     have h : Nat := 0
     have n : U32 := 257
     have e : U16 := 4
     decide ((s.hasMailbox h = true) ∧
       (s.mbx.ownerHead = h) ∧
       (s.mbx.owned = true) ∧
       (e = s.mbx.epoch) ∧
       ((n - s.mbx.hostSeq).toNat ≤ 256) ∧
       ((n - s.mbx.rspHead).toNat ≤ 256) ∧
       (yields (exec (.mbxCmdDoorbell h n e) s) ({ s with mbx := { s.mbx with hostSeq := n } }.onDev fun d => d) = true))) = true := by decide +kernel

theorem test_mailboxRings_2 :
    (have s : State := ({ dev := dev0, mbx := { owned := true, epoch := 4, hostSeq := 3, devSeq := 3, rspHead := 1 } })
     have h : Nat := 0
     have n : U32 := 258
     have e : U16 := 4
     decide ((s.hasMailbox h = true) ∧
       (s.mbx.ownerHead = h) ∧
       (s.mbx.owned = true) ∧
       (e = s.mbx.epoch) ∧
       ((256 < (n - s.mbx.hostSeq).toNat ∨ 256 < (n - s.mbx.rspHead).toNat)) ∧
       (yields (exec (.mbxCmdDoorbell h n e) s) ({ s with mbx := { s.mbx with refused := s.mbx.refused + 1 } }.onDev fun d => d) = true))) = true := by decide +kernel

theorem test_mailboxRings_3 :
    (have s : State := ({ dev := dev0, mbx := { owned := true, epoch := 4, hostSeq := 3, devSeq := 3, rspHead := 1 } })
     have h : Nat := 0
     have n : U32 := 3
     have e : U16 := 4
     decide ((s.hasMailbox h = true) ∧
       (s.mbx.ownerHead = h) ∧
       (s.mbx.owned = true) ∧
       (e = s.mbx.epoch) ∧
       ((n - s.mbx.rspHead).toNat ≤ 256) ∧
       ((s.mbx.devSeq - n).toNat ≤ 256) ∧
       (yields (exec (.mbxRspDoorbell h n e) s) ({ s with mbx := { s.mbx with rspHead := n } }.onDev fun d => d) = true))) = true := by decide +kernel

theorem test_mailboxRings_4 :
    (have s : State := ({ dev := dev0, mbx := { owned := true, epoch := 4, hostSeq := 3, devSeq := 3, rspHead := 1 } })
     have h : Nat := 0
     have n : U32 := 4
     have e : U16 := 4
     decide ((s.hasMailbox h = true) ∧
       (s.mbx.ownerHead = h) ∧
       (s.mbx.owned = true) ∧
       (e = s.mbx.epoch) ∧
       ((256 < (n - s.mbx.rspHead).toNat ∨ 256 < (s.mbx.devSeq - n).toNat)) ∧
       (yields (exec (.mbxRspDoorbell h n e) s) ({ s with mbx := { s.mbx with refused := s.mbx.refused + 1 } }.onDev fun d => d) = true))) = true := by decide +kernel

theorem test_mailboxRings_5 :
    (have s : State := ({ dev := { dev0 with evt := { tail := 9, head := 2, unreported := 0 } }, mbx := { owned := true, epoch := 4, hostSeq := 3 } })
     have h : Nat := 0
     have n : U32 := 9
     have e : U16 := 4
     decide ((s.hasMailbox h = true) ∧
       (s.mbx.ownerHead = h) ∧
       (s.mbx.owned = true) ∧
       (e = s.mbx.epoch) ∧
       ((n - s.dev.evt.head).toNat ≤ 4096) ∧
       ((s.dev.evt.tail - n).toNat ≤ 4096) ∧
       (s.dev.evt.unreported = 0) ∧
       (yields (exec (.mbxEvtDoorbell h n e) s) (s.onDev fun d => { d with evt := { d.evt with head := n } }) = true))) = true := by decide +kernel

theorem test_mailboxRings_6 :
    (have s : State := ({ dev := { dev0 with evt := { tail := 9, head := 2, unreported := 6 } }, mbx := { owned := true, epoch := 4, hostSeq := 3 } })
     have h : Nat := 0
     have n : U32 := 5
     have e : U16 := 4
     decide ((s.hasMailbox h = true) ∧
       (s.mbx.ownerHead = h) ∧
       (s.mbx.owned = true) ∧
       (e = s.mbx.epoch) ∧
       ((n - s.dev.evt.head).toNat ≤ 4096) ∧
       ((s.dev.evt.tail - n).toNat ≤ 4096) ∧
       (s.dev.evt.unreported ≠ 0) ∧
       (n ≠ s.dev.evt.head) ∧
       (yields (exec (.mbxEvtDoorbell h n e) s) (s.onDev fun d => { d with evt := { d.evt with head := n, unreported := 0 } }.putDevEvent
      { code := .eventsLost, detail0 := some (BitVec.ofNat 64 d.evt.unreported) }) = true))) = true := by decide +kernel

theorem test_mailboxRings_7 :
    (have s : State := ({ dev := { dev0 with evt := { tail := 9, head := 2, unreported := 0 } }, mbx := { owned := true, epoch := 4, hostSeq := 3 } })
     have h : Nat := 0
     have n : U32 := 10
     have e : U16 := 4
     decide ((s.hasMailbox h = true) ∧
       (s.mbx.ownerHead = h) ∧
       (s.mbx.owned = true) ∧
       (e = s.mbx.epoch) ∧
       ((4096 < (n - s.dev.evt.head).toNat ∨ 4096 < (s.dev.evt.tail - n).toNat)) ∧
       (yields (exec (.mbxEvtDoorbell h n e) s) ({ s with mbx := { s.mbx with refused := s.mbx.refused + 1 } }.onDev fun d => d) = true))) = true := by decide +kernel

theorem test_mailboxRings_8 :
    (have s : State := ({ dev := dev0, mbx := { owned := true, epoch := 4, hostSeq := 3 } })
     have h : Nat := 2
     have n : U32 := 0
     have e : U16 := 4
     decide ((s.hasMailbox h = true) ∧
       ((s.mbx.ownerHead ≠ h ∨ s.mbx.owned = false ∨ e ≠ s.mbx.epoch)) ∧
       (yields (exec (.mbxCmdDoorbell h n e) s) ({ s with mbx := { s.mbx with fenced := s.mbx.fenced + 1 } }.onDev fun d => d) = true))) = true := by decide +kernel

theorem test_mailboxRings_9 :
    (have s : State := ({ dev := dev0, mbx := { owned := true, epoch := 4, hostSeq := 3 } })
     have h : Nat := 2
     have n : U32 := 0
     have e : U16 := 4
     decide ((s.hasMailbox h = true) ∧
       ((s.mbx.ownerHead ≠ h ∨ s.mbx.owned = false ∨ e ≠ s.mbx.epoch)) ∧
       (yields (exec (.mbxRspDoorbell h n e) s) ({ s with mbx := { s.mbx with fenced := s.mbx.fenced + 1 } }.onDev fun d => d) = true))) = true := by decide +kernel

theorem test_mailboxRings_10 :
    (have s : State := ({ dev := dev0, mbx := { owned := true, epoch := 4, hostSeq := 3 } })
     have h : Nat := 0
     have n : U32 := 0
     have e : U16 := 5
     decide ((s.hasMailbox h = true) ∧
       ((s.mbx.ownerHead ≠ h ∨ s.mbx.owned = false ∨ e ≠ s.mbx.epoch)) ∧
       (yields (exec (.mbxEvtDoorbell h n e) s) ({ s with mbx := { s.mbx with fenced := s.mbx.fenced + 1 } }.onDev fun d => d) = true))) = true := by decide +kernel

theorem test_mailboxRings_11 :
    (have s : State := ({ dev := dev0, mbx := { owned := true, epoch := 4, hostSeq := 3 } })
     have h : Nat := 2
     have v : U64 := 13
     decide ((s.hasMailbox h = true) ∧
       (yields (exec (.registerWrite h 0x098 8 (some v)) s) (s.onDev fun d => { d with intEnable := v.truncate 3 }) = true))) = true := by decide +kernel

theorem test_mailboxRings_12 :
    (have s : State := ({ dev := dev0, mbx := { owned := true, epoch := 4, hostSeq := 3 } })
     have h : Nat := 2
     have off : Nat := 0x20
     have len : Nat := 4
     have v : U64 := 13
     decide ((s.hasMailbox h = true) ∧
       (len ≠ 8) ∧
       (yields (exec (.registerWrite h off len (some v)) s) (s.onDev fun d => d) = true))) = true := by decide +kernel

theorem test_mailboxRings_13 :
    (have s : State := ({ dev := dev0, mbx := { owned := true, epoch := 4, hostSeq := 3 } })
     have h : Nat := 2
     have off : Nat := 0x20
     decide ((s.hasMailbox h = true) ∧
       (off % 8 = 0) ∧
       (yields (exec (.registerWrite h off 8 none) s) (s.onDev fun d => d.emit (.bar4Data h off (s.bar4Read off))) = true))) = true := by decide +kernel

theorem test_mailboxRings_14 :
    (have s : State := { dev := dev0, mbx := { owned := true, epoch := 4, hostSeq := 3 } }
     decide (((([0x020, 0x040, 0x048, 0x050].all (fun off => s.bar4Read off == 0)) = true ∧ s.bar4Read 0x060 = s.mbx.hostSeq.setWidth 64 ∧ s.bar4Read 0x068 = s.mbx.devSeq.setWidth 64 ∧
    s.bar4Read 0x010 = s.dev.sys.status ∧ s.bar4Read 0x098 = s.dev.intEnable.setWidth 64)))) = true := by decide +kernel

theorem test_mailboxRings_15 :
    (have s : State := ({ dev := dev0, mbx := { owned := true, epoch := 4, hostSeq := 3 } })
     have h : Nat := 0
     have off : Nat := 0x10FFFF
     have b : Byte := 13
     decide ((s.hasMailbox h = true) ∧
       (s.mbx.ownerHead = h) ∧
       (s.mbx.owned = true) ∧
       (0x100000 ≤ off) ∧
       (off < 0x110000) ∧
       (yields (exec (.mailboxRingWrite h off [b]) s) (s.onDev fun d => { d with sram := memWrite d.sram off b }) = true))) = true := by decide +kernel

theorem test_mailboxRings_16 :
    (have s : State := ({ dev := dev0, mbx := { owned := true, epoch := 4, hostSeq := 3 } })
     have h : Nat := 2
     have off : Nat := 0x100000
     have xs : List Byte := [1, 2]
     decide ((s.hasMailbox h = true) ∧
       (0x100000 ≤ off) ∧
       ((s.mbx.ownerHead ≠ h ∨ s.mbx.owned = false)) ∧
       (yields (exec (.mailboxRingWrite h off xs) s) ({ s with mbx := { s.mbx with fenced := s.mbx.fenced + 1 } }.onDev fun d => d) = true))) = true := by decide +kernel

theorem test_mailboxRings_17 :
    (have s : State := (st dev0)
     decide ((s.dev.sys.stage = .running) ∧
       (s.dev.coreWrites = []) ∧
       (s.dev.lostMeta = []) ∧
       (yields (exec .mbxHeartbeatTick s) (s.onDev fun d =>
      let e := d.reach (d.sys.heartbeatAt + 1000000)
      { e with heartbeat := e.heartbeat + 1, sys := { e.sys with heartbeatAt := e.now } }) = true))) = true := by decide +kernel

theorem test_mailboxRings_18 :
    (have d : Dev := { dev0 with hk := { dev0.hk with paceUs := 50 } }
     have p : Nat := 3
     decide ((d.hk.paceUs ≠ 0) ∧
       (d.nextPace p % (d.hk.paceUs * 1000) = 0 ∧ d.now ≤ d.nextPace p))) = true := by decide +kernel

theorem test_mailboxRings_19 :
    (have s : State := (st { dev0 with hk := { paceUs := 50 } })
     have p : Nat := 1
     decide ((s.dev.sys.stage = .running) ∧
       (s.dev.hk.paceUs ≠ 0) ∧
       (tget s.dev.hk.paced p = none) ∧
       (yields (exec (.paceSlotBoundary p) s) (s.onDev fun d =>
      let e := d.reach (d.nextPace p)
      { e with hk := { e.hk with paced := terase e.hk.paced p, paceAt := tset e.hk.paceAt p (e.now, false) } }) = true))) = true := by decide +kernel

theorem test_mailboxRings_20 :
    (have s : State := (st { dev0 with hk := { paceUs := 50, paced := [(1, (.ok, [5], 3, 0x204))] }, partMbx := [(1, { ctx := 7, cmdAddr := 0, rspAddr := 4096 })] })
     have p : Nat := 1
     have st : Status := .ok
     have outs : List U64 := [5]
     have seq : U32 := 3
     have op : U16 := 0x204
     decide ((s.dev.sys.stage = .running) ∧
       (s.dev.hk.paceUs ≠ 0) ∧
       (tget s.dev.hk.paced p = some (st, outs, seq, op)) ∧
       (yields (exec (.paceSlotBoundary p) s) (s.onDev fun d =>
      let e := (d.reach (d.nextPace p)).respondPart p seq op.toNat st outs
      { e with hk := { e.hk with paced := terase e.hk.paced p, paceAt := tset e.hk.paceAt p (e.now, false) } }) = true))) = true := by decide +kernel

theorem test_stageGatesCommands_1 :
    (have s : State := (st1 ({ dev0 with sys := { dev0.sys with stage := .halted } }))
     have i : Instr := (.partDestroy devHd)
     have h : CmdHdr := devHd
     have n : Nat := 0x0103
     decide ((commandOf i = some (h, n)) ∧
       (h.src = .device) ∧
       (s.dev.sys.stage ≠ .running) ∧
       (s.dev.sys.stage ≠ .retired) ∧
       (s.takes h = true) ∧
       (s.badHeader h = false) ∧
       (n ≠ 0x0001) ∧
       (n ≠ 0x0002) ∧
       (n ≠ 0x0008) ∧
       (n ≠ 0x0010) ∧
       (yields (exec i s) (answered s h n .noResource [] fun d => d) = true))) = true := by decide +kernel

theorem test_stageGatesCommands_2 :
    (have s : State := st1 { dev0 with sys := { dev0.sys with stage := .rom } }
     have h : CmdHdr := devHd
     decide ((h.src = .device) ∧
       (s.takes h = true) ∧
       (s.badHeader h = false) ∧
       (s.dev.sys.domeReqAt = none) ∧
       (s.dev.sys.stage ≠ .running) ∧
       (ends (exec (.huanikNop h) s) (fun t => t.dev.free == s.dev.free + 1 && t.mbx.devSeq == 1) = true))) = true := by decide +kernel

theorem test_stageGatesCommands_3 :
    (have s : State := (st1 ({ dev0 with sys := { dev0.sys with stage := .transitionPending } }))
     have h : CmdHdr := devHd
     decide ((h.src = .device) ∧
       (s.takes h = true) ∧
       (s.badHeader h = false) ∧
       (s.dev.sys.domeReqAt = none) ∧
       (s.dev.sys.stage ≠ .running) ∧
       (yields (exec (.fwInfo h) s) (answered s h 0x0010 .ok [s.dev.sys.slotStates] fun d => d) = true))) = true := by decide +kernel

theorem test_stageGatesCommands_4 :
    (have s : State := (st1 ({ dev0 with sys := { dev0.sys with stage := .awaitRuntime } }))
     have h : CmdHdr := devHd
     have len : Nat := 4096
     have total : Nat := 8192
     have v : Bool := true
     have svn : U16 := 3
     have dg : BitVec 384 := 9
     decide ((h.src = .device) ∧
       (s.takes h = true) ∧
       (s.badHeader h = false) ∧
       (s.dev.sys.stage = .awaitRuntime) ∧
       (s.dev.sys.domeReqAt = none) ∧
       (0 < len) ∧
       (len ≤ 2097152) ∧
       (len < total) ∧
       (total ≤ 33554432) ∧
       (yields (exec (.runtimeLoad h 0 len total false v svn dg) s) (answered s h 0x0002 .ok [BitVec.ofNat 64 len] fun d =>
      let e := d.setSys fun x => { x with stage := .loading }
      { e with sys := { e.sys with loadGot := len, loadTotal := total } }) = true))) = true := by decide +kernel

theorem test_stageGatesCommands_5 :
    (have s : State := (st1 ({ dev0 with sys := { dev0.sys with stage := .bootImage } }))
     have h : CmdHdr := devHd
     have t : Nat := 1
     have o : Bool := false
     have own : BitVec 384 := 0
     have fl : U16 := 0
     decide ((h.src = .device) ∧
       (s.takes h = true) ∧
       (s.badHeader h = false) ∧
       (s.dev.sys.domeReqAt = none) ∧
       (s.dev.sys.stage ≠ .running) ∧
       (yields (exec (.lcTransition h t o false own fl) s) (answered s h 0x0008 .rights [] fun d => d) = true))) = true := by decide +kernel

theorem test_stageGatesCommands_6 :
    (have s : State := (st1 ({ dev0 with sys := { dev0.sys with stage := .retired } }))
     have i : Instr := (.regionQuery devHd 3)
     have h : CmdHdr := devHd
     have n : Nat := 0x0204
     decide ((commandOf i = some (h, n)) ∧
       (s.dev.sys.stage = .retired) ∧
       (yields (exec i s) (s.onDev fun d => d) = true))) = true := by decide +kernel

theorem test_firmwareAndLifeCycle_1 :
    (have s : State := st1 dev0
     have h : CmdHdr := devHd
     decide ((Accepts s h { device := true, fm := true, part := true } none) ∧
       (ends (exec (.huanikNop h) s) (fun t => t.dev.free == s.dev.free + 1 && t.mbx.devSeq == 1) = true))) = true := by decide +kernel

theorem test_firmwareAndLifeCycle_2 :
    (have s : State := (st1 dev0)
     have h : CmdHdr := devHd
     decide ((Accepts s h { device := true } none) ∧
       (yields (exec (.fwInfo h) s) (answered s h 0x0010 .ok [s.dev.sys.slotStates] fun d => d) = true))) = true := by decide +kernel

theorem test_firmwareAndLifeCycle_3 :
    (have s : State := (st1 dev0)
     have h : CmdHdr := devHd
     have xs : List Byte := [1, 2, 0, 3]
     decide ((Accepts s h { device := true } none) ∧
       (s.dev.sys.trialPending = false) ∧
       (s.dev.sys.downloading = false) ∧
       (xs.length ≤ 31457280) ∧
       (yields (exec (.fwDownload h 0 xs) s) (answered s h 0x0011 .ok [] fun d =>
      let x := d.sys.record .downloading (!d.sys.confirmed) d.sys.confirmed 0 0
      { d with sys := { x with downloading := true, flash := memWriteList d.sys.flash (slotBase (!d.sys.confirmed)) xs } }) = true))) = true := by decide +kernel

theorem test_firmwareAndLifeCycle_4 :
    (have s : State := (st1 ({ dev0 with sys := { dev0.sys with downloading := true } }))
     have h : CmdHdr := devHd
     have off : Nat := 5
     have xs : List Byte := [1, 2, 0, 3]
     decide ((Accepts s h { device := true } none) ∧
       (s.dev.sys.trialPending = false) ∧
       (s.dev.sys.downloading = true) ∧
       (off ≠ 0) ∧
       (off + xs.length ≤ 31457280) ∧
       (yields (exec (.fwDownload h off xs) s) (answered s h 0x0011 .ok [] fun d =>
      { d with sys := { d.sys with flash := memWriteList d.sys.flash (slotBase (!d.sys.confirmed) + off) xs } }) = true))) = true := by decide +kernel

theorem test_firmwareAndLifeCycle_5 :
    (have s : State := (st1 ({ dev0 with sys := { dev0.sys with downloading := true } }))
     have h : CmdHdr := devHd
     have dg : BitVec 384 := 77
     decide ((Accepts s h { device := true } none) ∧
       (s.dev.sys.downloading = true) ∧
       (yields (exec (.fwVerify h true dg) s) (answered s h 0x0012 .ok ((List.range 6).map fun i => (dg >>> (64 * i)).truncate 64) fun d =>
      { d with sys := { d.sys.record .verified (!d.sys.confirmed) d.sys.confirmed 0 dg with downloading := false } }) = true))) = true := by decide +kernel

theorem test_firmwareAndLifeCycle_6 :
    (have s : State := (st1 ({ dev0 with sys := { dev0.sys with downloading := true } }))
     have h : CmdHdr := devHd
     have dg : BitVec 384 := 77
     decide ((Accepts s h { device := true } none) ∧
       (s.dev.sys.downloading = true) ∧
       (yields (exec (.fwVerify h false dg) s) (answered s h 0x0012 .rights [] fun d => { d with sys := { d.sys with downloading := false } }) = true))) = true := by decide +kernel

theorem test_firmwareAndLifeCycle_7 :
    (have s : State := (st1 ({ dev0 with sys := { dev0.sys with journal := [{ number := 3, state := .verified, slotB := true, confirmedB := false, trialBoots := 1, digest := 7 }] } }))
     have h : CmdHdr := devHd
     have r : FwRecord := { number := 3, state := .verified, slotB := true, confirmedB := false, trialBoots := 1, digest := 7 }
     decide ((Accepts s h { device := true } none) ∧
       (s.dev.sys.journal.getLast? = some r) ∧
       (r.state = .verified) ∧
       (yields (exec (.fwActivate h) s) (answered s h 0x0013 .ok [] fun d =>
      { d with sys := d.sys.record .trial r.slotB r.confirmedB 0 r.digest }) = true))) = true := by decide +kernel

theorem test_firmwareAndLifeCycle_8 :
    (have s : State := (st1 ({ dev0 with sys := { dev0.sys with trial := true, bootSlotB := true, journal := [{ number := 3, state := .trial, slotB := true, confirmedB := false, trialBoots := 1, digest := 7 }] } }))
     have h : CmdHdr := devHd
     have r : FwRecord := { number := 3, state := .trial, slotB := true, confirmedB := false, trialBoots := 1, digest := 7 }
     decide ((Accepts s h { device := true } none) ∧
       (s.dev.sys.journal.getLast? = some r) ∧
       (s.dev.sys.trial = true) ∧
       (yields (exec (.fwConfirm h) s) (answered s h 0x0014 .ok [] fun d =>
      d.setSys fun x => { x.record .confirmed x.bootSlotB x.bootSlotB 0 r.digest with trial := false, trialBoots := 0 }) = true))) = true := by decide +kernel

theorem test_firmwareAndLifeCycle_9 :
    (have s : State := (st1 ({ dev0 with sys := { dev0.sys with stage := .loading, loadGot := 4096, loadTotal := 8192, lifeCycle := .deployed, svnFloor := 2, cfg := { swEnable := 8 } } }))
     have h : CmdHdr := devHd
     have off : Nat := 4096
     have len : Nat := 4096
     have svn : U16 := 2
     have dg : BitVec 384 := 7
     decide ((h.src = .device) ∧
       (s.takes h = true) ∧
       (s.badHeader h = false) ∧
       (s.dev.sys.stage = .loading) ∧
       (s.dev.sys.domeReqAt = none) ∧
       (0 < off) ∧
       (off = s.dev.sys.loadGot) ∧
       (0 < len) ∧
       (len ≤ 2097152) ∧
       (off + len ≤ 33554432) ∧
       (s.dev.sys.loadTotal = off + len) ∧
       ((s.dev.sys.lifeCycle = .deployed → s.dev.sys.svnFloor ≤ svn)) ∧
       (yields (exec (.runtimeLoad h off len (off + len) true true svn dg) s) (answered s h 0x0002 .ok
      ((List.range 6).map fun i => (dg >>> (64 * i)).truncate 64) fun d =>
      ({ d with sys := { d.sys with runtimeSvn := svn, runtimeDigest := dg, loadStatus := 0, loadGot := 0, loadTotal := off + len } }.measure 4).enterRunning) = true))) = true := by decide +kernel

theorem test_firmwareAndLifeCycle_10 :
    (have s : State := (st1 ({ dev0 with sys := { dev0.sys with stage := .loading, loadGot := 4096, loadTotal := 8192 } }))
     have h : CmdHdr := devHd
     have off : Nat := 4096
     have len : Nat := 4096
     have svn : U16 := 2
     have dg : BitVec 384 := 7
     decide ((h.src = .device) ∧
       (s.takes h = true) ∧
       (s.badHeader h = false) ∧
       (s.dev.sys.stage = .loading) ∧
       (s.dev.sys.domeReqAt = none) ∧
       (0 < off) ∧
       (off = s.dev.sys.loadGot) ∧
       (0 < len) ∧
       (len ≤ 2097152) ∧
       (off + len ≤ 33554432) ∧
       (s.dev.sys.loadTotal = off + len) ∧
       (yields (exec (.runtimeLoad h off len (off + len) true false svn dg) s) (answered s h 0x0002 .rights [] fun d =>
      let e := { d with sys := { d.sys with loadGot := off + len, loadTotal := off + len } }
      e.setSys fun x => { x with stage := .awaitRuntime, loadStatus := BitVec.ofNat 8 (statusCode .rights), loadGot := 0 }) = true))) = true := by decide +kernel

theorem test_firmwareAndLifeCycle_11 :
    (have s : State := (st1 ({ dev0 with sys := { dev0.sys with lifeCycle := .manufactured } }))
     have h : CmdHdr := devHd
     have own : BitVec 384 := 5
     have fl : U16 := 3
     decide ((Accepts s h { device := true } none) ∧
       (s.dev.sys.lifeCycle = .manufactured) ∧
       (yields (exec (.lcTransition h 1 false true own fl) s) (answered s h 0x0008 .ok [1] fun d =>
      let e := { d with sys := { d.sys with
        fuseToken := some 0, fuseOwner := own, fuseFloor := fl
        fuses := tset d.sys.fuses 0 { intent := true, data := true, commit := true } } }
      e.setSys fun x => { x with lifeCycle := .provisioned }) = true))) = true := by decide +kernel

theorem test_firmwareAndLifeCycle_12 :
    (have s : State := (st1 dev0)
     have h : CmdHdr := devHd
     have own : BitVec 384 := 5
     have fl : U16 := 3
     decide ((Accepts s h { device := true } none) ∧
       (s.dev.sys.lifeCycle = .provisioned) ∧
       (yields (exec (.lcTransition h 2 false true own fl) s) (answered s h 0x0008 .ok [2] fun d =>
      let e := { d with sys := { d.sys with
        fuseToken := some 1, fuseOwner := own, fuseFloor := fl
        fuses := tset d.sys.fuses 1 { intent := true, data := true, commit := true } } }
      e.setSys fun x => { x with lifeCycle := .deployed, ownerHash := own, svnFloor := fl }) = true))) = true := by decide +kernel

theorem test_firmwareAndLifeCycle_13 :
    (have s : State := (st1 dev0)
     have h : CmdHdr := devHd
     have t : Nat := 2
     have o : Bool := true
     have own : BitVec 384 := 5
     have fl : U16 := 3
     decide ((Accepts s h { device := true } none) ∧
       (yields (exec (.lcTransition h t o false own fl) s) (answered s h 0x0008 .rights [] fun d => d) = true))) = true := by decide +kernel

theorem test_partitionCommands_1 :
    (have s : State := (st ({ dev0 with units := dev0.units ++ [(3, { trained := true, slots := 128 }), (4, { trained := true, slots := 128 })] }))
     have h : CmdHdr := { src := .fm, seq := 0, partition := 2 }
     have r : PartIn := { subchannels := 0x18, engines := 4, movers := 2, queueBase := 16, queueCount := 8, tallyBase := 32, tallyCount := 8 }
     have p : Nat := 2
     decide ((p = hdrTarget h) ∧
       (Accepts s h { device := true, fm := true } (some p)) ∧
       (p ≠ 0) ∧
       (r.rsvd = false) ∧
       ((r.spareSlots = 0 ∨ 3 ≤ (bitsOf r.subchannels).length)) ∧
       (r.queueBase + r.queueCount ≤ 262144) ∧
       (r.tallyBase + r.tallyCount ≤ 1048576) ∧
       (s.dev.dirWaysUsed p + r.dirWays ≤ 32) ∧
       (s.dev.sys.lifeCycle ≠ .manufactured) ∧
       ((s.dev.partn p).state = .free) ∧
       (s.dev.partClash p r = false) ∧
       ((unitsIn r.subchannels r.pseudoChannels).all (fun m => s.dev.unitUsable m) = true) ∧
       (r.subchannels ≠ 0) ∧
       (r.engines ≠ 0) ∧
       (r.movers ≠ 0) ∧
       (r.queueCount ≠ 0) ∧
       (r.tallyCount ≠ 0) ∧
       (ends (exec (.partCreate h r) s) (fun t => (t.dev.partn p).state == .active && (t.dev.partn p).clearing) = true))) = true := by decide +kernel

theorem test_partitionCommands_2 :
    (have s : State := (st dev0)
     have h : CmdHdr := fmH
     have p : Nat := 1
     decide ((p = hdrTarget h) ∧
       (Accepts s h { device := true, fm := true } (some p)) ∧
       ((s.dev.partn p).state ≠ .free) ∧
       (s.dev.partBusy p = false) ∧
       (yields (exec (.partTenantChange h) s) (answered s h 0x0102 .ok [BitVec.ofNat 64 (s.dev.hk.opNo + 1)] fun d =>
      let o := d.hk.opNo + 1
      let d1 := { d with hk := { d.hk with opNo := o, ops := d.hk.ops ++ [(o, LongOp.tenantChange p false)] } }
      (d1.fenceLeases p).startPartReset p) = true))) = true := by decide +kernel

theorem test_partitionCommands_3 :
    (have s : State := (st dev0)
     have h : CmdHdr := fmH
     have p : Nat := 1
     decide ((p = hdrTarget h) ∧
       (Accepts s h { device := true, fm := true } (some p)) ∧
       ((s.dev.partn p).state ≠ .free) ∧
       (s.dev.partBusy p = false) ∧
       (yields (exec (.partDestroy h) s) (answered s h 0x0103 .ok [BitVec.ofNat 64 (s.dev.hk.opNo + 1)] fun d =>
      let o := d.hk.opNo + 1
      let d1 := { d with hk := { d.hk with opNo := o, ops := d.hk.ops ++ [(o, LongOp.tenantChange p true)] } }
      (d1.fenceLeases p).startPartReset p) = true))) = true := by decide +kernel

theorem test_partitionCommands_4 :
    (have s : State := (st dev0)
     have h : CmdHdr := fmH
     have p : Nat := 1
     have c : Nat := 7
     have a : Nat := 0
     have b : Nat := 16384
     decide ((p = hdrTarget h) ∧
       (Accepts s h { device := true, fm := true } (some p)) ∧
       (a % 64 = 0) ∧
       (b % 64 = 0) ∧
       ((s.dev.partn p).state ≠ .free) ∧
       (c < 65536) ∧
       (s.dev.ctxOf p c = none) ∧
       (s.dev.ringCheck c a (64 * 256) .r = none) ∧
       (s.dev.ringCheck c b (64 * 64) .w = none) ∧
       (yields (exec (.partMailbox h c a b) s) (answered s h 0x0104 .ok [] fun d =>
      { d with partMbx := tset d.partMbx p { ctx := c, cmdAddr := a, rspAddr := b } }) = true))) = true := by decide +kernel

theorem test_partitionCommands_5 :
    (have s : State := (st1 dev0)
     have h : CmdHdr := devHd
     have p : Nat := 1
     have c : Nat := 7
     have a : Nat := 0
     have n : Nat := 6
     decide ((p = hdrTarget h) ∧
       (Accepts s h { device := true, part := true } (some p)) ∧
       (a % 64 = 0) ∧
       (6 ≤ n) ∧
       (n ≤ 16) ∧
       ((s.dev.partn p).state ≠ .free) ∧
       (c < 65536) ∧
       (s.dev.ctxOf p c = none) ∧
       (s.dev.ringCheck c a (64 + 64 * 2 ^ n) .w = none) ∧
       (yields (exec (.partEventRing h c a n) s) (answered s h 0x0105 .ok [] fun d =>
      { d with partRings := tset d.partRings p { ctx := c, addr := a, log2 := n } }) = true))) = true := by decide +kernel

theorem test_partitionCommands_6 :
    (have s : State := (st ({ dev0 with units := dev0.units ++ [(3, { trained := true, slots := 128 }), (4, { trained := true, slots := 128 })] }))
     have h : CmdHdr := fmH
     have p : Nat := 1
     have m : Nat := 3
     have u : Nat := 3
     have near : Bool := false
     decide ((p = hdrTarget h) ∧
       (Accepts s h { device := true, fm := true } (some p)) ∧
       (m = (if near then 48 + u else u)) ∧
       (u < (if near then 64 else 48)) ∧
       ((s.dev.partn p).state ≠ .free) ∧
       (s.dev.unitOwner m = none) ∧
       (s.dev.unitUsable m = true) ∧
       (s.dev.hk.ops = []) ∧
       (yields (exec (.partAddUnit h near u) s) (answered s h 0x0106 .ok [BitVec.ofNat 64 (s.dev.hk.opNo + 1)] fun d =>
      let o := d.hk.opNo + 1
      let e := d.claimUnit p m
      { e with hk := { e.hk with opNo := o, ops := [(o, LongOp.addUnit p m)] } }) = true))) = true := by decide +kernel

theorem test_regionCommands_1 :
    (have s : State := (st ({ dev0 with units := [(0, { trained := true, slots := 128, cleared := [2] }), (1, { trained := true, slots := 128 }), (2, { trained := true, slots := 128 })] }))
     have h : CmdHdr := fmH
     have r : RegionIn := ({ extentCount := 1, grainM8 := 0, width := 1, tier := 0, salt := some 0, extents := [{ ext := ⟨false, 0, 2⟩ }] })
     have t : Tier := .capacity
     have salt : U32 := 0
     have n : Nat := 0
     have x : Region := ((({ dev0 with units := [(0, { trained := true, slots := 128, cleared := [2] }), (1, { trained := true, slots := 128 }), (2, { trained := true, slots := 128 })] } : Dev).regionRecord 1 ({ extentCount := 1, grainM8 := 0, width := 1, tier := 0, salt := some 0, extents := [{ ext := ⟨false, 0, 2⟩ }] }) .capacity 0).getD ({ partition := 1, grainM8 := 0, width := 1, tier := .capacity, extents := [⟨false, 0, 0⟩] }))
     decide ((Accepts s h { device := true, fm := true } (some (hdrTarget h))) ∧
       (tierOf r.tier = some t) ∧
       (s.dev.regionFormat (hdrTarget h) r t = false) ∧
       ((s.dev.partn (hdrTarget h)).state ≠ .free) ∧
       (r.extents.all (fun y => (s.dev.ownedUnits (hdrTarget h) y.ext.near).contains (extM y.ext) && extExists y.ext) = true) ∧
       (r.salt = some salt) ∧
       (s.dev.freeRegion = some n) ∧
       (s.dev.regionRecord (hdrTarget h) r t salt = some x) ∧
       (s.dev.allCleared (createSlots x) = true) ∧
       (yields (exec (.regionCreate h r) s) (answered s h 0x0201 .ok [BitVec.ofNat 64 n] fun d =>
      ({ d with
        hk := { d.hk with nextMetaLine := d.hk.nextMetaLine + listLines x.extents.length x.parity.length }
        regions := tset d.regions n x, serial := d.serial + 1 } : Dev).atOnce fun e => e.initPages n) = true))) = true := by decide +kernel

theorem test_regionCommands_2 :
    (have s : State := (st ({ dev0 with units := [(0, { trained := true, slots := 128, cleared := [3] }), (1, { trained := true, slots := 128 }), (2, { trained := true, slots := 128 })] }))
     have h : CmdHdr := fmH
     have r : RegionIn := ({ extentCount := 1, grainM8 := 0, width := 1, tier := 0, salt := some 0, extents := [{ ext := ⟨false, 0, 2⟩ }] })
     have t : Tier := .capacity
     have salt : U32 := 0
     have n : Nat := 0
     have x : Region := ((({ dev0 with units := [(0, { trained := true, slots := 128, cleared := [3] }), (1, { trained := true, slots := 128 }), (2, { trained := true, slots := 128 })] } : Dev).regionRecord 1 ({ extentCount := 1, grainM8 := 0, width := 1, tier := 0, salt := some 0, extents := [{ ext := ⟨false, 0, 2⟩ }] }) .capacity 0).getD ({ partition := 1, grainM8 := 0, width := 1, tier := .capacity, extents := [⟨false, 0, 0⟩] }))
     decide ((Accepts s h { device := true, fm := true } (some (hdrTarget h))) ∧
       (tierOf r.tier = some t) ∧
       (s.dev.regionFormat (hdrTarget h) r t = false) ∧
       ((s.dev.partn (hdrTarget h)).state ≠ .free) ∧
       (r.extents.all (fun y => (s.dev.ownedUnits (hdrTarget h) y.ext.near).contains (extM y.ext) && extExists y.ext) = true) ∧
       (r.salt = some salt) ∧
       (s.dev.freeRegion = some n) ∧
       (s.dev.regionRecord (hdrTarget h) r t salt = some x) ∧
       (s.dev.allCleared (createSlots x) = false) ∧
       (yields (exec (.regionCreate h r) s) (s.onDev fun d => { d with hk := { d.hk with
      nextMetaLine := d.hk.nextMetaLine + listLines x.extents.length x.parity.length
      waitingCreate := [{ hdr := h, region := n, rec_ := x }] } }) = true))) = true := by decide +kernel

theorem test_regionCommands_3 :
    (have s : State := (st ({ dev0 with ctxs := [] }))
     have h : CmdHdr := fmH
     have r : Nat := 3
     have x : Region := ({ partition := 1, grainM8 := 0, width := 1, tier := .capacity, extents := [⟨false, 0, 0⟩] })
     decide ((tget s.dev.regions r = some x) ∧
       (Accepts s h { device := true, fm := true } (some x.partition)) ∧
       (s.dev.regionNamed r = false) ∧
       (s.dev.regionTaken r = false) ∧
       (yields (exec (.regionDestroy h r) s) (answered s h 0x0202 .ok [BitVec.ofNat 64 (s.dev.hk.opNo + 1)] fun d =>
      let o := d.hk.opNo + 1
      let d1 := { d with
        hk := { d.hk with opNo := o, ops := d.hk.ops ++ [(o, LongOp.regionDestroy r)] }
        regions := tset d.regions r { x with destroying := true, migrating := false } }
      d1.giveBack (x.extents ++ x.newExtents ++ x.dirExtents ++ (x.parity ++ x.newParity).map (fun (g : ParityGroup) => g.parity))) = true))) = true := by decide +kernel

theorem test_regionCommands_4 :
    (have s : State := (st dev0)
     have h : CmdHdr := fmH
     have r : Nat := 3
     have w : Nat := 1
     have share : Nat := 25
     have x : Region := ({ partition := 1, grainM8 := 0, width := 1, tier := .capacity, extents := [⟨false, 0, 0⟩] })
     have salt : U32 := 9
     have d1 : Dev := ((({ dev0 with out := [], hk := { dev0.hk with opNo := 1, ops := [(1, LongOp.migrate 3)] } } : Dev).startMigration 3 1 .capacity false 25 9 (some 1)).getD dev0)
     decide ((tget s.dev.regions r = some x) ∧
       (h.src ≠ .part x.partition) ∧
       (Accepts s h { device := true, fm := true, part := true } (some x.partition)) ∧
       (s.dev.migrateFormat x h w share .capacity (some salt) = false) ∧
       (s.dev.regionTaken r = false) ∧
       (x.migrating = false) ∧
       (x.failed = false) ∧
       (0 < share) ∧
       ((({ s.dev with out := [], hk := { s.dev.hk with opNo := s.dev.hk.opNo + 1, ops := s.dev.hk.ops ++ [(s.dev.hk.opNo + 1, LongOp.migrate r)] } } : Dev).startMigration
      r w .capacity false share salt (some (s.dev.hk.opNo + 1))) = some d1) ∧
       (yields (exec (.regionMigrate h r w 0 share (some salt)) s) (answered s h 0x0203 .ok [BitVec.ofNat 64 (s.dev.hk.opNo + 1)] fun _ => d1) = true))) = true := by decide +kernel

theorem test_regionCommands_5 :
    (have s : State := (st dev0)
     have h : CmdHdr := fmH
     have r : Nat := 3
     have x : Region := ({ partition := 1, grainM8 := 0, width := 1, tier := .capacity, extents := [⟨false, 0, 0⟩] })
     decide ((tget s.dev.regions r = some x) ∧
       (Accepts s h { device := true, fm := true, part := true } (some x.partition)) ∧
       (yields (exec (.regionQuery h r) s) (answered s h 0x0204 .ok (regionWords r x (h.src == .fm)) fun d => d) = true))) = true := by decide +kernel

theorem test_regionCommands_6 :
    (have s : State := (st1 (devS obj2 {} []))
     have h : CmdHdr := devHd
     have o : ObjIn := { region := 5, chunks := 1 }
     have x : Region := ((tget (devS obj2 {} []).regions 5).getD ({ partition := 1, grainM8 := 0, width := 1, tier := .capacity, extents := [⟨false, 0, 0⟩] }))
     have i : Nat := 0
     have root : Nat := ((({ s.dev with out := [] } : Dev).newRoot o.region).getD (0, dev0)).1
     have d1 : Dev := ((({ s.dev with out := [] } : Dev).newRoot o.region).getD (0, dev0)).2
     decide ((tget s.dev.regions o.region = some x) ∧
       (Accepts s h { device := true, part := true } (some x.partition)) ∧
       (s.dev.objectFormat o x = false) ∧
       (x.destroying = false) ∧
       (firstFree ((s.dev.objs.filter (fun y => decide (y.1 / 65536 = o.region) && y.2.state != .free)).map (fun y => y.1 % 65536)) 0 65536 =
      some i) ∧
       ((({ s.dev with out := [] } : Dev).newRoot o.region).isSome = true) ∧
       (ends (exec (.objectCreate h o) s) (fun t => (t.dev.obj o.region i).state == .live && (t.dev.obj o.region i).workingRoot == root) = true))) = true := by decide +kernel

theorem test_recordCommands_1 :
    (have s : State := (st dev0)
     have h : CmdHdr := fmH
     have c : ContextIn := { context := 8, valid := true, partition := 1, segments := [{ base := 0, lines := 16, kind := .region, r := true, targetId := 3 }] }
     decide ((Accepts s h { device := true, fm := true } (some c.partition)) ∧
       (c.valid = true) ∧
       (c.rsvd = false) ∧
       (c.tc ≤ 5) ∧
       (c.segments.length ≤ 8) ∧
       (c.segments.any segmentFormat = false) ∧
       (segmentsMeet c.segments = false) ∧
       (c.context < 65536) ∧
       ((s.dev.partn c.partition).state ≠ .free) ∧
       (c.segments.any (s.dev.segmentBounds c.partition c.job) = false) ∧
       (yields (exec (.contextWrite h c) s) (answered s h 0x0301 .ok [] fun d =>
      let x : Context := { valid := true, partition := c.partition, job := c.job, tc := c.tc, segments := c.segments }
      { d with ctxs := tset d.ctxs c.context x }.keepTrans fun e => e.ctx != c.context) = true))) = true := by decide +kernel

theorem test_recordCommands_2 :
    (have s : State := (st devR)
     have h : CmdHdr := fmH
     have n : Nat := 4
     have w : WindowIn := { job := 2, window := 2, valid := true, rankLo := 0, rankHi := 0, context := 7 }
     decide ((w.valid = true) ∧
       ((s.dev.context w.context).valid = true) ∧
       (Accepts s h { device := true, fm := true } (some (s.dev.context w.context).partition)) ∧
       (n < 16384) ∧
       (w.rsvd = false) ∧
       (w.rankLo ≤ w.rankHi) ∧
       (s.dev.wins.any (fun x => x.1 != n && x.2.job == w.job && x.2.window == w.window) = false) ∧
       (s.dev.jobOf w.job (s.dev.context w.context).partition = true) ∧
       (yields (exec (.windowWrite h n w) s) (answered s h 0x0302 .ok [] fun d =>
      let x : WinRec := { job := w.job, window := w.window, rankLo := w.rankLo, rankHi := w.rankHi, context := w.context }
      { d with wins := tset d.wins n x }) = true))) = true := by decide +kernel

theorem test_recordCommands_3 :
    (have s : State := st { devR with wins := devR.wins ++ [(4, { job := 2, window := 2, rankLo := 0, rankHi := 0, context := 7 })] }
     have h : CmdHdr := fmH
     have n : Nat := 4
     have w : WindowIn := { job := 2, window := 2, valid := false, rankLo := 0, rankHi := 0, context := 7 }
     decide ((w.valid = false) ∧
       ((s.dev.context w.context).valid = true) ∧
       (Accepts s h { device := true, fm := true } (some (s.dev.context w.context).partition)) ∧
       (n < 16384) ∧
       (w.rsvd = false) ∧
       (w.rankLo ≤ w.rankHi) ∧
       (s.dev.jobOf w.job (s.dev.context w.context).partition = true) ∧
       (yields (exec (.windowWrite h n w) s) (answered s h 0x0302 .ok [] fun d => { d with wins := terase d.wins n }) = true))) = true := by decide +kernel

theorem test_recordCommands_4 :
    (have s : State := (st dev0)
     have h : CmdHdr := fmH
     have j : Nat := 5
     have p : Nat := 1
     have e : RankIn := { rank := 3, endpoint := 9, valid := true }
     decide ((p = hdrTarget h) ∧
       (Accepts s h { device := true, fm := true } (some p)) ∧
       (j < 65536) ∧
       (e.rank < 65536) ∧
       (e.endpoint < 65536) ∧
       (e.valid = true) ∧
       ((s.dev.partn p).state ≠ .free) ∧
       (tget s.dev.ranks j = none) ∧
       (s.dev.ranks.length < 4096) ∧
       (yields (exec (.rankTableLoad h j [e]) s) (answered s h 0x0303 .ok [] fun d =>
      { d with ranks := tset d.ranks j { parts := [p], entries := [(e.rank, e.endpoint)] } }) = true))) = true := by decide +kernel

theorem test_recordCommands_5 :
    (have s : State := (st { devR with wins := [] })
     have h : CmdHdr := fmH
     have j : Nat := 2
     have p : Nat := 1
     have t : RankTable := { parts := [1], entries := [(0, 0), (1, 5)] }
     decide ((p = hdrTarget h) ∧
       (Accepts s h { device := true, fm := true } (some p)) ∧
       (j < 65536) ∧
       ((s.dev.partn p).state ≠ .free) ∧
       (s.dev.jobNamed j p = false) ∧
       (tget s.dev.ranks j = some t) ∧
       (t.parts = [p]) ∧
       (yields (exec (.rankTableLoad h j []) s) (answered s h 0x0303 .ok [] fun d => { d with ranks := terase d.ranks j }) = true))) = true := by decide +kernel

theorem test_recordCommands_6 :
    (have s : State := (st (devH false []))
     have h : CmdHdr := fmH
     have b : HeadBindIn := { head := 0, doorbell := some 7 }
     have c : Nat := 7
     decide ((b.dcr = []) ∧
       (b.doorbell = some c) ∧
       ((s.dev.context c).valid = true) ∧
       (Accepts s h { device := true, fm := true } (some (s.dev.context c).partition)) ∧
       (b.rsvd = false) ∧
       (s.dev.headExists b.head = true) ∧
       (s.dev.heads.any (fun x => x.1 != b.head && x.2.contexts.contains c) = false) ∧
       (yields (exec (.headBind h b) s) (answered s h 0x0307 .ok [] fun d =>
      (d.modHead b.head fun x => { x with dcr := [], doorbell := some c }).keepTrans
        fun e => !([c] ++ (d.head b.head).contexts).contains e.ctx) = true))) = true := by decide +kernel

theorem test_recordCommands_7 :
    (have s : State := (st dev0)
     have h : CmdHdr := fmH
     have c : Nat := 7
     have r : Nat := 3
     have first : Nat := 0
     have count : Nat := 1
     have dur : Nat := 3600
     have n : Nat := 0
     have x : Region := ({ partition := 1, grainM8 := 0, width := 1, tier := .capacity, extents := [⟨false, 0, 0⟩] })
     decide ((tget s.dev.regions r = some x) ∧
       (Accepts s h { device := true, fm := true } (some x.partition)) ∧
       (0 < count) ∧
       (count ≤ 16384) ∧
       (0 < dur) ∧
       (dur ≤ 3600) ∧
       ((s.dev.context c).valid = true) ∧
       ((s.dev.context c).partition = x.partition) ∧
       (first + count ≤ x.extents.length) ∧
       (x.destroying = false) ∧
       (s.dev.freeLease = some n) ∧
       (yields (exec (.leaseCreate h c r first count dur) s) (answered s h 0x0501 .ok [BitVec.ofNat 64 n] fun d =>
      let l : Lease := { state := .held, head := none, context := c, duration := dur, expiry := d.now + dur * 1000000000, region := r, first := first, count := count }
      { d with leases := tset d.leases n l }) = true))) = true := by decide +kernel

theorem test_recordCommands_8 :
    (have s : State := (st ({ dev0 with leases := [(6, lease3 none)] }))
     have h : CmdHdr := fmH
     have n : Nat := 6
     have l : Lease := (lease3 none)
     have x : Region := ({ partition := 1, grainM8 := 0, width := 1, tier := .capacity, extents := [⟨false, 0, 0⟩] })
     decide ((tget s.dev.leases n = some l) ∧
       (tget s.dev.regions l.region = some x) ∧
       (Accepts s h { device := true, fm := true, part := true } (some x.partition)) ∧
       (l.state = .held) ∧
       (s.dev.now < l.expiry) ∧
       (yields (exec (.leaseRenew h n) s) (answered s h 0x0502 .ok [BitVec.ofNat 64 (s.dev.now + l.duration * 1000000000)] fun d =>
      { d with leases := tset d.leases n { l with expiry := d.now + l.duration * 1000000000 } }) = true))) = true := by decide +kernel

theorem test_recordCommands_9 :
    (have s : State := (st { dev0 with now := 6000000000, leases := [(6, lease3 none)] })
     have h : CmdHdr := fmH
     have n : Nat := 6
     have l : Lease := (lease3 none)
     have x : Region := ({ partition := 1, grainM8 := 0, width := 1, tier := .capacity, extents := [⟨false, 0, 0⟩] })
     decide ((tget s.dev.leases n = some l) ∧
       (tget s.dev.regions l.region = some x) ∧
       (Accepts s h { device := true, fm := true, part := true } (some x.partition)) ∧
       (l.state = .held) ∧
       (l.expiry ≤ s.dev.now) ∧
       (yields (exec (.leaseRenew h n) s) (answered s h 0x0502 .leaseExpired [] fun d => d) = true))) = true := by decide +kernel

theorem test_recordCommands_10 :
    (have s : State := (st ({ dev0 with leases := [(6, lease3 none)] }))
     have h : CmdHdr := fmH
     have n : Nat := 6
     have l : Lease := (lease3 none)
     have x : Region := ({ partition := 1, grainM8 := 0, width := 1, tier := .capacity, extents := [⟨false, 0, 0⟩] })
     decide ((tget s.dev.leases n = some l) ∧
       (tget s.dev.regions l.region = some x) ∧
       (Accepts s h { device := true, fm := true, part := true } (some x.partition)) ∧
       (l.state = .held) ∧
       (yields (exec (.leaseQuery h n) s) (answered s h 0x0503 .ok [BitVec.ofNat 64 l.expiry] fun d => d) = true))) = true := by decide +kernel

theorem test_queueAndTallyCommands_1 :
    (have s : State := (st1 dev0)
     have h : CmdHdr := devHd
     have x : QueueIn := { queue := 10, context := 7, sqLog2 := 6, cqLog2 := 6, sqBase := 0, cqBase := 4096 }
     have p : Nat := 1
     decide ((queueOwner x.queue s.dev = some p) ∧
       (Accepts s h { device := true, part := true } (some p)) ∧
       (queueFormat x = false) ∧
       ((s.dev.queue x.queue).exists_ = false) ∧
       (s.dev.ctxOf p x.context = none) ∧
       (s.dev.ringCheck x.context x.sqBase (64 * 2 ^ x.sqLog2) .r = none) ∧
       (s.dev.ringCheck x.context x.cqBase (32 * 2 ^ x.cqLog2) .w = none) ∧
       (yields (exec (.queueCreate h x) s) (answered s h 0x0401 .ok [] fun d => d.modQueue x.queue fun y =>
      { gen := y.gen, exists_ := true, partition := p, anyContext := x.anyContext, context := x.context, sqLog2 := x.sqLog2
        cqLog2 := x.cqLog2, group := x.group, prioCap := x.prioCap, state := .active, weight := x.weight
        sqBase := x.sqBase, cqBase := x.cqBase }) = true))) = true := by decide +kernel

theorem test_queueAndTallyCommands_2 :
    (have s : State := (st1 (devJ (job4 (desc 1 []) (.mover 0 0))))
     have h : CmdHdr := devHd
     have q : Nat := 9
     have p : Nat := 1
     decide ((queueOwner q s.dev = some p) ∧
       (Accepts s h { device := true, part := true } (some p)) ∧
       ((s.dev.queue q).exists_ = true) ∧
       (s.dev.tagAt (.queue q) ≤ s.dev.now) ∧
       (s.dev.jobs.any (fun j => j.waiting && j.queue == q) = false) ∧
       (yields (exec (.queueReset h q) s) (answered s h 0x0402 .ok [((s.dev.queue q).gen + 1).setWidth 64] fun d =>
      ((d.abortMovers (fun j => j.queue == q)).incTag (.queue q)).modQueue q fun y =>
        { y with state := .active, sqTail := 0, sqHead := 0, cqTail := 0, cqHead := 0, inFlight := 0, fetched := [] }) = true))) = true := by decide +kernel

theorem test_queueAndTallyCommands_3 :
    (have s : State := (st1 (devJ (job4 (desc 1 []) (.mover 0 0))))
     have h : CmdHdr := devHd
     have q : Nat := 9
     have p : Nat := 1
     decide ((queueOwner q s.dev = some p) ∧
       (Accepts s h { device := true, part := true } (some p)) ∧
       ((s.dev.queue q).exists_ = true) ∧
       (yields (exec (.queueAbort h q) s) (answered s h 0x0403 .ok [(s.dev.queue q).gen.setWidth 64] fun d =>
      { d with jobs := d.jobs.map fun j =>
          match j.unit with
          | .mover _ _ => if j.queue == q && j.result.isNone then markAbort j else j
          | _ => j }) = true))) = true := by decide +kernel

theorem test_queueAndTallyCommands_4 :
    (have s : State := (st1 (devJ (job4 (desc 1 []) (.mover 0 0))))
     have h : CmdHdr := devHd
     have q : Nat := 9
     have p : Nat := 1
     decide ((queueOwner q s.dev = some p) ∧
       (Accepts s h { device := true, part := true } (some p)) ∧
       ((s.dev.queue q).exists_ = true) ∧
       (s.dev.tagAt (.queue q) ≤ s.dev.now) ∧
       (s.dev.jobs.any (fun j => j.waiting && j.queue == q) = false) ∧
       (yields (exec (.queueDestroy h q) s) (answered s h 0x0404 .ok [((s.dev.queue q).gen + 1).setWidth 64] fun d =>
      ((d.abortMovers (fun j => j.queue == q)).incTag (.queue q)).modQueue q fun y => { gen := y.gen }) = true))) = true := by decide +kernel

theorem test_queueAndTallyCommands_5 :
    (have s : State := (st1 { dev0 with tallies := [(16, { value := 5 }), (17, { value := 4 })] })
     have h : CmdHdr := devHd
     have a : Nat := 16
     have b : Nat := 17
     have k : Nat := 1
     have p : Nat := 1
     decide ((tallyOwner a s.dev = some p) ∧
       (tallyOwner b s.dev = some p) ∧
       (Accepts s h { device := true, part := true } (some p)) ∧
       (a ≠ b) ∧
       (pairOf s.dev.pairs a = none) ∧
       (pairOf s.dev.pairs b = none) ∧
       (0 < k) ∧
       (k ≤ 4294967296) ∧
       ((s.dev.tally b).value.toNat ≤ (s.dev.tally a).value.toNat) ∧
       ((s.dev.tally a).value.toNat ≤ (s.dev.tally b).value.toNat + k) ∧
       (s.dev.jobs.any (fun j => j.waiting && dOpcode j.desc == 0x41) = false) ∧
       (yields (exec (.tallyPair h a b k) s) (answered s h 0x0405 .ok [] fun d =>
      { d with pairs := d.pairs ++ [{ producer := a, consumer := b, k := k }] }) = true))) = true := by decide +kernel

theorem test_queueAndTallyCommands_6 :
    (have s : State := (st1 { dev0 with pairs := [{ producer := 16, consumer := 17, k := 4 }] })
     have h : CmdHdr := devHd
     have t : Nat := 17
     have p : Nat := 1
     have x : TallyPair := { producer := 16, consumer := 17, k := 4 }
     decide ((tallyOwner t s.dev = some p) ∧
       (Accepts s h { device := true, part := true } (some p)) ∧
       (pairOf s.dev.pairs t = some x) ∧
       (s.dev.jobs.any (fun j => j.waiting && dOpcode j.desc == 0x41) = false) ∧
       (yields (exec (.tallyUnpair h t) s) (answered s h 0x0406 .ok [] fun d => { d with pairs := d.pairs.filter fun y => y != x }) = true))) = true := by decide +kernel

theorem test_queueAndTallyCommands_7 :
    (have s : State := (st1 { dev0 with pairs := [{ producer := 16, consumer := 17, k := 4 }] })
     have h : CmdHdr := devHd
     have t : Nat := 16
     have p : Nat := 1
     have v : U64 := 4
     decide ((tallyOwner t s.dev = some p) ∧
       (Accepts s h { device := true, part := true } (some p)) ∧
       (s.dev.tallyFits t v.toNat = true) ∧
       (s.dev.jobs.any (fun j => j.waiting && dOpcode j.desc == 0x41) = false) ∧
       (yields (exec (.tallySet h t v) s) (answered s h 0x0407 .ok [] fun d => d.setTally t { value := v }) = true))) = true := by decide +kernel

theorem test_paramCommands_1 :
    (have s : State := (st dev0)
     have h : CmdHdr := fmH
     have k : Nat := 0x0010
     have i : Nat := 0
     have v : U64 := 20
     have w : U64 := paramBits k v
     decide ((Accepts s h { device := true, fm := true } none) ∧
       (w = paramBits k v) ∧
       (s.dev.paramBad k i w = false) ∧
       (s.dev.paramHeld k i w = false) ∧
       (yields (exec (.paramSet h k i v) s) (answered s h 0x0702 .ok [s.dev.paramOld k i] fun d => d.paramApply k i w) = true))) = true := by decide +kernel

theorem test_paramCommands_2 :
    (have s : State := (st dev0)
     have h : CmdHdr := fmH
     have k : Nat := 0x0010
     have i : Nat := 0
     have v : U64 := 169
     decide ((Accepts s h { device := true, fm := true } none) ∧
       (s.dev.paramBad k i (paramBits k v) = true) ∧
       (yields (exec (.paramSet h k i v) s) (answered s h 0x0702 .format [] fun d => d) = true))) = true := by decide +kernel

theorem test_paramCommands_3 :
    (have s : State := (st { dev0 with pair := { dev0.pair with role := .standby } })
     have h : CmdHdr := fmH
     have k : Nat := 0x0063
     have i : Nat := 0
     have v : U64 := 4
     have w : U64 := paramBits k v
     decide ((Accepts s h { device := true, fm := true } none) ∧
       (w = paramBits k v) ∧
       (s.dev.paramBad k i w = false) ∧
       (s.dev.paramHeld k i w = true) ∧
       (yields (exec (.paramSet h k i v) s) (answered s h 0x0702 .noResource [] fun d => d) = true))) = true := by decide +kernel

theorem test_paramCommands_4 :
    (have s : State := (st dev0)
     have h : CmdHdr := fmH
     have i : Nat := 33
     have v : U64 := (BitVec.ofNat 64 (packBits [(0, 11, 500), (16, 15, 1024)]))
     have w : U64 := v &&& 0xFFFFFFFF7FFF07FF
     decide ((Accepts s h { device := true, fm := true } none) ∧
       (i < 1024) ∧
       (w = v &&& 0xFFFFFFFF7FFF07FF) ∧
       (policeBad w = false) ∧
       (yields (exec (.policeSet h i v) s) (answered s h 0x0702 .ok [s.dev.param 0x0024 i] fun d =>
      (d.setParam 0x0024 i w).modPort (i / 32) fun p =>
        { p with buckets := tset p.buckets (i % 32) { level := 640 * field w 16 15, at_ := d.now } }) = true))) = true := by decide +kernel

theorem test_paramCommands_5 :
    (have s : State := (st (devP { gateOn := true }))
     have h : CmdHdr := fmH
     have i : Nat := 3
     have v : U64 := 0
     decide ((Accepts s h { device := true, fm := true } none) ∧
       (i < 32) ∧
       (yields (exec (.gateCtrlSet h i v) s) (answered s h 0x0702 .ok [s.dev.param 0x0025 i] fun d =>
      let e := d.setParam 0x0025 i (v &&& 3)
      if bit v 0 then e else ((e.settleWaits i).modPort i fun p => { p with gateOn := false }).settleWaits i) = true))) = true := by decide +kernel

theorem test_paramCommands_6 :
    (have s : State := (st dev0)
     have h : CmdHdr := fmH
     have i : Nat := 65
     have v : U64 := 1000
     have w : U64 := v &&& 0xFFFFFFFF0FFFFFFF
     decide ((Accepts s h { device := true, fm := true } none) ∧
       (i < 4096) ∧
       (w = v &&& 0xFFFFFFFF0FFFFFFF) ∧
       (s.dev.gateEntryBad i w = false) ∧
       (s.dev.paramHeld 0x0027 i w = false) ∧
       (yields (exec (.gateEntrySet h i v) s) (answered s h 0x0702 .ok [s.dev.param 0x0027 i] fun d => d.setParam 0x0027 i w) = true))) = true := by decide +kernel

theorem test_paramCommands_7 :
    (have s : State := (st dev0)
     have h : CmdHdr := fmH
     decide ((Accepts s h { device := true, fm := true } none) ∧
       (s.dev.pair.enable = false) ∧
       (yields (exec (.pairEnableSet h 1) s) (answered s h 0x0702 .ok [0] fun d =>
      { d with pair := { d.pair with enable := true, role := .standby, sync := .unsynced, fullResync := true } }) = true))) = true := by decide +kernel

theorem test_paramCommands_8 :
    (have s : State := (st { dev0 with pair := { dev0.pair with enable := true, role := .active } })
     have h : CmdHdr := fmH
     decide ((Accepts s h { device := true, fm := true } none) ∧
       (s.dev.pair.enable = true) ∧
       (yields (exec (.pairEnableSet h 0) s) (answered s h 0x0702 .ok [1] fun d => { d with pair := { d.pair with
      enable := false, role := .offline, quiescing := false, handoffReady := false, returnRequest := false, holdSince := none
      alone := false, resync := none } }.dropFailed) = true))) = true := by decide +kernel

theorem test_paramCommands_9 :
    (have s : State := (st { dev0 with pair := { dev0.pair with enable := true, role := .standby, claim := 3, seenClaim := 7 } })
     have h : CmdHdr := fmH
     have c : U64 := 8
     decide ((Accepts s h { device := true, fm := true } none) ∧
       (s.dev.pair.role = .standby) ∧
       (c = (if s.dev.pair.claim.toNat < s.dev.pair.seenClaim.toNat then s.dev.pair.seenClaim else s.dev.pair.claim) + 1) ∧
       (ends (exec (.forceClaim h 1) s) (fun t => t.dev.pair.role == .active && t.dev.pair.claim == c) = true))) = true := by decide +kernel

theorem test_paramCommands_10 :
    (have s : State := (st dev0)
     have h : CmdHdr := fmH
     decide ((Accepts s h { device := true, fm := true } none) ∧
       (yields (exec (.domeReq h 1) s) (answered s h 0x0702 .ok [0] fun d => { d with sys := { d.sys with domeReqAt := some d.now } }) = true))) = true := by decide +kernel

theorem test_modeChanges_1 :
    (have s : State := (st1 dev0)
     have h : CmdHdr := devHd
     have m : ModeIn := { arbMode := some 1 }
     decide ((Accepts s h { device := true } none) ∧
       (s.dev.modeCheck m = none) ∧
       (s.dev.modeUnits m ≠ []) ∧
       (yields (exec (.modeChange h m) s) (answered s h 0x0601 .ok
      [BitVec.ofNat 64 (s.dev.hk.opNo + 1), (s.dev.sys.modeGen + 1).setWidth 64] fun d =>
      { d with hk := { d.hk with
          opNo := d.hk.opNo + 1, ops := d.hk.ops ++ [(d.hk.opNo + 1, LongOp.modeChange)]
          staged := some { mode := m, waiting := d.modeUnits m, since := d.now, op := d.hk.opNo + 1 } } }) = true))) = true := by decide +kernel

theorem test_modeChanges_2 :
    (have s : State := (st1 dev0)
     have h : CmdHdr := devHd
     have m : ModeIn := { queues := [] }
     decide ((Accepts s h { device := true } none) ∧
       (s.dev.modeCheck m = none) ∧
       (s.dev.modeUnits m = []) ∧
       ((m.paceUs.getD s.dev.hk.paceUs ≠ 0 ∨ s.dev.hk.paced = [])) ∧
       (yields (exec (.modeChange h m) s) (answered s h 0x0601 .ok
      [BitVec.ofNat 64 (s.dev.hk.opNo + 1), (s.dev.sys.modeGen + 1).setWidth 64] fun d =>
      inForce { d with hk := { d.hk with opNo := d.hk.opNo + 1, ops := d.hk.ops ++ [(d.hk.opNo + 1, LongOp.modeChange)] } } m
        (d.hk.opNo + 1)) = true))) = true := by decide +kernel

theorem test_modeChanges_3 :
    (have s : State := (st ({ dev0 with hk := { dev0.hk with opNo := 1, ops := [(1, LongOp.modeChange)], staged := some { mode := { arbMode := some 1 }, waiting := [(UnitKind.xbar, 0), (UnitKind.xbar, 1)], since := 4950000000, op := 1 } } }))
     have k : UnitKind := .xbar
     have n : Nat := 0
     have x : StagedMode := ({ mode := { arbMode := some 1 }, waiting := [(UnitKind.xbar, 0), (UnitKind.xbar, 1)], since := 4950000000, op := 1 })
     decide (((k ≠ .engine ∨ tget s.dev.engReset n = none)) ∧
       (s.dev.hk.staged = some x) ∧
       (x.waiting.filter (fun u => u != (k, n)) ≠ []) ∧
       (yields (exec (.unitModeAck k n) s) (s.onDev fun d =>
      { d with hk := { d.hk with staged := some { x with waiting := x.waiting.filter fun u => u != (k, n) } } }) = true))) = true := by decide +kernel

theorem test_modeChanges_4 :
    (have s : State := (st { ({ dev0 with hk := { dev0.hk with opNo := 1, ops := [(1, LongOp.modeChange)], staged := some { mode := { arbMode := some 1 }, waiting := [(UnitKind.xbar, 1)], since := 4950000000, op := 1 } } } : Dev) with hk := { ({ dev0 with hk := { dev0.hk with opNo := 1, ops := [(1, LongOp.modeChange)], staged := some { mode := { arbMode := some 1 }, waiting := [(UnitKind.xbar, 1)], since := 4950000000, op := 1 } } } : Dev).hk with paceUs := 50 } })
     have k : UnitKind := .xbar
     have n : Nat := 1
     have x : StagedMode := ({ mode := { arbMode := some 1 }, waiting := [(UnitKind.xbar, 1)], since := 4950000000, op := 1 })
     decide (((k ≠ .engine ∨ tget s.dev.engReset n = none)) ∧
       (s.dev.hk.staged = some x) ∧
       (x.waiting = [(k, n)]) ∧
       ((x.mode.paceUs.getD s.dev.hk.paceUs ≠ 0 ∨ s.dev.hk.paced = [])) ∧
       (yields (exec (.unitModeAck k n) s) (s.onDev fun d => inForce d x.mode x.op) = true))) = true := by decide +kernel

theorem test_modeChanges_5 :
    (have s : State := (st ({ dev0 with hk := { dev0.hk with opNo := 1, ops := [(1, LongOp.modeChange)], staged := some { mode := { arbMode := some 1 }, waiting := [(UnitKind.xbar, 1)], since := 4950000000, op := 1 } } }))
     have u : UnitKind × Nat := (.xbar, 1)
     have r : List (UnitKind × Nat) := []
     have x : StagedMode := ({ mode := { arbMode := some 1 }, waiting := [(UnitKind.xbar, 1)], since := 4950000000, op := 1 })
     decide ((s.dev.hk.staged = some x) ∧
       (x.waiting = u :: r) ∧
       (yields (exec .modeChangeTimeout s) (s.onDev fun d =>
      let e := d.reach (x.since + 100000000)
      ({ e with hk := { e.hk with staged := none } }.raise
        { code := .modeAbandoned, unit := some u, detail0 := some (BitVec.ofNat 64 (unitKindCode u.1)), detail1 := some (BitVec.ofNat 64 u.2) }).commandDone (some x.op) none .timeout) = true))) = true := by decide +kernel

theorem test_diagCommands_1 :
    (have s : State := (st dev0)
     have h : CmdHdr := fmH
     have m : Nat := 1
     have ws : List U64 := []
     decide ((Accepts s h { device := true, fm := true } none) ∧
       (m < 112) ∧
       (ws = (s.dev.unit m).log.flatMap (logWords m)) ∧
       (yields (exec (.logRead h m) s) (answered s h 0x0802 .ok [BitVec.ofNat 64 (8 * ws.length)] fun d => staged d h ws) = true))) = true := by decide +kernel

theorem test_diagCommands_2 :
    (have s : State := (st dev0)
     have h : CmdHdr := fmH
     have m : Nat := 1
     decide ((Accepts s h { device := true, fm := true } none) ∧
       (m < 112) ∧
       (yields (exec (.logClear h m) s) (answered s h 0x0803 .ok [] fun d =>
      let e := d.modUnit m fun u => { u with log := [] }
      { e with ctr := [Ctr.diUnitCe m, .diUnitNew m].foldl (fun c x => if ctrGet c x = 0 then c else ctrPut c x 0) e.ctr }) = true))) = true := by decide +kernel

theorem test_diagCommands_3 :
    (have s : State := (st dev0)
     have h : CmdHdr := fmH
     have k : Nat := 0
     have ws : List U64 := [0, 0]
     decide ((Accepts s h { device := true, fm := true } none) ∧
       ((counted { s.dev with out := [] }).counterBlock k = some ws) ∧
       (yields (exec (.countersRead h k) s) (answered s h 0x0804 .ok [BitVec.ofNat 64 (8 * ws.length)] fun d => staged (counted d) h ws) = true))) = true := by decide +kernel

theorem test_diagCommands_4 :
    (have s : State := (st1 { dev0 with hk := { dev0.hk with ops := [] } })
     have h : CmdHdr := devHd
     have u : Nat := 1
     have p : Nat := 1
     decide ((Accepts s h { device := true } none) ∧
       (u < 48) ∧
       (s.dev.unitOwner u = some p) ∧
       ((s.dev.unit u).dead = false) ∧
       ((s.dev.unit u).removed = false) ∧
       ((s.dev.unit u).trained = true) ∧
       (s.dev.rebuilds.any (fun r => r.unit == u) = false) ∧
       (yields (exec (.rebuildStart h u) s) (answered s h 0x0801 .ok [BitVec.ofNat 64 (s.dev.hk.opNo + 1)] fun d =>
      let o := d.hk.opNo + 1
      { d with hk := { d.hk with opNo := o, ops := d.hk.ops ++ [(o, LongOp.rebuild u)] } }.startRebuild u false (some o)) = true))) = true := by decide +kernel

theorem test_diagCommands_5 :
    (have s : State := (st1 ({ dev0 with parts := [(1, { (dev0.partn 1) with diag := true })] }))
     have h : CmdHdr := devHd
     have x : Extent := ⟨false, 1, 2⟩
     have line : Nat := 5
     have mask : BitVec 640 := 6
     have f : LineFault := {}
     decide ((Accepts s h { device := true } none) ∧
       (DiagOpen s.dev x line false) ∧
       ((x.near = false ∨ mask >>> 576 = 0)) ∧
       (s.dev.pool.fault (extM x) (extLine x line) = f) ∧
       (yields (exec (.injectFlip h x line mask) s) (answered s h 0x0805 .ok [] fun d =>
      { d with pool := d.pool.setFault (extM x) (extLine x line) { f with mask := f.mask ^^^ mask } }) = true))) = true := by decide +kernel

theorem test_diagCommands_6 :
    (have s : State := (st1 ({ dev0 with parts := [(1, { (dev0.partn 1) with diag := true })] }))
     have h : CmdHdr := devHd
     have x : Extent := ⟨false, 1, 2⟩
     decide ((Accepts s h { device := true } none) ∧
       (DiagOpen s.dev x 0 false) ∧
       (s.dev.heldExtents.any (fun e => extIs e (extM x) x.slot) = false) ∧
       (s.dev.spareUsed.contains (extM x, x.slot) = false) ∧
       ((extM x < 48 ∨ s.dev.poolUse (extM x - 48) x.slot = 0)) ∧
       (yields (exec (.rawModeEnter h x) s) (answered s h 0x0805 .ok [] fun d =>
      { d with pool := { d.pool with rawExtents := d.pool.rawExtents ++ [x] } }) = true))) = true := by decide +kernel

theorem test_diagCommands_7 :
    (have s : State := (st1 ({ dev0 with parts := [(1, { (dev0.partn 1) with diag := true })], pool := { dev0.pool with rawExtents := [⟨false, 1, 2⟩] } }))
     have h : CmdHdr := devHd
     have x : Extent := ⟨false, 1, 2⟩
     have line : Nat := 5
     have y : Line := 9
     have c : BitVec 128 := 3
     decide ((Accepts s h { device := true } none) ∧
       (DiagOpen s.dev x line true) ∧
       ((x.near = false ∨ c >>> 64 = 0)) ∧
       (yields (exec (.rawWrite h x line y c) s) (answered s h 0x0805 .ok [] fun d =>
      { d with pool := { d.pool with raw := tset d.pool.raw (lineKey (extM x) (extLine x line)) (y, c) } }) = true))) = true := by decide +kernel

theorem test_diagCommands_8 :
    (have s : State := st1 ({ dev0 with parts := [(1, { (dev0.partn 1) with diag := true })], pool := { dev0.pool with rawExtents := [⟨false, 1, 2⟩], raw := [(lineKey 1 (extLine ⟨false, 1, 2⟩ 5), (9, 3))] } })
     have h : CmdHdr := devHd
     have x : Extent := ⟨false, 1, 2⟩
     have line : Nat := 5
     have y : Line := 9
     have c : BitVec 128 := 3
     have w : BitVec 640 := codeword (decide (48 ≤ extM x)) y c
     decide ((Accepts s h { device := true } none) ∧
       (DiagOpen s.dev x line true) ∧
       (tget s.dev.pool.raw (lineKey (extM x) (extLine x line)) = some (y, c)) ∧
       (w = codeword (decide (48 ≤ extM x)) y c) ∧
       (ends (exec (.rawRead h x line) s) (fun t => t.mbx.devSeq == 1) = true))) = true := by decide +kernel

theorem test_diagCommands_9 :
    (have s : State := st1 ({ dev0 with parts := [(1, { (dev0.partn 1) with diag := true })], pool := { dev0.pool with rawExtents := [⟨false, 1, 2⟩], raw := [] } })
     have h : CmdHdr := devHd
     have x : Extent := ⟨false, 1, 2⟩
     have line : Nat := 5
     have k : WordClass := .valid
     have w : BitVec 640 := s.dev.rawStored (extM x) (extLine x line)
     decide ((Accepts s h { device := true } none) ∧
       (DiagOpen s.dev x line true) ∧
       (tget s.dev.pool.raw (lineKey (extM x) (extLine x line)) = none) ∧
       (classify (decide (48 ≤ extM x)) (s.dev.pool.fault (extM x) (extLine x line)) 0 = k) ∧
       (k ≠ .miscorrected) ∧
       (ends (exec (.rawRead h x line) s) (fun t => t.mbx.devSeq == 1) = true))) = true := by decide +kernel

theorem test_diagCommands_10 :
    (have s : State := (st1 ({ dev0 with parts := [(1, { (dev0.partn 1) with diag := true })], pool := { dev0.pool with rawExtents := [⟨false, 1, 2⟩] } }))
     have h : CmdHdr := devHd
     have x : Extent := ⟨false, 1, 2⟩
     decide ((Accepts s h { device := true } none) ∧
       (DiagOpen s.dev x 0 true) ∧
       (yields (exec (.rawModeExit h x) s) (answered s h 0x0805 .ok [] fun d =>
      let e := d.modUnit (extM x) fun u => { u with cleared := u.cleared.filter fun k => k != x.slot }
      { e with pool := { e.pool with rawExtents := e.pool.rawExtents.filter fun y => !extIs y (extM x) x.slot } }) = true))) = true := by decide +kernel

theorem test_diagCommands_11 :
    (have s : State := (st { dev0 with sys := { dev0.sys with trainStarted := 1 } })
     have c : Nat := 1
     decide ((s.dev.sys.live = true) ∧
       ((s.dev.unit (2 * c)).trained = true) ∧
       ((s.dev.unit (2 * c)).errTimes.length < 64) ∧
       (yields (exec (.ddrAlert c true false) s) (s.onDev fun d => d.modUnit (2 * c) fun u =>
      { u with errTimes := u.errTimes.filter (fun t => decide (d.now < t + 1000000)) ++ [d.now] }) = true))) = true := by decide +kernel

theorem test_cxlMailboxCommands_1 :
    (have s : State := st (devH false [])
     have h : Nat := 0
     decide ((MailboxUp s.dev h) ∧
       (ends (exec (.cxlIdentify h) s) (fun t => t.dev.out.length == 1 && decide ({ t.dev with out := [] } = { s.dev with out := [] })) = true))) = true := by decide +kernel

theorem test_cxlMailboxCommands_2 :
    (have s : State := (st { devH false [] with heads := [(0, { ((devH false []).head 0) with events := [{ log := 1, handle := 3, payload := [5] }, { log := 2, handle := 4, payload := [] }] })] })
     have h : Nat := 0
     have n : Nat := 1
     have xs : List CxlEvent := [{ log := 1, handle := 3, payload := [5] }]
     decide ((MailboxUp s.dev h) ∧
       (n < 5) ∧
       (xs = (s.dev.head h).events.filter (fun x => x.log == n)) ∧
       (yields (exec (.getEventRecords h n) s) (s.onDev fun d =>
      d.emit (.cxlMbox h 0 (BitVec.ofNat 64 xs.length :: xs.flatMap fun x => BitVec.ofNat 64 x.handle :: x.payload))) = true))) = true := by decide +kernel

theorem test_cxlMailboxCommands_3 :
    (have s : State := (st { devH false [] with heads := [(0, { ((devH false []).head 0) with events := [{ log := 1, handle := 3, payload := [5] }, { log := 2, handle := 4, payload := [] }] })] })
     have h : Nat := 0
     have n : Nat := 1
     decide ((MailboxUp s.dev h) ∧
       (n < 5) ∧
       (yields (exec (.clearEventRecords h n [] true) s) (s.onDev fun d =>
    (d.modHead h fun y => { y with events := y.events.filter fun x => x.log != n }).emit (.cxlMbox h 0 [])) = true))) = true := by decide +kernel

theorem test_cxlMailboxCommands_4 :
    (have s : State := (st (devH false []))
     have h : Nat := 0
     decide ((MailboxUp s.dev h) ∧
       (yields (exec (.getEventInterruptPolicy h) s) (s.onDev fun d =>
    d.emit (.cxlMbox h 0 [(d.head h).intPolicy.setWidth 64])) = true))) = true := by decide +kernel

theorem test_cxlMailboxCommands_5 :
    (have s : State := (st (devH false []))
     have h : Nat := 0
     have v : U32 := 9
     decide ((MailboxUp s.dev h) ∧
       (yields (exec (.setEventInterruptPolicy h v) s) (s.onDev fun d =>
    (d.modHead h fun y => { y with intPolicy := v }).emit (.cxlMbox h 0 [])) = true))) = true := by decide +kernel

theorem test_cxlMailboxCommands_6 :
    (have s : State := (st (devH false []))
     have h : Nat := 0
     decide ((MailboxUp s.dev h) ∧
       (yields (exec (.getFwInfo h) s) (s.onDev fun d =>
    d.emit (.cxlMbox h 0 [2, BitVec.ofNat 64 (1 + d.sys.bootSlotB.toNat), d.sys.slotStates])) = true))) = true := by decide +kernel

theorem test_cxlMailboxCommands_7 :
    (have s : State := (st (devH false []))
     have h : Nat := 0
     have xs : List Byte := [1, 2, 3]
     decide ((MailboxUp s.dev h) ∧
       ((h = 0 ∨ h = 2)) ∧
       (s.dev.sys.stage = .running) ∧
       (s.dev.sys.trialPending = false) ∧
       (s.dev.sys.downloading = false) ∧
       (xs.length ≤ 31457280) ∧
       (yields (exec (.transferFw h 0 xs true false true) s) (s.onDev fun d =>
      let x := d.sys.record .downloading (!d.sys.confirmed) d.sys.confirmed 0 0
      let e := { d with sys := { x with downloading := true, flash := memWriteList d.sys.flash (slotBase (!d.sys.confirmed)) xs } }
      e.emit (.cxlMbox h 0 [])) = true))) = true := by decide +kernel

theorem test_cxlMailboxCommands_8 :
    (have s : State := (st { devH false [] with sys := { (devH false []).sys with journal := [{ number := 2, state := .verified, slotB := true, confirmedB := false, trialBoots := 0, digest := 0 }] } })
     have h : Nat := 0
     have n : Nat := 2
     have r : FwRecord := ({ number := 2, state := .verified, slotB := true, confirmedB := false, trialBoots := 0, digest := 0 })
     decide ((MailboxUp s.dev h) ∧
       ((h = 0 ∨ h = 2)) ∧
       (s.dev.sys.stage = .running) ∧
       (s.dev.sys.journal.getLast? = some r) ∧
       (r.state = .verified) ∧
       (n = 1 + r.slotB.toNat) ∧
       (yields (exec (.activateFw h n false) s) (s.onDev fun d =>
      { d with sys := d.sys.record .trial r.slotB r.confirmedB 0 r.digest }.emit (.cxlMbox h 0 [])) = true))) = true := by decide +kernel

theorem test_cxlMailboxCommands_9 :
    (have s : State := (st (devH false []))
     have h : Nat := 0
     decide ((MailboxUp s.dev h) ∧
       (yields (exec (.getTimestamp h) s) (s.onDev fun d =>
    d.emit (.cxlMbox h 0 [BitVec.ofNat 64 d.now + (d.head h).tsOffset])) = true))) = true := by decide +kernel

theorem test_cxlMailboxCommands_10 :
    (have s : State := (st (devH false []))
     have h : Nat := 0
     have t : U64 := 77
     decide ((MailboxUp s.dev h) ∧
       (yields (exec (.setTimestamp h t) s) (s.onDev fun d =>
    (d.modHead h fun y => { y with tsOffset := t - BitVec.ofNat 64 d.now }).emit (.cxlMbox h 0 [])) = true))) = true := by decide +kernel

theorem test_cxlMailboxCommands_11 :
    (have s : State := (st (devH false []))
     have h : Nat := 0
     decide ((MailboxUp s.dev h) ∧
       (yields (exec (.getSupportedLogs h) s) (s.onDev fun d =>
    d.emit (.cxlMbox h 0 [0, BitVec.ofNat 64 (8 * (cxlOpcodes h).length), 1, BitVec.ofNat 64 (8 * (d.units.flatMap fun u => u.2.log.flatMap (logWords u.1)).length)])) = true))) = true := by decide +kernel

theorem test_cxlMailboxCommands_12 :
    (have s : State := (st (devH false []))
     have h : Nat := 0
     have k : Nat := 0
     have off : Nat := 8
     have len : Nat := 16
     have ws : List U64 := (cxlOpcodes h).map (fun x => BitVec.ofNat 64 x)
     decide ((MailboxUp s.dev h) ∧
       ((k = 0 ∧ ws = (cxlOpcodes h).map (fun x => BitVec.ofNat 64 x) ∨
      k = 1 ∧ ws = s.dev.units.flatMap fun u => u.2.log.flatMap (logWords u.1))) ∧
       (off % 8 = 0) ∧
       (len % 8 = 0) ∧
       (off + len ≤ 8 * ws.length) ∧
       (yields (exec (.getLog h k off len) s) (s.onDev fun d => d.emit (.cxlMbox h 0 ((ws.drop (off / 8)).take (len / 8)))) = true))) = true := by decide +kernel

theorem test_cxlMailboxCommands_13 :
    (have s : State := (st (devH false []))
     have h : Nat := 0
     have n : Nat := 384
     decide ((MailboxUp s.dev h) ∧
       (n = (s.dev.units.filter (fun u => u.2.trained && !u.2.dead)).foldl (fun a u => a + u.2.slots) 0) ∧
       (yields (exec (.identifyMemoryDevice h) s) (s.onDev fun d => d.emit (.cxlMbox h 0 [BitVec.ofNat 64 n, BitVec.ofNat 64 n, 0])) = true))) = true := by decide +kernel

theorem test_cxlMailboxCommands_14 :
    (have s : State := st (devH false [])
     have h : Nat := 0
     decide ((MailboxUp s.dev h) ∧
       (ends (exec (.getHealthInfo h) s) (fun t => t.dev.out.length == 1 && t.dev.free == s.dev.free + 1) = true))) = true := by decide +kernel

theorem test_cxlMailboxCommands_15 :
    (have s : State := (st (devH false []))
     have h : Nat := 0
     decide ((MailboxUp s.dev h) ∧
       (yields (exec (.getAlertConfiguration h) s) (s.onDev fun d =>
    d.emit (.cxlMbox h 0 [(d.head h).alertCfg.setWidth 64, ((d.head h).alertCfg >>> 64).setWidth 64])) = true))) = true := by decide +kernel

theorem test_cxlMailboxCommands_16 :
    (have s : State := (st (devH false []))
     have h : Nat := 0
     have v : U128 := 0x10000000000000002
     decide ((MailboxUp s.dev h) ∧
       (yields (exec (.setAlertConfiguration h v) s) (s.onDev fun d =>
    (d.modHead h fun y => { y with alertCfg := v }).emit (.cxlMbox h 0 [])) = true))) = true := by decide +kernel

theorem test_cxlMailboxCommands_17 :
    (have s : State := (st (devH false []))
     have h : Nat := 0
     have ps : List Nat := []
     decide ((MailboxUp s.dev h) ∧
       (ps = s.dev.poisonList h) ∧
       (yields (exec (.getPoisonList h) s) (s.onDev fun d =>
      d.emit (.cxlMbox h 0 (BitVec.ofNat 64 ps.length :: ps.map fun a => BitVec.ofNat 64 a))) = true))) = true := by decide +kernel

theorem test_cxlMailboxCommands_18 :
    (have s : State := (st (devH false []))
     have h : Nat := 0
     decide ((MailboxUp s.dev h) ∧
       (yields (exec (.getDcConfiguration h) s) (s.onDev fun d =>
    d.emit (.cxlMbox h 0 (8 :: (List.range 8).flatMap fun i =>
      [BitVec.ofNat 64 (i * 4398046511104), 4398046511104, 268435456, if (tget (d.head h).dcr i).isSome then 1 else 0]))) = true))) = true := by decide +kernel

theorem test_cxlMailboxCommands_19 :
    (have s : State := st { devH false [] with heads := [(0, { ((devH false []).head 0) with extents := [dcx none] })] }
     have h : Nat := 0
     have xs : List DcExtent := (s.dev.head h).extents.filter (fun x => !x.released)
     have g : DcExtent → Nat := fun x => packBits [(0, 16, x.region), (16, 1, x.r.toNat), (17, 1, x.w.toNat), (32, 64, x.offset), (96, 32, x.duration)]
     decide ((MailboxUp s.dev h) ∧
       (xs = (s.dev.head h).extents.filter (fun x => !x.released)) ∧
       (g (dcx none) = packBits [(0, 16, 3), (16, 1, 1), (17, 1, 1), (96, 32, 30)]) ∧
       (yields (exec (.getDcExtentList h) s) (s.onDev fun d => d.emit (.cxlMbox h 0 (BitVec.ofNat 64 xs.length :: xs.flatMap fun x =>
      [BitVec.ofNat 64 x.dpa, BitVec.ofNat 64 x.length, BitVec.ofNat 64 (g x), BitVec.ofNat 64 (g x / 18446744073709551616)]))) = true))) = true := by decide +kernel

theorem test_cxlMailboxCommands_20 :
    (have s : State := (st (devH false []))
     have h : Nat := 0
     have n : Nat := 0x7777
     decide ((MailboxUp s.dev h) ∧
       ((cxlOpcodes h).contains n = false) ∧
       (yields (exec (.cxlMailboxUnsupported h n) s) (s.onDev fun d => d.emit (.cxlMbox h mboxUnsupported [])) = true))) = true := by decide +kernel

theorem test_cxlMailboxCommands_21 :
    (have s : State := (st (devH false []))
     have p : SpdmPath := .sideband
     decide ((s.dev.sys.inDome = false) ∧
       (s.dev.sys.resetN = true) ∧
       (s.dev.sys.islandsOff = false) ∧
       (s.dev.spdmPath p = true) ∧
       (yields (exec (.spdmRequest p .getVersion) s) (s.onDev fun d => d.emit (.spdm p [0x04, 0x12, 0x13])) = true))) = true := by decide +kernel

theorem test_cxlMailboxCommands_22 :
    (have s : State := st (devH false [])
     have p : SpdmPath := .sideband
     have i : Nat := 5
     decide ((s.dev.sys.inDome = false) ∧
       (s.dev.sys.resetN = true) ∧
       (s.dev.sys.islandsOff = false) ∧
       (s.dev.spdmPath p = true) ∧
       (s.dev.sys.lifeCycle ≠ .retired) ∧
       (measured i = true) ∧
       (ends (exec (.spdmRequest p (.getMeasurement i)) s) (fun t => t.dev.out.length == 1 && t.dev.free == s.dev.free + 1) = true))) = true := by decide +kernel

theorem test_cxlMailboxCommands_23 :
    (have s : State := (st { dev0 with sys := { dev0.sys with lifeCycle := .retired } })
     have p : SpdmPath := .sideband
     have r : SpdmReq := .getCapabilities
     decide ((s.dev.sys.inDome = false) ∧
       (s.dev.sys.resetN = true) ∧
       (s.dev.sys.islandsOff = false) ∧
       (s.dev.spdmPath p = true) ∧
       (s.dev.sys.lifeCycle = .retired) ∧
       (r ≠ .getVersion) ∧
       (yields (exec (.spdmRequest p r) s) (s.onDev fun d => d.emit (.spdmError p)) = true))) = true := by decide +kernel

theorem test_cxlMailboxCommands_24 :
    (have s : State := (st (devH false []))
     have h : Nat := 0
     have k : Nat := 2
     have n : Nat := 1
     decide ((MailboxUp s.dev h) ∧
       (k < 6) ∧
       (n < 2) ∧
       (s.dev.sys.lifeCycle ≠ .retired) ∧
       (yields (exec (.ideKmKeyProg h k n true) s) (s.onDev fun d => d.modHead h fun y =>
      { y with ideKeys := y.ideKeys.filter (fun z => z != (k, n)) ++ [(k, n)] }) = true))) = true := by decide +kernel

theorem test_pairPaths_1 :
    (have s : State := (st ({ dev0 with pair := { dev0.pair with enable := true }, sys := { dev0.sys with startedAt := 0, straps := { mringEn := true } } }))
     decide ((s.dev.beats = true) ∧
       (ends (exec .heartbeatSend s) (fun t => t.dev.pair.hbSeq == s.dev.pair.hbSeq + 1) = true))) = true := by decide +kernel

theorem test_pairPaths_2 :
    (have s : State := st ({ dev0 with pair := { dev0.pair with enable := true, role := .active, partnerId := 44, claim := 5, seenClaim := 5 }, sys := { dev0.sys with startedAt := 0 }, rt := devR.rt, ports := devR.ports, ranks := devR.ranks, wins := devR.wins })
     have n : Nat := 3
     have p : Packet := ({ pkt5 .heartbeat with data := [hbLine ({ deviceId := 44, claim := 1, seenClaim := 1, seenId := 44, hbSeq := 9, role := 1, preferred := true })] })
     have x : FlowRx := ({ flow := { src := 5, dst := 0, tc := 2 }, e := 4 })
     have hb : Heartbeat := ({ deviceId := 44, claim := 1, seenClaim := 1, seenId := 44, hbSeq := 9, role := 1, preferred := true })
     decide ((p.kind = .heartbeat) ∧
       (hbOfLine (p.data.headD 0) = hb) ∧
       (NextOfFlow s.dev n p x) ∧
       (s.dev.pair.enable = true) ∧
       (hb.deviceId = s.dev.pair.partnerId) ∧
       ((s.dev.pair.fabric.lastSeq).all (fun q => decide (q.toNat < hb.hbSeq.toNat)) = true) ∧
       (hb.claim.toNat < s.dev.pair.claim.toNat) ∧
       (hb.claim.toNat < s.dev.pair.seenClaim.toNat) ∧
       (hb.seenClaim.toNat < s.dev.pair.claim.toNat) ∧
       (hb.seenClaim.toNat < s.dev.pair.seenClaim.toNat) ∧
       (s.dev.pair.role = .active) ∧
       (hb.preferred ≠ s.dev.sys.straps.pairPref) ∧
       (hb.returnRequest = false) ∧
       (True))) = true := by decide +kernel

theorem test_pairPaths_3 :
    (have s : State := st ({ dev0 with pair := { dev0.pair with enable := true, role := .active, partnerId := 44, claim := 5, seenClaim := 5 }, sys := { dev0.sys with startedAt := 0 }, rt := devR.rt, ports := devR.ports, ranks := devR.ranks, wins := devR.wins })
     have n : Nat := 3
     have p : Packet := ({ pkt5 .heartbeat with data := [hbLine ({ deviceId := 44, claim := 8, seenClaim := 8, seenId := 44, hbSeq := 9, role := 1, preferred := true })] })
     have x : FlowRx := ({ flow := { src := 5, dst := 0, tc := 2 }, e := 4 })
     have hb : Heartbeat := ({ deviceId := 44, claim := 8, seenClaim := 8, seenId := 44, hbSeq := 9, role := 1, preferred := true })
     decide ((p.kind = .heartbeat) ∧
       (hbOfLine (p.data.headD 0) = hb) ∧
       (NextOfFlow s.dev n p x) ∧
       (s.dev.pair.enable = true) ∧
       (hb.deviceId = s.dev.pair.partnerId) ∧
       (s.dev.pair.fabric.lastSeq = none) ∧
       (s.dev.pair.claim.toNat < hb.claim.toNat) ∧
       (s.dev.pair.seenClaim.toNat < hb.claim.toNat) ∧
       (hb.seenClaim = hb.claim) ∧
       (hb.seenId = hb.deviceId) ∧
       (s.dev.pair.role = .active) ∧
       (hb.preferred ≠ s.dev.sys.straps.pairPref) ∧
       (hb.handoffReady = false) ∧
       (True))) = true := by decide +kernel

theorem test_pairPaths_4 :
    (have s : State := (st dev0)
     have hb : Heartbeat := ({ deviceId := 44, claim := 1, seenClaim := 1, seenId := 44, hbSeq := 9, role := 1, preferred := true })
     have k : Nat := 2
     decide ((yields (exec (.ringMessageReceive hb k false) s) (s.onDev fun d => d) = true))) = true := by decide +kernel

theorem test_pairPaths_9 :
    (have s : State := (st ({ dev0 with pair := { dev0.pair with enable := true, fabric := { failed := false, seen := true }, ring := { failed := false, seen := true } }, sys := { dev0.sys with startedAt := 0 } }))
     decide ((s.dev.sys.live = true) ∧
       (s.dev.pair.enable = true) ∧
       (s.dev.pair.fabric.failed = false) ∧
       (s.dev.pair.ring.failed = false) ∧
       (s.dev.pair.fabric.seen = true) ∧
       (s.dev.pair.ring.seen = true) ∧
       (s.dev.pair.split = false) ∧
       (yields (exec .heartbeatPeriod s) (s.onDev fun d => { d with pair := { d.pair with
      fabric := { d.pair.fabric with missed := 0, good := d.pair.fabric.good + 1, seen := false }
      ring := { d.pair.ring with missed := 0, good := d.pair.ring.good + 1, seen := false }
      isolated := false, bothFailedAt := none, disagreeSince := none } }) = true))) = true := by decide +kernel

theorem test_pairPaths_10 :
    (have s : State := (st ({ dev0 with pair := { dev0.pair with enable := true, sync := .synced, fabric := { failed := false, missed := 9 }, ring := { failed := false, seen := true } }, sys := { dev0.sys with startedAt := 0 } }))
     decide ((s.dev.sys.live = true) ∧
       (s.dev.pair.enable = true) ∧
       (s.dev.pair.fabric.failed = false) ∧
       (s.dev.pair.ring.failed = false) ∧
       (s.dev.pair.fabric.seen = false) ∧
       (s.dev.pair.fabric.missed = 9) ∧
       (s.dev.pair.ring.seen = true) ∧
       (s.dev.pair.sync = .synced) ∧
       (yields (exec .heartbeatPeriod s) (s.onDev fun d =>
      let e : Dev := { d with pair := { d.pair with
        fabric := { failed := true, missed := 10, good := 0, seen := false, lastSeq := none, failedAt := d.now }
        ring := { d.pair.ring with missed := 0, good := d.pair.ring.good + 1, seen := false } } }
      let f := e.raise { code := .pairPathFailed, detail0 := some 0 }
      { f with pair := { f.pair with
          isolated := false, bothFailedAt := none
          disagreeSince := if d.pair.disagreeSince.isSome then d.pair.disagreeSince else some d.now } }) = true))) = true := by decide +kernel

theorem test_pairPaths_11 :
    (have s : State := (st ({ dev0 with pair := { dev0.pair with enable := true, disagreeSince := some 4950000000 }, sys := { dev0.sys with startedAt := 0 } }))
     have t : Nat := 4950000000
     decide ((s.dev.pair.disagreeSince = some t) ∧
       (s.dev.pair.split = false) ∧
       (yields (exec .discrepancyTimer s) (s.onDev fun d =>
      let e : Dev := { d with now := max d.now (t + d.pair.discMs * 1000000), pair := { d.pair with split := true } }
      e.raise { code := .pairSplit, detail0 := some (if d.pair.fabric.failed then 0 else 1), detail1 := some (BitVec.ofNat 64 ((e.now - t) / 1000000)) }) = true))) = true := by decide +kernel

theorem test_pairPaths_12 :
    (have s : State := (st ({ dev0 with pair := { dev0.pair with ringWhole := true }, sys := { dev0.sys with startedAt := 0 } }))
     decide ((s.dev.pair.ringWhole = true) ∧
       (yields (exec .ringWholeTimer s) (s.onDev fun d => { d with
      now := max d.now (d.pair.ownReturn.getD d.sys.startedAt + 2000000), pair := { d.pair with ringWhole := false } }.pairDecide) = true))) = true := by decide +kernel

theorem test_pairPaths_13 :
    (have s : State := (st ({ dev0 with pair := { dev0.pair with ringWhole := false }, sys := { dev0.sys with startedAt := 0 } }))
     decide ((s.dev.pair.ringWhole = false) ∧
       (s.dev.pair.brokenRaised = false) ∧
       (yields (exec .ringWholeTimer s) (s.onDev fun d =>
      let e : Dev := { d with
        now := max d.now (d.pair.ownReturn.getD d.sys.startedAt + 3000000), pair := { d.pair with brokenRaised := true } }
      e.raise { code := .ringBroken }) = true))) = true := by decide +kernel

theorem test_pairPaths_14 :
    (have s : State := (st dev0)
     decide ((yields (exec .mringLockLoss s) (s.onDev fun d => { d with
    sys := { d.sys with mringByp := if d.sys.straps.mringEn then .low else .hiZ }, pair := { d.pair with ringLock := false } }) = true))) = true := by decide +kernel

theorem test_pairPaths_15 :
    (have s : State := (st ({ dev0 with pair := { dev0.pair with enable := true }, sys := { dev0.sys with startedAt := 0, straps := { mringEn := true } } }))
     decide ((s.dev.sys.straps.mringEn = true) ∧
       (yields (exec .mringLockGain s) (s.onDev fun d => { d with
    now := max d.now (d.now + 100000), sys := { d.sys with mringByp := .high }, pair := { d.pair with ringLock := true } }) = true))) = true := by decide +kernel

theorem test_pairControl_1 :
    (have s : State := (st ({ dev0 with pair := { dev0.pair with enable := true, role := .standby, bothFailedAt := some 4999000000 }, sys := { dev0.sys with startedAt := 0 } }))
     have t : Nat := 4999000000
     decide ((s.dev.pair.bothFailedAt = some t) ∧
       (s.dev.pair.enable = true) ∧
       (s.dev.pair.role = .standby) ∧
       (s.dev.pair.sync ≠ .synced) ∧
       (yields (exec .pairTakeover s) (s.onDev fun d =>
      let e : Dev := { d with now := max d.now (t + 2000000), pair := { d.pair with bothFailedAt := none } }
      e.raise { code := .pairNoTakeover, detail0 := some (BitVec.ofNat 64 (syncCode d.pair.sync)), detail1 := some (if d.sys.straps.mringEn then 1 else 0) }) = true))) = true := by decide +kernel

theorem test_pairControl_2 :
    (have s : State := (st ({ dev0 with pair := { dev0.pair with enable := true, role := .standby, sync := .synced, claim := 5, ringWhole := true, bothFailedAt := some 4999000000 }, sys := { dev0.sys with startedAt := 0, straps := { mringEn := true } } }))
     have t : Nat := 4999000000
     have c : U64 := 6
     decide ((s.dev.pair.bothFailedAt = some t) ∧
       (s.dev.pair.enable = true) ∧
       (s.dev.pair.role = .standby) ∧
       (s.dev.pair.sync = .synced) ∧
       (s.dev.sys.straps.mringEn = true) ∧
       (s.dev.pair.ringWhole = true) ∧
       (s.dev.pair.singleton = false) ∧
       (c = (if s.dev.pair.claim.toNat < s.dev.pair.seenClaim.toNat then s.dev.pair.seenClaim else s.dev.pair.claim) + 1) ∧
       (ends (exec .pairTakeover s) (fun t => t.dev.pair.role == .active && t.dev.pair.claim == c) = true))) = true := by decide +kernel

theorem test_pairControl_3 :
    (have s : State := (st ({ dev0 with pair := { dev0.pair with enable := true, role := .active, holdSince := some 4999000000 }, sys := { dev0.sys with startedAt := 0 } }))
     have t : Nat := 4999000000
     decide ((s.dev.pair.holdSince = some t) ∧
       (s.dev.pair.mirrors = []) ∧
       (yields (exec .mirrorHoldEnd s) (s.onDev fun d => { d with
      now := max d.now (t + d.pair.discMs * 1000000), pair := { d.pair with alone := true, sync := .unsynced, holdSince := none } }) = true))) = true := by decide +kernel

theorem test_pairControl_4 :
    (have s : State := (st ({ dev0 with pair := { dev0.pair with enable := true, role := .active, holdSince := some 4999000000, mirrors := [{ id := 1, region := 3, offset := 128, lines := [5], client := .hostWrite 0 5 0, failed := true }] }, sys := { dev0.sys with startedAt := 0 } }))
     have t : Nat := 4999000000
     have h : Nat := 0
     have y : Line := 5
     have en : U64 := 0
     have m : MirrorWrite := ({ id := 1, region := 3, offset := 128, lines := [5], client := .hostWrite 0 5 0, failed := true })
     decide ((s.dev.pair.holdSince = some t) ∧
       (s.dev.pair.mirrors = [m]) ∧
       (m.failed = true) ∧
       (m.client = .hostWrite h y en) ∧
       (s.dev.pair.pendingPages.contains (m.region, m.offset / pageBytes) = false) ∧
       (yields (exec .mirrorHoldEnd s) (s.onDev fun d =>
      let e : Dev := { d with
        now := max d.now (t + d.pair.discMs * 1000000)
        pair := { d.pair with
          alone := true, sync := .unsynced, holdSince := none, mirrors := []
          pendingPages := d.pair.pendingPages ++ [(m.region, m.offset / pageBytes)] } }
      e.emit (.cxlDone h)) = true))) = true := by decide +kernel

theorem test_pairControl_5 :
    (have s : State := (st ({ dev0 with pair := { dev0.pair with enable := true, role := .active, fabric := { failed := false }, ring := { failed := false }, partner := some ({ deviceId := 44, claim := 1, seenClaim := 1, seenId := 44, hbSeq := 9, role := 1, preferred := true }) }, sys := { dev0.sys with startedAt := 0 } }))
     have r : Resync := { full := false, todo := [], total := 0 }
     decide ((s.dev.resyncReady = true) ∧
       (s.dev.resyncPlan = r) ∧
       (r.todo = []) ∧
       (ends (exec .resyncStart s) (fun t => t.dev.pair.sync == .synced && t.dev.pair.resync == none) = true))) = true := by decide +kernel

theorem test_pairControl_6 :
    (have s : State := (st ({ dev0 with pair := { dev0.pair with enable := true, role := .active, fabric := { failed := false }, ring := { failed := false }, partner := some ({ deviceId := 44, claim := 1, seenClaim := 1, seenId := 44, hbSeq := 9, role := 1, preferred := true }), entries := [(0, { region := 3, valid := true })], pendingPages := [(3, 2)] }, sys := { dev0.sys with startedAt := 0 } }))
     have r : Resync := { full := false, todo := [(0, 2)], total := 1 }
     have e : Nat := 0
     have pg : Nat := 2
     have l : List (Nat × Nat) := []
     decide ((s.dev.resyncReady = true) ∧
       (s.dev.resyncPlan = r) ∧
       (r.todo = (e, pg) :: l) ∧
       (ends (exec .resyncStart s) (fun t => t.dev.pair.resync == some r) = true))) = true := by decide +kernel

theorem test_pairControl_7 :
    (have s : State := (st ({ dev0 with pair := { dev0.pair with resync := some { full := false, todo := [(0, 2)], total := 2 }, sync := .resync }, sys := { dev0.sys with startedAt := 0 } }))
     have r : Resync := { full := false, todo := [(0, 2)], total := 2 }
     have e : Nat := 0
     have pg : Nat := 2
     decide ((s.dev.pair.resync = some r) ∧
       (s.dev.pair.sync = .resync) ∧
       (s.dev.rt.reqs.all (fun q => q.purpose != .resync) = true) ∧
       (r.todo = [(e, pg)]) ∧
       (yields (exec .resyncPageDone s) (s.onDev fun d =>
      { d with pair := { d.pair with
          resync := none, pendingPages := [], fullResync := false, sync := .synced, alone := false } }.raise
        { code := .pairResyncDone, detail0 := some (BitVec.ofNat 64 r.total), detail1 := some (if r.full then 1 else 0) }) = true))) = true := by decide +kernel

theorem test_pairControl_8 :
    (have s : State := (st ({ dev0 with pair := { dev0.pair with resync := some { full := false, todo := [(0, 2), (0, 5)], total := 2 }, sync := .resync, entries := [(0, { region := 3, valid := true })] }, sys := { dev0.sys with startedAt := 0 } }))
     have r : Resync := { full := false, todo := [(0, 2), (0, 5)], total := 2 }
     have e : Nat := 0
     have pg : Nat := 2
     have e2 : Nat := 0
     have p2 : Nat := 5
     have l : List (Nat × Nat) := []
     decide ((s.dev.pair.resync = some r) ∧
       (s.dev.pair.sync = .resync) ∧
       (s.dev.rt.reqs.all (fun q => q.purpose != .resync) = true) ∧
       (r.todo = (e, pg) :: (e2, p2) :: l) ∧
       (ends (exec .resyncPageDone s) (fun t => t.dev.pair.resync == some { r with todo := (e2, p2) :: l }) = true))) = true := by decide +kernel

theorem test_pairControl_9 :
    (have s : State := (st ({ dev0 with pair := { dev0.pair with enable := true, role := .standby, sync := .synced, partner := some ({ deviceId := 44, claim := 1, seenClaim := 1, seenId := 44, hbSeq := 9, role := 1, preferred := false }) }, sys := { dev0.sys with startedAt := 0, straps := { pairPref := true } } }))
     decide ((s.dev.mayReturn = true) ∧
       (s.dev.pair.retryAt = none) ∧
       (yields (exec .returnRequest s) (s.onDev fun d =>
    { d with pair := { d.pair with returnRequest := true, requestAt := d.now } }) = true))) = true := by decide +kernel

theorem test_pairControl_10 :
    (have s : State := (st ({ dev0 with pair := { dev0.pair with returnRequest := true, requestAt := 4980000000 }, sys := { dev0.sys with startedAt := 0 } }))
     decide ((s.dev.pair.returnRequest = true) ∧
       (yields (exec .returnTimeout s) (s.onDev fun d =>
    let t := max d.now (d.pair.requestAt + 100000000)
    { d with now := t, pair := { d.pair with returnRequest := false, retryAt := some (t + 10000000000) } }.raise
      { code := .pairReturnAbandoned }) = true))) = true := by decide +kernel

theorem test_pairControl_11 :
    (have s : State := (st ({ dev0 with pair := { dev0.pair with enable := true, role := .standby, sync := .synced, partner := some ({ deviceId := 44, claim := 1, seenClaim := 1, seenId := 44, hbSeq := 9, role := 1, preferred := false }), retryAt := some 5100000000 }, sys := { dev0.sys with startedAt := 0, straps := { pairPref := true } } }))
     have t : Nat := 5100000000
     decide ((s.dev.pair.retryAt = some t) ∧
       (s.dev.mayReturn = true) ∧
       (yields (exec .returnRetry s) (s.onDev fun d =>
    { d with now := max d.now t, pair := { d.pair with retryAt := none, returnRequest := true, requestAt := max d.now t } }) = true))) = true := by decide +kernel

theorem test_pairControl_12 :
    (have s : State := (st ({ dev0 with pair := { dev0.pair with quiescing := true, quiescedAt := 4980000000 }, sys := { dev0.sys with startedAt := 0 } }))
     decide ((s.dev.pair.quiescing = true) ∧
       (yields (exec .handoffTimeout s) (s.onDev fun d => { d with
    now := max d.now (d.pair.quiescedAt + 100000000), pair := { d.pair with quiescing := false, handoffReady := false } }) = true))) = true := by decide +kernel

theorem test_detectorsAndTests_1 :
    (have s : State := (st ({ dev0 with pair := { dev0.pair with enable := true, role := .standby, entries := [(0, { region := 3, valid := true })] } }))
     have m : Nat := 0
     have line : Nat := 0
     decide ((s.dev.sys.live = true) ∧
       (s.dev.pair.role = .standby) ∧
       (s.dev.pair.patrolPos < s.dev.pairLines) ∧
       (s.dev.patrolLine s.dev.pair.patrolPos = some (m, line)) ∧
       ((s.dev.unit m).retrain = none) ∧
       (s.dev.pool.fault m line = {}) ∧
       (yields (exec (.standbyPatrol 0 0) s) (s.onDev fun d => { d with pair := { d.pair with patrolPos := d.pair.patrolPos + 1 } }) = true))) = true := by decide +kernel

theorem test_detectorsAndTests_2 :
    (have s : State := (st dev0)
     have n : Nat := 3
     decide ((yields (exec (.engineIdleSelftest n true) s) (s.onDev fun d => d) = true))) = true := by decide +kernel

theorem test_detectorsAndTests_3 :
    (have s : State := (st ({ dev0 with pair := { dev0.pair with enable := true, role := .standby, entries := [(0, { region := 3, valid := true })] } }))
     have n : Nat := 3
     decide ((s.dev.sys.live = true) ∧
       (s.dev.pair.role = .standby) ∧
       (s.dev.engineJobs n = []) ∧
       (tget s.dev.engReset n = none) ∧
       (bit s.dev.engFailed n = false) ∧
       (yields (exec (.engineIdleSelftest n false) s) (s.onDev fun d =>
      ({ d with pair := { d.pair with engineFail := d.pair.engineFail + 1 } }.raise
        { code := .pairSelftestFail, unit := some (.engine, n), detail0 := some (BitVec.ofNat 64 (unitKindCode .engine))
          detail1 := some (BitVec.ofNat 64 n) }).resetEngine n 1) = true))) = true := by decide +kernel

theorem test_detectorsAndTests_4 :
    (have s : State := (st ({ dev0 with pair := { dev0.pair with enable := true, role := .standby, entries := [(0, { region := 3, valid := true })] } }))
     have v : U32 := 5
     decide ((s.dev.pair.enable = true) ∧
       (s.dev.pair.role = .standby) ∧
       (yields (exec (.portLoopbackTest v) s) (s.onDev fun d => { d with pair := { d.pair with loopbackFail := ((bitsOf v).filter fun n =>
      (d.port n).state == .disabled || (d.port n).state == .absent).length } }) = true))) = true := by decide +kernel

theorem test_detectorsAndTests_5 :
    (have s : State := (st (devJ (job4 (desc 0x20 []) (.engines [1]))))
     have n : Nat := 1
     have j : Job := (job4 (desc 0x20 []) (.engines [1]))
     decide ((s.dev.engineJobs n = [j]) ∧
       (yields (exec (.engineHangDetect n) s) (s.onDev fun d =>
    ({ d with now := max d.now (j.lastAccess + (d.param 0x0040 0).toNat * 1000) }.raise
      { code := .unitHung, unit := some (.engine, n), part := some j.partition, context := some (dCtx j.desc), queue := some j.queue
        tag := some (BitVec.ofNat 16 (dTag j.desc)), detail0 := some (BitVec.ofNat 64 ((d.param 0x0040 0).toNat * 1000 / 1000))
        detail1 := some ((tgetD d.engGen n 0).setWidth 64) }).resetEngine n 0) = true))) = true := by decide +kernel

theorem test_detectorsAndTests_6 :
    (have s : State := (st (devJ (job4 (desc 0x30 []) (.mover 0 0))))
     have n : Nat := 0
     have c : Nat := 0
     have j : Job := (job4 (desc 0x30 []) (.mover 0 0))
     have t : Nat := j.dispatchedAt
     decide ((s.dev.moverJobs n = [j]) ∧
       (j.unit = .mover n c) ∧
       (s.dev.runsNow j = true) ∧
       (dOpcode j.desc = 0x30 ∧ j.chain = none ∧ t = j.dispatchedAt) ∧
       (yields (exec (.moverHangDetect n c) s) (s.onDev fun d =>
    ({ d with now := max d.now (t + (d.param 0x0041 0).toNat * 1000) }.raise
      { code := .unitHung, unit := some (.mover, n), part := some j.partition, context := some (dCtx j.desc), queue := some j.queue
        tag := some (BitVec.ofNat 16 (dTag j.desc)), detail0 := some (BitVec.ofNat 64 ((d.param 0x0041 0).toNat * 1000 / 1000))
        detail1 := some ((tgetD d.movGen n 0).setWidth 64) }).resetMover n 0) = true))) = true := by decide +kernel

theorem test_detectorsAndTests_7 :
    (have s : State := (st dev0)
     have m : Nat := 1
     have r : Nat := 0
     have b : Nat := 2
     decide ((s.dev.sys.live = true) ∧
       ((s.dev.unit m).trained = true) ∧
       ((s.dev.unit m).dead = false) ∧
       ((s.dev.unit m).removed = false) ∧
       ((s.dev.unit m).retrain = none) ∧
       (yields (exec (.mcHangDetect m r b) s) (s.onDev fun d =>
    ({ d with now := max d.now (d.now + (d.param 0x0042 0).toNat * 1000) }.raise
      { code := .unitHung, unit := some (memUnitRef m), loc := some { rank := r, bank := b, column := 0, row := 0 }
        detail0 := some (BitVec.ofNat 64 ((d.param 0x0042 0).toNat * 1000 / 1000))
        detail1 := some ((tgetD d.unitGen m 0).setWidth 64) }).startRetrain m) = true))) = true := by decide +kernel

theorem test_detectorsAndTests_8 :
    (have s : State := (st dev0)
     decide ((s.dev.sys.stage = .running) ∧
       (yields (exec .mgmtCoreHangDetect s) (s.onDev fun d =>
    ({ d with now := max d.now (d.sys.heartbeatAt + (d.param 0x0043 0).toNat * 1000000) }.raise
      { code := .unitHung, unit := some (.mgmtCore, 0)
        detail0 := some (BitVec.ofNat 64 ((d.param 0x0043 0).toNat * 1000000 / 1000)), detail1 := some 0 }).setSys fun x =>
      { x with stage := .halted, causeHalted := true }) = true))) = true := by decide +kernel

theorem test_detectorsAndTests_9 :
    (have s : State := (st dev0)
     have sec : Bool := true
     have n : Nat := 0
     decide ((s.dev.sys.resetN = true) ∧
       (s.dev.sys.islandsOff = false) ∧
       (yields (exec (.xbarSecHangDetect sec n) s) (s.onDev fun d =>
      { d with now := max d.now (d.now + (d.param 0x0044 0).toNat * 1000000) }.raise
        { code := .unitHung, unit := some (if sec then (.sec, 0) else (.xbar, n))
          detail0 := some (BitVec.ofNat 64 ((d.param 0x0044 0).toNat * 1000000 / 1000)), detail1 := some 0 }) = true))) = true := by decide +kernel

theorem test_detectorsAndTests_10 :
    (have s : State := (st dev0)
     have p : Nat := 1
     have g : Nat := 0
     have n : Nat := 1
     have t : Nat := 40
     decide ((s.dev.sys.live = true) ∧
       (bit (s.dev.group p g).engines n = true) ∧
       (bit (s.dev.group p g).withdrawn n = false) ∧
       (yields (exec (.engineSlowWindow p g [(n, t)]) s) (s.onDev fun d =>
      { d with now := max d.now (d.now + 1000000) }.modGroup p g fun y => { y with
        slowRuns := tset y.slowRuns n 0, goodRuns := tset y.goodRuns n (tgetD y.goodRuns n 0 + 1) }) = true))) = true := by decide +kernel

theorem test_detectorsAndTests_11 :
    (have s : State := (st { dev0 with groups := [(16, { engines := 3, movers := 1, withdrawn := 2, goodRuns := [(1, 15)] })] })
     have p : Nat := 1
     have g : Nat := 0
     have n : Nat := 1
     have t : Nat := 40
     decide ((s.dev.sys.live = true) ∧
       (bit (s.dev.group p g).engines n = true) ∧
       (bit (s.dev.group p g).withdrawn n = true) ∧
       (15 ≤ tgetD (s.dev.group p g).goodRuns n 0) ∧
       (ends (exec (.engineSlowWindow p g [(n, t)]) s) (fun u => decide ((u.dev.group p g).withdrawn = putBit (s.dev.group p g).withdrawn n false)) = true))) = true := by decide +kernel

theorem test_detectorsAndTests_12 :
    (have s : State := (st dev0)
     have m : Nat := 1
     have a : Nat := 3
     have b : Nat := 8
     have o : Nat := 1
     decide ((s.dev.sys.live = true) ∧
       ((s.dev.unit m).trained = true) ∧
       (s.dev.unitOwner m = some o) ∧
       (2 * a < b) ∧
       (yields (exec (.memoryUnitSlow m a b) s) (s.onDev fun d =>
      { d with now := max d.now (d.now + 1000000000) }.raise
        { code := .unitSlow, part := some o, unit := some (memUnitRef m)
          detail0 := some (BitVec.ofNat 64 (packBits [(0, 32, unitKindCode (memUnitRef m).1), (32, 32, (memUnitRef m).2)]))
          detail1 := some (BitVec.ofNat 64 a) }) = true))) = true := by decide +kernel

theorem test_unitResets_1 :
    (have s : State := (st dev0)
     have n : Nat := 1
     decide ((s.dev.sys.stage = .running) ∧
       (tget s.dev.engReset n = none) ∧
       (bit s.dev.engFailed n = false) ∧
       (s.dev.tagFree (.engine n) = true) ∧
       (s.dev.engineJobs n = []) ∧
       (s.dev.hk.staged = none) ∧
       (yields (exec (.engineReset n) s) (s.onDev fun d =>
      { d.incTag (.engine n) with engReset := tset d.engReset n 2 }.raise
        { code := .unitReset, unit := some (.engine, n), detail0 := some 2
          detail1 := some ((tgetD (tmod d.engGen n 0 fun g => g + 1) n 0).setWidth 64) }) = true))) = true := by decide +kernel

theorem test_unitResets_2 :
    (have s : State := (st { dev0 with tagTimes := List.replicate 64 (Domain.engine 1, 5000000000) })
     have n : Nat := 1
     decide ((s.dev.sys.stage = .running) ∧
       (tget s.dev.engReset n = none) ∧
       (bit s.dev.engFailed n = false) ∧
       (s.dev.tagFree (.engine n) = false) ∧
       (yields (exec (.engineReset n) s) (s.onDev fun d =>
      { d with deferred := d.deferred ++ [{ dom := .engine n, cause := 2 }] }) = true))) = true := by decide +kernel

theorem test_unitResets_3 :
    (have s : State := (st { dev0 with engReset := [(1, 2)] })
     have n : Nat := 1
     have c : Nat := 2
     decide ((tget s.dev.engReset n = some c) ∧
       (c ≠ 1) ∧
       (yields (exec (.engineResetDone n true) s) (s.onDev fun d =>
    { d with engReset := terase d.engReset n }) = true))) = true := by decide +kernel

theorem test_unitResets_4 :
    (have s : State := (st { dev0 with engReset := [(1, 2)] })
     have n : Nat := 1
     have c : Nat := 2
     decide ((tget s.dev.engReset n = some c) ∧
       (s.dev.hk.staged = none) ∧
       (yields (exec (.engineResetDone n false) s) (s.onDev fun d =>
      { d with engReset := terase d.engReset n, engFailed := putBit d.engFailed n true }.raise
        { code := .unitFailed, unit := some (.engine, n), detail0 := some (BitVec.ofNat 64 (unitKindCode .engine))
          detail1 := some (BitVec.ofNat 64 n) }) = true))) = true := by decide +kernel

theorem test_unitResets_5 :
    (have s : State := (st dev0)
     have n : Nat := 0
     decide ((s.dev.sys.stage = .running) ∧
       (s.dev.tagFree (.mover n) = true) ∧
       (s.dev.moverJobs n = []) ∧
       (yields (exec (.moverReset n) s) (s.onDev fun d => (d.incTag (.mover n)).raise
      { code := .unitReset, unit := some (.mover, n), detail0 := some 2
        detail1 := some ((tgetD (tmod d.movGen n 0 fun g => g + 1) n 0).setWidth 64) }) = true))) = true := by decide +kernel

theorem test_unitResets_6 :
    (have s : State := (st { dev0 with deferred := [{ dom := .engine 1, cause := 2 }] })
     have n : Nat := 1
     have r : DeferredReset := { dom := .engine 1, cause := 2 }
     decide ((s.dev.deferred.find? (fun x => x.dom == .engine n) = some r) ∧
       (yields (exec (.tagIncrementDeferred (.engine n)) s) (s.onDev fun d =>
      { d with deferred := d.deferred.erase r, now := max d.now (d.tagAt (.engine n)) }.resetEngine n r.cause) = true))) = true := by decide +kernel

theorem test_unitResets_7 :
    (have s : State := (st { dev0 with deferred := [{ dom := .port 1, cause := 2 }] })
     have n : Nat := 1
     have r : DeferredReset := { dom := .port 1, cause := 2 }
     decide ((s.dev.deferred.find? (fun x => x.dom == .port n) = some r) ∧
       (yields (exec (.tagIncrementDeferred (.port n)) s) (s.onDev fun d =>
      let e := { d with deferred := d.deferred.erase r, now := max d.now (d.tagAt (.port n)) }.goDown n (r.cause == 1)
      if (d.port n).state = .blocked ∨ (d.port n).state = .disabled then e.goTo n (d.port n).state else e) = true))) = true := by decide +kernel

theorem test_unitResets_8 :
    (have s : State := st { dev0 with deferred := [{ dom := .queue 9, cause := 2 }] }
     have q : Nat := 9
     have r : DeferredReset := { dom := .queue 9, cause := 2 }
     decide ((s.dev.deferred.find? (fun x => x.dom == .queue q) = some r) ∧
       (yields (exec (.tagIncrementDeferred (.queue q)) s) (s.onDev fun d =>
      { d with deferred := d.deferred.erase r, now := max d.now (d.tagAt (.queue q)) }.resetQueue q) = true))) = true := by decide +kernel

theorem test_unitResets_9 :
    (have s : State := (st dev0)
     have m : Nat := 1
     decide ((s.dev.sys.live = true) ∧
       ((s.dev.unit m).trained = true) ∧
       ((s.dev.unit m).dead = false) ∧
       ((s.dev.unit m).removed = false) ∧
       ((s.dev.unitOwner m).isSome = true) ∧
       ((s.dev.unit m).retrain = none) ∧
       (s.dev.tagFree (.memUnit m) = true) ∧
       (yields (exec (.subchannelRetrain m) s) (s.onDev fun d =>
      ((d.incTag (.memUnit m)).modUnit m fun v => { v with retrain := some d.now, errTimes := [] }).raise
        { code := .unitRetrain, part := d.unitOwner m, unit := some (memUnitRef m), detail0 := some 0, detail1 := some 0 }) = true))) = true := by decide +kernel

theorem test_unitResets_10 :
    (have s : State := (st ({ dev0 with units := [(1, { trained := true, slots := 128, retrain := some 4999000000 })] }))
     have m : Nat := 1
     have a : Nat := 30
     have b : Nat := 40
     have t : Nat := 4999000000
     decide ((s.dev.sys.live = true) ∧
       ((s.dev.unit m).retrain = some t) ∧
       (s.dev.now ≤ t + retrainLimit m) ∧
       (yields (exec (.retrainDone m a b) s) (s.onDev fun d =>
      (((d.modUnit m fun u => { u with retrain := none, held := [], raaimt := a, raammt := b }).raise
        { code := .unitRetrain, part := d.unitOwner m, unit := some (memUnitRef m), detail0 := some 1
          detail1 := some (BitVec.ofNat 64 ((d.now - t) / 1000000)) }).rfmSweep m).release m (d.unit m).held) = true))) = true := by decide +kernel

theorem test_unitResets_11 :
    (have s : State := (st ({ dev0 with units := [(50, { trained := true, slots := 128, retrain := some 4999000000 })] }))
     have m : Nat := 50
     have t : Nat := 4999000000
     decide ((s.dev.sys.live = true) ∧
       ((s.dev.unit m).retrain = some t) ∧
       (48 ≤ m) ∧
       (yields (exec (.retrainFailTimeout m) s) (s.onDev fun d =>
      let e : Dev := { d with now := max d.now (t + 100000000) }
      (((e.modUnit m fun u => { u with retrain := none, held := [], dead := true }).raise
        { code := .unitRetrain, part := d.unitOwner m, unit := some (memUnitRef m), detail0 := some 2
          detail1 := some (BitVec.ofNat 64 ((e.now - t) / 1000000)) }).raise
        { code := .ntDegraded, part := d.unitOwner m, unit := some (memUnitRef m) }).release m (d.unit m).held) = true))) = true := by decide +kernel

theorem test_unitResets_12 :
    (have s : State := (st ({ dev0 with units := [(1, { trained := true, slots := 128, retrain := some 4999000000 })] }))
     have m : Nat := 1
     have t : Nat := 4999000000
     decide ((s.dev.sys.live = true) ∧
       ((s.dev.unit m).retrain = some t) ∧
       (m < 48) ∧
       (yields (exec (.retrainFailTimeout m) s) (s.onDev fun d =>
      let e : Dev := { d with now := max d.now (t + 400000000) }
      (((e.modUnit m fun u => { u with retrain := none, held := [], dead := true }).raise
        { code := .unitRetrain, part := d.unitOwner m, unit := some (memUnitRef m), detail0 := some 2
          detail1 := some (BitVec.ofNat 64 ((e.now - t) / 1000000)) }).startRebuild m true none).release m (d.unit m).held) = true))) = true := by decide +kernel

theorem test_unitResets_13 :
    (have s : State := (st { dev0 with parts := [(1, { (dev0.partn 1) with state := .resetting, movers := 0, resetAt := 4900000000 })] })
     have p : Nat := 1
     decide (((s.dev.partn p).state = .resetting) ∧
       ((s.dev.partn p).rekeyed = false) ∧
       (s.dev.partQuiet p = true) ∧
       (s.dev.hk.ops = []) ∧
       ((s.dev.partn p).movers = 0) ∧
       (yields (exec (.partitionResetDone p) s) (s.onDev fun d =>
      ((d.setPart p fun x => { x with gen := x.gen + 1 }).raise
        { code := .partResetDone, part := some p, detail0 := some (((d.partn p).gen + 1).setWidth 64)
          detail1 := some (BitVec.ofNat 64 ((d.now - (d.partn p).resetAt) / 1000000)) }).setPart p fun x => { x with state := .active }) = true))) = true := by decide +kernel

theorem test_unitResets_14 :
    (have s : State := (st { dev0 with units := [(0, { trained := true, slots := 128, cleared := [0, 1] }), (1, { trained := true, slots := 128 }), (2, { trained := true, slots := 128 })] })
     have m : Nat := 0
     have k : Nat := 2
     decide ((s.dev.sys.live = true) ∧
       (s.dev.shutterRuns m = true) ∧
       ((s.dev.uncleared m).contains k = true) ∧
       ((48 ≤ m ∨ s.dev.nextShutter m = some k)) ∧
       (s.dev.hk.ops = []) ∧
       (s.dev.hk.waitingCreate = []) ∧
       (s.dev.waitClear = []) ∧
       (yields (exec (.shutterSlotCleared m k) s) (s.onDev fun d =>
      (({ d.modUnit m fun u => { u with cleared := k :: u.cleared, slotDraw := tset u.slotDraw k u.key.draw } with
        pool := d.pool.clear m (k * slotLines) (if m < 48 ∨ k < 4 then slotLines else slotLines / 2) } : Dev).settleClearing
          (d.unitOwner m)).retryHeld m) = true))) = true := by decide +kernel

theorem test_warmResetsAndDome_1 :
    (have s : State := (st dev0)
     have sb : Bool := false
     have dr : Bool := true
     have b : BootFindings := {}
     decide ((s.dev.sys.live = true) ∧
       ((sb = false ∨ s.dev.sys.causeHalted = true)) ∧
       (ends (exec (.warmReset sb dr b) s) (fun t => decide (t.pending = s.pending ∧ t.mbx = {} ∧ t.dev.jobs = [] ∧ t.dev.tallies = [] ∧
      t.dev.rt = {} ∧ t.dev.winTxns = [] ∧ t.dev.sys.warmPhase = true ∧ t.dev.sys.selfRefresh = true)) = true))) = true := by decide +kernel

theorem test_warmResetsAndDome_2 :
    (have s : State := (st { dev0 with sys := { dev0.sys with inDome := true } })
     have sb : Bool := false
     have dr : Bool := true
     have b : BootFindings := {}
     decide ((s.dev.sys.live = false) ∧
       (yields (exec (.warmReset sb dr b) s) (s.onDev fun d => d) = true))) = true := by decide +kernel

theorem test_warmResetsAndDome_3 :
    (have s : State := (st { dev0 with sys := { dev0.sys with warmPhase := true, stage := .bootImage } })
     decide ((s.dev.sys.warmPhase = true) ∧
       (s.dev.sys.stage = .bootImage) ∧
       (s.dev.sys.perstPending = 0) ∧
       (ends (exec .warmResetDone s) (fun t => t.dev.sys.stage == .awaitRuntime && !t.dev.sys.warmPhase && !t.dev.sys.selfRefresh && t.dev.free == s.dev.free + 1) = true))) = true := by decide +kernel

theorem test_warmResetsAndDome_4 :
    (have s : State := (st dev0)
     have n : Nat := 999
     have dr : Bool := true
     have b : BootFindings := {}
     decide ((n < 1000) ∧
       (yields (exec (.warmNPulse n dr b) s) (s.onDev fun d => d) = true))) = true := by decide +kernel

theorem test_warmResetsAndDome_5 :
    (have s : State := (st dev0)
     have n : Nat := 10000
     have dr : Bool := true
     have b : BootFindings := {}
     decide ((10000 ≤ n) ∧
       (s.dev.sys.live = true) ∧
       ((match exec (.warmNPulse n dr b) s with | .next t => yields (exec (.warmReset false dr b) s) t | _ => false) = true))) = true := by decide +kernel

theorem test_warmResetsAndDome_6 :
    (have s : State := (st { dev0 with sys := { dev0.sys with domeReqAt := some 4990000000 } })
     have t : Nat := 4990000000
     decide ((s.dev.sys.live = true) ∧
       (s.dev.sys.domeReqAt = some t) ∧
       (s.dev.domeBar = none) ∧
       (s.dev.jobs = []) ∧
       (ends (exec .domeEntry s) (fun u => decide (u.pending = s.pending ∧ u.mbx = {} ∧ u.dev.sys.inDome = true ∧ u.dev.sys.selfRefresh = true ∧
      u.dev.sys.domeReqAt = none ∧ u.dev.sys.domeEntered = s.dev.now)) = true))) = true := by decide +kernel

theorem test_warmResetsAndDome_7 :
    (have s : State := (st { dev0 with sys := { dev0.sys with domeReqAt := some 4990000000 }, pair := { dev0.pair with enable := true, role := .active } })
     have t : Nat := 4990000000
     have c : Nat := 0
     decide ((s.dev.sys.live = true) ∧
       (s.dev.sys.domeReqAt = some t) ∧
       (s.dev.domeBar = some c) ∧
       (yields (exec .domeRefused s) (s.onDev fun d =>
      { d with sys := { d.sys with domeReqAt := none } }.raise { code := .domeRefused, detail0 := some (BitVec.ofNat 64 c) }) = true))) = true := by decide +kernel

theorem test_warmResetsAndDome_8 :
    (have s : State := (st { dev0 with sys := { dev0.sys with domeReqAt := some 4990000000 }, jobs := [job4 (desc 0x20 []) (.engines [1])] })
     have t : Nat := 4990000000
     decide ((s.dev.sys.live = true) ∧
       (s.dev.sys.domeReqAt = some t) ∧
       (s.dev.domeBar = none) ∧
       (s.dev.jobs ≠ []) ∧
       (yields (exec .domeRefused s) (s.onDev fun d =>
      { d with now := max d.now (t + 100000000), sys := { d.sys with domeReqAt := none } }.raise
        { code := .domeRefused, detail0 := some 3 }) = true))) = true := by decide +kernel

theorem test_warmResetsAndDome_9 :
    (have s : State := (st { dev0 with sys := { dev0.sys with inDome := true, stage := .rom, selfRefresh := true } })
     have w : Bool := false
     have b : BootFindings := {}
     decide ((s.dev.sys.inDome = true) ∧
       (s.dev.sys.resetN = true) ∧
       (ends (exec (.domeWake w true b) s) (fun t => decide (t.dev.sys.inDome = false ∧ t.dev.sys.selfRefresh = false ∧
      t.dev.sys.stage = .awaitRuntime ∧ t.dev.sys.deviceGen = s.dev.sys.deviceGen + 1)) = true))) = true := by decide +kernel

theorem test_warmResetsAndDome_10 :
    (have s : State := (st { dev0 with sys := { dev0.sys with inDome := true, stage := .rom, selfRefresh := true } })
     decide ((s.dev.sys.inDome = true) ∧
       (yields (exec .wakeRailTimeout s) (s.onDev fun d =>
    { d with
        now := max d.now (d.now + 5000000)
        sys := { d.sys with inDome := false, stage := .halted, causeStart := true } }.raise { code := .startFailed }) = true))) = true := by decide +kernel

theorem test_resetsAndStarts_1 :
    (have s : State := (st dev0)
     decide ((s.dev.sys.resetN = true) ∧
       (ends (exec .resetNAssert s) (fun t => decide (t.pending = s.pending ∧ t.mbx = {} ∧ t.dev.jobs = [] ∧
    t.dev.sys.resetN = false ∧ t.dev.sys.stage = .rom ∧ t.dev.sys.outputsHiZ = true ∧ t.dev.sys.causeTrip = false ∧
    t.dev.sys.retain = (!s.dev.sys.islandsOff && !s.dev.sys.railFault && s.dev.sys.vddAon && !s.dev.tap.scanned))) = true))) = true := by decide +kernel

theorem test_resetsAndStarts_2 :
    (have s : State := (st dev0)
     decide ((s.dev.sys.resetN = true) ∧
       (ends (exec .powerGoodDeassert s) (fun t => decide (t.mbx = {} ∧ t.dev.jobs = [] ∧
    t.dev.sys.resetN = false ∧ t.dev.sys.stage = .rom ∧
    t.dev.sys.retain = (!s.dev.sys.islandsOff && !s.dev.sys.railFault && s.dev.sys.vddAon && !s.dev.tap.scanned))) = true))) = true := by decide +kernel

theorem test_resetsAndStarts_3 :
    (have s : State := (st { dev0 with sys := { dev0.sys with resetN := false } })
     decide ((s.dev.sys.resetN = false) ∧
       (yields (exec .powerGoodDeassert s) (s.onDev fun d =>
    { d with sys := { d.sys with powerGood := false } }) = true))) = true := by decide +kernel

theorem test_resetsAndStarts_4 :
    (have s : State := (st { dev0 with sys := { dev0.sys with resetN := false, srPending := true } })
     decide ((s.dev.sys.srPending = true) ∧
       (yields (exec .selfRefreshTimeout s) (s.onDev fun d => { d with
    now := max d.now (d.now + 20000), sys := { d.sys with retain := false, selfRefresh := false, srPending := false } }) = true))) = true := by decide +kernel

theorem test_resetsAndStarts_5 :
    (have s : State := (st dev0)
     have r : Nat := 1
     decide ((r < 2) ∧
       (yields (exec (.memoryRailFault r) s) (s.onDev fun d =>
    { d with sys := { d.sys with retain := false, railFault := true } }) = true))) = true := by decide +kernel

theorem test_resetsAndStarts_6 :
    (have s : State := (st dev0)
     decide ((ends (exec (.memoryRailFault 2) s) (fun t => decide (t.dev.sys.retain = false ∧ t.dev.sys.vddAon = false ∧ t.dev.pool = {} ∧
    t.dev.sys.flash = s.dev.sys.flash ∧ t.dev.sys.fuses = s.dev.sys.fuses)) = true))) = true := by decide +kernel

theorem test_resetsAndStarts_7 :
    (have s : State := (st dev0)
     decide ((ends (exec .powerUp s) (fun t => decide (t.pending = s.pending ∧ t.mbx = {} ∧ t.dev.sys.retain = false ∧ t.dev.sys.trips = 0 ∧
    t.dev.sys.vddAon = true ∧ t.dev.sys.resetN = false ∧ t.dev.sys.flash = s.dev.sys.flash ∧ t.dev.sys.fuses = s.dev.sys.fuses)) = true))) = true := by decide +kernel

theorem test_resetsAndStarts_8 :
    (have s : State := (st { dev0 with sys := { dev0.sys with resetN := false } })
     have p : Straps := { pairPref := true }
     have b : BootFindings := {}
     decide ((s.dev.sys.vddAon = true) ∧
       (s.dev.sys.resetN = false) ∧
       (b.secOk = true) ∧
       (b.slotAOk = true) ∧
       (p.bootSlotB = false) ∧
       (s.dev.sys.fuses = []) ∧
       (s.dev.sys.lifeCycle ≠ .retired) ∧
       (s.dev.sys.journal = []) ∧
       (ends (exec (.resetNRelease p b) s) (fun t => decide (t.mbx = {} ∧ t.dev.sys.stage = .bootImage ∧ t.dev.sys.bootSlotB = false ∧
      t.dev.sys.straps = p ∧ t.dev.sys.resetN = true ∧ t.dev.sys.deviceGen = 0 ∧ t.dev.now = 0 ∧ t.dev.tap = {})) = true))) = true := by decide +kernel

theorem test_resetsAndStarts_9 :
    (have s : State := (st { dev0 with sys := { dev0.sys with resetN := false } })
     have p : Straps := {}
     have b : BootFindings := { secOk := false }
     decide ((s.dev.sys.vddAon = true) ∧
       (s.dev.sys.resetN = false) ∧
       (b.secOk = false) ∧
       (ends (exec (.resetNRelease p b) s) (fun t => decide (t.dev.sys.stage = .halted ∧ t.dev.sys.causeStart = true)) = true))) = true := by decide +kernel

theorem test_resetsAndStarts_10 :
    (have s : State := (st { dev0 with sys := { dev0.sys with stage := .bootImage } })
     have x : TrainFindings := {}
     decide ((s.dev.sys.resetN = true) ∧
       (s.dev.sys.warmPhase = false) ∧
       (s.dev.sys.stage = .bootImage) ∧
       (metaPair x = none) ∧
       (yields (exec (.trainingDone x) s) (s.onDev fun d =>
      (List.range 48).foldl (fun e m => e.rfmSweep m)
        ((((d.resetChannels x).foldl (fun e n => e.emit (.ddrReset n)) d).setSys fun y =>
          { y with stage := .halted, causeStart := true }).raise { code := .startFailed, detail0 := some 4 })) = true))) = true := by decide +kernel

theorem test_resetsAndStarts_11 :
    (have s : State := (st { dev0 with sys := { dev0.sys with stage := .bootImage, retain := false } })
     have x : TrainFindings := ({ trained := [(0, 128, 2), (24, 128, 2)] })
     have n : Nat := 0
     decide ((s.dev.sys.resetN = true) ∧
       (s.dev.sys.warmPhase = false) ∧
       (s.dev.sys.stage = .bootImage) ∧
       (metaPair x = some n) ∧
       (s.dev.sys.retain = false) ∧
       (ends (exec (.trainingDone x) s) (fun t => decide (t.dev.sys.stage = .awaitRuntime ∧ t.dev.regions = [] ∧ t.dev.objs = [] ∧ t.dev.ctxs = [] ∧
      t.dev.metaPlace = { present := true, copy0 := targetPlaces (2 * n) s.dev.sys.cfg.k
                          copy1 := targetPlaces (2 * (n + 12)) s.dev.sys.cfg.k, k := s.dev.sys.cfg.k, seq := 1 })) = true))) = true := by decide +kernel

theorem test_resetsAndStarts_12 :
    (have s : State := (st { dev0 with sys := { dev0.sys with stage := .bootImage, retain := true } })
     have x : TrainFindings := ({ trained := [(0, 128, 2), (24, 128, 2)], headers := [{ unit := 0, copy1 := false, k := 1, otherUnit := 24, seq := 7, slots := [0], tagOk := true }, { unit := 24, copy1 := true, k := 1, otherUnit := 0, seq := 7, slots := [0], tagOk := true }] })
     have n : Nat := 0
     decide ((s.dev.sys.resetN = true) ∧
       (s.dev.sys.warmPhase = false) ∧
       (s.dev.sys.stage = .bootImage) ∧
       (metaPair x = some n) ∧
       (s.dev.startCause x = none) ∧
       (ends (exec (.trainingDone x) s) (fun t => decide (t.dev.sys.stage = .awaitRuntime ∧ t.dev.sys.coldRetained = true ∧
      t.dev.regions = s.dev.regions.map fun r => (r.1, r.2.coldStale))) = true))) = true := by decide +kernel

theorem test_powerAndHeat_1 :
    (have s : State := (st { dev0 with pow := { dev0.pow with samples := [[1000, 500], [3000, 700]] } })
     decide ((s.dev.sys.live = true) ∧
       (s.dev.pow.samples ≠ []) ∧
       (ends (exec .powerGrant s) (fun t => t.dev.pow.samples == [] && t.dev.pow.lastGrant == max s.dev.now (s.dev.pow.lastGrant + 100000) && t.dev.pow.drawMw == (s.dev.pow.samples.map List.sum).sum / s.dev.pow.samples.length) = true))) = true := by decide +kernel

theorem test_powerAndHeat_2 :
    (have s : State := (st dev0)
     decide ((s.dev.pow.samples = []) ∧
       (yields (exec .powerGrant s) (s.onDev fun d => d) = true))) = true := by decide +kernel

theorem test_powerAndHeat_3 :
    (have s : State := (st dev0)
     have xs : List Nat := [1000, 500]
     decide ((s.dev.sys.live = true) ∧
       (yields (exec (.drawSample xs) s) (s.onDev fun d => { d with
    now := max d.now (d.pow.lastGrant + 10000 * (d.pow.samples.length + 1))
    pow := { d.pow with samples := d.pow.samples ++ [xs] } }) = true))) = true := by decide +kernel

theorem test_powerAndHeat_4 :
    (have s : State := (st dev0)
     have ts : List Nat := [300, 700, 500]
     have i : Nat := 1
     have tj : Nat := 700
     decide ((s.dev.sys.resetN = true) ∧
       (s.dev.sys.inDome = false) ∧
       (s.dev.sys.islandsOff = false) ∧
       (s.dev.pow.episode = none) ∧
       (hottestOf ts = (i, tj)) ∧
       (tj < 800) ∧
       (yields (exec (.thermalSample ts) s) (s.onDev fun d =>
      { d with pow := { d.pow with
          islandTemp := (ts.take 136).mapIdx (fun k t => (k, t)), tj := tj, hottest := sensorIsland i, thermalDiv := 1 } }) = true))) = true := by decide +kernel

theorem test_powerAndHeat_5 :
    (have s : State := (st dev0)
     have ts : List Nat := [300, 810, 500]
     have i : Nat := 1
     have tj : Nat := 810
     decide ((s.dev.sys.resetN = true) ∧
       (s.dev.sys.inDome = false) ∧
       (s.dev.sys.islandsOff = false) ∧
       (s.dev.pow.episode = none) ∧
       (hottestOf ts = (i, tj)) ∧
       (800 ≤ tj) ∧
       (tj < 840) ∧
       (s.dev.pow.throttled = false) ∧
       (yields (exec (.thermalSample ts) s) (s.onDev fun d =>
      let e : Dev := { d with
        sys := { d.sys with therm := true }
        pow := { d.pow with
          islandTemp := (ts.take 136).mapIdx (fun k t => (k, t)), tj := tj, hottest := sensorIsland i, thermalDiv := 1
          throttled := true } }
      e.raise { code := .thermalThrottle, detail0 := some (BitVec.ofNat 64 (sensorIsland i)), detail1 := some (BitVec.ofNat 64 tj) }) = true))) = true := by decide +kernel

theorem test_powerAndHeat_6 :
    (have s : State := (st dev0)
     have ts : List Nat := [300, 920, 500]
     have i : Nat := 1
     have tj : Nat := 920
     decide ((s.dev.sys.resetN = true) ∧
       (s.dev.sys.inDome = false) ∧
       (s.dev.sys.islandsOff = false) ∧
       (hottestOf ts = (i, tj)) ∧
       (920 ≤ tj) ∧
       (ends (exec (.thermalSample ts) s) (fun t => decide (t.mbx = {} ∧ t.dev.sys.islandsOff = true ∧
      t.dev.sys.therm = true ∧ t.dev.sys.causeTrip = true ∧ t.dev.sys.retain = false ∧
      t.dev.sys.tripIsland = BitVec.ofNat 16 (sensorIsland i))) = true))) = true := by decide +kernel

theorem test_powerAndHeat_7 :
    (have s : State := (st { dev0 with pow := { dev0.pow with tj := 840, ceiling := 800, throttled := true } })
     decide ((s.dev.sys.live = true) ∧
       (840 ≤ s.dev.pow.tj) ∧
       (s.dev.pow.ceiling = 800) ∧
       (s.dev.pow.throttled = true) ∧
       (s.dev.pow.thermalDiv < 8) ∧
       (yields (exec .thermalLimitStep s) (s.onDev fun d =>
      let t := max d.now (d.pow.limitAt + 1000000)
      { d with now := t, pow := { d.pow with thermalDiv := 2 * d.pow.thermalDiv, limitAt := t } }.raise
        { code := .thermalLimit, detail0 := some (BitVec.ofNat 64 d.pow.hottest)
          detail1 := some (BitVec.ofNat 64 (2 * d.pow.thermalDiv)) }) = true))) = true := by decide +kernel

theorem test_powerAndHeat_8 :
    (have s : State := (st dev0)
     have vs : List Nat := [700, 900]
     have c : Nat := 850
     decide ((s.dev.sys.live = true) ∧
       (c = (vs.map clampMv).foldl max 650) ∧
       (yields (exec (.voltageLoopTick vs) s) (s.onDev fun d =>
      let e : Dev := { d with pow := { d.pow with voltages := (vs.map clampMv).mapIdx (fun i v => (i, v)), vddCoreMv := c } }
      if c = d.pow.vddCoreMv then e else e.emit (.avs c)) = true))) = true := by decide +kernel

theorem test_powerAndHeat_9 :
    (have s : State := (st { dev0 with units := [(0, { trained := true, slots := 128, nr := 1 })] })
     have m : Nat := 0
     have r : Nat := 1
     decide ((s.dev.sys.live = true) ∧
       ((s.dev.unit m).trained = true) ∧
       ((s.dev.unit m).dead = false) ∧
       ((s.dev.unit m).removed = false) ∧
       (r < 2 ^ (s.dev.unit m).nr) ∧
       (yields (exec (.dramCalibration m r) s) (s.onDev fun d =>
      let t := ((tget (d.unit m).calibratedAt r).map fun t => max d.now (t + 128000000)).getD d.now
      ({ d with now := t } : Dev).modUnit m fun u => { u with calibratedAt := tset u.calibratedAt r t }) = true))) = true := by decide +kernel

theorem test_powerAndHeat_10 :
    (have s : State := (st dev0)
     have m : Nat := 1
     have k : Nat := 5
     decide ((s.dev.sys.live = true) ∧
       (m < 112) ∧
       ((s.dev.unit m).trained = true) ∧
       (yields (exec (.queueDepthSample [(m, k)]) s) (s.onDev fun d =>
      (d.modUnit m fun u => { u with depth := k }).bump (.unitQdepthHist m (depthBucket k))) = true))) = true := by decide +kernel

theorem test_powerAndHeat_11 :
    (have s : State := (st dev0)
     decide ((s.dev.sys.resetN = true) ∧
       (s.dev.sys.islandsOff = false) ∧
       (s.dev.sys.stage ≠ .retired) ∧
       (yields (exec (.pldmRequest .readPowerState) s) (s.onDev fun d => d.emit (.pldm [if d.sys.inDome then 1 else 0])) = true))) = true := by decide +kernel

theorem test_powerAndHeat_12 :
    (have s : State := (st { dev0 with pow := { dev0.pow with tj := 500 } })
     have r : Nat := 3
     have i : Nat := 0
     have v : Nat := 500
     decide ((s.dev.sys.resetN = true) ∧
       (s.dev.sys.islandsOff = false) ∧
       (s.dev.sys.stage ≠ .retired) ∧
       (s.dev.sys.inDome = false) ∧
       (s.dev.sensor r i = some v) ∧
       (yields (exec (.pldmRequest (.readSensor r i)) s) (s.onDev fun d => d.emit (.pldm [v])) = true))) = true := by decide +kernel

theorem test_powerAndHeat_13 :
    (have s : State := (st { dev0 with sys := { dev0.sys with inDome := true } })
     have r : Nat := 3
     have i : Nat := 0
     decide ((s.dev.sys.resetN = true) ∧
       (s.dev.sys.islandsOff = false) ∧
       (s.dev.sys.stage ≠ .retired) ∧
       (s.dev.sys.inDome = true) ∧
       (yields (exec (.pldmRequest (.readSensor r i)) s) (s.onDev fun d => d.emit .pldmNotReady) = true))) = true := by decide +kernel

theorem test_powerAndHeat_14 :
    (have s : State := (st dev0)
     have k : Nat := 0x0050
     have v : Nat := 400
     decide ((s.dev.sys.resetN = true) ∧
       (s.dev.sys.islandsOff = false) ∧
       (s.dev.sys.stage ≠ .retired) ∧
       (s.dev.sys.inDome = false) ∧
       (0x0050 ≤ k) ∧
       (k ≤ 0x0055) ∧
       (v < 18446744073709551616) ∧
       (s.dev.paramBad k 0 (BitVec.ofNat 64 v) = false) ∧
       (yields (exec (.pldmRequest (.writePwr k v)) s) (s.onDev fun d => (d.paramApply k 0 (BitVec.ofNat 64 v)).emit (.pldm [])) = true))) = true := by decide +kernel

theorem test_scanInDeployed_1 :
    (have s : State := (st { dev0 with sys := { dev0.sys with lifeCycle := .deployed } })
     have c : Nat := 5
     have i : Instr := .highz
     decide ((s.dev.sys.lifeCycle = .deployed) ∧
       (s.dev.sys.resetN = true) ∧
       (i ∈ [.extest c, .clamp, .highz, .extestPulse c, .extestTrain c]) ∧
       (yields (exec i s) (s.onDev fun d =>
      { d with tap := { d.tap with instr := .bypass, driving := false }, sys := { d.sys with outputsHiZ := false } }.emit (.tdo 1 0)) = true))) = true := by decide +kernel

theorem test_scanInDeployed_2 :
    (have s : State := (st dev0)
     decide ((yields (exec .bypass s) (s.onDev fun d =>
      { d with tap := { d.tap with instr := .bypass, driving := false }, sys := { d.sys with outputsHiZ := !d.sys.resetN } }.emit
        (.tdo 1 0)) = true))) = true := by decide +kernel

theorem test_scanInDeployed_3 :
    (have s : State := (st { dev0 with sys := { dev0.sys with lifeCycle := .deployed, resetN := false } })
     have c : Nat := 5
     have x : Instr × TapInstr := (.extestTrain 5, .extestTrain)
     decide ((s.dev.sys.lifeCycle = .deployed) ∧
       (s.dev.sys.resetN = false) ∧
       (x ∈ [(.extest c, .extest), (.extestPulse c, .extestPulse), (.extestTrain c, .extestTrain)]) ∧
       (yields (exec x.1 s) (s.onDev fun d =>
      { d with tap := { instr := x.2, boundary := c % 2 ^ 7296, driving := true, scanned := true }
               sys := { d.sys with retain := false, outputsHiZ := false } }) = true))) = true := by decide +kernel

theorem test_scanInDeployed_4 :
    (have s : State := (st { dev0 with sys := { dev0.sys with lifeCycle := .deployed, resetN := false } })
     decide ((s.dev.sys.lifeCycle = .deployed) ∧
       (s.dev.sys.resetN = false) ∧
       (yields (exec .clamp s) (s.onDev fun d =>
      { d with tap := { d.tap with instr := .clamp, driving := true, scanned := true }
               sys := { d.sys with retain := false, outputsHiZ := false } }.emit (.tdo 1 0)) = true))) = true := by decide +kernel

theorem test_scanInDeployed_5 :
    (have s : State := (st { dev0 with sys := { dev0.sys with lifeCycle := .deployed, resetN := false } })
     decide ((s.dev.sys.lifeCycle = .deployed) ∧
       (s.dev.sys.resetN = false) ∧
       (yields (exec .highz s) (s.onDev fun d =>
      { d with tap := { d.tap with instr := .highz, driving := false, scanned := true }
               sys := { d.sys with retain := false, outputsHiZ := true } }.emit (.tdo 1 0)) = true))) = true := by decide +kernel

theorem test_tapInstructions_1 :
    (have s : State := (st dev0)
     decide ((yields (exec .tapReset s) (s.onDev fun d =>
    { d with tap := { d.tap with instr := .idcode, driving := false }, sys := { d.sys with outputsHiZ := !d.sys.resetN } }) = true))) = true := by decide +kernel

theorem test_tapInstructions_2 :
    (have s : State := (st dev0)
     decide ((yields (exec .idcode s) (s.onDev fun d =>
    { d with tap := { d.tap with instr := .idcode, driving := false }, sys := { d.sys with outputsHiZ := !d.sys.resetN } }.emit
      (.tdo 32 (1 + 0x2B9 * 2 + 0x7480 * 2 ^ 12 + Config.stepping.toNat * 2 ^ 28))) = true))) = true := by decide +kernel

theorem test_tapInstructions_3 :
    (have s : State := (st dev0)
     have p : Nat := 9
     have c : Nat := 5
     decide ((yields (exec (.samplePreload p c) s) (s.onDev fun d =>
    { d with tap := { d.tap with instr := .samplePreload, driving := false, boundary := c % 2 ^ 7296 }
             sys := { d.sys with outputsHiZ := !d.sys.resetN } }.emit (.tdo 7296 (p % 2 ^ 7296))) = true))) = true := by decide +kernel

theorem test_tapInstructions_4 :
    (have s : State := (st dev0)
     have c : Nat := 5
     decide ((s.dev.sys.lifeCycle ≠ .deployed) ∧
       (yields (exec (.extest c) s) (s.onDev fun d =>
    { d with tap := { instr := .extest, boundary := c % 2 ^ 7296, driving := true, scanned := true }
             sys := { d.sys with retain := false, outputsHiZ := false } }) = true))) = true := by decide +kernel

theorem test_tapInstructions_5 :
    (have s : State := (st dev0)
     decide ((s.dev.sys.lifeCycle ≠ .deployed) ∧
       (yields (exec .highz s) (s.onDev fun d =>
    { d with tap := { d.tap with instr := .highz, driving := false, scanned := true }
             sys := { d.sys with retain := false, outputsHiZ := true } }.emit (.tdo 1 0)) = true))) = true := by decide +kernel

theorem test_tapInstructions_6 :
    (have s : State := st dev0
     decide ((s.dev.sys.lifeCycle ≠ .deployed) ∧
       (yields (exec .clamp s) (s.onDev fun d =>
    { d with tap := { d.tap with instr := .clamp, driving := true, scanned := true }
             sys := { d.sys with retain := false, outputsHiZ := false } }.emit (.tdo 1 0)) = true))) = true := by decide +kernel

theorem test_tapInstructions_7 :
    (have s : State := st dev0
     have c : Nat := 5
     decide ((s.dev.sys.lifeCycle ≠ .deployed) ∧
       (yields (exec (.extestPulse c) s) (s.onDev fun d =>
    { d with tap := { instr := .extestPulse, boundary := c % 2 ^ 7296, driving := true, scanned := true }
             sys := { d.sys with retain := false, outputsHiZ := false } }) = true))) = true := by decide +kernel

theorem test_tapInstructions_8 :
    (have s : State := st dev0
     have c : Nat := 5
     decide ((s.dev.sys.lifeCycle ≠ .deployed) ∧
       (yields (exec (.extestTrain c) s) (s.onDev fun d =>
    { d with tap := { instr := .extestTrain, boundary := c % 2 ^ 7296, driving := true, scanned := true }
             sys := { d.sys with retain := false, outputsHiZ := false } }) = true))) = true := by decide +kernel

/-! Ill-formed terms are refused. -/

/-- A header with a partition ring that does not exist. -/
def badH : CmdHdr := { src := .part 32, seq := 0 }

theorem test_wf_doorbells : ([.queueDoorbell { ctx := 65536, off := 0, len := 8, value := 0 },
    .apertureReservedWrite { ctx := 1, off := 0, len := 0, value := 0 }, .partMailboxDoorbell { ctx := 1, off := 0, len := 65, value := 0 },
    .partEventRingDoorbell { ctx := 65536, off := 0, len := 8, value := 0 }] : List Instr).any Instr.wf = false := by decide

theorem test_wf_packets : (([{ kind := .read, tc := 8 }, { kind := .read, flowTc := 8 }, { kind := .read, hops := 16 },
    { kind := .readReply, status := 256 }, { kind := .read, dstEp := 65536 }, { kind := .read, srcEp := 65536 }, { kind := .read, job := 65536 },
    { kind := .read, srcRank := 65536 }, { kind := .read, window := 65536 }, { kind := .read, reqTag := 65536 },
    { kind := .read, lines := 64 }, { kind := .write, units := 64 }, { kind := .read, window := 4096 },
    { kind := .write, data := List.replicate 64 0 }] : List Packet).any Packet.wf) = false ∧
    Instr.wf (.readRequest 32 { kind := .read }) = false ∧ Instr.wf (.replyReceive 3 { kind := .readReply, tc := 8 }) = false := by decide

theorem test_wf_frames : (([{ ftype := 16 }, { slots := List.replicate 20 .empty },
    { slots := [.head { kind := .read, tc := 8 }] }, { crA := { tc := 8 } }, { crB := { tc := 8 } }] : List Frame).any Frame.wf) = false ∧
    FrameCond.wf { corrected := 2, uncorrectable := 1 } = false ∧ Instr.wf (.dataFrameReceive 32 {} {}) = false ∧
    ParamBody.wf { deviceId := 0, version := 256, content := .ready } = false ∧ ParamBody.wf { deviceId := 0, port := 256, content := .ready } = false ∧
    ParamBody.wf { deviceId := 0, content := .cert 2000 0 (List.replicate 1025 0) true 0 } = false := by decide +kernel

theorem test_wf_flows : ([.lossDeclaration { src := 65536, dst := 0, tc := 0 }, .lossDeclaration { src := 0, dst := 65536, tc := 0 },
    .sendRecordExpiry { src := 0, dst := 0, tc := 8 } 0] : List Instr).any Instr.wf = false := by decide

theorem test_wf_headers : (([{ src := .part 32, seq := 0 }, { src := .fm, seq := 0, version := 256 }, { src := .fm, seq := 0, partition := 256 },
    { src := .fm, seq := 0, bufOff := 4294967296 }, { src := .fm, seq := 0, bufLen := 4294967296 }] : List CmdHdr).any CmdHdr.wf) = false ∧
    ([.huanikNop badH, .partTenantChange badH, .queueReset badH 0, .domeReq badH 1, .routeFlip badH 0] : List Instr).any Instr.wf = false := by
  decide

theorem test_wf_records : ([.contextWrite fmH { context := 8, valid := true, partition := 1, segments := List.replicate 9 { base := 0, lines := 1, kind := .region } },
    .windowWrite fmH 0 { job := 2, window := 2, valid := true, rankLo := 65536, rankHi := 0, context := 7 },
    .windowWrite fmH 0 { job := 2, window := 2, valid := true, rankLo := 0, rankHi := 65536, context := 7 },
    .rawModeEnter fmH ⟨false, 64, 0⟩, .rawModeEnter fmH ⟨false, 0, 1024⟩, .injectFlip fmH ⟨false, 0, 0⟩ 4294967296 0,
    .queueReset fmH 4294967296, .regionQuery fmH 4294967296, .leaseRenew fmH 4294967296, .logRead fmH 4294967296] : List Instr).any
    Instr.wf = false := by decide

theorem test_wf_units : ([.descriptorFetch 262144, .dispatch 32 0, .dispatch 0 16, .lineRead 112 0 0 0, .lineRead 0 4294967296 0 0,
    .metadataRead 0 4 (.region 0) 0 0, .rebuildPageCopied 48, .refreshDue 0 8 0, .rowThrottleWindowEnd 0 1024, .shutterSlotCleared 0 1024,
    .summaryPageMove 65536 0 0 true, .summaryPageMove 0 65536 0 true, .summaryPageMove 0 0 67108864 true, .leaseExpiry 65536,
    .requestTimeout 65536, .engineReset 64, .moverHangDetect 32 0, .moverHangDetect 0 16, .mcHangDetect 0 8 0, .mcHangDetect 0 0 1024,
    .xbarSecHangDetect false 4, .ddrAlert 24 true true, .nearPromote 32, .pageFreeBackground 65536] : List Instr).any Instr.wf = false := by
  decide

theorem test_wf_ports : ([.detectSuccess 32, .packetTransmit 32 0, .packetTransmit 0 8, .escapeToTc7 0 8, .perstAssert 4,
    .translationCacheFill 36 0 0, .translationCacheFill 0 65536 0, .cxlMemRead 8 0, .cxlMemRead 0 32, .windowMeminv 0 1,
    .bisnpResponse 65536 0 0 .keepsNothing none, .configRequest 8 .other, .cxlLinkUp { head := 8, rate := 64, width := 16 }, .registerWrite 8 0 8 none, .bar2DoorbellWrite 8 0 8 none, .getLog 8 0 0 0] : List Instr).any Instr.wf = false := by decide

theorem test_wf_atomic : OtherAccess.wf (.atomic 0 64 0 0) = false := by decide

theorem test_wf_accepts : ([.queueDoorbell { ctx := 7, off := 72, len := 8, value := 0 }, .readRequest 3 { kind := .read },
    .huanikNop fmH, .lineRead 111 4294967295 0 0, .cxlMemRead 7 64, .ddrAlert 23 true true, .moverHangDetect 31 15] : List Instr).all
    Instr.wf = true := by decide

/-! Worked values of the spec, and claims without hypotheses on a state. -/

/-- R406: for stepping 1 the value is 0x1748_0573. -/
theorem test_idcode : idcodeValue = 0x17480573 := by decide

/-- A heartbeat of another device than this one, whatever this one's identifier is. -/
def hbOther (n : U32) : Heartbeat := { deviceId := ~~~Config.deviceId, claim := 1, seenClaim := 1, seenId := 0, hbSeq := n, role := 1, preferred := true }

/-- The sample device on a management ring, ACTIVE, with the sender of `hbOther` as its partner. -/
def devRing : Dev :=
  { dev0 with
    sys := { dev0.sys with straps := { mringEn := true } }
    pair := { dev0.pair with
      enable := true, role := .active, partnerId := ~~~Config.deviceId, claim := 5, seenClaim := 5, ring := { lastSeq := some 9 } } }

/-- No identifier is its own complement. -/
theorem hbOther_foreign (n : U32) : (hbOther n).deviceId ≠ Config.deviceId := fun h => by
  have e := congrArg (fun x => x.getLsbD 0) h
  simp [hbOther] at e

/-- A ring message of the partner that is older than the last is sent on and used for nothing. -/
theorem test_pairPaths_5 : ∃ (s : State) (hb : Heartbeat) (k : Nat), s.dev.sys.straps.mringEn = true ∧ hb.deviceId ≠ Config.deviceId ∧
    hb.deviceId = s.dev.pair.partnerId ∧ k < 63 ∧ s.dev.pair.enable = true ∧
    (∃ q, s.dev.pair.ring.lastSeq = some q ∧ hb.hbSeq.toNat ≤ q.toNat) :=
  ⟨st devRing, hbOther 4, 2, rfl, hbOther_foreign 4, rfl, by decide, rfl, 9, rfl, by decide⟩

/-- A newer ring message of the partner is sent on and used. -/
theorem test_pairPaths_6 : ∃ (s : State) (hb : Heartbeat) (k : Nat), s.dev.sys.straps.mringEn = true ∧ hb.deviceId ≠ Config.deviceId ∧
    hb.deviceId = s.dev.pair.partnerId ∧ k < 63 ∧ s.dev.pair.enable = true ∧
    (∀ q, s.dev.pair.ring.lastSeq = some q → q.toNat < hb.hbSeq.toNat) ∧ hb.claim.toNat < s.dev.pair.claim.toNat ∧
    hb.claim.toNat < s.dev.pair.seenClaim.toNat ∧ hb.seenClaim.toNat < s.dev.pair.claim.toNat ∧
    hb.seenClaim.toNat < s.dev.pair.seenClaim.toNat ∧ s.dev.pair.role = .active ∧ hb.preferred ≠ s.dev.sys.straps.pairPref ∧
    hb.returnRequest = false :=
  ⟨st devRing, hbOther 12, 2, rfl, hbOther_foreign 12, rfl, by decide, rfl, fun q h => by cases h; decide, by decide, by decide, by decide,
    by decide, rfl, by decide, rfl⟩

/-- A ring message of another device that has made 63 hops. -/
theorem test_pairPaths_7 : ∃ (s : State) (hb : Heartbeat) (k : Nat), s.dev.sys.straps.mringEn = true ∧ hb.deviceId ≠ Config.deviceId ∧
    63 ≤ k :=
  ⟨st devRing, hbOther 4, 63, rfl, hbOther_foreign 4, by decide⟩

/-- This device's own ring message comes back. -/
theorem test_pairPaths_8 : ∃ (s : State) (k : Nat), s.dev.sys.straps.mringEn = true ∧ 0 < k := ⟨st devRing, 3, rfl, by decide⟩

/-- An unowned lock line and a word below it: a line that no unit has. -/
theorem test_absentLine : ∃ (s : State) (m line : Nat), s.dev.lineExists m line = false := ⟨st dev0, 40, 0, by decide⟩

/-- A counter that an add saturates. -/
theorem test_tallySaturates : ∃ (d : Dev) (t : Nat), (d.tallyAfter t 1).2 ≠ .ok :=
  ⟨dev0.setTally 16 { value := 0xFFFFFFFFFFFFFFFF }, 16, by decide⟩

/-- A counter that an add leaves in its range. -/
theorem test_tallyCounts : ∃ (d : Dev) (t : Nat), (d.tallyAfter t 1).2 = .ok := ⟨dev0.setTally 16 { value := 4 }, 16, by decide⟩

/-- A command that answers a next state, and one that stops. -/
theorem test_answers : (∃ (c : Instr) (s t : State), exec c s = .next t) ∧ ∃ (c : Instr) (s : State) (f : Fault), exec c s = .fault f :=
  ⟨⟨.tapReset, st dev0, _, rfl⟩, .lineRead 40 0 0 0, st dev0, .absentLine, by rfl⟩

/-- Ports of equal latency stand in the order that comes with the window, and the port with none comes last (R215). -/
theorem test_byLatencyTies : ({ devR with ports := [(3, { state := .active, latSum := 300, latCount := 3 }),
    (4, { state := .active, latSum := 100, latCount := 1 }), (5, { state := .active }),
    (6, { state := .active, latSum := 60, latCount := 1 })] } : Dev).byLatency [5, 4] [3, 4, 5, 6] = [6, 4, 3, 5] := by decide

/-- A waiting command, an ordered mailbox, and the step that runs it. -/
theorem test_frontCommand : ∃ (s t : State), s.pending = [.tapReset] ∧ Safety.MailboxOrder s.mbx ∧ step s = .next t ∧ t.pending = [] :=
  ⟨{ st dev0 with pending := [.tapReset] }, _, rfl, by unfold Safety.MailboxOrder; decide, rfl, rfl⟩

end Sys2Proof.Tests
end

/-! ## Line accesses at a controller (R148, R150, R151, R153, R176) -/

namespace Sys2Proof.Machine

open Sys2Proof

section Controller

variable {d : Dev} {m line : Nat}

/-- A slot in raw mode is never waited for (R176). -/
theorem Dev.awaitsClear_of_raw (hraw : d.isRaw m line = true) : d.awaitsClear m line = false := by
  simp [Dev.awaitsClear, hraw]

/-- A read that nothing holds, of a line neither in raw mode nor of metadata: the place that serves the line is read (R149). -/
theorem Dev.lineRead_served (x1 x2 : BitVec 640) (hserve : d.unitServes m = true) (hclear : d.awaitsClear m line = false)
    (hgo : d.mustWait m line false = false) (hraw : (d.activate m line).isRaw m line = false)
    (hmeta : (d.activate m line).metaIndex m line = none) :
    d.lineRead m line x1 x2 =
      (let y := (d.activate m line).lineServed m line
       let answer := (d.activate m line).copyRead y.1 y.2 x1 x2
       if answer.1 = .ok ∧ answer.2.2.parityUnknown y.1 y.2 = true then
         answer.2.2.drawLine.2.emit (.line .ok answer.2.2.drawLine.1)
       else answer.2.2.emit (.line answer.1 answer.2.1)) := by
  simp only [Dev.lineRead, hserve, hclear, hgo, hraw, hmeta, Bool.not_true, Bool.or_self, Bool.false_eq_true, if_false]

/-- A read that nothing holds, of a line in raw mode: the data of the stored word (R176). -/
theorem Dev.lineRead_raw (x1 x2 : BitVec 640) (hserve : d.unitServes m = true) (hclear : d.awaitsClear m line = false)
    (hgo : d.mustWait m line false = false) (hraw : (d.activate m line).isRaw m line = true) :
    d.lineRead m line x1 x2 =
      (d.activate m line).emit (.line .ok (((d.activate m line).rawStored m line).setWidth 512)) := by
  simp only [Dev.lineRead, hserve, hclear, hgo, hraw, Bool.not_true, Bool.or_self, Bool.false_eq_true, if_false, if_true]

/-- A bad line of a window copy is read again from its home, and the copy is rewritten from there (R149). -/
theorem Dev.copyRead_home {e e' : Dev} {h : Nat × Nat} {st st' : Status} {w w' : Line} {x1 x2 : BitVec 640}
    (hread : d.demandRead m line x1 x2 = (st, w, e)) (hbad : st = .poison ∨ st = .uncorrectable)
    (hhome : e.windowHome m line = some h) (hagain : e.demandRead h.1 h.2 0 0 = (st', w', e')) :
    d.copyRead m line x1 x2 =
      (st', w', if st' = .ok then e'.putLine m line w' else { e' with pool := e'.pool.poisonLine m line }) := by
  simp only [Dev.copyRead, hread, if_pos hbad, hhome, hagain]

/-- A write that nothing holds, to a line neither in raw mode nor of metadata, is stored at the place that serves it (R150). -/
theorem Dev.lineWrite_served (x : Line) (hserve : d.unitServes m = true) (hfree : (d.lineHeld m line).1 = false)
    (hclear : d.awaitsClear m line = false) (hgo : d.mustWait m line true = false)
    (hraw : (d.activate m line).isRaw m line = false) (hmeta : (d.activate m line).metaIndex m line = none) :
    d.lineWrite m line x =
      (let y := (d.activate m line).lineServed m line
       ((d.activate m line).putLine y.1 y.2 x).emit (.lineAck .ok)) := by
  simp only [Dev.lineWrite, Dev.lineStore, hserve, hfree, hclear, hgo, hraw, hmeta, Bool.not_true, Bool.or_self,
    Bool.false_eq_true, if_false]

/-- A write that nothing holds, to a line in raw mode, keeps free check bits beside the data (R176; log entries 3, 5). -/
theorem Dev.lineWrite_raw (x : Line) (hserve : d.unitServes m = true) (hfree : (d.lineHeld m line).1 = false)
    (hclear : d.awaitsClear m line = false) (hgo : d.mustWait m line true = false)
    (hraw : (d.activate m line).isRaw m line = true) :
    d.lineWrite m line x =
      (let a := d.activate m line
       { a.drawWord.2 with pool :=
          { a.pool with raw := tset a.pool.raw (lineKey m line) (x, a.drawWord.1.setWidth 128) } }.emit (.lineAck .ok)) := by
  simp only [Dev.lineWrite, hserve, hfree, hclear, hgo, hraw, Bool.not_true, Bool.or_self, Bool.false_eq_true, if_false, if_true]
  rfl

/-- A write that no page copy holds, but that must wait for Shutter or at its controller, is kept there (R153, R267, R343). -/
theorem Dev.lineWrite_held (x : Line) (hserve : d.unitServes m = true) (hfree : d.lineHeld m line = (false, none))
    (hwait : d.awaitsClear m line = true ∨ d.mustWait m line true = true) :
    d.lineWrite m line x = d.hold m (.write line x) := by
  have hor : (d.awaitsClear m line || d.mustWait m line true) = true := by simpa using hwait
  simp only [Dev.lineWrite, hserve, hfree, hor, Bool.false_or, Bool.not_true, Bool.false_eq_true, if_false, if_true]
  rfl

/-- A unit of no partition serves no write (R20, R21). -/
theorem Dev.lineWrite_unserved (x : Line) (hserve : d.unitServes m = false) : d.lineWrite m line x = d := by
  simp only [Dev.lineWrite, hserve, Bool.not_false, if_true]

/-- A merge that nothing holds, into a line neither in raw mode nor of metadata: a line that reads OK is merged and stored, and the
read's status is acknowledged (R151). -/
theorem Dev.lineMerge_served (x : Line) (en : U64) (x1 x2 : BitVec 640) (hserve : d.unitServes m = true)
    (hfree : (d.lineHeld m line).1 = false) (hclear : d.awaitsClear m line = false) (hgo : d.mustWait m line true = false)
    (hraw : (d.activate m line).isRaw m line = false) (hmeta : (d.activate m line).metaIndex m line = none) :
    d.lineMerge m line x en x1 x2 =
      (let y := (d.activate m line).lineServed m line
       let old := (d.activate m line).demandRead y.1 y.2 x1 x2
       if old.1 = .ok then (old.2.2.putLine y.1 y.2 (mergeBytes old.2.1 x en)).emit (.lineAck .ok)
       else old.2.2.emit (.lineAck old.1)) := by
  simp only [Dev.lineMerge, hserve, hfree, hclear, hgo, hraw, hmeta, Bool.not_true, Bool.or_self, Bool.false_eq_true, if_false]

end Controller

/-! ### The three rows -/

section Rows

variable {s : State} {m line : Nat} {e : Dev}

/-- LINE_READ of a line that exists, while the islands run, is the read at its controller. -/
theorem exec_lineRead {x1 x2 : BitVec 640} (hlive : s.dev.sys.live = true) (hline : s.dev.lineExists m line = true)
    (h : { s.dev with out := [] }.lineRead m line x1 x2 = e) : exec (.lineRead m line x1 x2) s = .next { s with dev := e } := by
  change execLineRead m line x1 x2 s = _
  rw [execLineRead, if_pos hline, liveStep_live _ _ hlive, ← h]
  rfl

/-- LINE_WRITE of a line that exists, while the islands run, is the write at its controller. -/
theorem exec_lineWrite {x : Line} (hlive : s.dev.sys.live = true) (hline : s.dev.lineExists m line = true)
    (h : { s.dev with out := [] }.lineWrite m line x = e) : exec (.lineWrite m line x) s = .next { s with dev := e } := by
  change execLineWrite m line x s = _
  rw [execLineWrite, if_pos hline, liveStep_live _ _ hlive, ← h]
  rfl

/-- READ_MODIFY_WRITE of a line that exists, while the islands run, is the merge at its controller. -/
theorem exec_readModifyWrite {x : Line} {en : U64} {x1 x2 : BitVec 640} (hlive : s.dev.sys.live = true)
    (hline : s.dev.lineExists m line = true) (h : { s.dev with out := [] }.lineMerge m line x en x1 x2 = e) :
    exec (.readModifyWrite m line x en x1 x2) s = .next { s with dev := e } := by
  change execReadModifyWrite m line x en x1 x2 s = _
  rw [execReadModifyWrite, if_pos hline, liveStep_live _ _ hlive, ← h]
  rfl

/-- A line that no trained unit has is the model's stop, for each of the three rows (R28). -/
theorem exec_absentLine (x : Line) (en : U64) (x1 x2 : BitVec 640) (habsent : s.dev.lineExists m line = false) :
    exec (.lineRead m line x1 x2) s = .fault .absentLine ∧ exec (.lineWrite m line x) s = .fault .absentLine ∧
    exec (.readModifyWrite m line x en x1 x2) s = .fault .absentLine := by
  have hno : ¬ s.dev.lineExists m line = true := by simp [habsent]
  exact ⟨if_neg hno, if_neg hno, if_neg hno⟩

end Rows

/-- Settles O19: each clause is the row's equation at the controller, for a device whose outputs have been cleared; no check reads the
outputs. -/
theorem lineAccesses : Obligations.LineAccesses := by
  unfold Obligations.LineAccesses
  refine ⟨?read, ?home, ?rawRead, ?write, ?rawWrite, ?held, ?unserved, ?merge, ?absent⟩
  case read =>
    rintro s m line x1 x2 a y hlive hline hserve hclear hgo rfl hraw hmeta rfl
    exact exec_lineRead hlive hline (Dev.lineRead_served x1 x2 hserve hclear hgo hraw hmeta)
  case home =>
    intro d e e' m line h st st' w w' x1 x2 hread hbad hhome hagain
    exact Dev.copyRead_home hread hbad hhome hagain
  case rawRead =>
    rintro s m line x1 x2 a hlive hline hserve hgo rfl hraw0 hraw
    exact exec_lineRead hlive hline (Dev.lineRead_raw x1 x2 hserve (Dev.awaitsClear_of_raw hraw0) hgo hraw)
  case write =>
    rintro s m line x a y hlive hline hserve hfree hclear hgo rfl hraw hmeta rfl
    exact exec_lineWrite hlive hline (Dev.lineWrite_served x hserve hfree hclear hgo hraw hmeta)
  case rawWrite =>
    rintro s m line x a hlive hline hserve hfree hgo rfl hraw0 hraw
    exact exec_lineWrite hlive hline (Dev.lineWrite_raw x hserve hfree (Dev.awaitsClear_of_raw hraw0) hgo hraw)
  case held =>
    intro s m line x hlive hline hserve hfree hwait
    exact exec_lineWrite hlive hline (Dev.lineWrite_held x hserve hfree hwait)
  case unserved =>
    intro s m line x hlive hline hserve
    exact exec_lineWrite hlive hline (Dev.lineWrite_unserved x hserve)
  case merge =>
    rintro s m line x en x1 x2 a y hlive hline hserve hfree hclear hgo rfl hraw hmeta rfl
    exact exec_readModifyWrite hlive hline (Dev.lineMerge_served x en x1 x2 hserve hfree hclear hgo hraw hmeta)
  case absent =>
    intro s m line x en x1 x2 habsent
    exact exec_absentLine x en x1 x2 habsent

end Sys2Proof.Machine

/-! ## Huanik's commands: a command that is accepted is run and answered (R26, R292 to R294, R299, R301) -/

namespace Sys2Proof.Machine

open Sys2Proof Sys2Proof.Safety

section Accepted

variable {s : State} {h : CmdHdr} {src : Sources} {target : Option Nat}

/-- A command finds the device without the outputs of the command before. -/
theorem State.onDev_id_dev : (s.onDev id).dev = { s.dev with out := [] } := rfl

/-- Whether a command is taken does not rest on earlier outputs. -/
theorem State.takes_onDev_id : (s.onDev id).takes h = s.takes h := rfl

/-- Whether a command is refused does not rest on earlier outputs. -/
theorem State.refusal_onDev_id (opcode : Nat) : (s.onDev id).refusal h opcode src target = s.refusal h opcode src target := rfl

/-- A command that is accepted is taken, whichever of the three sources it comes from. -/
theorem State.takes_of_accepts (ha : Accepts s h src target) : s.takes h = true := by
  obtain ⟨⟨hstage, hreset, hdome, hpower⟩, hcreate, -, hturn, -, -, hsrc, -⟩ := ha
  cases hs : h.src <;> simp_all [State.takes, srcReady]

/-- A command that is accepted is not refused before its own checks. -/
theorem State.refusal_of_accepts (opcode : Nat) (ha : Accepts s h src target) : s.refusal h opcode src target = none := by
  obtain ⟨⟨hstage, -⟩, -, hdome, -, hheader, hmarked, hsrc, htarget⟩ := ha
  cases hs : h.src <;> cases target <;> simp_all [State.refusal, srcReady]

/-- No command is accepted while a creation waits for slots (R301). -/
theorem waitingCreate_of_accepts (ha : Accepts s h src target) : s.dev.hk.waitingCreate = [] := by
  obtain ⟨-, hempty, -⟩ := ha
  exact hempty

/-- A command of a partition's ring that is accepted acts on that partition (R299). -/
theorem src_eq_of_accepts_part {p q : Nat} (ha : Accepts s h src (some p)) (hs : h.src = .part q) : q = p := by
  obtain ⟨-, -, -, -, -, -, hsrc, -⟩ := ha
  simp only [hs, srcReady, Option.all_some, Bool.and_eq_true, beq_iff_eq] at hsrc
  exact hsrc.2.symm

/-- A command that is accepted is run on the device without its earlier outputs, and answered with its own result. -/
theorem huanikStep_of_accepts {opcode : Nat} {of : Dev → Option Nat} {op : Dev → CmdResult} {st : Status} {outs : List U64}
    {f : Dev → Dev} (ha : Accepts s h src target) (hof : of { s.dev with out := [] } = target)
    (hop : op { s.dev with out := [] } = (st, outs, f { s.dev with out := [] })) :
    huanikStep h opcode src of op s = .next (answered s h opcode st outs f) := by
  simp only [huanikStep, State.huanik, State.takes_onDev_id, State.takes_of_accepts ha, State.onDev_id_dev, hof,
    State.refusal_onDev_id, State.refusal_of_accepts opcode ha, hop, Bool.not_true, Bool.false_eq_true, if_false]
  rfl

end Accepted

/-! ## Region and object commands (R33, R35, R44, R53) -/

section Regions

variable {d : Dev} {r : Nat} {x : Region}

/-- A region's record names the partition that a command on it acts on. -/
theorem regionOwner_of_tget (hx : tget d.regions r = some x) : regionOwner r d = some x.partition := by
  simp [regionOwner, hx]

/-! ### No placement rests on earlier outputs -/

section Outputs

variable (d : Dev) (o : List Output) (p : Nat)

theorem Dev.placeParity_out (channels : Bool) (taken : List Extent) (gs : List (List (Nat × Extent))) :
    { d with out := o }.placeParity p channels taken gs = d.placeParity p channels taken gs := by
  induction gs generalizing taken with
  | nil => rfl
  | cons g gs ih =>
    simp only [Dev.placeParity, ih]
    rfl

theorem Dev.groupAny_out (channels : Bool) (taken : List Extent) (xs : List (Nat × Extent)) (gs : List (List (Nat × Extent))) :
    { d with out := o }.groupAny p channels taken xs gs = d.groupAny p channels taken xs gs := by
  induction xs generalizing gs with
  | nil => exact d.placeParity_out o p channels taken gs
  | cons x xs ih => simp only [Dev.groupAny, ih]

theorem Dev.formParity_out (es : List Extent) : { d with out := o }.formParity p es = d.formParity p es := by
  simp only [Dev.formParity, Dev.placeParity_out, Dev.groupAny_out]

/-- The record of a new region does not rest on the outputs of the command before. -/
theorem Dev.regionRecord_out (i : RegionIn) (t : Tier) (salt : U32) :
    { d with out := o }.regionRecord p i t salt = d.regionRecord p i t salt := by
  simp only [Dev.regionRecord, Dev.formParity_out]
  rfl

end Outputs

/-- A creation that passes the checks of R33 and finds its number and record: its extent list takes its lines of metadata, and it is made
at once or waits, by whether its slots are cleared (R265). -/
theorem Dev.regionCreate_placed {h : CmdHdr} {i : RegionIn} {t : Tier} {salt : U32} {n : Nat} (htier : tierOf i.tier = some t)
    (hformat : d.regionFormat (hdrTarget h) i t = false) (hpart : (d.partn (hdrTarget h)).state ≠ .free)
    (howned : i.extents.all (fun y => (d.ownedUnits (hdrTarget h) y.ext.near).contains (extM y.ext) && extExists y.ext) = true)
    (hsalt : i.salt = some salt) (hnumber : d.freeRegion = some n) (hrecord : d.regionRecord (hdrTarget h) i t salt = some x) :
    d.regionCreate h i =
      (let hk := { d.hk with nextMetaLine := d.hk.nextMetaLine + listLines x.extents.length x.parity.length }
       if d.allCleared (createSlots x) then
         (false, .ok, [BitVec.ofNat 64 n],
           ({ d with hk := hk, regions := tset d.regions n x, serial := d.serial + 1 } : Dev).atOnce fun e => e.initPages n)
       else (true, .ok, [], { d with hk := { hk with waitingCreate := hk.waitingCreate ++ [{ hdr := h, region := n, rec_ := x }] } })) := by
  have hnone : ¬ ((d.partn (hdrTarget h)).state = .free ∨
      i.extents.any (fun y => !(d.ownedUnits (hdrTarget h) y.ext.near).contains (extM y.ext) || !extExists y.ext) = true) := by
    rintro (hfree | hforeign)
    · exact hpart hfree
    · obtain ⟨y, hy, hbad⟩ := List.any_eq_true.mp hforeign
      have hgood := List.all_eq_true.mp howned y hy
      simp_all
  simp only [Dev.regionCreate, htier, hformat, Bool.false_eq_true, if_false, if_neg hnone, hsalt, Dev.drawSalt, hnumber, hrecord]
  rfl

/-- REGION_CREATE that is accepted is answered, unless it waits for its slots (R265). -/
theorem exec_regionCreate_of_accepts {s : State} {h : CmdHdr} {i : RegionIn} {waits : Bool} {st : Status} {outs : List U64} {e : Dev}
    (ha : Accepts s h { device := true, fm := true } (some (hdrTarget h)))
    (hop : { s.dev with out := [] }.regionCreate h i = (waits, st, outs, e)) :
    exec (.regionCreate h i) s = .next (if waits then s.onDev fun _ => e else answered s h 0x0201 st outs fun _ => e) := by
  change execRegionCreate h i s = _
  simp only [execRegionCreate, State.takes_onDev_id, State.takes_of_accepts ha, State.onDev_id_dev, State.refusal_onDev_id,
    State.refusal_of_accepts 0x0201 ha, hop, Bool.not_true, Bool.false_eq_true, if_false]
  rfl

/-- REGION_DESTROY of a region that nothing names and no long command runs on (R35, R265). -/
theorem Dev.regionDestroy_unnamed (hx : tget d.regions r = some x) (hnamed : d.regionNamed r = false)
    (htaken : d.regionTaken r = false) :
    d.regionDestroy r =
      (.ok, [BitVec.ofNat 64 (d.hk.opNo + 1)],
        { d with
          hk := { d.hk with opNo := d.hk.opNo + 1, ops := d.hk.ops ++ [(d.hk.opNo + 1, LongOp.regionDestroy r)] }
          regions := tset d.regions r { x with destroying := true, migrating := false } }.giveBack
          (x.extents ++ x.newExtents ++ x.dirExtents ++ (x.parity ++ x.newParity).map (fun (g : ParityGroup) => g.parity))) := by
  simp only [Dev.regionDestroy, hx, hnamed, htaken, Bool.false_eq_true, if_false]
  rfl

/-- REGION_MIGRATE to the capacity tier, with a salt given by the device ring or the fabric manager, starts a copy where slots are found
(R44). -/
theorem Dev.regionMigrate_capacity {h : CmdHdr} {w share : Nat} {salt : U32} {e : Dev} (hx : tget d.regions r = some x)
    (hsrc : ∀ p, h.src ≠ .part p) (hformat : d.migrateFormat x h w share .capacity (some salt) = false)
    (htaken : d.regionTaken r = false) (hidle : x.migrating = false) (hgood : x.failed = false) (hshare : 0 < share)
    (hstart : ({ d with hk := { d.hk with opNo := d.hk.opNo + 1, ops := d.hk.ops ++ [(d.hk.opNo + 1, LongOp.migrate r)] } } :
      Dev).startMigration r w .capacity false share salt (some (d.hk.opNo + 1)) = some e) :
    d.regionMigrate h r w 0 share (some salt) = (.ok, [BitVec.ofNat 64 (d.hk.opNo + 1)], e) := by
  have hshare' : ¬ share = 0 := by omega
  cases hs : h.src with
  | part p => exact absurd hs (hsrc p)
  | device | fm =>
    simp only [Dev.regionMigrate, hx, tierOf, hformat, htaken, hidle, hgood, hs, Dev.drawSalt, Dev.startOp, if_neg hshare', hstart,
      Bool.or_self, Bool.false_eq_true, if_false, Dev.done]

/-- OBJECT_CREATE in a region that stands and has a free page, at the lowest free index (R53). -/
theorem Dev.objectCreate_placed {o : ObjIn} {i root : Nat} {e : Dev} (hx : tget d.regions o.region = some x)
    (hformat : d.objectFormat o x = false) (hstands : x.destroying = false)
    (hindex : firstFree ((d.objs.filter (fun y => decide (y.1 / 65536 = o.region) && y.2.state != .free)).map (fun y => y.1 % 65536))
      0 65536 = some i)
    (hroot : d.newRoot o.region = some (root, e)) :
    d.objectCreate o = (.ok, [makeHandle o.region i 0 0 (e.obj o.region i).gen],
      (d.atOnce fun _ => e).modObj o.region i fun old => { objectOf o with
        gen := old.gen, workingRoot := root, slots := old.slots.map (fun (y : Nat × PlateSlot) => (y.1, { gen := y.2.gen })) }) := by
  simp only [Dev.objectCreate, hx, hformat, hstands, hindex, hroot, Bool.false_eq_true, if_false, Dev.done]
  simp [Dev.obj, Dev.modObj, Dev.atOnce]

end Regions

/-- Settles O45: each clause is the command's own equation on the device without its earlier outputs, which a command that is accepted
runs and answers. -/
theorem regionCommands : Obligations.RegionCommands := by
  unfold Obligations.RegionCommands
  refine ⟨?create, ?wait, ?destroy, ?migrate, ?query, ?object⟩
  case create =>
    intro s h i t salt n x ha htier hformat hpart howned hsalt hnumber hrecord hcleared
    have hrun := Dev.regionCreate_placed (d := { s.dev with out := [] }) htier hformat hpart howned hsalt hnumber
      ((s.dev.regionRecord_out [] _ i t salt).trans hrecord)
    exact exec_regionCreate_of_accepts ha (hrun.trans (if_pos hcleared))
  case wait =>
    intro s h i t salt n x ha htier hformat hpart howned hsalt hnumber hrecord hcleared
    have hempty := waitingCreate_of_accepts ha
    have hrun := Dev.regionCreate_placed (d := { s.dev with out := [] }) htier hformat hpart howned hsalt hnumber
      ((s.dev.regionRecord_out [] _ i t salt).trans hrecord)
    have hexec := exec_regionCreate_of_accepts ha (hrun.trans (if_neg (Bool.eq_false_iff.mp hcleared)))
    simp only [hempty, List.nil_append] at hexec
    exact hexec
  case destroy =>
    intro s h r x hx ha hnamed htaken
    exact huanikStep_of_accepts ha (regionOwner_of_tget hx) (Dev.regionDestroy_unnamed hx hnamed htaken)
  case migrate =>
    intro s h r w share x salt d1 hx hown ha hformat htaken hidle hgood hshare hstart
    have hsrc : ∀ p, h.src ≠ .part p := fun p hs => hown (src_eq_of_accepts_part ha hs ▸ hs)
    exact huanikStep_of_accepts ha (regionOwner_of_tget hx)
      (Dev.regionMigrate_capacity hx hsrc hformat htaken hidle hgood hshare hstart)
  case query =>
    intro s h r x hx ha
    refine huanikStep_of_accepts (f := fun d => d) ha (regionOwner_of_tget hx) ?_
    simp only [hx, Dev.done]
  case object =>
    intro s h o x i root d1 hx ha hformat hstands hindex hroot
    exact huanikStep_of_accepts ha (regionOwner_of_tget hx) (Dev.objectCreate_placed hx hformat hstands hindex hroot)

end Sys2Proof.Machine

/-! ## Grants: what the steps of a grant keep of the draw (R356, R358) -/

namespace Sys2Proof.Machine

open Sys2Proof

section Grants

variable (d : Dev)

/-- The draw at the end of a period is the mean over its samples (R356). -/
theorem Dev.measureDraw_drawMw :
    d.measureDraw.pow.drawMw = (d.pow.samples.map List.sum).sum / d.pow.samples.length := rfl

@[simp] theorem Dev.endBoost_drawMw : d.endBoost.pow.drawMw = d.pow.drawMw := by
  unfold Dev.endBoost
  split <;> simp [Dev.modPow]

@[simp] theorem Dev.startBoost_drawMw : d.startBoost.pow.drawMw = d.pow.drawMw := by
  unfold Dev.startBoost
  split <;> simp [Dev.modPow]

@[simp] theorem Dev.moveCeiling_drawMw : d.moveCeiling.pow.drawMw = d.pow.drawMw := by
  unfold Dev.moveCeiling
  simp only []
  repeat' split
  all_goals simp [Dev.modPow]

@[simp] theorem Dev.grant_drawMw : d.grant.2.pow.drawMw = d.pow.drawMw := by
  unfold Dev.grant
  simp only []
  split <;> simp [Dev.modPow, Dev.drawWord]

@[simp] theorem Dev.countUnmet_drawMw (unmet : Bool) : (d.countUnmet unmet).pow.drawMw = d.pow.drawMw := by
  unfold Dev.countUnmet
  simp only []
  repeat' split
  all_goals simp [Dev.modPow]

/-- A grant ends the period, at its due time, with the mean draw that its samples measured (R356, R358). -/
theorem Dev.powerGrant_pow :
    d.powerGrant.pow.samples = [] ∧ d.powerGrant.pow.lastGrant = max d.now (d.pow.lastGrant + 100000) ∧
    d.powerGrant.pow.drawMw = (d.pow.samples.map List.sum).sum / d.pow.samples.length := by
  refine ⟨rfl, rfl, ?_⟩
  simp only [Dev.powerGrant, Dev.modPow, Dev.drawWord, Dev.countUnmet_drawMw, Dev.grant_drawMw, Dev.moveCeiling_drawMw,
    Dev.startBoost_drawMw, Dev.endBoost_drawMw, Dev.measureDraw_drawMw]
  repeat' split
  all_goals simp

end Grants

section Heat

variable {d : Dev} {ts : List Nat} {i tj : Nat}

/-- Below 100 °C a sample only reports (R364; log entry 50 for the divisor). -/
theorem Dev.sampleTemps_cool (hepisode : d.pow.episode = none) (hhot : hottestOf ts = (i, tj)) (hcool : tj < 800) :
    d.sampleTemps ts =
      { d with pow := { d.pow with
          islandTemp := (ts.take 136).mapIdx (fun k t => (k, t)), tj := tj, hottest := sensorIsland i, thermalDiv := 1 } } := by
  have htrip : ¬ 920 ≤ tj := by omega
  have hthrottle : ¬ 800 ≤ tj := by omega
  have hdiv : tj < 840 := by omega
  simp only [Dev.sampleTemps, hhot, hepisode, if_neg htrip, hthrottle, false_and, if_false, if_pos hdiv, Dev.modPow]
  rfl

/-- From 100 °C the engines are throttled, and THERMAL_THROTTLE is raised (R364). -/
theorem Dev.sampleTemps_throttle (hepisode : d.pow.episode = none) (hhot : hottestOf ts = (i, tj)) (hwarm : 800 ≤ tj) (hdiv : tj < 840)
    (hfirst : d.pow.throttled = false) :
    d.sampleTemps ts =
      ({ d with
        sys := { d.sys with therm := true }
        pow := { d.pow with
          islandTemp := (ts.take 136).mapIdx (fun k t => (k, t)), tj := tj, hottest := sensorIsland i, thermalDiv := 1
          throttled := true } } : Dev).raise
        { code := .thermalThrottle, detail0 := some (BitVec.ofNat 64 (sensorIsland i)), detail1 := some (BitVec.ofNat 64 tj) } := by
  have htrip : ¬ 920 ≤ tj := by omega
  simp only [Dev.sampleTemps, hhot, hepisode, if_neg htrip, hwarm, hfirst, if_pos hdiv, Dev.modPow, and_self, if_true]
  rfl

/-- What a trip leaves of the state that AON keeps (R365). -/
theorem Dev.trip_sys (d : Dev) (n : Nat) :
    (d.trip n).sys.islandsOff = true ∧ (d.trip n).sys.therm = true ∧ (d.trip n).sys.causeTrip = true ∧
    (d.trip n).sys.retain = false ∧ (d.trip n).sys.tripIsland = BitVec.ofNat 16 n := ⟨rfl, rfl, rfl, rfl, rfl⟩

/-- At 115 °C the device trips (R365). -/
theorem Dev.sampleTemps_trip (hhot : hottestOf ts = (i, tj)) (htrip : 920 ≤ tj) :
    ∃ e : Dev, d.sampleTemps ts = e.trip (sensorIsland i) := by
  simp only [Dev.sampleTemps, hhot, if_pos htrip]
  exact ⟨_, rfl⟩

/-- THERMAL_SAMPLE while the islands have power outside Dome: a trip takes the mailbox along. -/
theorem exec_thermalSample {s : State} {e : Dev} (hreset : s.dev.sys.resetN = true) (hdome : s.dev.sys.inDome = false)
    (hpower : s.dev.sys.islandsOff = false) (h : { s.dev with out := [] }.sampleTemps ts = e) :
    exec (.thermalSample ts) s = .next (if e.sys.islandsOff then { s with mbx := {}, dev := e } else { s with dev := e }) := by
  change execThermalSample ts s = _
  simp only [execThermalSample, State.onDev, id, hreset, hdome, hpower, h, Bool.not_false, Bool.and_self, if_true, State.resetMbx]

/-- A sample that leaves the islands their power changes the device alone. -/
theorem exec_thermalSample_powered {s : State} {e : Dev} (hreset : s.dev.sys.resetN = true) (hdome : s.dev.sys.inDome = false)
    (hpower : s.dev.sys.islandsOff = false) (h : { s.dev with out := [] }.sampleTemps ts = e) (hon : e.sys.islandsOff = false) :
    exec (.thermalSample ts) s = .next { s with dev := e } := by
  simp only [exec_thermalSample hreset hdome hpower h, hon, Bool.false_eq_true, if_false]

end Heat

section Rows

variable {s : State}

/-- POWER_GRANT while the islands run, after a sample of its period, is a grant (R358). -/
theorem exec_powerGrant (hlive : s.dev.sys.live = true) (hsampled : s.dev.pow.samples ≠ []) :
    exec .powerGrant s = .next (s.onDev Dev.powerGrant) := by
  change execPowerGrant s = _
  have hopen : (s.dev.sys.live && !s.dev.pow.samples.isEmpty) = true := by simp [hlive, hsampled]
  simp only [execPowerGrant, devStep_eq, State.onDev, hopen, Dev.guard_true]

/-- POWER_GRANT without a sample is none (log entry 50). -/
theorem exec_powerGrant_unsampled (hnone : s.dev.pow.samples = []) : exec .powerGrant s = .next (s.onDev fun d => d) := by
  change execPowerGrant s = _
  simp only [execPowerGrant, devStep_eq, State.onDev, hnone, List.isEmpty_nil, Bool.not_true, Bool.and_false, Dev.guard_false]

/-- DRAW_SAMPLE while the islands run, 10 µs after the last sample of its period (R356). -/
theorem exec_drawSample {xs : List Nat} (hlive : s.dev.sys.live = true) :
    exec (.drawSample xs) s = .next (s.onDev fun d =>
      (d.reach (d.pow.lastGrant + 10000 * (d.pow.samples.length + 1))).modPow fun p => { p with samples := p.samples ++ [xs] }) := by
  change execDrawSample xs s = _
  simp only [execDrawSample, devStep_eq, State.onDev, hlive, Dev.guard_true]

/-- THERMAL_LIMIT_STEP at 105 °C and at the lowest point, until the issue rate is an eighth (R365). -/
theorem exec_thermalLimitStep (hlive : s.dev.sys.live = true) (hhot : 840 ≤ s.dev.pow.tj) (hlowest : s.dev.pow.ceiling = 800)
    (hthrottled : s.dev.pow.throttled = true) (hroom : s.dev.pow.thermalDiv < 8) :
    exec .thermalLimitStep s = .next (s.onDev fun d =>
      let e := d.reach (d.pow.limitAt + 1000000)
      (e.modPow fun p => { p with thermalDiv := 2 * p.thermalDiv, limitAt := e.now }).raise
        { code := .thermalLimit, detail0 := some (BitVec.ofNat 64 d.pow.hottest)
          detail1 := some (BitVec.ofNat 64 (2 * d.pow.thermalDiv)) }) := by
  change execThermalLimitStep s = _
  have hopen : (decide (840 ≤ s.dev.pow.tj) && s.dev.pow.ceiling == 800 && s.dev.pow.throttled &&
      decide (s.dev.pow.thermalDiv < 8)) = true := by
    simp [hhot, hlowest, hthrottled, hroom]
  simp only [execThermalLimitStep, liveStep_live _ _ hlive, State.onDev, hopen, Dev.guard_true]

/-- DRAM_CALIBRATION of a rank of a trained unit, 128 ms after the last time (R363). -/
theorem exec_dramCalibration {m r : Nat} (hlive : s.dev.sys.live = true) (htrained : (s.dev.unit m).trained = true)
    (halive : (s.dev.unit m).dead = false) (hthere : (s.dev.unit m).removed = false) (hrank : r < 2 ^ (s.dev.unit m).nr) :
    exec (.dramCalibration m r) s = .next (s.onDev fun d =>
      let t := ((tget (d.unit m).calibratedAt r).map fun t => max d.now (t + 128000000)).getD d.now
      ({ d with now := t } : Dev).modUnit m fun u => { u with calibratedAt := tset u.calibratedAt r t }) := by
  change execDramCalibration m r s = _
  have hopen : (({ s.dev with out := [] } : Dev).unit m).trained = true ∧ (({ s.dev with out := [] } : Dev).unit m).dead = false ∧
      (({ s.dev with out := [] } : Dev).unit m).removed = false ∧ r < 2 ^ (({ s.dev with out := [] } : Dev).unit m).nr :=
    ⟨htrained, halive, hthere, hrank⟩
  obtain ⟨h1, h2, h3, h4⟩ := hopen
  simp only [execDramCalibration, liveStep_live _ _ hlive, State.onDev, h1, h2, h3, decide_eq_true h4, Bool.not_false, Bool.and_self,
    Dev.guard_true]
  cases tget (({ s.dev with out := [] } : Dev).unit m).calibratedAt r <;> rfl

/-- QUEUE_DEPTH_SAMPLE of one trained unit notes its depth and counts it (R43). -/
theorem exec_queueDepthSample {m k : Nat} (hlive : s.dev.sys.live = true) (hunit : m < 112) (htrained : (s.dev.unit m).trained = true) :
    exec (.queueDepthSample [(m, k)]) s = .next (s.onDev fun d =>
      (d.modUnit m fun u => { u with depth := k }).bump (.unitQdepthHist m (depthBucket k))) := by
  change execQueueDepthSample [(m, k)] s = _
  have hopen : m < 112 ∧ (({ s.dev with out := [] } : Dev).unit m).trained = true := ⟨hunit, htrained⟩
  simp only [execQueueDepthSample, liveStep_live _ _ hlive, State.onDev, List.foldl_cons, List.foldl_nil, if_pos hopen]

/-- PLDM_REQUEST while AON answers (R367, R369). -/
theorem exec_pldmRequest {q : PldmReq} {e : Dev} (hreset : s.dev.sys.resetN = true) (hpower : s.dev.sys.islandsOff = false)
    (hstage : s.dev.sys.stage ≠ .retired) (h : { s.dev with out := [] }.pldm q = e) :
    exec (.pldmRequest q) s = .next { s with dev := e } := by
  change execPldmRequest q s = _
  have hopen : (s.dev.sys.resetN && !s.dev.sys.islandsOff && s.dev.sys.stage != .retired) = true := by
    simp [hreset, hpower, hstage]
  simp only [execPldmRequest, devStep_eq, State.onDev, hopen, Dev.guard_true, h]

end Rows

/-! ### The sideband's answers (R356, R367, R369) -/

section Sideband

variable {d : Dev}

/-- A register of Table 15.7 that exists is read, but in Dome. -/
theorem Dev.pldm_readSensor {r i v : Nat} (hdome : d.sys.inDome = false) (hvalue : d.sensor r i = some v) :
    d.pldm (.readSensor r i) = d.emit (.pldm [v]) := by
  simp only [Dev.pldm, hdome, hvalue, Bool.false_eq_true, if_false]

/-- In Dome no register of Table 15.7 is read (R367). -/
theorem Dev.pldm_readSensor_dome {r i : Nat} (hdome : d.sys.inDome = true) : d.pldm (.readSensor r i) = d.emit .pldmNotReady := by
  simp only [Dev.pldm, hdome, if_true]

/-- A power parameter is set to a value in its range, as PARAM_SET sets it (R356). -/
theorem Dev.pldm_writePwr {k v : Nat} (hdome : d.sys.inDome = false) (hfirst : 0x0050 ≤ k) (hlast : k ≤ 0x0055)
    (hword : v < 18446744073709551616) (hrange : d.paramBad k 0 (BitVec.ofNat 64 v) = false) :
    d.pldm (.writePwr k v) = (d.paramApply k 0 (BitVec.ofNat 64 v)).emit (.pldm []) := by
  have hgood : ¬ (k < 0x0050 ∨ 0x0055 < k ∨ 18446744073709551616 ≤ v ∨ d.paramBad k 0 (BitVec.ofNat 64 v) = true) := by
    simp only [hrange, Bool.false_eq_true, or_false]
    omega
  simp only [Dev.pldm, hdome, Bool.false_eq_true, if_false, if_neg hgood]

end Sideband

/-- Settles O58: each clause is its row's equation, and a grant keeps the draw measured through its later steps. -/
theorem powerAndHeat : Obligations.PowerAndHeat := by
  unfold Obligations.PowerAndHeat
  refine ⟨?grant, ?noGrant, ?draw, ?cool, ?throttle, ?trip, ?limit, ?voltage, ?calibrate, ?depth, ?state, ?sensor, ?dome, ?write⟩
  case grant =>
    intro s hlive hsampled
    exact ⟨_, exec_powerGrant hlive hsampled, Dev.powerGrant_pow _⟩
  case noGrant =>
    intro s hnone
    exact exec_powerGrant_unsampled hnone
  case draw =>
    intro s xs hlive
    exact exec_drawSample hlive
  case cool =>
    intro s ts i tj hreset hdome hpower hepisode hhot hcool
    exact exec_thermalSample_powered hreset hdome hpower (Dev.sampleTemps_cool hepisode hhot hcool) hpower
  case throttle =>
    intro s ts i tj hreset hdome hpower hepisode hhot hwarm hdiv hfirst
    refine exec_thermalSample_powered hreset hdome hpower (Dev.sampleTemps_throttle hepisode hhot hwarm hdiv hfirst) ?_
    exact (congrArg Sys.islandsOff (Dev.raise_sys _ _ (by simp [severity]))).trans hpower
  case trip =>
    intro s ts i tj hreset hdome hpower hhot htrip
    obtain ⟨e, he⟩ := Dev.sampleTemps_trip (d := { s.dev with out := [] }) hhot htrip
    have hsys := e.trip_sys (sensorIsland i)
    refine ⟨_, (exec_thermalSample hreset hdome hpower he).trans (congrArg _ (if_pos hsys.1)), rfl, hsys⟩
  case limit =>
    intro s hlive hhot hlowest hthrottled hroom
    exact exec_thermalLimitStep hlive hhot hlowest hthrottled hroom
  case voltage =>
    rintro s vs c hlive rfl
    exact liveStep_live _ _ hlive
  case calibrate =>
    intro s m r hlive htrained halive hthere hrank
    exact exec_dramCalibration hlive htrained halive hthere hrank
  case depth =>
    intro s m k hlive hunit htrained
    exact exec_queueDepthSample hlive hunit htrained
  case state =>
    intro s hreset hpower hstage
    exact exec_pldmRequest hreset hpower hstage rfl
  case sensor =>
    intro s r i v hreset hpower hstage hdome hvalue
    exact exec_pldmRequest hreset hpower hstage (Dev.pldm_readSensor hdome hvalue)
  case dome =>
    intro s r i hreset hpower hstage hdome
    exact exec_pldmRequest hreset hpower hstage (Dev.pldm_readSensor_dome hdome)
  case write =>
    intro s k v hreset hpower hstage hdome hfirst hlast hword hrange
    exact exec_pldmRequest hreset hpower hstage (Dev.pldm_writePwr hdome hfirst hlast hword hrange)

end Sys2Proof.Machine

/-! ## Which operations on memory leave the object records (R51) as they are -/

namespace Sys2Proof.Machine

open Sys2Proof

section Objects

variable (d : Dev)

/-- A run of steps that each leave the object records leaves them. -/
theorem foldl_objs {β : Type} {f : Dev → β → Dev} (hf : ∀ e x, (f e x).objs = e.objs) (l : List β) (d : Dev) :
    (l.foldl f d).objs = d.objs := by
  induction l generalizing d with
  | nil => rfl
  | cons x l ih => exact (ih (f d x)).trans (hf d x)

/-! ### Alarms and the correction log (R154 to R156, R167) -/

@[simp] theorem Dev.nextRebuildExtent_objs (b : Rebuild) (todo : List Nat) : (d.nextRebuildExtent b todo).1.objs = d.objs := by
  induction todo generalizing d b with
  | nil => rfl
  | cons e rest ih =>
    simp only [Dev.nextRebuildExtent]
    split
    · rfl
    · simp [ih]

@[simp] theorem Dev.startRebuild_objs (u : Nat) (dead : Bool) (op : Option Nat) : (d.startRebuild u dead op).objs = d.objs := by
  simp [Dev.startRebuild, Dev.loseSlots, apply_ite Dev.objs]

theorem Dev.startMigration_objs {r w share : Nat} {tier : Tier} {near : Bool} {salt : U32} {op : Option Nat} {e : Dev}
    (h : d.startMigration r w tier near share salt op = some e) : e.objs = d.objs := by
  simp only [Dev.startMigration] at h
  split at h
  · cases h
  · split at h
    · cases h
    · split at h
      · cases h
      · split at h
        · cases h
          rfl
        · cases h

@[simp] theorem Dev.leaveNear_objs (m : Nat) : (d.leaveNear m).objs = d.objs := by
  refine foldl_objs (fun e x => ?_) _ d
  cases h : e.startMigration x.1 x.2.width .nearIfFree false 25 x.2.salt none with
  | none => rfl
  | some f => exact e.startMigration_objs h

@[simp] theorem Dev.alarm_objs (m : Nat) : (d.alarm m).objs = d.objs := by
  simp [Dev.alarm, apply_ite Dev.objs]

@[simp] theorem Dev.countCorrection_objs (m : Nat) (loc : EvLoc) (pos : Nat) (isNew : Bool) :
    (d.countCorrection m loc pos isNew).objs = d.objs := by
  simp only [Dev.countCorrection, apply_ite Dev.objs, Dev.alarm_objs, Dev.modUnit_frame, Dev.bump_frame, ite_self]

@[simp] theorem Dev.logCorrection_objs (m line pos src : Nat) : (d.logCorrection m line pos src).objs = d.objs := by
  simp [Dev.logCorrection]

/-! ### Demand reads (R148) and copies of lines (R67) -/

@[simp] theorem Dev.reconstruct_objs (m line : Nat) : (d.reconstruct m line).2.objs = d.objs := by
  unfold Dev.reconstruct
  split
  · rfl
  · simp only []
    repeat' split
    all_goals rfl

@[simp] theorem Dev.miscorrect_objs (m line src : Nat) : (d.miscorrect m line src).2.objs = d.objs := by
  simp [Dev.miscorrect, Dev.drawLine, Dev.drawWord]

@[simp] theorem Dev.giveUpLine_objs (m line : Nat) : (d.giveUpLine m line).objs = d.objs := by
  simp only [Dev.giveUpLine]
  split <;> rfl

@[simp] theorem Dev.uncorrectableTwice_objs (m line : Nat) : (d.uncorrectableTwice m line).2.2.objs = d.objs := by
  simp only [Dev.uncorrectableTwice]
  split <;> simp only [Dev.raise_frame, Dev.bump_frame, Dev.reconstruct_objs, Dev.giveUpLine_objs]

/-- A demand read corrects, logs, counts and reports, and touches no object. -/
@[simp] theorem Dev.demandRead_objs (m line : Nat) (x1 x2 : BitVec 640) : (d.demandRead m line x1 x2).2.2.objs = d.objs := by
  simp only [Dev.demandRead]
  repeat' split
  all_goals simp [Dev.logTransient, Dev.drawLine]

@[simp] theorem Dev.throttleBank_objs (m bank line : Nat) : (d.throttleBank m bank line).objs = d.objs := by
  simp only [Dev.throttleBank]
  split
  · rfl
  · simp [apply_ite Dev.objs]

@[simp] theorem Dev.activate_objs (m line : Nat) : (d.activate m line).objs = d.objs := by
  simp [Dev.activate, Dev.issueRfm, apply_ite Dev.objs]

@[simp] theorem Dev.copyLine_objs (m line m' line' : Nat) : (d.copyLine m line m' line').objs = d.objs := by
  simp only [Dev.copyLine, Dev.putPoison, apply_ite Dev.objs, Dev.putLine_frame, Dev.markStale_frame, Dev.demandRead_objs, ite_self]

@[simp] theorem Dev.copyRun_objs (m line m' line' n : Nat) : (d.copyRun m line m' line' n).objs = d.objs := by
  have hrows : ((d.activate m line).activate m' line').objs = d.objs := by simp only [Dev.activate_objs]
  simp only [Dev.copyRun]
  split
  · refine (foldl_objs (fun e k => ?_) _ _).trans hrows
    exact e.copyLine_objs m (line + k) m' (line' + k)
  · refine (foldl_objs (fun e k => ?_) _ _).trans hrows
    exact e.demandRead_objs m (line + k) 0 0

/-! ### The pages that Feryth keeps for itself (R54 to R57) -/

@[simp] theorem Dev.waitToWrite_objs (r off m line : Nat) : (d.waitToWrite r off m line).objs = d.objs := by
  unfold Dev.waitToWrite
  split
  · rfl
  · simp [apply_ite Dev.objs]

@[simp] theorem Dev.putPageLine_objs (r pg k : Nat) (x : Line) : (d.putPageLine r pg k x).objs = d.objs := by
  unfold Dev.putPageLine
  split <;> simp

@[simp] theorem Dev.copyPage_objs (r : Nat) (src dst : Bool × Nat) : (d.copyPage r src dst).objs = d.objs := by
  refine foldl_objs (fun e i => ?_) _ d
  split
  · simp [apply_ite Dev.objs]
  · rfl

@[simp] theorem Dev.setCount_objs (r : Nat) (pg : Bool × Nat) (n : Nat) : (d.setCount r pg n).objs = d.objs := by
  simp [Dev.setCount, apply_ite Dev.objs]

@[simp] theorem Dev.setUsed_objs (r p : Nat) (used : Bool) : (d.setUsed r p used).objs = d.objs := by
  simp [Dev.setUsed]

theorem Dev.takePage_objs {r p : Nat} {e : Dev} (h : d.takePage r = some (p, e)) : e.objs = d.objs := by
  unfold Dev.takePage at h
  split at h
  · cases h
  · obtain ⟨q, -, hq⟩ := Option.map_eq_some_iff.mp h
    cases hq
    exact d.setUsed_objs r p true

end Objects

/-! ### What copying a root leaves of an object (R67, R70) -/

section Roots

variable {d : Dev} {r i : Nat}

/-- Objects are read from their table alone. -/
theorem Dev.obj_congr {e : Dev} (h : e.objs = d.objs) : e.obj r i = d.obj r i := by
  simp only [Dev.obj, h]

/-- Counting a page under an object can pin the object, and its versions stay (R70). -/
theorem Dev.incPage_latestVersion (d : Dev) (pg : Bool × Nat) :
    ((d.incPage r i pg).obj r i).latestVersion = (d.obj r i).latestVersion := by
  have hcount : ∀ n, (d.setCount r pg n).obj r i = d.obj r i := fun n => Dev.obj_congr (d.setCount_objs r pg n)
  have hraise : ∀ (e : Dev) (v : Event), (e.raise v).obj r i = e.obj r i := fun e v => Dev.obj_congr (by simp only [Dev.raise_frame])
  simp only [Dev.incPage]
  split
  · rfl
  · split
    · rw [hraise, Dev.obj_modObj_same, hcount]
    · rw [hcount]

theorem Dev.foldl_incPage_latestVersion (es : Tab Nat) (d : Dev) :
    ((es.foldl (fun e x => e.incPage r i (false, x.2)) d).obj r i).latestVersion = (d.obj r i).latestVersion := by
  induction es generalizing d with
  | nil => rfl
  | cons x es ih => exact (ih _).trans (d.incPage_latestVersion _)

/-- Copying a root of an object leaves the number of its latest version. -/
theorem Dev.copyRoot_latestVersion {root p : Nat} {e : Dev} (h : d.copyRoot r i root = some (p, e)) :
    (e.obj r i).latestVersion = (d.obj r i).latestVersion := by
  unfold Dev.copyRoot at h
  split at h
  · cases h
  · next q d1 htake =>
    cases h
    rw [Dev.foldl_incPage_latestVersion]
    refine congrArg Obj.latestVersion (Dev.obj_congr ?_)
    simp only [Dev.modPages_frame, Dev.copyPage_objs, d.takePage_objs htake]

/-- Two changes that agree on the object as it stands change it alike. -/
theorem Dev.modObj_congr {f g : Obj → Obj} (h : f (d.obj r i) = g (d.obj r i)) : d.modObj r i f = d.modObj r i g :=
  congrArg (fun o => { d with objs := tset d.objs (objKey r i) o }) h

end Roots

end Sys2Proof.Machine

/-! ## Descriptors that run undisturbed (R72, R253, R317) -/

namespace Sys2Proof.Machine

open Sys2Proof Sys2Proof.Safety

section Undisturbed

/-- An operation that meets nothing to wait for has its effect at once (R253). -/
theorem Dev.windowed_undisturbed {d e : Dev} {op : Dev → Dev} (hop : op d.settle = e) (hagain : e.again = false)
    (hdone : e.winDone = []) : d.windowed op = e := by
  simp only [Dev.windowed, hop, hagain, hdone, if_true]

/-- An operation that meets nothing to wait for and mirrors no write has its effect alone (R253, R317). -/
theorem Dev.mirrored_undisturbed {d e : Dev} {c : WinReq} {op : Dev → Dev} (hop : op d.settle = e) (hu : Undisturbed d e) :
    d.mirrored c op = e := by
  obtain ⟨hagain, hdone, hmirror⟩ := hu
  refine Dev.windowed_undisturbed ?_ hagain hdone
  simp only [hop]
  exact if_pos hmirror

variable {s : State} {i op : Nat} {j : Job} {f : Job → Dev → Dev} {e : Dev}

/-- A descriptor without a result runs its operation in its own name (R73, R175); undisturbed, that is the whole step. -/
theorem devStep_runJob (hrun : Running s.dev i j op) (hop : f j (under s.dev i j) = e) (hu : Undisturbed s.dev e) :
    devStep (fun d => d.runJob i [op] f) s = .next { s with dev := e.atRest } := by
  obtain ⟨hjob, hresult, hopcode⟩ := hrun
  have hfound : (under s.dev i j).job i = some j := hjob
  have hopen : (j.result.isNone && [op].contains (dOpcode j.desc)) = true := by simp [hresult, hopcode]
  have hstream : ((({ s.dev with out := [] } : Dev).job i).map Job.stream).getD .other = j.stream :=
    congrArg (fun x => (x.map Job.stream).getD .other) hjob
  have hwhole : ((under s.dev i j).onJob i [op] f).atRest = e.atRest := by
    simp only [Dev.onJob, hfound, hopen, if_true, hop]
  have hdone : ({ s.dev with out := [] } : Dev).runJob i [op] f = e.atRest := by
    simp only [Dev.runJob, hstream]
    exact Dev.mirrored_undisturbed hwhole hu
  exact congrArg (fun d => Host.Outcome.next { s with dev := d }) hdone

/-- A descriptor whose turn on its object has come runs as one that needs no turn (R72). -/
theorem devStep_runInTurn (hrun : Running s.dev i j op) (hturn : s.dev.inTurn j = true) (hop : f j (under s.dev i j) = e)
    (hu : Undisturbed s.dev e) : devStep (fun d => d.runInTurn i [op] f) s = .next { s with dev := e.atRest } :=
  devStep_runJob hrun ((if_pos hturn).trans hop) hu

end Undisturbed

/-! ## The Plate descriptors (R64, R65, Table 3.7) -/

section Versions

variable {d : Dev} {r k t : Nat} {but : Option Nat}

/-- A slot that is set to a published version with an open, or to the latest of a LIVE object, stays so (Table 3.5). -/
theorem Dev.settleSlot_published {o : Obj} {sl : PlateSlot} (ho : d.obj r k = o) (hpublished : sl.state = .published)
    (hkept : sl.openCount ≠ 0 ∨ (o.state = .live ∧ sl.version = o.latestVersion)) :
    (d.modObj r k fun y => { y with slots := tset y.slots t sl }).settleSlot r k t but =
      d.modObj r k fun y => { y with slots := tset y.slots t sl } := by
  rcases hkept with hopen | ⟨hlive, hlatest⟩
  · simp [Dev.settleSlot, Obj.slot, hpublished, hopen]
  · simp [Dev.settleSlot, Obj.isLatest, Obj.slot, ho, hpublished, hlive, hlatest]

/-- A working version that is held stays (R61). -/
theorem Dev.freeWorking_held (hheld : d.held r k 0 but = true) : d.freeWorking r k but = d := by
  simp [Dev.freeWorking, hheld]

end Versions

section Plates

variable {d : Dev} {j : Job} {r k : Nat} {o : Obj}

/-- A descriptor acts on the object that its handle names (R59). -/
theorem Dev.target_eq (hr : r = hRegion (dW0 j.desc)) (hk : k = hIndex (dW0 j.desc)) (ho : d.obj r k = o) :
    d.target j = (r, k, o) := by
  subst hr hk ho
  rfl

variable (htarget : d.target j = (r, k, o))

include htarget

theorem Dev.obj_of_target : d.obj r k = o := by
  cases htarget
  rfl

/-- A working handle of a LIVE object, of its present generation, still finds it (R72). -/
theorem Dev.goneWorking_live (hlive : o.state = .live) (hgen : o.gen.toNat = hObjGen (dW0 j.desc)) : d.goneWorking j = false := by
  simp [Dev.goneWorking, htarget, hlive, hgen]

/-- PLATE_OPEN of a published version with room for another open (R64). -/
theorem Dev.plateOpen_published {t v : Nat} {sl : PlateSlot}
    (hwanted : (if field j.desc 192 32 = 0 then o.latestVersion.toNat else field j.desc 192 32) = v)
    (hslot : o.slots.find? (fun x => x.2.state == .published && x.2.version.toNat == v && v != 0) = some (t, sl))
    (hroom : sl.openCount < 65535) :
    Dev.plateOpen j d = ended (d.modObj r k fun y => { y with slots := tset y.slots t { sl with openCount := sl.openCount + 1 } })
      j .ok (makeHandle r k t sl.gen o.gen) sl.version := by
  have hfull : sl.openCount ≠ 65535 := by omega
  simp only [Dev.plateOpen, htarget, hwanted, hslot, if_neg hfull]
  rfl

/-- PLATE_CLOSE of an open version that stays published: it has further opens, or is the latest (R64, Table 3.5). -/
theorem Dev.plateClose_stays {t : Nat} (ht : t = hSlot (dW0 j.desc)) (hslot : t ≠ 0) (hpublished : (o.slot t).state = .published)
    (hkept : 2 ≤ (o.slot t).openCount ∨ ((o.slot t).openCount = 1 ∧ o.state = .live ∧ (o.slot t).version = o.latestVersion)) :
    Dev.plateClose j d =
      ended (d.modObj r k fun y => { y with slots := tset y.slots t { o.slot t with openCount := (o.slot t).openCount - 1 } })
        j .ok 0 (BitVec.ofNat 32 ((o.slot t).openCount - 1)) := by
  have hopen : (o.slot t).openCount ≠ 0 := by omega
  have hkeptStill : (o.slot t).openCount - 1 ≠ 0 ∨ (o.state = .live ∧ (o.slot t).version = o.latestVersion) :=
    hkept.imp (fun hmore => by omega) And.right
  simp only [Dev.plateClose, htarget, ← ht, if_neg hslot, if_neg hopen]
  exact congrArg (fun x => ended x j .ok 0 _) (Dev.settleSlot_published (Dev.obj_of_target htarget) hpublished hkeptStill)

/-- PLATE_CLOSE with `destroy` of a LIVE object without versions: while its working version is held, it is DESTROYING alone (R65). -/
theorem Dev.plateDestroy_held (hslot : hSlot (dW0 j.desc) = 0) (hlive : o.state = .live) (hgen : o.gen.toNat = hObjGen (dW0 j.desc))
    (hnone : o.slots = []) (hheld : d.held r k 0 none = true) :
    Dev.plateDestroy j d = ended (d.modObj r k fun y => { y with state := .destroying }) j .ok 0 0 := by
  simp only [Dev.plateDestroy, htarget, hslot, Dev.goneWorking_live htarget hlive hgen, hnone, ne_eq, not_true_eq_false,
    Bool.false_eq_true, if_false, List.map_nil, List.foldl_nil]
  exact congrArg (fun x => ended x j .ok 0 0) (Dev.freeWorking_held hheld)

/-- PLATE_PUBLISH over a latest version that is no longer published (R64; log entry 15 for the slot). -/
theorem Dev.platePublish_placed {t root : Nat} {e : Dev} (hslot : hSlot (dW0 j.desc) = 0) (hlive : o.state = .live)
    (hgen : o.gen.toNat = hObjGen (dW0 j.desc)) (hroom : o.latestVersion ≠ 0xFFFFFFFE)
    (hold : o.slots.any (fun x => x.2.state == .published && x.2.version == o.latestVersion) = false)
    (hfree : (List.range 16).find? (fun x => x != 0 && (o.slot x).state == .free) = some t)
    (hroot : d.copyRoot r k o.workingRoot = some (root, e)) :
    Dev.platePublish j d =
      (let sl : PlateSlot := { version := o.latestVersion + 1, root := root, state := .published, gen := (o.slot t).gen,
                               openCount := if bit j.desc 225 then 1 else 0, length := o.length }
       ended (e.modObj r k fun y => { y with slots := tset y.slots t sl, latestVersion := o.latestVersion + 1 }) j .ok
         (makeHandle r k t (o.slot t).gen o.gen) (o.latestVersion + 1)) := by
  have hlatest : (e.obj r k).latestVersion = o.latestVersion := by
    rw [Dev.copyRoot_latestVersion hroot, Dev.obj_of_target htarget]
  have hnoOld : o.slots.find? (fun x => x.2.state == .published && x.2.version == o.latestVersion) = none := by
    simpa using hold
  simp only [Dev.platePublish, htarget, hslot, Dev.goneWorking_live htarget hlive hgen, hfree, hroot, hnoOld, if_neg hroom, ne_eq,
    not_true_eq_false, Bool.false_eq_true, if_false]
  refine congrArg (fun x => ended x j .ok _ _) (Dev.modObj_congr ?_)
  simp only [hlatest]

/-- PLATE_FORK of a working version (R64; log entry 15 for the index). -/
theorem Dev.plateFork_working {n root : Nat} {e : Dev} (hslot : hSlot (dW0 j.desc) = 0) (hlive : o.state = .live)
    (hgen : o.gen.toNat = hObjGen (dW0 j.desc))
    (hfree : firstFree ((d.objs.filter (fun x => decide (x.1 / 65536 = r) && x.2.state != .free)).map (fun x => x.1 % 65536))
      0 65536 = some n)
    (hroot : d.copyRoot r k o.workingRoot = some (root, e)) :
    Dev.plateFork j d =
      ended ((e.modObj r n fun old => { o with
        gen := (e.obj r n).gen, state := .live, pinned := false, length := o.length, workingRoot := root, workingFreed := false,
        latestVersion := 0, parentIndex := k, parentGen := o.gen, nearFullRaised := false,
        slots := old.slots.map (fun x => (x.1, { gen := x.2.gen })) }).moveWindow r n []) j .ok
        (makeHandle r n 0 0 (e.obj r n).gen) (BitVec.ofNat 32 o.length) := by
  simp only [Dev.plateFork, htarget, hslot, Dev.goneWorking_live htarget hlive hgen, hfree, hroot, Bool.false_eq_true, if_false, if_true]
  exact congrArg (fun x => ended (x.moveWindow r n []) j .ok _ _) (Dev.modObj_congr rfl)

end Plates

/-! ### PLATE_CLOSE is two rows, by `destroy` -/

section Rows

variable {s : State} {i : Nat} {j : Job} {e : Dev}

/-- Without `destroy`, PLATE_CLOSE takes one open, in any order (R64). -/
theorem exec_plateClose (hrun : Running s.dev i j 0x21) (hbit : bit j.desc 224 = false) (hop : Dev.plateClose j (under s.dev i j) = e)
    (hu : Undisturbed s.dev e) : exec (.plateClose i) s = .next { s with dev := e.atRest } :=
  devStep_runJob (f := fun j e => if bit j.desc 224 then e else Dev.plateClose j e) hrun
    ((if_neg (Bool.eq_false_iff.mp hbit)).trans hop) hu

/-- With `destroy`, PLATE_CLOSE takes its turn on the object (R65, R72). -/
theorem exec_plateCloseDestroy (hrun : Running s.dev i j 0x21) (hbit : bit j.desc 224 = true) (hturn : s.dev.inTurn j = true)
    (hop : Dev.plateDestroy j (under s.dev i j) = e) (hu : Undisturbed s.dev e) :
    exec (.plateCloseDestroy i) s = .next { s with dev := e.atRest } :=
  devStep_runInTurn (f := fun j e => if bit j.desc 224 then Dev.plateDestroy j e else e) hrun hturn ((if_pos hbit).trans hop) hu

end Rows

/-! ## Background freeing (R69) -/

section Freeing

variable {d : Dev} {r h : Nat}

/-- A data page without a window copy is marked free, and nothing else goes with it. -/
theorem Dev.freePage_data (hmap : tget (d.pages r).maps h = none) (hwindow : tget (d.pages r).windows h = none) :
    d.freePage r (false, h) =
      (d.modPages r fun p => { p with maps := terase p.maps h, windows := terase p.windows h }).setUsed r h false := by
  simp only [Dev.freePage, tgetD, hmap, hwindow, Bool.false_eq_true, if_false, Option.getD_none, List.foldl_nil]

/-- PAGE_FREE_BACKGROUND frees the one page that waits, where its starter is gone and nobody reads it. -/
theorem Dev.pageFree_single {starter : Option Nat} (hone : (d.pages r).freeing = [((false, h), starter)])
    (hgone : starter.any (fun i => (d.job i).isSome) = false) (hunread : d.pageRead r (false, h) = false)
    (hmap : tget (d.pages r).maps h = none) (hwindow : tget (d.pages r).windows h = none) :
    d.pageFree r = ((d.modPages r fun p => { p with freeing := [] }).modPages r fun p =>
      { p with maps := terase p.maps h, windows := terase p.windows h }).setUsed r h false := by
  have hsplit : [((false, h), starter)].partition
      (fun x => d.pageRead r x.1 || x.2.any (fun i => (d.job i).isSome)) = ([], [((false, h), starter)]) := by
    simp [hunread, hgone]
  simp only [Dev.pageFree, hone, hsplit, List.foldl_cons, List.foldl_nil]
  exact Dev.freePage_data (by rwa [Dev.pages_modPages_same]) (by rwa [Dev.pages_modPages_same])

end Freeing

/-- Settles O17: each clause is its operation's equation on the device as its descriptor, or the freeing, finds it. -/
theorem plateDescriptors : Obligations.PlateDescriptors := by
  unfold Obligations.PlateDescriptors
  refine ⟨?openVersion, ?close, ?destroy, ?publish, ?fork, ?free⟩
  case openVersion =>
    intro s i j r k t o sl hrun hr hk ho hslot hroom
    have htarget := Dev.target_eq (d := under s.dev i j) hr hk ho
    exact devStep_runJob hrun (Dev.plateOpen_published htarget rfl hslot hroom) ⟨rfl, rfl, rfl⟩
  case close =>
    intro s i j r k t o hrun hbit hr hk ht hslot ho hpublished hkept
    have htarget := Dev.target_eq (d := under s.dev i j) hr hk ho
    exact exec_plateClose hrun hbit (Dev.plateClose_stays htarget ht hslot hpublished hkept) ⟨rfl, rfl, rfl⟩
  case destroy =>
    intro s i j r k o hrun hbit hturn hr hk hslot ho hlive hgen hnone hheld
    have htarget := Dev.target_eq (d := under s.dev i j) hr hk ho
    exact exec_plateCloseDestroy hrun hbit hturn (Dev.plateDestroy_held htarget hslot hlive hgen hnone hheld) ⟨rfl, rfl, rfl⟩
  case publish =>
    intro s i j r k t root o d1 hrun hturn hr hk hslot ho hlive hgen hroom hold hfree hroot hu
    have htarget := Dev.target_eq (d := under s.dev i j) hr hk ho
    exact devStep_runInTurn hrun hturn (Dev.platePublish_placed htarget hslot hlive hgen hroom hold hfree hroot) hu
  case fork =>
    rintro s i j r k n root o d1 d2 hrun hturn hr hk hslot ho hlive hgen hfree hroot rfl hu
    have htarget := Dev.target_eq (d := under s.dev i j) hr hk ho
    exact devStep_runInTurn hrun hturn (Dev.plateFork_working htarget hslot hlive hgen hfree hroot) hu
  case free =>
    rintro s r h starter e hlive hone hgone hunread hmap hwindow rfl hu
    obtain ⟨hagain, hdone, -⟩ := hu
    refine (liveStep_live _ s hlive).trans (congrArg (fun d => Host.Outcome.next { s with dev := d }) ?_)
    exact Dev.windowed_undisturbed (Dev.pageFree_single (d := ready s.dev) hone hgone hunread hmap hwindow) hagain hdone

end Sys2Proof.Machine

/-! ## Descriptors on sequence objects (R81 to R95) -/

namespace Sys2Proof.Machine

open Sys2Proof Sys2Proof.Safety

section Sequences

variable {d : Dev} {j : Job} {r k : Nat} {o : Obj}

/-- KV_APPEND whose pages are exclusive and whose lines are made (R82, R83): the lines are stored, then the length and the recent
window follow them. -/
theorem Dev.kvAppend_made {e : Dev} {v : View} {all : Tab Line} {len : Nat} {before : List Nat} {stored : Dev}
    (htarget : d.target j = (r, k, o)) (hlines : d.appendLines j = .ok (e, v, all))
    (hlen : len = if bit j.desc 215 then field j.desc 192 23 + field j.desc 216 16 else o.length)
    (hbefore : before = d.windowHomes r o.workingRoot o o.length)
    (hstored : stored = (((e.putJob { j with before := some (d.workingNow r o) }).putLines r v all).modObj r k
      fun y => { y with length := len }).moveWindow r k before) :
    Dev.kvAppend j d =
      ended stored ((stored.job j.id).getD j) .ok (BitVec.ofNat 64 len) (BitVec.ofNat 32 (field j.desc 216 16)) := by
  subst hlen hbefore hstored
  simp only [Dev.kvAppend, htarget, hlines]
  rfl

/-- The rows of query head `h`'s group, of all the query rows of an ATTEND (R86). -/
def headRows (o : Obj) (a : AttendOps) (vals : List Fp) (h : Nat) : List (List Fp) :=
  ((chunksOf o.dim (attendHeads o * a.n) vals).drop (h * a.g * a.n)).take (a.g * a.n)

/-- The output buffer of an ATTEND: outputs, then log-sum-exp values, each part filled up with zeros (R91). -/
def attendOutput (o : Obj) (x : Line) (outs : List (List F32 × F32)) : List Byte :=
  padTo (outTotal o x) (padTo (outBytes o x)
    (outs.flatMap fun p => p.1.flatMap fun y => if bit x 211 then bytesOf 2 (bf16 (ofF32 y)) else bytesOf 4 y) ++
    outs.flatMap fun p => bytesOf 4 p.2)

/-- ATTEND of a shape that fits the object, with finite queries and readable blocks, writes its output buffer whole (R85 to R91). -/
theorem Dev.attend_whole {sn : Snapshot} {a : AttendOps} {qb : List Byte} {d1 d2 d3 : Dev} {n : Nat} {outs : List (List F32 × F32)}
    {blocks : Nat} (htarget : d.target j = (r, k, o)) (hsnap : j.snap = some sn) (ha : attendOps j.desc sn.length = a)
    (hflat : o.flat = false) (hlayer : a.layer < o.layers) (hgq : field j.desc 204 4 = o.gqM1)
    (htokens : localTokens a ≤ sn.length)
    (hquery : d.readBytes (dCtx j.desc) (field j.desc 320 64) (queryBytes o j.desc) = (.ok, qb, d1))
    (hfinite : (bf16s qb).any (fun f => !f.finite) = false)
    (hheads : d1.attendAll r sn.view o a ((List.range o.heads).map fun h => (h, headRows o a (bf16s qb) h)) =
      ((.ok, n), (outs, blocks), d2))
    (hwrite : d2.writeBytes (dCtx j.desc) (field j.desc 384 64) (attendOutput o j.desc outs) = (.ok, d3)) :
    Dev.attend j d = ended d3 j .ok (BitVec.ofNat 64 a.len) (BitVec.ofNat 32 blocks) := by
  have hshape : ¬(o.flat = true ∨ o.layers ≤ a.layer ∨ field j.desc 204 4 ≠ o.gqM1 ∨ sn.length < localTokens a) := by
    simp [hflat, hgq, hlayer, htokens]
  simp only [headRows] at hheads
  simp only [attendOutput] at hwrite
  simp only [Dev.attend, htarget, hsnap, ha, if_neg hshape, hquery, hfinite, hheads, hwrite, ne_eq, not_true_eq_false, Bool.false_eq_true,
    if_false, if_true]
  rfl

/-- What a KV_GATHER reads: the stored blocks where bit 215 asks for them, else the rows, dequantised (R92). -/
def Dev.gatherRead (d : Dev) (r : Nat) (v : View) (o : Obj) (x : Line) : (Status × Nat) × List Byte × Dev :=
  if bit x 215 = true then
    d.gatherRaw r v o (rawBlocks (field x 232 8) (field x 240 8 + 1) (field x 192 23) (field x 216 16))
  else d.gatherRows r v o (gatherOrder o (field x 232 8) (field x 240 8 + 1) (field x 192 23) (field x 216 16))

/-- KV_GATHER of tokens and layers that the version has writes what it reads (R92, R93). -/
theorem Dev.kvGather_read {sn : Snapshot} {bs : List Byte} {d1 d2 : Dev} {n : Nat} (htarget : d.target j = (r, k, o))
    (hsnap : j.snap = some sn) (hflat : o.flat = false) (htokens : field j.desc 192 23 + field j.desc 216 16 ≤ sn.length)
    (hlayers : field j.desc 232 8 + field j.desc 240 8 + 1 ≤ o.layers)
    (hread : d.gatherRead r sn.view o j.desc = ((.ok, n), bs, d1))
    (hwrite : d1.writeBytes (dCtx j.desc) (field j.desc 256 64) bs = (.ok, d2)) :
    Dev.kvGather j d = ended d2 j .ok 0 (BitVec.ofNat 32 ((bs.length + 63) / 64)) := by
  have hshape : ¬(o.flat = true ∨ sn.length < field j.desc 192 23 + field j.desc 216 16 ∨
      o.layers < field j.desc 232 8 + (field j.desc 240 8 + 1)) := by
    simp only [hflat, Bool.false_eq_true, false_or]
    omega
  simp only [Dev.gatherRead] at hread
  simp only [Dev.kvGather, htarget, hsnap, if_neg hshape, hread, hwrite, ne_eq, not_true_eq_false, if_false, if_true]
  rfl

/-- SUMMARY_REBUILD of blocks and layers that a LIVE object has, once their summary pages are exclusive (R94, R95). -/
theorem Dev.summaryRebuild_made {d1 d2 : Dev} {n n' : Nat} {ps : List (Nat × List Byte)} {ls named : List Nat} {slots : List (Nat × Nat)}
    (htarget : d.target j = (r, k, o)) (hlive : o.state = .live) (hgen : o.gen.toNat = hObjGen (dW0 j.desc))
    (hslot : hSlot (dW0 j.desc) = 0) (hflat : o.flat = false)
    (hblocks : field j.desc 192 16 + field j.desc 208 16 ≤ o.chunks * 64)
    (hlayers : field j.desc 224 8 + (field j.desc 232 8 + 1) ≤ o.layers)
    (hls : ls = (List.range (field j.desc 232 8 + 1)).map fun l => field j.desc 224 8 + l)
    (hnamed : named = (ls.flatMap fun l => namedLines o l (field j.desc 192 16) (field j.desc 208 16)).dedup)
    (hslots : slots = ls.flatMap fun l => (sharingBlocks o l (field j.desc 192 16) (field j.desc 208 16)).map fun b => (l, b))
    (hpages : d.exclusiveAll r k (((named.map fun l => l / 1024).dedup).map fun p => (p, true)) = ((.ok, n'), d1))
    (hmade : d1.rebuildSlots r (d1.viewOf r o.workingRoot) o slots = ((.ok, n), ps, d2)) :
    Dev.summaryRebuild j d =
      ended (d2.putLines r (d1.viewOf r o.workingRoot)
        (named.map fun l => (l, (tgetD (ps.foldl (fun p q => addBytes p q.1 q.2) []) l (0, 0)).1))) j .ok 0
        (BitVec.ofNat 32 slots.length) := by
  have hshape : ¬(hSlot (dW0 j.desc) ≠ 0 ∨ o.flat = true ∨ o.chunks * 64 < field j.desc 192 16 + field j.desc 208 16 ∨
      o.layers < field j.desc 224 8 + (field j.desc 232 8 + 1)) := by
    simp [hslot, hflat, hblocks, hlayers]
  subst hls hnamed hslots
  simp only [Dev.summaryRebuild, htarget, Dev.goneWorking_live htarget hlive hgen, if_neg hshape, hpages, hmade, ne_eq,
    not_true_eq_false, Bool.false_eq_true, if_false]
  rfl

end Sequences

/-- Settles O16: each clause is its operation's equation on the device as its descriptor finds it. -/
theorem sequenceDescriptors : Obligations.SequenceDescriptors := by
  unfold Obligations.SequenceDescriptors
  refine ⟨?append, ?attend, ?gather, ?rebuild⟩
  case append =>
    intro s i j r k o e v all len before stored hrun hturn hr hk ho hlines hlen hbefore hstored hu
    have htarget := Dev.target_eq (d := under s.dev i j) hr hk ho
    exact devStep_runInTurn hrun hturn (Dev.kvAppend_made htarget hlines hlen hbefore hstored) hu
  case attend =>
    intro s i j sn o qb d1 d2 d3 k outs blocks hrun hsnap ho hflat hlayer hgq htokens hquery hfinite hheads hwrite hu
    have htarget := Dev.target_eq (d := under s.dev i j) rfl rfl ho
    exact devStep_runJob hrun
      (Dev.attend_whole htarget hsnap rfl hflat hlayer hgq htokens hquery hfinite hheads hwrite) hu
  case gather =>
    intro s i j sn o bs d1 d2 k hrun hsnap ho hflat htokens hlayers hread hwrite hu
    have htarget := Dev.target_eq (d := under s.dev i j) rfl rfl ho
    exact devStep_runJob hrun (Dev.kvGather_read htarget hsnap hflat htokens hlayers hread hwrite) hu
  case rebuild =>
    rintro s i j r o d1 d2 stored k k' ps ls named slots hrun hturn hr ho hlive hgen hslot hflat hblocks hlayers hls hnamed hslots
      hpages hmade rfl hu
    have htarget := Dev.target_eq (d := under s.dev i j) hr rfl ho
    exact devStep_runInTurn hrun hturn
      (Dev.summaryRebuild_made htarget hlive hgen hslot hflat hblocks hlayers hls hnamed hslots hpages hmade) hu

end Sys2Proof.Machine

/-! ## Activations below the throttle's count (R174, R175) -/

namespace Sys2Proof.Machine

open Sys2Proof Sys2Proof.Safety

/-! ### Tables -/

/-- What a table holds after an entry is set is that entry, or was there before. -/
theorem mem_tset {α : Type} {t : Tab α} {k : Nat} {v : α} {x : Nat × α} (h : x ∈ tset t k v) : x = (k, v) ∨ x ∈ t := by
  induction t with
  | nil => simpa [tset] using h
  | cons y t ih =>
    obtain ⟨i, w⟩ := y
    simp only [tset] at h
    split at h
    · grind
    · split at h
      · simpa using h
      · grind

/-- An entry is the default, or is listed. -/
theorem tgetD_eq_or_mem {α : Type} (t : Tab α) (k : Nat) (v : α) : tgetD t k v = v ∨ (k, tgetD t k v) ∈ t := by
  induction t with
  | nil => exact .inl rfl
  | cons y t ih =>
    obtain ⟨i, w⟩ := y
    by_cases hik : i = k
    · exact .inr (by simp [tgetD, tget, hik])
    · have hrest : tgetD ((i, w) :: t) k v = tgetD t k v := by simp [tgetD, tget, hik]
      rw [hrest]
      exact ih.imp id (List.mem_cons_of_mem _)

/-- A table whose entries are changed under their keys holds, for a key, the changed entry. -/
theorem tget_map {α β : Type} {g : Nat × α → Nat × β} (hg : ∀ x, (g x).1 = x.1) (t : Tab α) (k : Nat) :
    tget (t.map g) k = (tget t k).map fun v => (g (k, v)).2 := by
  induction t with
  | nil => rfl
  | cons x t ih =>
    obtain ⟨i, v⟩ := x
    have hcons : tget (((i, v) :: t).map g) k = if i = k then some (g (i, v)).2 else tget (t.map g) k := by
      change (if (g (i, v)).1 = k then _ else _) = _
      rw [hg (i, v)]
    rw [hcons, ih]
    by_cases hik : i = k
    · rw [if_pos hik, tget, if_pos hik, hik]
      rfl
    · rw [if_neg hik, tget, if_neg hik]

section Quiet

/-- A memory unit where nothing waits, and whose banks may each be activated `n` times before a stream is throttled (R153, R175, R343). -/
def MemUnit.quiet (n : Nat) (u : MemUnit) : Bool :=
  u.retrain.isNone && u.held.isEmpty && u.throttles.isEmpty &&
    (u.raaimt == 0 || u.raammt == 0 || (decide (n < u.raammt) && u.raa.all fun b => decide (b.2 + n < u.raammt)))

/-- A memory unit without the record of its activations (R174, R175). -/
def MemUnit.sansRows (u : MemUnit) : MemUnit := { u with raa := [], streams := [], acts := [], throttles := [] }

variable {d e f : Dev} {n m line : Nat}

theorem MemUnit.quiet_of_succ {u : MemUnit} (h : u.quiet (n + 1) = true) : u.quiet n = true := by
  simp only [MemUnit.quiet, Bool.and_eq_true, Bool.or_eq_true, List.all_eq_true, decide_eq_true_eq] at h ⊢
  grind

theorem calm_iff : Calm d n ↔ ∀ x ∈ d.units, MemUnit.quiet n x.2 = true := by
  simp only [Calm, MemUnit.quiet, List.all_eq_true]

/-- Every memory unit of a calm device is quiet, those not listed included. -/
theorem quiet_unit_of_calm (h : Calm d n) (m : Nat) : (d.unit m).quiet n = true := by
  rcases tgetD_eq_or_mem d.units m {} with hnone | hmem
  · rw [Dev.unit, hnone]
    rfl
  · exact calm_iff.mp h _ hmem

theorem calm_modUnit {g : MemUnit → MemUnit} (h : Calm d n) (hg : (g (d.unit m)).quiet n = true) : Calm (d.modUnit m g) n := by
  refine calm_iff.mpr fun x hx => ?_
  rcases mem_tset hx with rfl | hmem
  · exact hg
  · exact calm_iff.mp h x hmem

theorem calm_emit {o : Output} (h : Calm d n) : Calm (d.emit o) n := h

theorem calm_of_succ (h : Calm d (n + 1)) : Calm d n :=
  calm_iff.mpr fun x hx => MemUnit.quiet_of_succ (calm_iff.mp h x hx)

/-- A bank's count may rise by as much as the activations that its unit may still take fall. -/
theorem MemUnit.quiet_tset_raa {u : MemUnit} {b c k : Nat} {ss : List (Nat × Stream × Nat)} {as : List (Nat × Stream × Nat)}
    (h : u.quiet k = true) (hn : n ≤ k) (hc : c + n ≤ tgetD u.raa b 0 + k) :
    ({ u with raa := tset u.raa b c, streams := ss, acts := as } : MemUnit).quiet n = true := by
  simp only [MemUnit.quiet, Bool.and_eq_true, Bool.or_eq_true, List.all_eq_true, decide_eq_true_eq] at h ⊢
  obtain ⟨hidle, hcount⟩ := h
  refine ⟨hidle, hcount.imp id fun ⟨hlimit, hbanks⟩ => ⟨by omega, fun x hx => ?_⟩⟩
  rcases mem_tset hx with rfl | hmem
  · rcases tgetD_eq_or_mem u.raa b 0 with hnone | hlisted
    · simp only
      omega
    · have hbank := hbanks _ hlisted
      simp only at hbank ⊢
      omega
  · have hbank := hbanks x hmem
    omega

/-- A bank of a quiet unit does not come to the count at which a stream is throttled by one activation (R175). -/
theorem MemUnit.not_throttled {u : MemUnit} (h : u.quiet (n + 1) = true) (himt : u.raaimt ≠ 0) (b : Nat) :
    ¬(u.raammt ≤ tgetD u.raa b 0 + 1 ∧ u.raammt ≠ 0) := by
  simp only [MemUnit.quiet, Bool.and_eq_true, Bool.or_eq_true, List.all_eq_true, decide_eq_true_eq, beq_iff_eq] at h
  obtain ⟨-, hcount⟩ := h
  rintro ⟨hreached, hmmt⟩
  obtain ⟨hlimit, hbanks⟩ := hcount.resolve_left (by simp [himt, hmmt])
  rcases tgetD_eq_or_mem u.raa b 0 with hnone | hlisted
  · omega
  · have hbank := hbanks _ hlisted
    simp only at hbank
    omega

end Quiet

/-! ### What an activation leaves as it is -/

section Activations

variable {d e f : Dev} {n m line : Nat}

/-- Device `e` is `d` but for the record of activations in its memory units, and its outputs. -/
structure OnlyRows (d e : Dev) : Prop where
  rest : e = { d with units := e.units, out := e.out }
  unit : ∀ m, (e.unit m).sansRows = (d.unit m).sansRows

theorem OnlyRows.refl (d : Dev) : OnlyRows d d := ⟨rfl, fun _ => rfl⟩

theorem OnlyRows.trans (h : OnlyRows d e) (h' : OnlyRows e f) : OnlyRows d f := by
  refine ⟨?_, fun m => (h'.unit m).trans (h.unit m)⟩
  rw [h'.rest, h.rest]

theorem OnlyRows.emit (d : Dev) (o : Output) : OnlyRows d (d.emit o) := ⟨rfl, fun _ => rfl⟩

theorem OnlyRows.modUnit {g : MemUnit → MemUnit} (hg : (g (d.unit m)).sansRows = (d.unit m).sansRows) : OnlyRows d (d.modUnit m g) := by
  refine ⟨rfl, fun k => ?_⟩
  by_cases hk : k = m
  · rw [hk, Dev.unit_modUnit_same, hg]
  · rw [Dev.unit_modUnit_other d g hk]

/-- An RFM command lowers the count of its bank (R174). -/
theorem Dev.issueRfm_rows (m bank : Nat) (h : Calm d n) : OnlyRows d (d.issueRfm m bank) ∧ Calm (d.issueRfm m bank) n := by
  refine ⟨(OnlyRows.modUnit rfl).trans (OnlyRows.emit _ _), ?_⟩
  exact calm_emit (calm_modUnit h (MemUnit.quiet_tset_raa (quiet_unit_of_calm h m) le_rfl (by omega)))

/-- The record that an activation of a bank leaves in its unit (R174, R175). -/
def MemUnit.counted (u : MemUnit) (bank : Nat) (x : Stream) (now : Nat) : MemUnit :=
  { u with
    raa := tset u.raa bank (tgetD u.raa bank 0 + 1)
    streams := (bank, x, streamCount u bank x + 1) :: u.streams.filter (fun y => !(y.1 == bank && y.2.1 == x))
    acts := (bank, x, now) :: u.acts.filter (fun a => decide (now < a.2.2 + 64000))
    throttles := u.throttles.map (fun t => if t.bank == bank && t.stream == x then { t with left := t.left - 1 } else t) }

theorem MemUnit.throttles_of_quiet {u : MemUnit} (h : u.quiet n = true) : u.throttles = [] := by
  simp only [MemUnit.quiet, Bool.and_eq_true, List.isEmpty_iff] at h
  obtain ⟨⟨-, hthrottles⟩, -⟩ := h
  exact hthrottles

theorem MemUnit.quiet_counted {u : MemUnit} (h : u.quiet (n + 1) = true) (bank : Nat) (x : Stream) (now : Nat) :
    (u.counted bank x now).quiet n = true := by
  have hthrottles : u.throttles = (u.throttles.map fun t =>
      if t.bank == bank && t.stream == x then { t with left := t.left - 1 } else t) := by
    rw [MemUnit.throttles_of_quiet h]
    rfl
  rw [MemUnit.counted, ← hthrottles]
  exact MemUnit.quiet_tset_raa h (by omega) (by omega)

/-- The device with one more activation of a line's bank by the present requester on record. -/
def Dev.countRow (d : Dev) (m line : Nat) : Dev := d.modUnit m fun u => u.counted (d.bankOf m line) d.stream d.now

theorem Dev.countRow_rows (m line : Nat) (h : Calm d (n + 1)) : OnlyRows d (d.countRow m line) ∧ Calm (d.countRow m line) n :=
  ⟨OnlyRows.modUnit rfl, calm_modUnit (calm_of_succ h) (MemUnit.quiet_counted (quiet_unit_of_calm h m) _ _ _)⟩

/-- On a calm device an activation is counted, or not, and may issue an RFM command; it throttles no stream (R174, R175). -/
theorem Dev.activate_cases (m line : Nat) (h : Calm d (n + 1)) :
    d.activate m line = d ∨ d.activate m line = d.countRow m line ∨
      d.activate m line = (d.countRow m line).issueRfm m (d.bankOf m line) := by
  by_cases hm : m < 48
  · have hactivate : d.activate m line =
        if ((d.countRow m line).unit m).raaimt = 0 then d.countRow m line
        else
          let d2 := if ((d.countRow m line).unit m).raammt ≤ tgetD (d.unit m).raa (d.bankOf m line) 0 + 1 ∧
              ((d.countRow m line).unit m).raammt ≠ 0 then
            (d.countRow m line).throttleBank m (d.bankOf m line) line else d.countRow m line
          if rfmTrigger ((d.countRow m line).unit m) ≤ tgetD (d.unit m).raa (d.bankOf m line) 0 + 1 then
            d2.issueRfm m (d.bankOf m line) else d2 := by
      rw [Dev.activate, if_pos hm]
      rfl
    have hunit : (d.countRow m line).unit m = (d.unit m).counted (d.bankOf m line) d.stream d.now := Dev.unit_modUnit_same d m _
    rw [hactivate, hunit]
    by_cases himt : ((d.unit m).counted (d.bankOf m line) d.stream d.now).raaimt = 0
    · exact .inr (.inl (if_pos himt))
    · have hroom : ¬(((d.unit m).counted (d.bankOf m line) d.stream d.now).raammt ≤ tgetD (d.unit m).raa (d.bankOf m line) 0 + 1 ∧
          ((d.unit m).counted (d.bankOf m line) d.stream d.now).raammt ≠ 0) :=
        MemUnit.not_throttled (quiet_unit_of_calm h m) himt (d.bankOf m line)
      simp only [if_neg himt, if_neg hroom]
      split
      · exact .inr (.inr rfl)
      · exact .inr (.inl rfl)
  · exact .inl (if_neg hm)

/-- An activation on a calm device adds to the record of activations alone, and leaves room for one fewer. -/
theorem Dev.activate_rows (m line : Nat) (h : Calm d (n + 1)) : OnlyRows d (d.activate m line) ∧ Calm (d.activate m line) n := by
  obtain ⟨hrows, hcalm⟩ := d.countRow_rows m line h
  rcases d.activate_cases m line h with hsame | hcounted | hissued
  · rw [hsame]
    exact ⟨OnlyRows.refl d, calm_of_succ h⟩
  · rw [hcounted]
    exact ⟨hrows, hcalm⟩
  · rw [hissued]
    obtain ⟨hrfm, hcalm'⟩ := (d.countRow m line).issueRfm_rows m (d.bankOf m line) hcalm
    exact ⟨hrows.trans hrfm, hcalm'⟩

end Activations

end Sys2Proof.Machine

/-! ## Accesses that wait for nothing (R11, R148, R150, R164) -/

namespace Sys2Proof.Machine

open Sys2Proof Sys2Proof.Safety

section Kept

variable {d e f : Dev} {n m line r off : Nat} {reg : Region}

/-! ### What is read does not rest on the record of activations -/

theorem OnlyRows.plainData (h : OnlyRows d e) (m line : Nat) : e.plainData m line = d.plainData m line :=
  congrArg (fun x => x.plainData m line) h.rest

theorem OnlyRows.lineGroup (h : OnlyRows d e) (m line : Nat) : e.lineGroup m line = d.lineGroup m line :=
  congrArg (fun x => x.lineGroup m line) h.rest

theorem OnlyRows.groupLine (h : OnlyRows d e) (x : Extent) (k : Nat) : e.groupLine x k = d.groupLine x k :=
  congrArg (fun y => y.groupLine x k) h.rest

theorem OnlyRows.metaAll (h : OnlyRows d e) : e.metaAll = d.metaAll := congrArg (fun x => x.metaAll) h.rest

theorem OnlyRows.sys (h : OnlyRows d e) : e.sys = d.sys := congrArg (fun x => x.sys) h.rest

theorem OnlyRows.pool (h : OnlyRows d e) : e.pool = d.pool := congrArg (fun x => x.pool) h.rest

theorem OnlyRows.lineKeys (h : OnlyRows d e) (m line : Nat) : e.lineKeys m line = d.lineKeys m line := by
  have hcleared : (e.unit m).cleared = (d.unit m).cleared := congrArg (fun u => u.cleared) (h.unit m)
  have hkey : (e.unit m).key = (d.unit m).key := congrArg (fun u => u.key) (h.unit m)
  have hdraw : (e.unit m).slotDraw = (d.unit m).slotDraw := congrArg (fun u => u.slotDraw) (h.unit m)
  simp only [Dev.lineKeys, h.metaAll, h.sys, hcleared, hkey, hdraw]

theorem OnlyRows.lineData (h : OnlyRows d e) (m line : Nat) : e.lineData m line = d.lineData m line := by
  simp only [Dev.lineData, Dev.parityField, Dev.storedField, h.lineGroup, h.groupLine, h.plainData, h.lineKeys, h.pool]

theorem OnlyRows.lockWaiters (h : OnlyRows d e) (m : Nat) : (e.unit m).lockWaiters = (d.unit m).lockWaiters :=
  congrArg (fun u => u.lockWaiters) (h.unit m)

theorem OnlyRows.freeToWrite (h : OnlyRows d e) (hfree : FreeToWrite d r) : FreeToWrite e r := by
  rw [h.rest]
  exact hfree

theorem OnlyRows.validLine (h : OnlyRows d e) (hvalid : ValidLine d r off m line) : ValidLine e r off m line := by
  obtain ⟨hplace, hdead, hfault⟩ := hvalid
  have hdead' : (e.unit m).dead = (d.unit m).dead := congrArg (fun u => u.dead) (h.unit m)
  refine ⟨?_, hdead'.trans hdead, by rw [h.pool, hfault]⟩
  rw [h.rest]
  exact hplace

/-! ### What a write of a line leaves as it is -/

/-- Device `e` is `d` but for its memory units, its arrays, the parity records of its regions, and its outputs. -/
def OnlyMemory (d e : Dev) : Prop := e = { d with units := e.units, out := e.out, pool := e.pool, regions := e.regions }

theorem OnlyMemory.trans (h : OnlyMemory d e) (h' : OnlyMemory e f) : OnlyMemory d f := by
  rw [OnlyMemory] at h h' ⊢
  rw [h', h]

theorem OnlyRows.memory (h : OnlyRows d e) : OnlyMemory d e := by
  rw [OnlyMemory, h.rest]

theorem OnlyMemory.markStale (d : Dev) (m line : Nat) : OnlyMemory d (d.markStale m line) := by
  rw [Dev.markStale]
  split
  · split <;> rfl
  · rfl

theorem OnlyMemory.withPool (d : Dev) (p : Pool) : OnlyMemory d { d with pool := p } := rfl

theorem OnlyMemory.putLine (d : Dev) (m line : Nat) (x : Line) : OnlyMemory d (d.putLine m line x) := by
  rw [Dev.putLine]
  exact (OnlyMemory.withPool d _).trans (OnlyMemory.markStale _ m line)

theorem OnlyMemory.writeLine (x : Line) (h : Calm d (n + 1)) : OnlyMemory d (d.writeLine m line x) :=
  (d.activate_rows m line h).1.memory.trans (OnlyMemory.putLine _ m line x)

theorem Dev.lockWaiters_writeLine (x : Line) (k : Nat) (h : Calm d (n + 1)) :
    ((d.writeLine m line x).unit k).lockWaiters = (d.unit k).lockWaiters := by
  have hunits : ((d.activate m line).putLine m line x).units = (d.activate m line).units := by simp only [Dev.putLine_frame]
  have hwritten : (d.writeLine m line x).unit k = (d.activate m line).unit k := by
    rw [Dev.writeLine, Dev.unit, hunits, ← Dev.unit]
  rw [hwritten, (d.activate_rows m line h).1.lockWaiters]

theorem OnlyMemory.pair (h : OnlyMemory d e) : e.pair = d.pair := congrArg (fun x => x.pair) h

theorem OnlyMemory.now (h : OnlyMemory d e) : e.now = d.now := congrArg (fun x => x.now) h

theorem OnlyMemory.queue (h : OnlyMemory d e) (q : Nat) : e.queue q = d.queue q := congrArg (fun x => x.queue q) h

theorem OnlyMemory.undisturbed {s : Dev} (h : OnlyMemory d e) (hu : Undisturbed s d) : Undisturbed s e := by
  rw [h]
  exact hu

end Kept

section Accesses

variable {d : Dev} {n m line r off : Nat} {reg : Region}

/-! ### Nothing to wait for -/

theorem Dev.retrain_of_calm (h : Calm d n) (m : Nat) : (d.unit m).retrain.isSome = false := by
  have hquiet := quiet_unit_of_calm h m
  simp only [MemUnit.quiet, Bool.and_eq_true] at hquiet
  obtain ⟨⟨⟨hretrain, -⟩, -⟩, -⟩ := hquiet
  simpa using hretrain

theorem Dev.held_of_calm (h : Calm d n) (m : Nat) : (d.unit m).held = [] := by
  have hquiet := quiet_unit_of_calm h m
  simp only [MemUnit.quiet, Bool.and_eq_true, List.isEmpty_iff] at hquiet
  obtain ⟨⟨⟨-, hheld⟩, -⟩, -⟩ := hquiet
  exact hheld

/-- On a calm device no access waits at its controller (R153, R175, R343). -/
theorem Dev.mustWait_calm (h : Calm d n) (m line : Nat) (write : Bool) : d.mustWait m line write = false := by
  have hthrottled : d.rowThrottled m line = false := by simp [Dev.rowThrottled, MemUnit.throttles_of_quiet (quiet_unit_of_calm h m)]
  have hbehind : (d.unit m).heldWrite line = false := by simp [MemUnit.heldWrite, Dev.held_of_calm h m]
  simp only [Dev.mustWait, hthrottled, hbehind, Dev.retrain_of_calm h, Bool.and_false, Bool.or_self, Bool.false_or]
  split
  · rfl
  · simp

/-- Offset `off` of region `r`, whose record is `reg`, is served by line `line` of memory unit `m`, outside the coherent window (R36). -/
structure Placed (d : Dev) (reg : Region) (r off m line : Nat) : Prop where
  region : tget d.regions r = some reg
  window : reg.window = false
  place : d.place reg off = some (m, line)

theorem placed_of_validLine (h : ValidLine d r off m line) : ∃ reg, Placed d reg r off m line := by
  obtain ⟨hplace, -⟩ := h
  obtain ⟨reg, hreg, hserves⟩ := (Option.any_eq_true _ _).mp hplace
  simp only [Bool.and_eq_true, Bool.not_eq_true', beq_iff_eq] at hserves
  exact ⟨reg, hreg, hserves.1, hserves.2⟩

theorem Dev.winTouch_read (h : reg.window = false) : d.winTouch reg r off false = (some .ok, d) := by
  simp [Dev.winTouch, h]

theorem Dev.winTouch_write (hplaced : Placed d reg r off m line) (hfree : FreeToWrite d r) :
    d.winTouch reg r off true = (some .ok, d) := by
  obtain ⟨hpaired, hstays, hrebuilds⟩ := hfree
  have hmigrating : reg.migrating = false := by simpa [hplaced.region, hplaced.window] using hstays
  simp [Dev.winTouch, Dev.writeHeld, Dev.pageHeld, hpaired, hmigrating, hrebuilds, hplaced.window]

/-! ### Reads -/

theorem classify_valid (near : Bool) : classify near {} 0 = .valid := by
  have hnone : errPositions near 0#640 = [] := by
    simp only [errPositions, BitVec.toNat_zero, Nat.zero_div, Nat.zero_mod, bne_self_eq_false, List.filter_false, ite_self]
  have hmask : ({} : LineFault).mask ^^^ 0 = 0#640 := BitVec.xor_self
  simp only [classify, hmask, hnone]

/-- A demand read of a valid line gives its data and changes nothing (R148, Table 7.2). -/
theorem Dev.demandRead_valid (hcalm : Calm d n) (hvalid : ValidLine d r off m line) :
    d.demandRead m line 0 0 = (.ok, d.lineData m line, d) := by
  obtain ⟨-, hdead, hfault⟩ := hvalid
  simp only [Dev.demandRead, hdead, Dev.retrain_of_calm hcalm, hfault, classify_valid, Bool.false_and, Bool.or_self,
    Bool.false_eq_true, if_false]

/-- A requester's read of a valid line activates its row and gives its data. -/
theorem Dev.readLine_valid (hcalm : Calm d (n + 1)) (hvalid : ValidLine d r off m line) :
    d.readLine m line = (.ok, d.lineData m line, d.activate m line) := by
  obtain ⟨hrows, hcalm'⟩ := d.activate_rows m line hcalm
  rw [Dev.readLine, Dev.demandRead_valid hcalm' (hrows.validLine hvalid), hrows.lineData]

theorem Dev.load_valid (hcalm : Calm d (n + 1)) (hvalid : ValidLine d r off m line) :
    d.load r off = (.ok, d.lineData m line, d.activate m line) := by
  obtain ⟨reg, hplaced⟩ := placed_of_validLine hvalid
  simp only [Dev.load, hplaced.region, Dev.winTouch_read hplaced.window, hplaced.place, Dev.mustWait_calm hcalm,
    Dev.readLine_valid hcalm hvalid, Bool.false_eq_true, if_false]

theorem Dev.loadForWrite_valid (hcalm : Calm d (n + 1)) (hvalid : ValidLine d r off m line) (hfree : FreeToWrite d r) :
    d.loadForWrite r off = (.ok, d.lineData m line, d.activate m line) := by
  obtain ⟨reg, hplaced⟩ := placed_of_validLine hvalid
  simp only [Dev.loadForWrite, hplaced.region, Dev.winTouch_write hplaced hfree, hplaced.place, Dev.mustWait_calm hcalm,
    Dev.readLine_valid hcalm hvalid, Bool.false_eq_true, if_false]

/-! ### Writes -/

/-- A line that nothing holds is written, and is not mirrored (R150, R317). -/
theorem Dev.save_free (x : Line) (hcalm : Calm d (n + 1)) (hplaced : Placed d reg r off m line) (hfree : FreeToWrite d r) :
    d.save r off x = (.ok, d.writeLine m line x) := by
  have hpaired : (d.writeLine m line x).paired r = false := by
    rw [Dev.paired, (OnlyMemory.writeLine x hcalm).pair]
    exact hfree.1
  simp only [Dev.save, hplaced.region, Dev.winTouch_write hplaced hfree, hplaced.place, Dev.mustWait_calm hcalm, hplaced.window,
    Dev.mirror, hpaired, Bool.false_and, Bool.false_eq_true, if_false]

/-! ### A write keeps every line's place -/

/-- A change of regions that keeps their numbers, and where they place a line, keeps its place. -/
theorem placed_mapRegions {g : Nat × Region → Nat × Region} (hkey : ∀ x, (g x).1 = x.1)
    (hsame : ∀ x, (g x).2.window = x.2.window ∧ d.place (g x).2 off = d.place x.2 off) (h : Placed d reg r off m line) :
    Placed { d with regions := d.regions.map g } (g (r, reg)).2 r off m line := by
  obtain ⟨hregion, hwindow, hplace⟩ := h
  refine ⟨?_, (hsame _).1.trans hwindow, (hsame _).2.trans hplace⟩
  exact (tget_map hkey _ _).trans (congrArg (Option.map fun v => (g (r, v)).2) hregion)

/-- Marking a range stale changes parity records alone, and no place (R165). -/
theorem placed_markStale (h : Placed d reg r off m line) (m' line' : Nat) : ∃ reg', Placed (d.markStale m' line') reg' r off m line := by
  rw [Dev.markStale]
  split
  · split
    · exact ⟨_, placed_mapRegions (fun x => by split <;> rfl) (fun x => by split <;> exact ⟨rfl, rfl⟩) h⟩
    · exact ⟨reg, h⟩
  · exact ⟨reg, h⟩

theorem placed_withPool (p : Pool) (h : Placed d reg r off m line) : Placed { d with pool := p } reg r off m line :=
  ⟨h.region, h.window, h.place⟩

theorem placed_putLine (h : Placed d reg r off m line) (m' line' : Nat) (x : Line) :
    ∃ reg', Placed (d.putLine m' line' x) reg' r off m line := by
  rw [Dev.putLine]
  exact placed_markStale (placed_withPool _ h) m' line'

end Accesses

end Sys2Proof.Machine

/-! ## REDUCE_WRITE, ATOMIC and locks (R97, R248, R281, R282) -/

namespace Sys2Proof.Machine

open Sys2Proof Sys2Proof.Safety

/-! ### Fields and bits of a descriptor -/

section Fields

variable {n : Nat}

/-- The low bits of a field are a narrower field. -/
theorem field_mod_two_pow (x : BitVec n) {lo w k : Nat} (h : k ≤ w) : field x lo w % 2 ^ k = field x lo k :=
  Nat.mod_mod_of_dvd _ (Nat.pow_dvd_pow 2 h)

/-- A bit of a field is a bit of its word. -/
theorem field_div_mod_two (x : BitVec n) {lo w k : Nat} (h : k < w) : field x lo w / 2 ^ k % 2 = 1 ↔ bit x (lo + k) = true := by
  have htest : Nat.testBit (field x lo w) k = bit x (lo + k) := by
    simp only [field, bit, Nat.testBit_mod_two_pow, Nat.testBit_div_two_pow, h, decide_true, Bool.true_and, BitVec.getLsbD, Nat.add_comm]
  rw [← htest, Nat.testBit_eq_decide_div_mod_eq, decide_eq_true_iff]

/-- Clearing a lock line's held bit (Table 11.8). -/
theorem putBit_zero_false (x : Line) : putBit x 0 false = x &&& ~~~1#512 := by
  simp [putBit]

end Fields

/-! ### A line read, then written -/

section Rewritten

variable {d : Dev} {n m line r off : Nat}

/-- A line whose row a read has just activated is written. -/
theorem Dev.save_activated (x : Line) (m' line' : Nat) (hcalm : Calm d (n + 2)) (hvalid : ValidLine d r off m line)
    (hfree : FreeToWrite d r) : (d.activate m' line').save r off x = (.ok, (d.activate m' line').writeLine m line x) := by
  obtain ⟨hrows, hcalm'⟩ := d.activate_rows m' line' hcalm
  obtain ⟨reg, hplaced⟩ := placed_of_validLine (hrows.validLine hvalid)
  exact Dev.save_free x hcalm' hplaced (hrows.freeToWrite hfree)

theorem OnlyMemory.activate_writeLine (x : Line) (m line m' line' : Nat) (hcalm : Calm d (n + 2)) :
    OnlyMemory d ((d.activate m line).writeLine m' line' x) := by
  obtain ⟨hrows, hcalm'⟩ := d.activate_rows m line hcalm
  exact hrows.memory.trans (OnlyMemory.writeLine x hcalm')

theorem undisturbed_under (d : Dev) (i : Nat) (j : Job) : Undisturbed d (under d i j) := ⟨rfl, rfl, rfl⟩

/-- A descriptor that reads a line of a calm device and writes it meets nothing to wait for. -/
theorem undisturbed_rewrite {i : Nat} {j : Job} {x : Line} (hcalm : Calm d 2) :
    Undisturbed d (((under d i j).activate m line).writeLine m line x) :=
  (OnlyMemory.activate_writeLine (d := under d i j) x m line m line hcalm).undisturbed (undisturbed_under d i j)

theorem undisturbed_putJob {e : Dev} {j : Job} (h : Undisturbed d e) : Undisturbed d (e.putJob j) := h

theorem undisturbed_modUnit {e : Dev} {m : Nat} {f : MemUnit → MemUnit} (h : Undisturbed d e) : Undisturbed d (e.modUnit m f) := h

theorem undisturbed_modQueue {e : Dev} {q : Nat} {f : Queue → Queue} (h : Undisturbed d e) : Undisturbed d (e.modQueue q f) := h

theorem undisturbed_ended {e : Dev} {j : Job} {st : Status} {result : U64} {residue : U32} (h : Undisturbed d e) :
    Undisturbed d (ended e j st result residue) := h

theorem undisturbed_ite {p : Prop} [Decidable p] {e f : Dev} (he : Undisturbed d e) (hf : Undisturbed d f) :
    Undisturbed d (if p then e else f) := by
  by_cases hp : p
  · rwa [if_pos hp]
  · rwa [if_neg hp]

end Rewritten

/-! ### REDUCE_WRITE (R97) -/

section Reduce

variable {d : Dev} {j : Job} {c : Chain} {n r off r' off' m line : Nat} {u v : Nat × Nat}

/-- A source line at hand is read as any requester reads it. -/
theorem Dev.reduceSource_valid (hbuffer : c.buffer = []) (hcalm : Calm d (n + 1)) (hvalid : ValidLine d r off m line) :
    d.reduceLine? j c (.region r off) 0 = (some (.ok, d.lineData m line), d.activate m line) := by
  simp only [Dev.reduceLine?, hbuffer, List.find?_nil, Dev.load_valid hcalm hvalid, if_true]

/-- A destination line at hand is read to be written. -/
theorem Dev.reduceDestination_valid (hbuffer : c.buffer = []) (hcalm : Calm d (n + 1)) (hvalid : ValidLine d r off m line)
    (hfree : FreeToWrite d r) :
    d.reduceLine? j c (.region r off) 1 = (some (.ok, d.lineData m line), d.activate m line) := by
  simp only [Dev.reduceLine?, hbuffer, List.find?_nil, Dev.loadForWrite_valid hcalm hvalid hfree, one_ne_zero, if_false]

/-- The device after a REDUCE_WRITE has combined source line `v` into destination line `u`. -/
def Dev.combined (d : Dev) (j : Job) (u v : Nat × Nat) : Dev :=
  ((d.activate v.1 v.2).activate u.1 u.2).writeLine u.1 u.2
    (reduceLine (field j.desc 280 3) (d.lineData u.1 u.2) (d.lineData v.1 v.2))

theorem OnlyMemory.combined (j : Job) (u v : Nat × Nat) (hcalm : Calm d 3) : OnlyMemory d (d.combined j u v) := by
  obtain ⟨hrows, hcalm'⟩ := d.activate_rows v.1 v.2 hcalm
  exact hrows.memory.trans (OnlyMemory.activate_writeLine _ u.1 u.2 u.1 u.2 hcalm')

/-- A line combined ends the descriptor after the last, with the lines as residue; else the chain stands at the next (R97). -/
theorem Dev.reduced_eq (d : Dev) (j : Job) (c : Chain) :
    d.reduced j c =
      (let c' := { c with moved := c.moved + 64, buffer := [], lastBurst := d.now }
       if c.moved + 64 = 64 * field j.desc 256 24 then
         ended d { j with chain := some c' } .ok 0 (BitVec.ofNat 32 (field j.desc 256 24))
       else d.putJob { j with chain := some c' }) := by
  simp only [Dev.reduced, Dev.endReduce, if_true]
  rfl

/-- REDUCE_WRITE between ranges of regions of this device combines its next line, in its channel's turn. -/
theorem Dev.doReduce_local (hchain : j.chain.getD {} = c) (habort : c.abort = false) (hreplies : c.outstanding = [])
    (hbuffer : c.buffer = []) (hturn : d.runsNow j = true)
    (hsource : d.side (dCtx j.desc) false 0 (field j.desc 128 64 + c.moved) 64 .r = .ok (.region r' off'))
    (hdest : d.side (dCtx j.desc) false 0 (field j.desc 192 64 + c.moved) 64 .w = .ok (.region r off))
    (hfree : FreeToWrite d r) (hv : ValidLine d r' off' v.1 v.2) (hu : ValidLine d r off u.1 u.2) (hcalm : Calm d 3) :
    Dev.doReduce j d =
      (let c' := { c with started := true, moved := c.moved + 64, buffer := [], lastBurst := d.now }
       if c.moved + 64 = 64 * field j.desc 256 24 then
         ended (d.combined j u v) { j with chain := some c' } .ok 0 (BitVec.ofNat 32 (field j.desc 256 24))
       else (d.combined j u v).putJob { j with chain := some c' }) := by
  obtain ⟨hrows, hcalm'⟩ := d.activate_rows v.1 v.2 hcalm
  have hu' := hrows.validLine hu
  have hfree' := hrows.freeToWrite hfree
  have hread : ∀ x : Chain, x.buffer = [] → (d.activate v.1 v.2).reduceLine? j x (.region r off) 1 =
      (some (.ok, d.lineData u.1 u.2), (d.activate v.1 v.2).activate u.1 u.2) := fun x hx => by
    rw [Dev.reduceDestination_valid hx hcalm' hu' hfree', hrows.lineData]
  have hgo : ¬(c.abort || c.outstanding != [] || !d.runsNow j) = true := by simp [habort, hreplies, hturn]
  simp only [Dev.doReduce, hchain, if_neg hgo, dW0, dW1, hsource, hdest,
    Dev.reduceSource_valid (c := { c with started := true }) hbuffer hcalm hv, hread { c with started := true } hbuffer,
    Dev.reduceStore, Dev.writeSide, Nat.mul_zero, Nat.add_zero, Dev.save_activated _ _ _ hcalm' hu' hfree', if_true]
  rw [← (OnlyMemory.combined j u v hcalm).now]
  exact Dev.reduced_eq _ j { c with started := true }

end Reduce

/-! ### ATOMIC (R248) -/

section Atomic

variable {d : Dev} {j : Job} {n r off m line : Nat}

/-- ATOMIC on bytes of a valid line: the operation is applied to them, the other bytes of the line stay, and the old value is the result. -/
theorem Dev.doAtomic_valid (hn : n = if bit j.desc 196 then 8 else 4)
    (hloc : d.locate (dCtx j.desc) (field j.desc 128 64) n .a = .ok (r, off)) (hfree : FreeToWrite d r)
    (hvalid : ValidLine d r off m line) (hline : ValidLine d r (off / 64 * 64) m line) (hcalm : Calm d 2) :
    Dev.doAtomic j d =
      (let x := d.lineData m line
       let old := field x (8 * (off % 64)) (8 * n)
       let new := atomicNew (8 * n) (field j.desc 192 4) old (field j.desc 256 64 % 2 ^ (8 * n)) (field j.desc 320 64 % 2 ^ (8 * n))
       ended ((d.activate m line).writeLine m line (mergeBytes x (BitVec.ofNat 512 (new * 2 ^ (8 * (off % 64))))
         (BitVec.ofNat 64 ((2 ^ n - 1) * 2 ^ (off % 64))))) j .ok (BitVec.ofNat 64 old) 0) := by
  have hwidth : (if field j.desc 192 8 / 16 % 2 = 1 then 8 else 4) = n := by
    rw [hn]
    exact if_congr (field_div_mod_two j.desc (lo := 192) (w := 8) (k := 4) (by omega)) rfl rfl
  have hop : field j.desc 192 8 % 16 = field j.desc 192 4 := field_mod_two_pow j.desc (lo := 192) (w := 8) (k := 4) (by omega)
  simp only [Dev.doAtomic, ← hn, dW0, hloc, Dev.atomicAt, hwidth, hop, Dev.loadForWrite_valid hcalm hvalid hfree,
    Dev.save_activated _ _ _ hcalm hline hfree, if_true]
  rfl

end Atomic

/-! ### Locks (R279 to R282) -/

section Locks

variable {d : Dev} {j : Job} {r off m line : Nat} {x : Line}

theorem Dev.unpark_parked {q : Nat} (h : (d.queue q).state = .parked) : d.unpark q = d.modQueue q fun y => { y with state := .active } :=
  if_pos h

theorem Dev.unpark_active {q : Nat} (h : (d.queue q).state = .active) : d.unpark q = d :=
  if_neg (by simp [h])

/-- A waiter that is gone from the lists of every controller leaves a calm device calm. -/
theorem calm_dropWaiter {n : Nat} (i : Nat) (h : Calm d n) : Calm (d.dropWaiter i) n := by
  refine calm_iff.mpr fun x hx => ?_
  obtain ⟨y, hy, rfl⟩ := List.mem_map.mp hx
  exact calm_iff.mp h y hy

/-- The controller that keeps a lock's waiters is that of the lock's line (R281). -/
theorem Dev.lockUnit_eq {reg : Region} (h : Placed d reg r off m line) : d.lockUnit r off = m := by
  simp only [Dev.lockUnit, h.region, Option.bind_some, h.place]

/-- A job takes a lock whose line nothing holds, and its queue returns to ACTIVE (R281). -/
theorem Dev.takeLock_free {n : Nat} {reg : Region} (st : Status) (hcalm : Calm d (n + 1)) (hplaced : Placed d reg r off m line)
    (hfree : FreeToWrite d r) :
    d.takeLock j r off x st =
      (ended (d.writeLine m line (lockTaken x j.queue j.queueGen (dCtx j.desc))) j st
        (BitVec.ofNat 64 (field (lockTaken x j.queue j.queueGen (dCtx j.desc)) 64 64)) 0).unpark j.queue := by
  simp only [Dev.takeLock, Dev.save_free _ hcalm hplaced hfree, if_true]
  rfl

/-- LOCK_ACQUIRE of a free lock takes it (R281). -/
theorem Dev.doLockAcquire_free (hwaiting : j.waiting = false)
    (hloc : d.locate (dCtx j.desc) (field j.desc 128 64) 64 .a = .ok (r, off)) (hfree : FreeToWrite d r)
    (hvalid : ValidLine d r off m line) (hcalm : Calm d 2) (hx : d.lineData m line = x) (hrsv : lockRsvOk x = true)
    (hlock : bit x 0 = false) (hqueue : (d.queue j.queue).state = .active) :
    Dev.doLockAcquire j d =
      (let y := lockTaken x j.queue j.queueGen (dCtx j.desc)
       ended ((d.activate m line).writeLine m line y) j .ok (BitVec.ofNat 64 (field y 64 64)) 0) := by
  obtain ⟨hrows, hcalm'⟩ := d.activate_rows m line hcalm
  obtain ⟨reg, hplaced⟩ := placed_of_validLine (hrows.validLine hvalid)
  have hactive : (((d.activate m line).writeLine m line (lockTaken x j.queue j.queueGen (dCtx j.desc))).queue j.queue).state = .active := by
    rw [(OnlyMemory.activate_writeLine _ m line m line hcalm).queue, hqueue]
  simp only [Dev.doLockAcquire, hwaiting, dW0, hloc, Dev.loadForWrite_valid hcalm hvalid hfree, hx, hrsv, hlock, ne_eq,
    not_true_eq_false, Bool.not_true, Bool.not_false, Bool.false_eq_true, if_false, if_true,
    Dev.takeLock_free .ok hcalm' hplaced (hrows.freeToWrite hfree)]
  exact Dev.unpark_active hactive

/-- LOCK_ACQUIRE of a lock with a live owner waits behind the waiters before it, and parks its queue (R281). -/
theorem Dev.doLockAcquire_held (hwaiting : j.waiting = false)
    (hloc : d.locate (dCtx j.desc) (field j.desc 128 64) 64 .a = .ok (r, off)) (hfree : FreeToWrite d r)
    (hvalid : ValidLine d r off m line) (hcalm : Calm d 1) (hx : d.lineData m line = x) (hrsv : lockRsvOk x = true)
    (hlock : bit x 0 = true) (howner : d.ownerLive x = true) (hroom : (d.unit m).lockWaiters.length < 256)
    (hlimit : field j.desc 192 32 ≠ 0) (hgen : (d.queue j.queue).gen = j.queueGen) :
    Dev.doLockAcquire j d =
      (((d.activate m line).modUnit m fun u => { u with lockWaiters := u.lockWaiters ++ [{ job := j.id, line := lockKey r off }] }).putJob
        { j with waiting := true }).modQueue j.queue fun y =>
          { y with state := if y.state = .active ∧ y.gen = j.queueGen then .parked else y.state } := by
  obtain ⟨hrows, -⟩ := d.activate_rows m line hcalm
  obtain ⟨reg, hplaced⟩ := placed_of_validLine (hrows.validLine hvalid)
  have howner' : (d.activate m line).ownerLive x = true := by
    rw [Dev.ownerLive, hrows.memory.queue]
    exact howner
  have hroom' : ¬256 ≤ ((d.activate m line).unit m).lockWaiters.length := by
    rw [hrows.lockWaiters]
    omega
  have hgen' : ¬((d.activate m line).queue j.queue).gen ≠ j.queueGen := by
    rw [hrows.memory.queue]
    exact not_not.mpr hgen
  simp only [Dev.doLockAcquire, hwaiting, dW0, hloc, Dev.loadForWrite_valid hcalm hvalid hfree, hx, hrsv, hlock, howner',
    Dev.lockUnit_eq hplaced, if_neg hroom', if_neg hlimit, if_neg hgen', ne_eq, not_true_eq_false, Bool.not_true, Bool.false_eq_true,
    if_false]
  rfl

/-- LOCK_OWNER_RECHECK by a waiter whose owner is no longer live takes the lock with ABANDONED (R281). -/
theorem Dev.recheckLock_abandoned (hwaiting : j.waiting = true)
    (hloc : d.locate (dCtx j.desc) (field j.desc 128 64) 64 .a = .ok (r, off)) (hfree : FreeToWrite d r)
    (hvalid : ValidLine d r off m line) (hcalm : Calm d 2) (hx : d.lineData m line = x) (hlock : bit x 0 = true)
    (howner : d.ownerLive x = false) (hqueue : (d.queue j.queue).state = .parked) :
    Dev.recheckLock j d =
      (let y := lockTaken x j.queue j.queueGen (dCtx j.desc)
       (ended (((d.activate m line).dropWaiter j.id).writeLine m line y) j .abandoned (BitVec.ofNat 64 (field y 64 64)) 0).modQueue j.queue
         fun z => { z with state := .active }) := by
  obtain ⟨hrows, hcalm'⟩ := d.activate_rows m line hcalm
  obtain ⟨reg, hreg, hwindow, hplace⟩ := placed_of_validLine (hrows.validLine hvalid)
  have hcalm'' := calm_dropWaiter j.id hcalm'
  have howner' : (d.activate m line).ownerLive x = false := by
    rw [Dev.ownerLive, hrows.memory.queue]
    exact howner
  have hparked : ((((d.activate m line).dropWaiter j.id).writeLine m line
      (lockTaken x j.queue j.queueGen (dCtx j.desc))).queue j.queue).state = .parked := by
    rw [(OnlyMemory.writeLine _ hcalm'').queue]
    exact (congrArg Queue.state (hrows.memory.queue j.queue)).trans hqueue
  simp only [Dev.recheckLock, hwaiting, dW0, hloc, Dev.loadForWrite_valid hcalm hvalid hfree, hx, hlock, howner', ne_eq,
    not_true_eq_false, Bool.not_true, Bool.false_eq_true, if_false,
    Dev.takeLock_free .abandoned hcalm'' ⟨hreg, hwindow, hplace⟩ (hrows.freeToWrite hfree)]
  exact Dev.unpark_parked hparked

/-- A lock without waiters is granted to nobody. -/
theorem Dev.grantLock_nobody (h : (d.unit (d.lockUnit r off)).lockWaiters = []) : d.grantLock r off x = d := by
  simp only [Dev.grantLock, h, List.find?_nil]

/-- LOCK_RELEASE by the owner of a lock without waiters clears the held bit (R282). -/
theorem Dev.doLockRelease_owner (hloc : d.locate (dCtx j.desc) (field j.desc 128 64) 64 .a = .ok (r, off)) (hfree : FreeToWrite d r)
    (hvalid : ValidLine d r off m line) (hcalm : Calm d 2) (hx : d.lineData m line = x) (hrsv : lockRsvOk x = true)
    (hlock : bit x 0 = true) (hqueue : field x 8 18 = j.queue) (hgen : field x 32 8 = j.queueGen.toNat)
    (hnobody : (d.unit m).lockWaiters = []) :
    Dev.doLockRelease j d = ended ((d.activate m line).writeLine m line (x &&& ~~~1#512)) j .ok 0 0 := by
  obtain ⟨hrows, hcalm'⟩ := d.activate_rows m line hcalm
  obtain ⟨reg, hplaced⟩ := placed_of_validLine (((d.activate m line).activate_rows m line hcalm').1.validLine (hrows.validLine hvalid))
  obtain ⟨reg', hplaced'⟩ := placed_putLine hplaced m line (x &&& ~~~1#512)
  have howner : ¬(field x 8 18 ≠ j.queue ∨ field x 32 8 ≠ j.queueGen.toNat) := by simp [hqueue, hgen]
  have hwaiters : (((d.activate m line).writeLine m line (x &&& ~~~1#512)).unit
      (((d.activate m line).writeLine m line (x &&& ~~~1#512)).lockUnit r off)).lockWaiters = [] := by
    rw [Dev.writeLine, Dev.lockUnit_eq hplaced', ← Dev.writeLine, Dev.lockWaiters_writeLine _ m hcalm', hrows.lockWaiters, hnobody]
  simp only [Dev.doLockRelease, dW0, hloc, Dev.loadForWrite_valid hcalm hvalid hfree, hx, hrsv, hlock, if_neg howner,
    putBit_zero_false, Dev.save_activated _ _ _ hcalm hvalid hfree, ne_eq, not_true_eq_false, Bool.not_true, Bool.false_eq_true,
    if_false, if_true]
  exact Dev.grantLock_nobody (d := ended _ j .ok 0 0) hwaiters

end Locks

/-- An operation that meets no line is run on the descriptor as it stands. -/
theorem devStep_onJob {s : State} {i op : Nat} {j : Job} {f : Job → Dev → Dev} (hrun : Running s.dev i j op) :
    devStep (fun d => d.onJob i [op] f) s = .next (s.onDev (f j)) := by
  obtain ⟨hjob, hresult, hopcode⟩ := hrun
  have hfound : ({ s.dev with out := [] } : Dev).job i = some j := hjob
  have hopen : (j.result.isNone && [op].contains (dOpcode j.desc)) = true := by simp [hresult, hopcode]
  simp only [devStep, State.onDev, Dev.onJob, hfound, hopen, if_true]

/-- Settles O15: each clause is its operation's equation on the device as its descriptor finds it, where no access waits. -/
theorem atomicsAndLocks : Obligations.AtomicsAndLocks := by
  unfold Obligations.AtomicsAndLocks
  refine ⟨?reduce, ?atomic, ?acquire, ?wait, ?release, ?recheck, ?timeout⟩
  case reduce =>
    intro s i j c r off r' off' u v hrun hchain habort hreplies hbuffer hturn hsource hdest hfree hv hu hcalm
    have hop := Dev.doReduce_local (d := under s.dev i j) hchain habort hreplies hbuffer hturn hsource hdest hfree hv hu hcalm
    have hu := (OnlyMemory.combined (d := under s.dev i j) j u v hcalm).undisturbed (undisturbed_under s.dev i j)
    exact devStep_runJob hrun hop (undisturbed_ite (undisturbed_ended hu) (undisturbed_putJob hu))
  case atomic =>
    rintro s i j n r off m line x hrun hn hloc hfree hvalid hline hcalm rfl
    have hop := Dev.doAtomic_valid (d := under s.dev i j) hn hloc hfree hvalid hline hcalm
    exact devStep_runJob hrun hop (undisturbed_ended (undisturbed_rewrite hcalm))
  case acquire =>
    intro s i j r off m line x hrun hwaiting hloc hfree hvalid hcalm hx hrsv hlock hqueue
    have hop := Dev.doLockAcquire_free (d := under s.dev i j) hwaiting hloc hfree hvalid hcalm hx hrsv hlock hqueue
    exact devStep_runJob hrun hop (undisturbed_ended (undisturbed_rewrite hcalm))
  case wait =>
    rintro s i j r off m line x hrun rfl hwaiting hloc hfree hvalid hcalm hx hrsv hlock howner hroom hlimit hgen
    have hop := Dev.doLockAcquire_held (d := under s.dev j.id j) hwaiting hloc hfree hvalid hcalm hx hrsv hlock howner hroom hlimit hgen
    have hu := (Dev.activate_rows (d := under s.dev j.id j) m line hcalm).1.memory.undisturbed (undisturbed_under s.dev j.id j)
    exact devStep_runJob hrun hop (undisturbed_modQueue (undisturbed_putJob (undisturbed_modUnit hu)))
  case release =>
    intro s i j r off m line x hrun hloc hfree hvalid hcalm hx hrsv hlock hqueue hgen hnobody
    have hop := Dev.doLockRelease_owner (d := under s.dev i j) hloc hfree hvalid hcalm hx hrsv hlock hqueue hgen hnobody
    exact devStep_runJob hrun hop (undisturbed_ended (undisturbed_rewrite hcalm))
  case recheck =>
    rintro s i j r off m line x hrun rfl hwaiting hloc hfree hvalid hcalm hx hlock howner hqueue
    have hop := Dev.recheckLock_abandoned (d := under s.dev j.id j) hwaiting hloc hfree hvalid hcalm hx hlock howner hqueue
    obtain ⟨hrows, hcalm'⟩ := Dev.activate_rows (d := under s.dev j.id j) m line hcalm
    have hu := hrows.memory.undisturbed (undisturbed_under s.dev j.id j)
    have hwaiter := calm_dropWaiter j.id hcalm'
    exact devStep_runJob hrun hop (undisturbed_modQueue (undisturbed_ended ((OnlyMemory.writeLine _ hwaiter).undisturbed hu)))
  case timeout =>
    rintro s i j hrun rfl hwaiting hqueue
    refine (devStep_onJob hrun).trans (congrArg (fun d => Host.Outcome.next { s with dev := d }) ?_)
    exact (if_pos hwaiting).trans (Dev.unpark_parked hqueue)

end Sys2Proof.Machine

/-! ## The order of the mailbox counts (R114, R294) -/

namespace Sys2Proof.Machine

open Sys2Proof Sys2Proof.Safety

section Counts

variable {m : Mbx}

theorem mailboxOrder_empty : MailboxOrder {} := ⟨le_rfl, Nat.zero_le _⟩

/-- A `host_seq` that passes its check keeps the order (R294). -/
theorem mailboxOrder_hostSeq {n : U32} (hok : m.cmdOk n = true) (h : MailboxOrder m) : MailboxOrder { m with hostSeq := n } := by
  obtain ⟨hanswered, hahead⟩ := h
  simp only [Mbx.cmdOk, Bool.and_eq_true, decide_eq_true_eq] at hok
  obtain ⟨hmore, hroom⟩ := hok
  refine ⟨?_, hroom⟩
  simp only [BitVec.toNat_sub] at *
  omega

/-- A response head that passes its check keeps the order (R294). -/
theorem mailboxOrder_rspHead {n : U32} (hok : m.rspOk n = true) (h : MailboxOrder m) : MailboxOrder { m with rspHead := n } := by
  obtain ⟨hanswered, hahead⟩ := h
  simp only [Mbx.rspOk, Bool.and_eq_true, decide_eq_true_eq] at hok
  obtain ⟨hmore, hroom⟩ := hok
  simp only [MailboxOrder, BitVec.toNat_sub] at *
  omega

/-- A command that waits, answered while its response has room, keeps the order (R294). -/
theorem mailboxOrder_devSeq (hready : m.ready = true) (h : MailboxOrder m) : MailboxOrder { m with devSeq := m.devSeq + 1 } := by
  obtain ⟨hanswered, hahead⟩ := h
  simp only [Mbx.ready, Bool.and_eq_true, bne_iff_ne, decide_eq_true_eq] at hready
  obtain ⟨hwaits, hroom⟩ := hready
  refine ⟨?_, hahead⟩
  have hne : m.devSeq.toNat ≠ m.hostSeq.toNat := fun he => hwaits (BitVec.eq_of_toNat_eq he)
  have hone : (1 : U32).toNat = 1 := rfl
  simp only [BitVec.toNat_sub, BitVec.toNat_add] at *
  omega

end Counts

/-! ### What a command does to the counts -/

/-- If the mailbox counts of `s` are in order, so are those of `t`. -/
def KeepsOrder (s t : State) : Prop := MailboxOrder s.mbx → MailboxOrder t.mbx

/-- Every next state of an outcome from `s` keeps the order of the counts. -/
def OutcomeKeepsOrder (s : State) (o : Host.Outcome State Fault Refusal) : Prop := ∀ t, o = .next t → KeepsOrder s t

section Keeps

variable {s t u : State}

theorem KeepsOrder.refl (s : State) : KeepsOrder s s := id

theorem KeepsOrder.trans (h : KeepsOrder s t) (h' : KeepsOrder t u) : KeepsOrder s u := h' ∘ h

theorem KeepsOrder.ite {p : Prop} [Decidable p] (ht : p → KeepsOrder s t) (hu : ¬p → KeepsOrder s u) :
    KeepsOrder s (if p then t else u) := by
  split
  · exact ht ‹_›
  · exact hu ‹_›

theorem KeepsOrder.next (h : KeepsOrder s t) : OutcomeKeepsOrder s (.next t) := fun _ hnext => by
  cases hnext
  exact h

theorem keepsOrder_withDev (s : State) (d : Dev) : KeepsOrder s { s with dev := d } := id

theorem keepsOrder_onDev (s : State) (f : Dev → Dev) : KeepsOrder s (s.onDev f) := id

theorem keepsOrder_resetMbx (s t : State) : KeepsOrder s t.resetMbx := fun _ => mailboxOrder_empty

/-- A change of the mailbox registers that leaves the three counts as they are. -/
theorem keepsOrder_modMbx {f : Mbx → Mbx} (hhost : (f s.mbx).hostSeq = s.mbx.hostSeq) (hdev : (f s.mbx).devSeq = s.mbx.devSeq)
    (hrsp : (f s.mbx).rspHead = s.mbx.rspHead) : KeepsOrder s (s.modMbx f) := by
  simp only [KeepsOrder, MailboxOrder, State.modMbx, hhost, hdev, hrsp, imp_self]

theorem keepsOrder_foldl {α : Type} {f : State → α → State} (hf : ∀ t a, KeepsOrder t (f t a)) (l : List α) (s : State) :
    KeepsOrder s (l.foldl f s) := by
  induction l generalizing s with
  | nil => exact KeepsOrder.refl s
  | cons a l ih => exact (hf s a).trans (ih (f s a))

/-! ### The doorbells (R291, R294) -/

/-- A doorbell that is fenced or refused is counted alone; one that is done keeps the order if its own effect does. -/
theorem keepsOrder_mbxDoorbell {h : Nat} {epoch : U16} {ok : Bool} {f : State → State}
    (hf : ok = true → KeepsOrder (s.onDev id) (f (s.onDev id))) : KeepsOrder s (s.mbxDoorbell h epoch ok f) := by
  unfold State.mbxDoorbell
  refine .ite (fun _ => keepsOrder_onDev s id) fun _ => .ite (fun _ => ?_) fun _ => .ite (fun hok => ?_) fun _ => ?_
  · exact (keepsOrder_modMbx rfl rfl rfl).trans (keepsOrder_onDev _ id)
  · exact (keepsOrder_onDev s id).trans (hf hok)
  · exact (keepsOrder_modMbx rfl rfl rfl).trans (keepsOrder_onDev _ id)

theorem keepsOrder_cmdDoorbell (s : State) (h : Nat) (n : U32) (epoch : U16) : KeepsOrder s (s.cmdDoorbell h n epoch) :=
  keepsOrder_mbxDoorbell fun hok => mailboxOrder_hostSeq hok

theorem keepsOrder_rspDoorbell (s : State) (h : Nat) (n : U32) (epoch : U16) : KeepsOrder s (s.rspDoorbell h n epoch) :=
  keepsOrder_mbxDoorbell fun hok => mailboxOrder_rspHead hok

theorem keepsOrder_evtDoorbell (s : State) (h : Nat) (n : U32) (epoch : U16) : KeepsOrder s (s.evtDoorbell h n epoch) :=
  keepsOrder_mbxDoorbell fun _ => keepsOrder_withDev _ _

theorem keepsOrder_attach (s : State) (h : Nat) : KeepsOrder s (s.attach h) :=
  (keepsOrder_modMbx rfl rfl rfl).trans (keepsOrder_onDev _ _)

/-- A write to the mailbox page attaches, rings one of the three doorbells, or leaves the mailbox registers as they are. -/
theorem keepsOrder_mbxWrite (s : State) (head off : Nat) (v : U64) : KeepsOrder s (s.mbxWrite head off v) := by
  unfold State.mbxWrite
  split
  · exact keepsOrder_attach s head
  · exact keepsOrder_cmdDoorbell s head _ _
  · exact keepsOrder_rspDoorbell s head _ _
  · exact keepsOrder_evtDoorbell s head _ _
  · exact keepsOrder_onDev s _
  · exact keepsOrder_onDev s _

/-! ### Answers (R293, R294) -/

/-- A response of the device ring is written only where a command waits and its response has room. -/
theorem keepsOrder_respondDev (s : State) (seq : U32) (opcode : Nat) (st : Status) (outs : List U64) :
    KeepsOrder s (s.respondDev seq opcode st outs) := by
  unfold State.respondDev
  exact .ite (fun hready => mailboxOrder_devSeq hready) fun _ => .refl s

theorem keepsOrder_answer (s : State) (h : CmdHdr) (opcode : Nat) (st : Status) (outs : List U64) :
    KeepsOrder s (s.answer h opcode st outs) := by
  unfold State.answer
  split
  · exact (keepsOrder_withDev s _).trans (keepsOrder_respondDev _ _ _ _ _)
  · exact keepsOrder_withDev s _
  · exact .ite (fun _ => keepsOrder_withDev s _) fun _ => keepsOrder_withDev s _

/-- A Huanik command is not taken, or it is answered once. -/
theorem keepsOrder_huanik (s : State) (h : CmdHdr) (opcode : Nat) (src : Sources) (target : Dev → Option Nat) (op : Dev → CmdResult) :
    KeepsOrder s (s.huanik h opcode src target op) := by
  unfold State.huanik
  refine (keepsOrder_onDev s id).trans (.ite (fun _ => .refl _) fun _ => ?_)
  split
  · exact keepsOrder_answer _ _ _ _ _
  · exact (keepsOrder_withDev _ _).trans (keepsOrder_answer _ _ _ _ _)

theorem outcomeKeepsOrder_devStep (f : Dev → Dev) (s : State) : OutcomeKeepsOrder s (devStep f s) := (keepsOrder_onDev s f).next

theorem outcomeKeepsOrder_huanikStep (h : CmdHdr) (opcode : Nat) (src : Sources) (target : Dev → Option Nat) (op : Dev → CmdResult)
    (s : State) : OutcomeKeepsOrder s (huanikStep h opcode src target op s) := (keepsOrder_huanik s h opcode src target op).next

/-- An access to a line that does not exist has no next state. -/
theorem outcomeKeepsOrder_line {p : Prop} [Decidable p] (f : Dev → Dev) (s : State) (x : Fault) :
    OutcomeKeepsOrder s (if p then liveStep f s else .fault x) := by
  split
  · exact outcomeKeepsOrder_devStep _ s
  · exact fun t hnext => nomatch hnext

end Keeps
section Rows

variable (s : State)

/-- An access to the register page: a write may attach or ring a doorbell; a read changes no register. -/
theorem outcomeKeepsOrder_registerWrite (head off len : Nat) (value : Option U64) :
    OutcomeKeepsOrder s (execRegisterWrite head off len value s) := by
  refine KeepsOrder.next (.ite (fun _ => keepsOrder_onDev s id) fun _ => ?_)
  split
  · exact .ite (fun _ => keepsOrder_mbxWrite s head off _) fun _ => keepsOrder_onDev s id
  · exact .ite (fun _ => keepsOrder_onDev s _) fun _ => keepsOrder_onDev s _

theorem outcomeKeepsOrder_mailboxRingWrite (head off : Nat) (data : List Byte) :
    OutcomeKeepsOrder s (execMailboxRingWrite head off data s) := by
  refine KeepsOrder.next (.ite (fun _ => keepsOrder_onDev s id) fun _ => .ite (fun _ => ?_) fun _ => keepsOrder_onDev s _)
  exact (keepsOrder_modMbx rfl rfl rfl).trans (keepsOrder_onDev _ id)

/-- REGION_CREATE is answered at once, or waits and is not answered yet. -/
theorem outcomeKeepsOrder_regionCreate (h : CmdHdr) (r : RegionIn) : OutcomeKeepsOrder s (execRegionCreate h r s) := by
  refine KeepsOrder.next ((keepsOrder_onDev s id).trans (.ite (fun _ => .refl _) fun _ => ?_))
  split
  · exact keepsOrder_answer _ _ _ _ _
  · exact .ite (fun _ => keepsOrder_withDev _ _) fun _ => (keepsOrder_withDev _ _).trans (keepsOrder_answer _ _ _ _ _)

theorem keepsOrder_dropCreates (p : Nat) : KeepsOrder s (s.dropCreates p) :=
  (keepsOrder_withDev s _).trans (keepsOrder_foldl (fun t _ => keepsOrder_answer t _ _ _ _) _ _)

/-- A partition reset that ends may answer the creations that its tenancy drops. -/
theorem outcomeKeepsOrder_partitionResetDone (p : Nat) : OutcomeKeepsOrder s (execPartitionResetDone p s) := by
  refine KeepsOrder.next ((keepsOrder_onDev s id).trans (.ite (fun _ => ?_) fun _ => .refl _))
  dsimp only
  split
  · exact (keepsOrder_withDev _ _).trans ((keepsOrder_dropCreates _ p).trans (keepsOrder_withDev _ _))
  · exact keepsOrder_withDev _ _

/-- Each creation whose slots are cleared is made and answered. -/
theorem keepsOrder_finishCreates : KeepsOrder s s.finishCreates :=
  keepsOrder_foldl (fun t _ => .ite (fun _ => (keepsOrder_withDev t _).trans (keepsOrder_answer _ _ _ _ _)) fun _ => .refl t) _ s

theorem outcomeKeepsOrder_shutterSlotCleared (m slot : Nat) : OutcomeKeepsOrder s (execShutterSlotCleared m slot s) :=
  KeepsOrder.next ((keepsOrder_onDev s id).trans
    (.ite (fun _ => (keepsOrder_withDev _ _).trans (keepsOrder_finishCreates _)) fun _ => .refl _))

end Rows

/-- Every command keeps the order of the counts: what it does to the mailbox registers is one of the changes above. -/
theorem exec_keepsOrder (c : Instr) (s : State) : OutcomeKeepsOrder s (exec c s) := by
  cases c
  case mbxAttach head => exact KeepsOrder.next (.ite (fun _ => keepsOrder_attach s head) fun _ => keepsOrder_onDev s id)
  case mbxCmdDoorbell head n epoch => exact (keepsOrder_cmdDoorbell s head n epoch).next
  case mbxRspDoorbell head n epoch => exact (keepsOrder_rspDoorbell s head n epoch).next
  case mbxEvtDoorbell head n epoch => exact (keepsOrder_evtDoorbell s head n epoch).next
  case registerWrite head off len v => exact outcomeKeepsOrder_registerWrite s head off len v
  case mailboxRingWrite head off data => exact outcomeKeepsOrder_mailboxRingWrite s head off data
  case regionCreate h r => exact outcomeKeepsOrder_regionCreate s h r
  case partitionResetDone p => exact outcomeKeepsOrder_partitionResetDone s p
  case shutterSlotCleared m slot => exact outcomeKeepsOrder_shutterSlotCleared s m slot
  case lineRead | lineWrite | readModifyWrite => exact outcomeKeepsOrder_line _ s _
  case powerUp => exact (keepsOrder_resetMbx s _).next
  case warmReset | resetNAssert | powerGoodDeassert | memoryRailFault | resetNRelease | warmNPulse | domeEntry =>
    exact KeepsOrder.next (.ite (fun _ => keepsOrder_resetMbx s _) fun _ => .refl s)
  case thermalSample ts =>
    exact KeepsOrder.next (.ite (fun _ => .ite (fun _ => keepsOrder_resetMbx s _) fun _ => keepsOrder_withDev s _)
      fun _ => keepsOrder_onDev s id)
  case huanikNop | runtimeLoad | fwDownload | fwVerify | fwActivate | fwConfirm | fwInfo | lcTransition | modeChange
      | partCreate | partTenantChange | partDestroy | partAddUnit | partMailbox | partEventRing | regionDestroy
      | regionMigrate | regionQuery | objectCreate | rankTableLoad | windowWrite | contextWrite | headBind | routeLoad
      | routeFlip | routeRetire | portControlEnable | portControlDisable | portControlRetrain | portControlCreditAdv
      | leaseCreate | leaseRenew | leaseQuery | queueCreate | queueReset | queueAbort | queueDestroy | tallyPair
      | tallyUnpair | tallySet | paramSet | policeSet | gateCtrlSet | gateEntrySet | pairEnableSet | forceClaim | domeReq
      | rebuildStart | logRead | logClear | countersRead | injectFlip | rawWrite | rawRead | rawModeEnter | rawModeExit =>
    exact outcomeKeepsOrder_huanikStep _ _ _ _ _ s
  all_goals exact outcomeKeepsOrder_devStep _ s

/-- Settles O4: a step runs a command, which keeps the order, or idles, which leaves the mailbox as it is. -/
theorem mailboxOrderKept : Obligations.MailboxOrderKept := by
  unfold Obligations.MailboxOrderKept
  intro s t horder hstep
  unfold step at hstep
  split at hstep
  · cases hstep
    exact horder
  · exact exec_keepsOrder _ (s.withQueue _) t hstep horder

end Sys2Proof.Machine

/-! ## Doorbells (R117, R118, R299, R300) -/

namespace Sys2Proof.Machine

open Sys2Proof Sys2Proof.Safety

section Doorbells

variable {d : Dev} {w : DbWrite} {q p : Nat} {x : Queue}

/-! ### Which doorbell a write reaches (R117) -/

theorem Dev.dbTarget_queue (hoff : w.off / 8 = q) (hq : q < 262144) (hx : d.queue q = x) (hexists : x.exists_ = true) :
    d.dbTarget w.off = .queue q := by
  subst hoff hx
  have haperture : w.off < 0x200000 := by omega
  simp only [Dev.dbTarget, if_pos haperture, hexists, if_true]

theorem Dev.dbTarget_mailbox {m : PartMbx} (hoff : w.off = 0x200000 + 8 * p) (hp : p < 32) (hm : tget d.partMbx p = some m) :
    d.dbTarget w.off = .mailbox p := by
  have hbeyond : ¬ w.off < 0x200000 := by omega
  have haperture : w.off < 0x200100 := by omega
  have hpart : (w.off - 0x200000) / 8 = p := by omega
  simp only [Dev.dbTarget, if_neg hbeyond, if_pos haperture, hpart, hm, Option.isSome_some, if_true]

theorem Dev.dbTarget_ring {g : PartRing} (hoff : w.off = 0x200100 + 8 * p) (hp : p < 32) (hg : tget d.partRings p = some g) :
    d.dbTarget w.off = .ring p := by
  have hqueues : ¬ w.off < 0x200000 := by omega
  have hmailboxes : ¬ w.off < 0x200100 := by omega
  have haperture : w.off < 0x200200 := by omega
  have hpart : (w.off - 0x200100) / 8 = p := by omega
  simp only [Dev.dbTarget, if_neg hqueues, if_neg hmailboxes, if_pos haperture, hpart, hg, Option.isSome_some, if_true]

theorem Dev.dbTarget_reserved (hoff : 0x200200 ≤ w.off) : d.dbTarget w.off = .none := by
  have hqueues : ¬ w.off < 0x200000 := by omega
  have hmailboxes : ¬ w.off < 0x200100 := by omega
  have hrings : ¬ w.off < 0x200200 := by omega
  simp only [Dev.dbTarget, if_neg hqueues, if_neg hmailboxes, if_neg hrings]

/-- A doorbell write is open while no Dome is requested and its partition, if it has one, does not reset (R263, R344, R366). -/
theorem Dev.ringDoorbell_open {t : DbTarget} (htarget : d.dbTarget w.off = t) (hdome : d.sys.domeReqAt = none)
    (hpart : (d.dbPart t).any (fun p => (d.partn p).state == .resetting) = false) :
    d.ringDoorbell w = match t with
      | .queue q => d.dbQueue w q
      | .mailbox p => d.dbMailbox w p
      | .ring p => d.dbRing w p
      | .none => d.dbReject w none none .bounds := by
  simp only [Dev.ringDoorbell, htarget, hdome, hpart, Option.isSome_none, Bool.or_self, Bool.false_eq_true, if_false]
  cases t <;> rfl

/-! ### Queue doorbells (R118) -/

theorem dbForm_of_aligned (halign : w.off % 8 = 0) (hlen : w.len = 8) : dbForm w = true := by simp [dbForm, halign, hlen]

/-- The contexts that may ring a queue's doorbell (R118). -/
theorem Dev.ctxAllowed_iff (d : Dev) (x : Queue) (c : Nat) :
    d.ctxAllowed x c = true ↔ c = x.context ∨ (x.anyContext = true ∧ (d.context c).partition = x.partition) := by
  simp only [Dev.ctxAllowed, Bool.or_eq_true, Bool.and_eq_true, beq_iff_eq]

theorem Dev.dbQueue_format (hx : d.queue q = x) (hform : w.off % 8 ≠ 0 ∨ w.len ≠ 8) :
    d.dbQueue w q = d.dbReject w (some x.partition) (some q) .format := by
  have hbad : dbForm w = false := by
    rcases hform with halign | hlen
    · simp [dbForm, halign]
    · simp [dbForm, hlen]
  simp only [Dev.dbQueue, hbad, hx, Bool.not_false, if_true]

theorem Dev.dbQueue_rights (hx : d.queue q = x) (hform : dbForm w = true) (hctx : d.ctxAllowed x w.ctx = false) :
    d.dbQueue w q = d.dbReject w (some x.partition) (some q) .rights := by
  simp only [Dev.dbQueue, hform, hx, hctx, Bool.not_true, Bool.not_false, Bool.false_eq_true, if_false, if_true]

theorem Dev.dbQueue_inactive (hx : d.queue q = x) (hform : dbForm w = true) (hctx : d.ctxAllowed x w.ctx = true)
    (hstate : x.state = .disabled ∨ x.state = .error) : d.dbQueue w q = d.bump .dbInactive := by
  rcases hstate with hstate | hstate <;>
    simp only [Dev.dbQueue, hform, hx, hctx, hstate, Bool.not_true, Bool.false_eq_true, if_false]

/-- The four checks of a queue's new counts (R118). -/
def Queue.countsOk (x : Queue) (tail head : U32) : Prop :=
  (tail - x.sqHead).toNat ≤ 2 ^ x.sqLog2 ∧ (tail - x.sqTail).toNat ≤ 2 ^ x.sqLog2 ∧
  (x.cqTail - head).toNat ≤ 2 ^ x.cqLog2 ∧ (head - x.cqHead).toNat ≤ 2 ^ x.cqLog2

theorem Dev.dbQueue_accepted (hx : d.queue q = x) (hform : dbForm w = true) (hctx : d.ctxAllowed x w.ctx = true)
    (hstate : x.state = .active ∨ x.state = .parked) (hcounts : x.countsOk (w.value.truncate 32) ((w.value >>> 32).truncate 32)) :
    d.dbQueue w q =
      d.modQueue q fun y => { y with sqTail := w.value.truncate 32, cqHead := (w.value >>> 32).truncate 32 } := by
  unfold Queue.countsOk at hcounts
  rcases hstate with hstate | hstate <;>
    simp only [Dev.dbQueue, hform, hx, hctx, hstate, Bool.not_true, Bool.false_eq_true, if_false, if_pos hcounts]

theorem Dev.dbQueue_error (hx : d.queue q = x) (hform : dbForm w = true) (hctx : d.ctxAllowed x w.ctx = true)
    (hstate : x.state = .active ∨ x.state = .parked) (hcounts : ¬ x.countsOk (w.value.truncate 32) ((w.value >>> 32).truncate 32)) :
    d.dbQueue w q = d.queueError q .format := by
  unfold Queue.countsOk at hcounts
  rcases hstate with hstate | hstate <;>
    simp only [Dev.dbQueue, hform, hx, hctx, hstate, Bool.not_true, Bool.false_eq_true, if_false, if_neg hcounts]

/-! ### Partition doorbells (R299, R300) -/

theorem Dev.dbMailbox_accepted {m : PartMbx} (hm : tget d.partMbx p = some m) (hform : dbForm w = true) (hctx : w.ctx = m.ctx)
    (hdone : (w.value.truncate 32 - m.cmdDone).toNat ≤ 64) (htail : (w.value.truncate 32 - m.cmdTail).toNat ≤ 64)
    (hhead : (m.cmdDone - (w.value >>> 32).truncate 32).toNat ≤ 64) (hrsp : ((w.value >>> 32).truncate 32 - m.rspHead).toNat ≤ 64) :
    d.dbMailbox w p = { d with
      partMbx := tset d.partMbx p { m with cmdTail := w.value.truncate 32, rspHead := (w.value >>> 32).truncate 32 } } := by
  simp only [Dev.dbMailbox, hm, hform, hctx, hdone, htail, hhead, hrsp, Bool.not_true, Bool.false_eq_true, ne_eq, not_true_eq_false,
    and_self, if_false, if_true]

/-- A new head of a partition's event ring that has lost no record (R300). -/
theorem Dev.dbRing_accepted {g : PartRing} (hg : tget d.partRings p = some g) (hform : dbForm w = true)
    (hvalid : (d.context w.ctx).valid = true) (hctx : (d.context w.ctx).partition = p) (hhigh : w.value >>> 32 = 0)
    (hback : (g.tail - w.value.truncate 32).toNat ≤ 2 ^ g.log2) (hmoved : (w.value.truncate 32 - g.head).toNat ≤ 2 ^ g.log2)
    (hlost : g.unreported = 0) :
    d.dbRing w p = { d with partRings := tset d.partRings p { g with head := w.value.truncate 32 } } := by
  have hheld : ¬((d.context w.ctx).partition ≠ p ∨ (d.context w.ctx).valid = false) := by simp [hctx, hvalid]
  simp only [Dev.dbRing, hg, if_neg hheld, hform, hhigh, hback, hmoved, hlost, Bool.not_true, bne_self_eq_false, Bool.or_self,
    Bool.false_eq_true, ne_eq, not_true_eq_false, false_and, and_self, if_false, if_true]

/-! ### The rows, while no Dome is requested and the doorbell's partition does not reset (R263, R344, R366) -/

variable {s : State} {e : Dev}

theorem exec_queueDoorbell (hoff : w.off / 8 = q) (hq : q < 262144) (hx : s.dev.queue q = x) (hexists : x.exists_ = true)
    (hdome : s.dev.sys.domeReqAt = none) (hpart : (s.dev.partn x.partition).state ≠ .resetting)
    (h : ({ s.dev with out := [] } : Dev).dbQueue w q = e) : exec (.queueDoorbell w) s = .next { s with dev := e } := by
  change execQueueDoorbell w s = _
  have htarget : ({ s.dev with out := [] } : Dev).dbTarget w.off = .queue q := Dev.dbTarget_queue hoff hq hx hexists
  subst hx
  have hopen := Dev.ringDoorbell_open htarget hdome (beq_eq_false_iff_ne.mpr hpart)
  simp only [execQueueDoorbell, devStep_eq, State.onDev, htarget, hopen, h]

theorem exec_partMailboxDoorbell {m : PartMbx} (hoff : w.off = 0x200000 + 8 * p) (hp : p < 32) (hm : tget s.dev.partMbx p = some m)
    (hdome : s.dev.sys.domeReqAt = none) (hpart : (s.dev.partn p).state ≠ .resetting)
    (h : ({ s.dev with out := [] } : Dev).dbMailbox w p = e) : exec (.partMailboxDoorbell w) s = .next { s with dev := e } := by
  change execPartMailboxDoorbell w s = _
  have htarget : ({ s.dev with out := [] } : Dev).dbTarget w.off = .mailbox p := Dev.dbTarget_mailbox hoff hp hm
  have hopen := Dev.ringDoorbell_open htarget hdome (beq_eq_false_iff_ne.mpr hpart)
  simp only [execPartMailboxDoorbell, devStep_eq, State.onDev, htarget, hopen, h]

theorem exec_partEventRingDoorbell {g : PartRing} (hoff : w.off = 0x200100 + 8 * p) (hp : p < 32)
    (hg : tget s.dev.partRings p = some g) (hdome : s.dev.sys.domeReqAt = none) (hpart : (s.dev.partn p).state ≠ .resetting)
    (h : ({ s.dev with out := [] } : Dev).dbRing w p = e) : exec (.partEventRingDoorbell w) s = .next { s with dev := e } := by
  change execPartEventRingDoorbell w s = _
  have htarget : ({ s.dev with out := [] } : Dev).dbTarget w.off = .ring p := Dev.dbTarget_ring hoff hp hg
  have hopen := Dev.ringDoorbell_open htarget hdome (beq_eq_false_iff_ne.mpr hpart)
  simp only [execPartEventRingDoorbell, devStep_eq, State.onDev, htarget, hopen, h]

theorem exec_apertureReservedWrite (hoff : 0x200200 ≤ w.off) (hdome : s.dev.sys.domeReqAt = none) :
    exec (.apertureReservedWrite w) s = .next (s.onDev fun d => d.dbReject w none none .bounds) := by
  change execApertureReservedWrite w s = _
  have htarget : ({ s.dev with out := [] } : Dev).dbTarget w.off = .none := Dev.dbTarget_reserved hoff
  have hopen := Dev.ringDoorbell_open htarget hdome rfl
  simp only [execApertureReservedWrite, devStep_eq, State.onDev, htarget, hopen]

end Doorbells

/-- Settles O7: each clause is what the doorbell that the write reaches does with it. -/
theorem doorbells : Obligations.Doorbells := by
  unfold Obligations.Doorbells
  refine ⟨?accepted, ?reserved, ?mailbox, ?ring, ?format, ?rights, ?inactive, ?error⟩
  case accepted =>
    intro s w q x hoff hq hlen hx hexists hdome hpart hctx hstate hnew htail hback hhead
    have hform := dbForm_of_aligned (w := w) (by omega) hlen
    exact exec_queueDoorbell (by omega) hq hx hexists hdome hpart
      (Dev.dbQueue_accepted hx hform ((Dev.ctxAllowed_iff _ x _).mpr hctx) hstate ⟨hnew, htail, hback, hhead⟩)
  case reserved =>
    intro s w hdome hoff
    exact exec_apertureReservedWrite hoff hdome
  case mailbox =>
    intro s w p m hoff hp hlen hm hdome hpart hctx hdone htail hhead hrsp
    have hform := dbForm_of_aligned (w := w) (by omega) hlen
    exact exec_partMailboxDoorbell hoff hp hm hdome hpart (Dev.dbMailbox_accepted hm hform hctx hdone htail hhead hrsp)
  case ring =>
    intro s w p g hoff hp hlen hg hdome hpart hvalid hctx hhigh hback hmoved hlost
    have hform := dbForm_of_aligned (w := w) (by omega) hlen
    exact exec_partEventRingDoorbell hoff hp hg hdome hpart
      (Dev.dbRing_accepted hg hform hvalid hctx hhigh hback hmoved hlost)
  case format =>
    intro s w q x hoff hq hx hexists hdome hpart hform
    exact exec_queueDoorbell hoff hq hx hexists hdome hpart (Dev.dbQueue_format hx hform)
  case rights =>
    intro s w q x hoff hq hx hexists hdome hpart halign hlen hother hno
    have hrefused : ¬ s.dev.ctxAllowed x w.ctx = true := by
      rw [Dev.ctxAllowed_iff]
      rintro (hctx | ⟨hany, hsame⟩)
      · exact hother hctx
      · exact hno.elim (fun h => by simp [hany] at h) fun h => h hsame
    exact exec_queueDoorbell hoff hq hx hexists hdome hpart
      (Dev.dbQueue_rights hx (dbForm_of_aligned halign hlen) (Bool.eq_false_iff.mpr hrefused))
  case inactive =>
    intro s w q x hoff hq hx hexists hdome hpart halign hlen hctx hstate
    exact exec_queueDoorbell hoff hq hx hexists hdome hpart
      (Dev.dbQueue_inactive hx (dbForm_of_aligned halign hlen) ((Dev.ctxAllowed_iff _ x _).mpr (.inl hctx)) hstate)
  case error =>
    rintro s w q x hoff hq rfl hexists hdome hpart halign hlen hctx hstate hbad
    have hcounts : ¬ (s.dev.queue q).countsOk (w.value.truncate 32) ((w.value >>> 32).truncate 32) := by
      rintro ⟨hnew, -, hback, -⟩
      omega
    exact exec_queueDoorbell hoff hq rfl hexists hdome hpart
      (Dev.dbQueue_error rfl (dbForm_of_aligned halign hlen) ((Dev.ctxAllowed_iff _ _ _).mpr (.inl hctx)) hstate hcounts)

end Sys2Proof.Machine

/-! ## Fetching and dispatching descriptors (R126, R129) -/

namespace Sys2Proof.Machine

open Sys2Proof Sys2Proof.Safety

section Fetch

variable {s : State} {d e : Dev} {q r off m line : Nat} {x : Queue}

/-- A row of the islands whose operation meets nothing to wait for and mirrors no write. -/
theorem liveStep_mirrored {c : WinReq} {op : Dev → Dev} (hlive : s.dev.sys.live = true) (hop : op (Safety.ready s.dev) = e)
    (hu : Undisturbed s.dev e) : liveStep (fun d => d.mirrored c op) s = .next { s with dev := e } := by
  rw [liveStep_live _ _ hlive]
  exact congrArg (fun d => Host.Outcome.next { s with dev := d }) (Dev.mirrored_undisturbed (d := { s.dev with out := [] }) hop hu)

theorem canFetch_iff : canFetch x = true ↔
    x.exists_ = true ∧ x.state = .active ∧ x.sqHead ≠ x.sqTail ∧ x.inFlight + (x.cqTail - x.cqHead).toNat < 2 ^ x.cqLog2 := by
  simp only [canFetch, Bool.and_eq_true, beq_iff_eq, bne_iff_ne, decide_eq_true_eq, and_assoc]

/-- A queue that may fetch, whose entry lies in a valid line, gets its head descriptor (R126). -/
theorem Dev.fetch_valid (hx : d.queue q = x) (hcan : canFetch x = true)
    (hloc : d.locate x.context (x.sqBase + 64 * (x.sqHead.toNat % 2 ^ x.sqLog2)) 64 .r = .ok (r, off))
    (hvalid : ValidLine d r off m line) (hcalm : Calm d 1) :
    d.fetch q = ((d.activate m line).modQueue q fun y => { y with sqHead := y.sqHead + 1, inFlight := y.inFlight + 1 }).modQueue q
      fun y => { y with fetched := y.fetched ++
        [{ desc := d.lineData m line, slotAddr := x.sqBase + 64 * (x.sqHead.toNat % 2 ^ x.sqLog2) }] } := by
  simp only [Dev.fetch, hx, hcan, Dev.readCtxLine, hloc, Dev.load_valid hcalm hvalid, if_true]

end Fetch

section Dispatch

variable {d : Dev} {o : List Output} {gs : Tab Group} {x : Queue} {y : Line}

/-! ### What a dispatch does not rest on: earlier outputs, and which queue a group served last -/

/-- A group's record without what it served last (R129). -/
def Group.sansServed (g : Group) : Group := { g with lastDispatch := [], lastServed := [] }

/-- A group's record once it has served queue `q` at level `l` (R129). -/
def Group.served (g : Group) (l q now : Nat) : Group :=
  { g with lastDispatch := tset g.lastDispatch l now, lastServed := tset g.lastServed l q }

theorem Dev.checkArgs_groups (ctx : Nat) (mover : Bool) (as : List Arg) :
    { d with out := o, groups := gs }.checkArgs ctx mover as = d.checkArgs ctx mover as := by
  induction as with
  | nil => rfl
  | cons a as ih =>
    cases a <;> simp only [Dev.checkArgs, ih] <;> rfl

/-- The units of a queue's group, as the checks and the choice of a unit see them. -/
abbrev SameUnits (d : Dev) (gs : Tab Group) (x : Queue) : Prop :=
  (tgetD gs (groupKey x.partition x.group) {}).sansServed = (d.group x.partition x.group).sansServed

theorem Dev.groupHas_groups (h : SameUnits d gs x) (failed : U64) (k : OpKind) :
    groupHas ({ d with out := o, groups := gs }.group x.partition x.group) failed k =
      groupHas (d.group x.partition x.group) failed k := by
  have hengines : (tgetD gs (groupKey x.partition x.group) {}).engines = (d.group x.partition x.group).engines :=
    (congrArg Group.engines h :)
  have hmovers : (tgetD gs (groupKey x.partition x.group) {}).movers = (d.group x.partition x.group).movers :=
    (congrArg Group.movers h :)
  cases k <;> simp only [groupHas, Dev.group, hengines, hmovers]

theorem Dev.headerCheck_groups (h : SameUnits d gs x) : { d with out := o, groups := gs }.headerCheck x y = d.headerCheck x y := by
  simp only [Dev.headerCheck, Dev.groupHas_groups h]
  rfl

theorem Dev.descCheck_groups (h : SameUnits d gs x) : { d with out := o, groups := gs }.descCheck x y = d.descCheck x y := by
  simp only [Dev.descCheck, Dev.headerCheck_groups h, Dev.checkArgs_groups]
  rfl

theorem Dev.takeUnit_groups (h : SameUnits d gs x) :
    { d with out := o, groups := gs }.takeUnit ({ d with out := o, groups := gs }.group x.partition x.group) y =
      d.takeUnit (d.group x.partition x.group) y :=
  (congrArg (fun g => d.takeUnit g y) h :)

theorem Dev.ready_groups (h : SameUnits d gs x) : { d with out := o, groups := gs }.ready x = d.ready x := by
  simp only [Dev.ready, Dev.descCheck_groups h, Dev.takeUnit_groups h]

theorem Dev.readyQueues_out (d : Dev) (o : List Output) (p g : Nat) : { d with out := o }.readyQueues p g = d.readyQueues p g := by
  simp only [Dev.readyQueues]
  have hready : ∀ x, { d with out := o }.ready x = d.ready x := fun x => Dev.ready_groups (gs := d.groups) rfl
  simp only [hready]

/-- What a group has served is noted beside its units. -/
theorem sameUnits_modGroup {p g : Nat} {f : Group → Group} (hf : ∀ y, (f y).sansServed = y.sansServed) :
    SameUnits d (d.modGroup p g f).groups x := by
  by_cases hkey : groupKey x.partition x.group = groupKey p g
  · rw [SameUnits, hkey]
    simp only [Dev.modGroup, tgetD_tmod_same, hf, Dev.group, hkey]
  · simp only [SameUnits, Dev.modGroup, tgetD_tmod_other d.groups {} {} f hkey, Dev.group]

/-! ### One queue that is ready -/

/-- The first of one queue, whatever was served last. -/
theorem rotateAfter_single (q : Nat) (last : Option Nat) : rotateAfter [q] last = some q := by
  cases last with
  | none => rfl
  | some l => by_cases h : l < q <;> simp [rotateAfter, h]

/-- A group with one ready queue serves it, at its level (R129). -/
theorem Dev.dispatchGroup_single {p g q l : Nat} (h : d.readyQueues p g = [(q, l)]) :
    d.dispatchGroup p g =
      (d.modGroup p g fun y => y.served l q d.now).dispatchRun q (d.queue q).weight := by
  have hpool : (if [(q, l)].filter (fun r => decide (tgetD (d.group p g).lastDispatch r.2 0 + 100000 ≤ d.now)) = [] then [(q, l)]
      else [(q, l)].filter (fun r => decide (tgetD (d.group p g).lastDispatch r.2 0 + 100000 ≤ d.now))) = [(q, l)] := by
    by_cases hlate : tgetD (d.group p g).lastDispatch l 0 + 100000 ≤ d.now <;> simp [hlate]
  simp only [Dev.dispatchGroup, h, hpool, List.foldl_cons, List.foldl_nil, Nat.zero_max, BEq.rfl, List.filter_cons_of_pos,
    List.filter_nil, List.map_cons, List.map_nil, rotateAfter_single]
  rfl

/-- The job that a descriptor becomes when it passes its checks (R61, R73, R129). -/
def Dev.newJob (d : Dev) (q : Nat) (x : Queue) (f : Fetched) (u : JobUnit) : Job :=
  { id := d.nextJob, queue := q, queueGen := x.gen, modeGen := d.sys.modeGen, partition := x.partition, desc := f.desc,
    slotAddr := f.slotAddr, unit := u, dispatchedAt := d.now, lastAccess := d.now, holds := descHolds f.desc,
    snap := d.snapshotOf f.desc, waiting := dOpcode f.desc == 0x41, result := none }

/-- A descriptor that passes its checks and finds a unit becomes a job; a TALLY_WAIT parks its queue (R129, R134). -/
theorem Dev.dispatchOne_taken {q : Nat} {f : Fetched} {rest : List Fetched} {u : JobUnit} (hx : d.queue q = x)
    (hfetched : x.fetched = f :: rest) (hcheck : d.descCheck x f.desc = none)
    (hunit : d.takeUnit (d.group x.partition x.group) f.desc = some u) :
    d.dispatchOne q = { d with nextJob := d.nextJob + 1, jobs := d.jobs ++ [d.newJob q x f u] }.modQueue q
      fun y => { y with fetched := rest, state := if dOpcode f.desc = 0x41 then .parked else y.state } := by
  simp only [Dev.dispatchOne, hx, hfetched, hcheck, hunit, Option.isSome_none, Option.isNone_none, Bool.true_and, Option.map_none,
    Bool.false_eq_true, if_false, beq_iff_eq, Dev.newJob]

/-- A group with one ready queue of weight 1, whose head descriptor passes its checks and finds a unit, dispatches it (R129). -/
theorem Dev.dispatchGroup_taken {q l : Nat} {f : Fetched} {rest : List Fetched} {u : JobUnit}
    (hone : d.readyQueues x.partition x.group = [(q, l)]) (hx : d.queue q = x) (hfetched : x.fetched = f :: rest) (hweight : x.weight = 1)
    (hready : d.ready x = true) (hcheck : d.descCheck x f.desc = none)
    (hunit : d.takeUnit (d.group x.partition x.group) f.desc = some u) :
    d.dispatchGroup x.partition x.group =
      { (d.modGroup x.partition x.group fun y => y.served l q d.now).modQueue q
          (fun y => { y with fetched := rest, state := if dOpcode f.desc = 0x41 then .parked else y.state }) with
        nextJob := d.nextJob + 1, jobs := d.jobs ++ [d.newJob q x f u] } := by
  have hsame : SameUnits d (d.modGroup x.partition x.group fun y => y.served l q d.now).groups x := sameUnits_modGroup fun _ => rfl
  have htaken := Dev.dispatchOne_taken (d := d.modGroup x.partition x.group fun y => y.served l q d.now) hx hfetched
    ((Dev.descCheck_groups (o := d.out) hsame).trans hcheck) ((Dev.takeUnit_groups (o := d.out) hsame).trans hunit)
  have hgo := (Dev.ready_groups (o := d.out) hsame).trans hready
  rw [Dev.dispatchGroup_single hone, hx, hweight, Dev.dispatchRun]
  exact (if_pos (hx ▸ hgo)).trans htaken

end Dispatch

/-- Settles O8: a fetch is the read of one valid line; a dispatch serves the one queue that is ready. -/
theorem fetchAndDispatch : Obligations.FetchAndDispatch := by
  unfold Obligations.FetchAndDispatch
  refine ⟨?fetch, ?dispatch⟩
  case fetch =>
    rintro s q x r off m line hlive rfl hexists hactive hwaits hroom hloc hvalid hcalm
    have hcan : canFetch (s.dev.queue q) = true := canFetch_iff.mpr ⟨hexists, hactive, hwaits, hroom⟩
    have hrows := (Dev.activate_rows (d := Safety.ready s.dev) m line hcalm).1.memory
    exact liveStep_mirrored hlive (Dev.fetch_valid (d := Safety.ready s.dev) rfl hcan hloc hvalid hcalm)
      (undisturbed_modQueue (undisturbed_modQueue (hrows.undisturbed ⟨rfl, rfl, rfl⟩)))
  case dispatch =>
    rintro s p g q l x f rest u hlive hone hx rfl rfl hfetched hweight hready hcheck hunit
    refine (liveStep_live _ _ hlive).trans (congrArg (fun d => Host.Outcome.next { s with dev := d }) ?_)
    exact Dev.dispatchGroup_taken (d := { s.dev with out := [] }) ((s.dev.readyQueues_out [] _ _).trans hone) hx hfetched hweight
      ((Dev.ready_groups (gs := s.dev.groups) rfl).trans hready) ((Dev.descCheck_groups (gs := s.dev.groups) rfl).trans hcheck) hunit

end Sys2Proof.Machine

/-! ## Completion signalling (R131, R132) -/

namespace Sys2Proof.Machine

open Sys2Proof Sys2Proof.Safety

section Signal

variable {d e : Dev} {t p : Nat}

/-- An add of 1 goes through, or sets a flag of its counter (Table 6.8). -/
theorem Dev.tallyAfter_one (d : Dev) (t : Nat) :
    (d.tallyAfter t 1).2 = .ok ∨ (d.tallyAfter t 1).1.ovf = true ∨ (d.tallyAfter t 1).1.unf = true := by
  have hsign : ¬ (1 : Int) < 0 := by decide
  rw [Dev.tallyAfter, if_neg hsign]
  split
  · exact .inl rfl
  · split
    · exact .inr (.inr rfl)
    · exact .inr (.inl rfl)

/-- The event of a signal that saturates or is refused (R132). -/
def saturatedEvent (t p : Nat) (st : Status) : Event :=
  { code := .tallySaturated, part := some p, detail0 := some (BitVec.ofNat 64 t), detail1 := some (statusWord st) }

theorem Dev.signalTally_ok (h : (d.tallyAfter t 1).2 = .ok) : d.signalTally t p = d.setTally t (d.tallyAfter t 1).1 := by
  simp only [Dev.signalTally, Dev.tallyAdd, h, if_true]

theorem Dev.signalTally_raise (h : (d.tallyAfter t 1).2 ≠ .ok) :
    d.signalTally t p = (d.setTally t (d.tallyAfter t 1).1).raise (saturatedEvent t p (d.tallyAfter t 1).2) := by
  simp only [Dev.signalTally, Dev.tallyAdd]
  exact if_neg h

/-- Whether it saturates or not, a signal changes its counter, and raises at most an event. -/
theorem Dev.signalTally_cases (d : Dev) (t p : Nat) :
    d.signalTally t p = d.setTally t (d.tallyAfter t 1).1 ∨
      ∃ x, d.signalTally t p = (d.setTally t (d.tallyAfter t 1).1).raise x := by
  by_cases h : (d.tallyAfter t 1).2 = .ok
  · exact .inl (Dev.signalTally_ok h)
  · exact .inr ⟨_, Dev.signalTally_raise h⟩

theorem Dev.signalTally_frame (d : Dev) (t p : Nat) :
    (d.signalTally t p).tallies = (d.setTally t (d.tallyAfter t 1).1).tallies ∧ (d.signalTally t p).jobs = d.jobs ∧
    (d.signalTally t p).again = d.again ∧ (d.signalTally t p).winDone = d.winDone ∧ (d.signalTally t p).pair = d.pair := by
  rcases d.signalTally_cases t p with h | ⟨x, h⟩
  · rw [h]
    exact ⟨rfl, rfl, rfl, rfl, rfl⟩
  · rw [h]
    simp only [Dev.raise_frame, Dev.setTally_frame, and_self]

end Signal

/-- Settles O11: a signal is an add of 1, and an event where the add does not end OK. -/
theorem tallySignalled : Obligations.TallySignalled := by
  unfold Obligations.TallySignalled
  intro d t p
  obtain ⟨htallies, hjobs, -⟩ := d.signalTally_frame t p
  refine ⟨Dev.signalTally_ok, fun hbad => ⟨Dev.signalTally_raise hbad, (d.tallyAfter_one t).resolve_left hbad⟩, fun u hu => ?_, hjobs⟩
  exact ⟨htallies, Dev.tally_setTally_other d _ hu⟩

end Sys2Proof.Machine

/-! ## NOP, TALLY_ADD and TALLY_WAIT (R123, R133, R134) -/

namespace Sys2Proof.Machine

open Sys2Proof Sys2Proof.Safety

section Tallies

variable {d : Dev} {j : Job}

theorem Dev.doTallyAdd_outside (h : tallyIn (d.partn j.partition) (jobTally j) = false) : Dev.doTallyAdd j d = d.finish j .bounds := by
  simp only [Dev.doTallyAdd, h, Bool.not_false, if_true]

/-- An add to a counter of the partition returns the counter as the add leaves it (R133). -/
theorem Dev.doTallyAdd_inside {e : Dev} {after : Tally × Status} (h : tallyIn (d.partn j.partition) (jobTally j) = true)
    (he : e = if bit j.desc 148 then d.setTally (jobTally j) { value := (d.tally (jobTally j)).value } else d)
    (hafter : after = e.tallyAfter (jobTally j) (BitVec.ofNat 64 (dW1 j.desc)).toInt) :
    Dev.doTallyAdd j d = ended (e.setTally (jobTally j) after.1) j after.2 after.1.value (tallyFlags after.1) := by
  subst hafter
  simp only [Dev.doTallyAdd, h, ← he, Dev.tallyAdd, Dev.tally_setTally_same, Bool.not_true, Bool.false_eq_true, if_false]
  rfl

theorem Dev.doTallyWait_inside (h : tallyIn (d.partn j.partition) (jobTally j) = true) :
    Dev.doTallyWait j d = (d.putJob { j with waiting := true }).park j := by
  simp only [Dev.doTallyWait, h, Bool.not_true, Bool.false_eq_true, if_false]

theorem Dev.doTallyWait_outside (h : tallyIn (d.partn j.partition) (jobTally j) = false) :
    Dev.doTallyWait j d = (d.finish j .bounds).unpark j.queue := by
  simp only [Dev.doTallyWait, h, Bool.not_false, if_true]

/-- The end of a wait whose queue is PARKED (R134). -/
theorem Dev.endWait_parked {st : Status} {result : U64} (hparked : (d.queue j.queue).state = .parked) :
    d.endWait j st result =
      (ended d j st result (tallyFlags (d.tally (jobTally j)))).modQueue j.queue fun y => { y with state := .active } :=
  Dev.unpark_parked hparked

end Tallies

/-- Settles O12: each clause is its operation's equation on the device as its descriptor finds it. -/
theorem dispatcherDescriptors : Obligations.DispatcherDescriptors := by
  unfold Obligations.DispatcherDescriptors
  refine ⟨?nop, ?add, ?addOutside, ?wait, ?waitOutside, ?satisfied, ?timeout⟩
  case nop =>
    intro s i j hrun
    exact devStep_runJob hrun (e := ended (under s.dev i j) j .ok 0 0) rfl (undisturbed_under s.dev i j)
  case add =>
    rintro s i j t hrun rfl hin
    have hop := Dev.doTallyAdd_inside (d := under s.dev i j) hin rfl rfl
    refine (devStep_runJob hrun hop ?_).trans ?_
    · exact undisturbed_ended (undisturbed_ite (undisturbed_under s.dev i j) (undisturbed_under s.dev i j))
    · cases bit j.desc 148 <;> rfl
  case addOutside =>
    rintro s i j t hrun rfl hout
    exact devStep_runJob hrun (Dev.doTallyAdd_outside (d := under s.dev i j) hout) (undisturbed_ended (undisturbed_under s.dev i j))
  case wait =>
    intro s i j hrun hin
    exact devStep_runJob hrun (Dev.doTallyWait_inside (d := under s.dev i j) hin)
      (undisturbed_modQueue (undisturbed_putJob (undisturbed_under s.dev i j)))
  case waitOutside =>
    intro s i j hrun hout hparked
    have hop := (Dev.doTallyWait_outside (d := under s.dev i j) hout).trans (Dev.unpark_parked hparked)
    exact devStep_runJob hrun hop (undisturbed_modQueue (undisturbed_ended (undisturbed_under s.dev i j)))
  case satisfied =>
    rintro s i j v hrun hwaiting rfl hreached hparked
    refine (devStep_onJob hrun).trans (congrArg (fun d => Host.Outcome.next { s with dev := d }) ?_)
    have hdue : (j.waiting && decide (dW1 j.desc ≤ (s.dev.tally (jobTally j)).value.toNat)) = true := by
      simp only [hwaiting, Bool.true_and, decide_eq_true_eq]
      exact hreached
    exact (if_pos hdue).trans (Dev.endWait_parked hparked)
  case timeout =>
    rintro s i j v hrun hwaiting rfl hlimit hparked
    refine (devStep_onJob hrun).trans (congrArg (fun d => Host.Outcome.next { s with dev := d }) ?_)
    have hdue : (j.waiting && field j.desc 256 32 != 0) = true := by simp [hwaiting, hlimit]
    exact (if_pos hdue).trans (Dev.endWait_parked hparked)

end Sys2Proof.Machine

/-! ## A completion is written (R121, R125, R126) -/

namespace Sys2Proof.Machine

open Sys2Proof Sys2Proof.Safety

section Within

variable {d : Dev} {k r off n m line : Nat}

/-- A merge into a valid line that nothing holds activates its row, and is not mirrored (R151, R317). -/
theorem Dev.merge_valid (x : Line) (en : U64) (hcalm : Calm d (k + 1)) (hvalid : ValidLine d r off m line) (hfree : FreeToWrite d r) :
    d.merge r off x en = (.ok, (d.activate m line).putLine m line (mergeBytes (d.lineData m line) x en)) := by
  obtain ⟨reg, hplaced⟩ := placed_of_validLine hvalid
  have hpaired : ((d.activate m line).putLine m line (mergeBytes (d.lineData m line) x en)).paired r = false := by
    rw [← Dev.writeLine, Dev.paired, (OnlyMemory.writeLine _ hcalm).pair]
    exact hfree.1
  simp only [Dev.merge, hplaced.region, Dev.winTouch_write hplaced hfree, hplaced.place, Dev.mustWait_calm hcalm, hplaced.window,
    Dev.readLine_valid hcalm hvalid, Dev.mirror, hpaired, Bool.false_and, Bool.false_eq_true, if_false, if_true]

/-- Bytes that do not cross a line's end touch one line. -/
theorem linesOf_within (hpos : 0 < n) (hfit : off % 64 + n ≤ 64) : linesOf off n = [off / 64] := by
  have hone : (off + n - 1) / 64 - off / 64 + 1 = 1 := by omega
  have hsome : n ≠ 0 := by omega
  simp only [linesOf, if_neg hsome, hone, List.range_one, List.map_cons, List.map_nil, Nat.add_zero]

/-- A write of part of one valid line is one merge (R151). -/
theorem Dev.writeBytes_within {ctx addr : Nat} {bs : List Byte} (hlen : bs.length = n) (hpos : 0 < n) (hpart : n < 64)
    (hfit : off % 64 + n ≤ 64) (hloc : d.locate ctx addr n .w = .ok (r, off)) (hcalm : Calm d (k + 1))
    (hvalid : ValidLine d r (off / 64 * 64) m line) (hfree : FreeToWrite d r) :
    d.writeBytes ctx addr bs = (.ok, (d.activate m line).putLine m line (mergeBytes (d.lineData m line)
      (BitVec.ofNat 512 (natOfBytes bs * 2 ^ (8 * (off % 64)))) (BitVec.ofNat 64 ((2 ^ n - 1) * 2 ^ (off % 64))))) := by
  have hsome : bs ≠ [] := by
    rintro rfl
    exact hpos.ne hlen
  have hlo : max off (off / 64 * 64) = off := by omega
  have hhi : min (off + n) (off / 64 * 64 + 64) - off = n := by omega
  have hplace : off - off / 64 * 64 = off % 64 := by omega
  have hwhole : bs.take n = bs := hlen ▸ List.take_length
  have hline : 64 * (off / 64) = off / 64 * 64 := Nat.mul_comm _ _
  simp only [Dev.writeBytes, if_neg hsome, hlen, hloc, linesOf_within hpos hfit, Dev.saveBytes, hlo, hhi, hplace, hpart.ne, Nat.sub_self,
    List.drop_zero, hwhole, hline, Dev.merge_valid _ _ hcalm hvalid hfree, if_false, if_true]

end Within

section Completions

variable {s : State} {d e : Dev} {i : Nat} {j : Job} {res : Result} {x : Queue} {r off m line : Nat}

theorem completionBytes_length (tag : Nat) (st : Status) (gen : U8) (residue : U32) (result : U64) (ts : Nat) (mode : U8) (phase : Nat) :
    (completionBytes tag st gen residue result ts mode phase).length = 32 := by
  simp [completionBytes, bytesOf]

/-- A completion whose entry lies in a valid line that nothing holds is one write of 32 bytes (R121, R125). -/
theorem Dev.postCompletion_valid {q tag : Nat} {st : Status} {gen mode : U8} {residue : U32} {result : U64} (hx : d.queue q = x)
    (hloc : d.locate x.context (x.cqBase + 32 * (x.cqTail.toNat % 2 ^ x.cqLog2)) 32 .w = .ok (r, off)) (halign : off % 32 = 0)
    (hvalid : ValidLine d r (off / 64 * 64) m line) (hfree : FreeToWrite d r) (hcalm : Calm d 1) :
    d.postCompletion q tag st gen residue result mode =
      (true, ((d.activate m line).putLine m line (mergeBytes (d.lineData m line)
        (BitVec.ofNat 512 (natOfBytes (completionBytes tag st gen residue result d.now mode (phaseOf x.cqTail.toNat (2 ^ x.cqLog2))) *
          2 ^ (8 * (off % 64)))) (BitVec.ofNat 64 ((2 ^ 32 - 1) * 2 ^ (off % 64))))).modQueue q
        fun y => { y with cqTail := y.cqTail + 1, inFlight := y.inFlight - 1 }) := by
  have hwrite := fun (bs : List Byte) (hlen : bs.length = 32) =>
    Dev.writeBytes_within hlen (by decide) (by decide) (by omega) hloc hcalm hvalid hfree
  simp only [Dev.postCompletion, hx, hwrite _ (completionBytes_length _ _ _ _ _ _ _ _), if_true]

/-- What follows a completion that is written: its tally is signalled, and a NOP renews leases (R131, R242). -/
def Dev.afterCompletion (d : Dev) (j : Job) (res : Result) (tally : Bool) : Dev :=
  let signalled := if dTallyEn j.desc = true ∧ tally = true then d.signalTally (dTally j.desc) j.partition else d
  if dOpcode j.desc = 0x7F ∧ res.status = .ok then signalled.renewByNop (dCtx j.desc) else signalled

/-- The completion of a job without holds, of its queue's present generation, is written and signalled (R125, R131, R242). -/
theorem Dev.complete_written (hjob : d.job i = some j) (hresult : j.result = some res) (hholds : j.holds = []) (hbefore : j.before = none)
    (hmirrors : d.pair.mirrors = []) (hgen : (d.queue j.queue).gen = j.queueGen)
    (hwritten : (d.dropJob i).postCompletion j.queue (dTag j.desc) res.status j.queueGen res.residue res.result j.modeGen = (true, e)) :
    d.complete i = e.afterCompletion j res (tallyIn (d.partn j.partition) (dTally j.desc)) := by
  have hgone : ((d.releaseHolds j).dropJob i).appendDone j = d.dropJob i := by
    simp only [Dev.releaseHolds, hholds, List.foldl_nil, Dev.appendDone, hbefore, Option.isSome_none, Bool.false_eq_true, if_false]
  simp only [Dev.complete, hjob, hresult, hmirrors, List.any_nil, Bool.false_eq_true, if_false, hgone, ne_eq, hgen, not_true_eq_false,
    hwritten, if_true, Bool.and_eq_true, Dev.afterCompletion]

theorem undisturbed_renewByNop {ctx : Nat} (h : Undisturbed d e) : Undisturbed d (e.renewByNop ctx) := by
  have hrenew : ∀ (f : Dev) (l : Nat), Undisturbed d f → Undisturbed d (f.renewLease l) := fun f l hf => by
    unfold Dev.renewLease
    split
    · exact undisturbed_ite hf hf
    · exact hf
  exact List.foldlRecOn _ _ h fun f hf l _ => hrenew f l.1 hf

theorem undisturbed_signalTally {t p : Nat} (h : Undisturbed d e) : Undisturbed d (e.signalTally t p) := by
  obtain ⟨-, -, hagain, hdone, hpair⟩ := e.signalTally_frame t p
  rw [Undisturbed, hagain, hdone, hpair]
  exact h

theorem undisturbed_afterCompletion {tally : Bool} (h : Undisturbed d e) : Undisturbed d (e.afterCompletion j res tally) := by
  have hsignalled := undisturbed_ite (p := dTallyEn j.desc = true ∧ tally = true)
    (undisturbed_signalTally (t := dTally j.desc) (p := j.partition) h) h
  exact undisturbed_ite (undisturbed_renewByNop hsignalled) hsignalled

/-- A row whose operation meets nothing to wait for and mirrors no write. -/
theorem devStep_mirrored {c : WinReq} {op : Dev → Dev} (hop : op (Safety.ready s.dev) = e) (hu : Undisturbed s.dev e) :
    devStep (fun d => d.mirrored c op) s = .next { s with dev := e } := by
  rw [devStep_eq]
  exact congrArg (fun d => Host.Outcome.next { s with dev := d }) (Dev.mirrored_undisturbed (d := { s.dev with out := [] }) hop hu)

end Completions

/-- Settles O9: the completion is one write within a line, followed by its tally and a NOP's renewal of leases. -/
theorem completionWritten : Obligations.CompletionWritten := by
  unfold Obligations.CompletionWritten
  rintro s i j res x r off m line hjob - hresult hholds hbefore hmirrors rfl hgen hloc halign hvalid hfree hcalm
  have hwritten := Dev.postCompletion_valid (d := (Safety.ready s.dev).dropJob i) (q := j.queue) (tag := dTag j.desc) (st := res.status)
    (gen := j.queueGen) (mode := j.modeGen) (residue := res.residue) (result := res.result) rfl hloc halign hvalid hfree hcalm
  have hwrite := fun y => OnlyMemory.writeLine (d := (Safety.ready s.dev).dropJob i) (m := m) (line := line) y hcalm
  refine devStep_mirrored (Dev.complete_written (d := Safety.ready s.dev) hjob hresult hholds hbefore hmirrors hgen hwritten) ?_
  exact undisturbed_afterCompletion (undisturbed_modQueue ((hwrite _).undisturbed ⟨rfl, rfl, rfl⟩))
end Sys2Proof.Machine

/-! ## Chains of COPY and FILL begin (R136 to R138, R68, R72) -/

namespace Sys2Proof.Machine

open Sys2Proof Sys2Proof.Safety

section Several

variable {s : State} {d e : Dev} {i op : Nat} {ops : List Nat} {j : Job} {f : Job → Dev → Dev}

theorem Dev.mirrored_congr {c : WinReq} {g h : Dev → Dev} (hsame : g d.settle = h d.settle) : d.mirrored c g = d.mirrored c h := by
  simp only [Dev.mirrored, Dev.windowed, hsame]

/-- A row of several opcodes runs a descriptor of one of them as a row of that opcode alone does. -/
theorem devStep_runJobs (hrun : Running s.dev i j op) (hmem : ops.contains op = true) :
    devStep (fun d => d.runJob i ops f) s = devStep (fun d => d.runJob i [op] f) s := by
  obtain ⟨hjob, hresult, hopcode⟩ := hrun
  have hsame : ∀ e : Dev, e.job i = some j → e.onJob i ops f = e.onJob i [op] f := fun e he => by
    simp only [Dev.onJob, he, hresult, hopcode, hmem, List.contains_cons, BEq.rfl, Bool.true_or]
  refine congrArg (fun d => Host.Outcome.next { s with dev := d }) (Dev.mirrored_congr ?_)
  exact congrArg Dev.atRest (hsame _ hjob)

end Several

theorem Dev.atRest_putJob (d : Dev) (j : Job) : (d.putJob j).atRest = d.atRest.putJob j := rfl

section Begin

variable {d e : Dev} {j : Job} {c : Chain} {n : Nat}

/-- A burst between local sides: nothing happens before it ends (R138). -/
theorem Dev.beginBurst_local {src : Option Side} {dst : Side} (hsize : d.burstSize (dCtx j.desc) c = n)
    (hsrc : d.srcSide (dCtx j.desc) { c with burst := n } = .ok src) (hdst : d.dstSide (dCtx j.desc) { c with burst := n } = .ok dst)
    (hnear : src.any Side.isRemote = false) (hlocal : dst.isRemote = false) :
    d.beginBurst j c = d.putJob { j with chain := some { c with burst := n, buffer := [], reading := false } } := by
  cases src with
  | none => simp only [Dev.beginBurst, hsize, hsrc, hdst, hlocal, Bool.false_eq_true, if_false]
  | some x =>
    cases x with
    | remote ep window addr => simp [Side.isRemote] at hnear
    | region r off => simp only [Dev.beginBurst, hsize, hsrc, hdst, hlocal, Bool.false_eq_true, if_false]
    | object r i slot line => simp only [Dev.beginBurst, hsize, hsrc, hdst, hlocal, Bool.false_eq_true, if_false]
    | lost => simp only [Dev.beginBurst, hsize, hsrc, hdst, hlocal, Bool.false_eq_true, if_false]

/-- An element into no object needs no turn (R72). -/
theorem Dev.takeTurn_elsewhere (hdst : bit c.elem 481 = false) : d.takeTurn j c = d.beginBurst j { c with turn := true } := by
  simp only [Dev.takeTurn, hdst, Bool.not_false, if_true]

/-- An element into an object on which others go first waits (R72). -/
theorem Dev.takeTurn_waits (hdst : bit c.elem 481 = true) (hturn : d.inTurn { j with chain := some c } = false) :
    d.takeTurn j c = d.putJob { j with chain := some c } := by
  simp only [Dev.takeTurn, hdst, hturn, Bool.not_true, Bool.not_false, Bool.false_eq_true, if_false, if_true]

/-- An element into an object that stands begins once its pages are exclusive (R66, R68, R72). -/
theorem Dev.takeTurn_taken {h k : Nat} {o : Obj} (hh : field c.elem 416 64 = h) (hdst : bit c.elem 481 = true)
    (hturn : d.inTurn { j with chain := some c } = true) (ho : d.obj (hRegion h) (hIndex h) = o) (hlive : o.state = .live)
    (hgen : o.gen.toNat = hObjGen h) (hpages : d.exclusiveAll (hRegion h) (hIndex h) (elemPages c.elem) = ((.ok, k), e)) :
    d.takeTurn j c = e.beginBurst j { c with turn := true } := by
  subst hh
  simp only [Dev.takeTurn, hdst, hturn, ho, hlive, hgen, hpages, Bool.not_true, bne_self_eq_false, Bool.or_self, Bool.false_eq_true,
    if_false]

/-- The chain as the element `x` at address `a` begins (R140). -/
def Chain.entered (c : Chain) (a now : Nat) (x : Line) : Chain :=
  { c with started := true, turn := false, elem := x, elemAddr := a, moved := 0, needFetch := false, reading := false,
           lastBurst := now, buffer := [] }

/-- An element that passes its check, whose holds the descriptor has, takes its turn (R61, R140). -/
theorem Dev.beginElement_checked {a : Nat} {x : Line}
    (hcheck : (if c.started then d.elemCheck (dCtx j.desc) x else d.elemRanges (dCtx j.desc) x) = none)
    (hholds : (descHolds x).all (fun h => j.holds.contains h) = true) :
    d.beginElement j c a x = d.takeTurn j (c.entered a d.now x) := by
  have hheld : (descHolds x).filter (fun h => !j.holds.contains h) = [] := by
    simpa [List.filter_eq_nil_iff, List.all_eq_true] using hholds
  simp only [Dev.beginElement, hcheck, hheld, List.append_nil]
  rfl

/-- The chain of a COPY or FILL as its first element, which is in its ring, begins (R136). -/
def firstChain (d : Dev) (j : Job) : Chain := ({} : Chain).entered j.slotAddr d.now j.desc

/-- The first channel of its mover starts its chain with the ring's element (R136, R138). -/
theorem Dev.startChain_checked (hchain : j.chain = none) (hfirst : d.runsNow j = true)
    (hranges : d.elemRanges (dCtx j.desc) j.desc = none) (hholds : (descHolds j.desc).all (fun h => j.holds.contains h) = true) :
    Dev.startChain j d = d.takeTurn j (firstChain d j) := by
  simp only [Dev.startChain, hfirst, hchain, Bool.not_false, Bool.and_self, if_true]
  exact Dev.beginElement_checked hranges hholds

/-- An element between address ranges takes no hold (R61). -/
theorem descHolds_ranges {x : Line} (hop : dOpcode x = 1 ∧ bit x 480 = false ∨ dOpcode x = 2) (hdst : bit x 481 = false) :
    descHolds x = [] := by
  rcases hop with ⟨hop, hsrc⟩ | hop
  · simp [descHolds, hop, hsrc, hdst]
  · simp [descHolds, hop, hdst]

/-- A FILL has no source (R136). -/
theorem Dev.srcSide_fill (hop : dOpcode c.elem = 2) (ctx : Nat) : d.srcSide ctx c = .ok none := by
  have hno : ¬ dOpcode c.elem = 1 := by omega
  rw [Dev.srcSide, if_neg hno]

theorem Dev.dstSide_object (hdst : bit c.elem 481 = true) (ctx : Nat) :
    ∃ r i k l, d.dstSide ctx c = .ok (.object r i k l) := by
  simp only [Dev.dstSide, Dev.side, hdst, if_true]
  exact ⟨_, _, _, _, rfl⟩

/-- A FILL's burst into an object is not cut by a segment (R138). -/
theorem Dev.burstSize_fillObject (hop : dOpcode c.elem = 2) (hdst : bit c.elem 481 = true) (hmoved : c.moved = 0) (ctx : Nat) :
    d.burstSize ctx c = min 4096 (field c.elem 256 32) := by
  have hno : ¬ dOpcode c.elem = 1 := by omega
  simp only [Dev.burstSize, Dev.toSegEnd, hdst, hmoved, if_neg hno, if_true]
  omega

/-! ### The next element, read from memory (R137) -/

variable {m line r off : Nat}

theorem OnlyRows.elemCheck (h : OnlyRows d e) (ctx : Nat) (x : Line) : e.elemCheck ctx x = d.elemCheck ctx x :=
  congrArg (fun y => y.elemCheck ctx x) h.rest

theorem OnlyRows.burstSize (h : OnlyRows d e) (ctx : Nat) (c : Chain) : e.burstSize ctx c = d.burstSize ctx c :=
  congrArg (fun y => y.burstSize ctx c) h.rest

theorem OnlyRows.dstSide (h : OnlyRows d e) (ctx : Nat) (c : Chain) : e.dstSide ctx c = d.dstSide ctx c :=
  congrArg (fun y => y.dstSide ctx c) h.rest

theorem OnlyRows.now (h : OnlyRows d e) : e.now = d.now := congrArg (fun y => y.now) h.rest

/-- The next element lies in a valid line, which is read (R137). -/
theorem Dev.fetchElement_read (hchain : j.chain = some c) (hfetch : c.needFetch = true) (habort : c.abort = false)
    (hreplies : c.outstanding = []) (hfail : c.fail = none) (hside : d.side (dCtx j.desc) false 0 c.next 64 .r = .ok (.region r off))
    (hcalm : Calm d 1) (hvalid : ValidLine d r off m line) :
    Dev.fetchElement j d = (d.activate m line).gotElement j c (d.lineData m line) := by
  simp only [Dev.fetchElement, hchain, hfetch, habort, hreplies, hfail, hside, Dev.readSide, Nat.mul_zero, Nat.add_zero,
    Dev.load_valid hcalm hvalid, Bool.not_false, BEq.rfl, Option.isNone_none, Bool.and_self, if_true]

/-- An element that is well formed, in a chain that may go on, begins (R136, R137). -/
theorem Dev.gotElement_begins {x : Line} (habort : c.abort = false) (hdone : c.done < 65536) (hop : dOpcode x = 1 ∨ dOpcode x = 2)
    (hversion : field x 8 4 = 1) (hreserved : field x 12 116 = 0) : d.gotElement j c x = d.beginElement j c c.next x := by
  have hheader : elemHeader x = true := by
    rcases hop with hop | hop <;> simp [elemHeader, hop, hversion, hreserved]
  have hroom : ¬ 65536 ≤ c.done := by omega
  simp only [Dev.gotElement, habort, hheader, hroom, Bool.not_true, decide_false, Bool.or_self, Bool.false_eq_true, if_false]

end Begin

/-- Settles O13: an element that passes its check takes its turn, and a burst between local sides only begins. -/
theorem chainsBegin : Obligations.ChainsBegin := by
  unfold Obligations.ChainsBegin
  refine ⟨?copy, ?fill, ?fillObject, ?fillWaits, ?element⟩
  case copy =>
    rintro s i n j c a b hrun hchain hfirst hranges hsrcObj hdstObj rfl hsize hsrc hdst
    have hholds : (descHolds j.desc).all (fun h => j.holds.contains h) = true := by
      rw [descHolds_ranges (.inl ⟨hrun.2.2, hsrcObj⟩) hdstObj]
      rfl
    have hstart := Dev.startChain_checked (d := under s.dev i j) hchain hfirst hranges hholds
    have hturn := Dev.takeTurn_elsewhere (d := under s.dev i j) (c := firstChain s.dev j) (j := j) hdstObj
    have hburst := Dev.beginBurst_local (d := under s.dev i j) (c := { firstChain s.dev j with turn := true }) hsize hsrc hdst rfl rfl
    exact devStep_runJob hrun (hstart.trans (hturn.trans hburst)) (undisturbed_putJob (undisturbed_under s.dev i j))
  case fill =>
    rintro s i n j c b hrun hchain hfirst hranges hdstObj rfl hsize hdst
    have hholds : (descHolds j.desc).all (fun h => j.holds.contains h) = true := by
      rw [descHolds_ranges (.inr hrun.2.2) hdstObj]
      rfl
    have hstart := Dev.startChain_checked (d := under s.dev i j) hchain hfirst hranges hholds
    have hturn := Dev.takeTurn_elsewhere (d := under s.dev i j) (c := firstChain s.dev j) (j := j) hdstObj
    have hburst := Dev.beginBurst_local (d := under s.dev i j) (c := { firstChain s.dev j with turn := true }) hsize
      (Dev.srcSide_fill hrun.2.2 _) hdst rfl rfl
    exact devStep_runJob hrun (hstart.trans (hturn.trans hburst)) (undisturbed_putJob (undisturbed_under s.dev i j))
  case fillObject =>
    rintro s i k j c o e hrun hchain hfirst hranges hdstObj hholds rfl hturn ho hlive hgen hpages hu
    have hstart := Dev.startChain_checked (d := under s.dev i j) hchain hfirst hranges hholds
    have htaken := Dev.takeTurn_taken (d := under s.dev i j) (c := firstChain s.dev j) rfl hdstObj hturn ho hlive hgen hpages
    have hsize := Dev.burstSize_fillObject (d := e) (c := { firstChain s.dev j with turn := true }) hrun.2.2 hdstObj rfl (dCtx j.desc)
    obtain ⟨r, l, t, a, hdst⟩ := Dev.dstSide_object (d := e) (c := { firstChain s.dev j with
      turn := true, burst := min 4096 (field j.desc 256 32) }) hdstObj (dCtx j.desc)
    have hburst := Dev.beginBurst_local (d := e) (j := j) hsize (Dev.srcSide_fill hrun.2.2 _) hdst rfl rfl
    exact devStep_runJob hrun (hstart.trans (htaken.trans hburst)) (undisturbed_putJob hu)
  case fillWaits =>
    rintro s i j c hrun hchain hfirst hranges hdstObj hholds rfl hturn
    have hstart := Dev.startChain_checked (d := under s.dev i j) hchain hfirst hranges hholds
    have hwaits := Dev.takeTurn_waits (d := under s.dev i j) (c := firstChain s.dev j) hdstObj hturn
    exact devStep_runJob hrun (hstart.trans hwaits) (undisturbed_putJob (undisturbed_under s.dev i j))
  case element =>
    rintro s i n j c c' r off m line x b hrun hchain hstarted hfetch habort hreplies hfail hroom hside hvalid hcalm rfl hop hversion
      hreserved hcheck hdstObj rfl hsize hdst
    obtain ⟨hrows, -⟩ := Dev.activate_rows (d := under s.dev i j) m line hcalm
    have hholds : (descHolds (s.dev.lineData m line)).all (fun h => j.holds.contains h) = true := by
      rw [descHolds_ranges (.inr hop) hdstObj]
      rfl
    have hread := Dev.fetchElement_read (d := under s.dev i j) hchain hfetch habort hreplies hfail hside hcalm hvalid
    have hgot := Dev.gotElement_begins (d := (under s.dev i j).activate m line) (j := j) habort hroom (.inr hop) hversion hreserved
    have hbegin := Dev.beginElement_checked (d := (under s.dev i j).activate m line) (c := c) (a := c.next)
      ((if_pos hstarted).trans ((hrows.elemCheck _ _).trans hcheck)) hholds
    have hturn := Dev.takeTurn_elsewhere (d := (under s.dev i j).activate m line) (j := j)
      (c := c.entered c.next ((under s.dev i j).activate m line).now (s.dev.lineData m line)) hdstObj
    rw [hrows.now] at hbegin hturn
    have hburst := Dev.beginBurst_local (d := (under s.dev i j).activate m line)
      (c := { c.entered c.next s.dev.now (s.dev.lineData m line) with turn := true }) ((hrows.burstSize _ _).trans hsize)
      (Dev.srcSide_fill hop _) ((hrows.dstSide _ _).trans hdst) rfl rfl
    have hwhole := hread.trans (hgot.trans (hbegin.trans (hturn.trans hburst)))
    have hrow : exec (.chainElementFetch i) s = devStep (fun d => d.runJob i [1] Dev.fetchElement) s :=
      devStep_runJobs (ops := [1, 2]) hrun rfl
    refine hrow.trans ((devStep_runJob hrun hwhole (undisturbed_putJob (hrows.memory.undisturbed (undisturbed_under s.dev i j)))).trans ?_)
    exact congrArg (fun d => Host.Outcome.next { s with dev := d }) (Dev.atRest_putJob _ _)

end Sys2Proof.Machine

/-! ## Bursts of lines (R138, R140) -/

namespace Sys2Proof.Machine

open Sys2Proof Sys2Proof.Safety

section Lines

variable {d e f : Dev} {k n m line r off : Nat} {reg : Region}

/-- Device `e` is `d` but for its memory units, its arrays and its outputs. -/
def OnlyArrays (d e : Dev) : Prop := e = { d with units := e.units, out := e.out, pool := e.pool }

theorem OnlyArrays.trans (h : OnlyArrays d e) (h' : OnlyArrays e f) : OnlyArrays d f := by
  rw [OnlyArrays] at h h' ⊢
  rw [h', h]

theorem OnlyRows.arrays (h : OnlyRows d e) : OnlyArrays d e := by
  rw [OnlyArrays, h.rest]

theorem OnlyArrays.memory (h : OnlyArrays d e) : OnlyMemory d e := by
  rw [OnlyArrays] at h
  rw [OnlyMemory, h]

theorem OnlyArrays.now (h : OnlyArrays d e) : e.now = d.now := congrArg (fun x => x.now) h

theorem OnlyArrays.job (h : OnlyArrays d e) (i : Nat) : e.job i = d.job i := congrArg (fun x => x.job i) h

/-- No region keeps parity, so that a write marks no range stale (R164, R165). -/
abbrev NoParity (d : Dev) : Prop := d.regions.any (fun x => x.2.durable || x.2.window) = false

theorem OnlyArrays.noParity (h : OnlyArrays d e) (hplain : NoParity d) : NoParity e := by
  rw [h]
  exact hplain

theorem OnlyArrays.freeToWrite (h : OnlyArrays d e) (hfree : FreeToWrite d r) : FreeToWrite e r := by
  rw [h]
  exact hfree

theorem OnlyArrays.lines {u : Nat → Nat × Nat} (h : OnlyArrays d e) (hlines : Lines d r off n u) : Lines e r off n u := by
  rw [h]
  exact hlines

theorem OnlyArrays.withPool (d : Dev) (p : Pool) : OnlyArrays d { d with pool := p } := rfl

theorem OnlyArrays.putLine (hplain : NoParity d) (m line : Nat) (x : Line) : OnlyArrays d (d.putLine m line x) := by
  have hstale : ¬ d.regions.any (fun x => x.2.durable) = true := by
    simp only [List.any_eq_false, Bool.or_eq_true, not_or, List.any_eq_true, not_exists, not_and] at hplain ⊢
    exact fun y hy => (hplain y hy).1
  have hput : d.putLine m line x = { d with pool := (d.parityPool m line).store m line x } := if_neg hstale
  rw [hput]
  exact OnlyArrays.withPool d _

theorem OnlyArrays.writeLine (hcalm : Calm d (k + 1)) (hplain : NoParity d) (m line : Nat) (x : Line) :
    OnlyArrays d (d.writeLine m line x) := by
  have hrows := (d.activate_rows m line hcalm).1.arrays
  exact hrows.trans (OnlyArrays.putLine (hrows.noParity hplain) m line x)

/-- A written line leaves room for one activation fewer (R175). -/
theorem calm_writeLine (hcalm : Calm d (k + 1)) (m line : Nat) (x : Line) : Calm (d.writeLine m line x) k := by
  have hunits : (d.writeLine m line x).units = (d.activate m line).units := by simp only [Dev.writeLine, Dev.putLine_frame]
  have hrows := calm_iff.mp (d.activate_rows m line hcalm).2
  exact calm_iff.mpr (hunits ▸ hrows)

/-- A line of a region that may be written lies outside the coherent window (R36). -/
theorem placed_of_lines {u : Nat → Nat × Nat} (hlines : Lines d r off n u) (hfree : FreeToWrite d r) (hk : k < n) :
    ∃ reg, Placed d reg r (off + 64 * k) (u k).1 (u k).2 := by
  obtain ⟨reg, hreg, hplace⟩ := Option.bind_eq_some_iff.mp (hlines k hk)
  obtain ⟨-, hstays, -⟩ := hfree
  have hwindow : reg.window = false := by
    simp only [hreg, Option.any_some, Bool.and_eq_true, Bool.not_eq_true'] at hstays
    exact hstays.1
  exact ⟨reg, hreg, hwindow, hplace⟩

/-! ### A burst written (R138, R150) -/

/-- The lines of a burst that are all at hand are written in order; nothing but memory changes. -/
theorem Dev.writeBurst_good {u : Nat → Nat × Nat} {x : Nat → Line} {buf : List (Nat × Line)} {ks : List Nat}
    (hbuf : ∀ k ∈ ks, (buf.find? fun y => y.1 == k) = some (k, x k)) (hks : ∀ k ∈ ks, k < n) (hlines : Lines d r off n u)
    (hfree : FreeToWrite d r) (hplain : NoParity d) (hcalm : Calm d ks.length) :
    d.writeBurst (.region r off) buf ks = ((.ok, ks.length), ks.foldl (fun e k => e.writeLine (u k).1 (u k).2 (x k)) d) ∧
      OnlyArrays d (ks.foldl (fun e k => e.writeLine (u k).1 (u k).2 (x k)) d) := by
  induction ks generalizing d with
  | nil => exact ⟨rfl, rfl⟩
  | cons k ks ih =>
    obtain ⟨reg, hplaced⟩ := placed_of_lines hlines hfree (hks k (by simp))
    have hwrite := OnlyArrays.writeLine hcalm hplain (u k).1 (u k).2 (x k)
    obtain ⟨hrest, harrays⟩ := ih (fun a ha => hbuf a (by simp [ha])) (fun a ha => hks a (by simp [ha])) (hwrite.lines hlines)
      (hwrite.freeToWrite hfree) (hwrite.noParity hplain) (calm_writeLine hcalm _ _ _)
    refine ⟨?_, hwrite.trans harrays⟩
    simp only [Dev.writeBurst, Dev.writeSide, hbuf k (by simp), Option.map_some, Dev.save_free _ hcalm hplaced hfree, hrest,
      List.length_cons, List.foldl_cons, if_true]

/-! ### A burst read (R138, R148) -/

/-- Source lines that are all valid are read in order; nothing but the record of activations changes. -/
theorem Dev.readBurst_valid {v : Nat → Nat × Nat} {ks : List Nat}
    (hvalid : ∀ k ∈ ks, ValidLine d r (off + 64 * k) (v k).1 (v k).2) (hcalm : Calm d (ks.length + n)) :
    d.readBurst (.region r off) ks =
        ((none, ks.map fun k => (k, d.lineData (v k).1 (v k).2), false), ks.foldl (fun e k => e.activate (v k).1 (v k).2) d) ∧
      OnlyRows d (ks.foldl (fun e k => e.activate (v k).1 (v k).2) d) ∧ Calm (ks.foldl (fun e k => e.activate (v k).1 (v k).2) d) n := by
  induction ks generalizing d with
  | nil => exact ⟨rfl, OnlyRows.refl d, by simpa using hcalm⟩
  | cons k ks ih =>
    have hroom : Calm d (ks.length + n + 1) := by
      rw [List.length_cons, Nat.add_right_comm] at hcalm
      exact hcalm
    obtain ⟨hrows, hcalm'⟩ := d.activate_rows (v k).1 (v k).2 hroom
    obtain ⟨hread, hrest, hleft⟩ := ih (fun a ha => hrows.validLine (hvalid a (by simp [ha]))) hcalm'
    refine ⟨?_, hrows.trans hrest, hleft⟩
    simp only [Dev.readBurst, Dev.readSide, Dev.load_valid hroom (hvalid k (by simp)), hread, hrows.lineData, true_or, if_true,
      List.map_cons, List.foldl_cons, Bool.false_or]
    rfl

end Lines
section Bursts

variable {d e : Dev} {j : Job} {c : Chain} {n r off r' off' : Nat} {u v : Nat → Nat × Nat} {buf : List (Nat × Line)}

/-- The line that a burst holds for a number that is at hand. -/
theorem find?_numbered (f : Nat → Line) {ks : List Nat} {k : Nat} (hk : k ∈ ks) :
    (ks.map fun a => (a, f a)).find? (fun y => y.1 == k) = some (k, f k) := by
  induction ks with
  | nil => cases hk
  | cons a ks ih =>
    by_cases hak : a = k
    · simp [hak]
    · simp [hak, ih ((List.mem_cons.mp hk).resolve_left (Ne.symm hak))]

/-- The chain once `n` good lines of its present burst are moved (R138). -/
def Chain.movedOn (c : Chain) (n now : Nat) : Chain :=
  { c with moved := c.moved + 64 * n, lastBurst := now, buffer := [], firstBad := field c.elem 192 64 + c.moved }

/-- A burst without a bad line counts none (Table 6.12). -/
theorem countBad_good (hgood : c.badLines = 0) (hbuf : ∀ k < n, buf.any (fun y => y.1 == k) = true) :
    countBad c buf n = { c with moved := c.moved + 64 * n, firstBad := field c.elem 192 64 + c.moved } := by
  have hnone : (List.range n).filter (fun k => !buf.any fun y => y.1 == k) = [] := by
    simpa [List.filter_eq_nil_iff] using hbuf
  simp only [countBad, hnone, hgood, if_true, List.headD_nil, List.length_nil, Nat.mul_zero, Nat.add_zero, dW1]

/-- The last burst of the last element ends the chain OK with the number of elements done (Table 6.12). -/
theorem Dev.afterBurst_last (hsize : c.burst = 64 * n) (hgood : c.badLines = 0) (hbuf : ∀ k < n, buf.any (fun y => y.1 == k) = true)
    (hall : c.moved + 64 * n = field c.elem 256 32) (hlast : field c.elem 288 64 = 0) :
    d.afterBurst j c buf =
      ended d { j with chain := some { c.movedOn n d.now with done := c.done + 1 } } .ok (BitVec.ofNat 64 (c.done + 1)) 0 := by
  have hlines : c.burst / 64 = n := by omega
  simp only [Dev.afterBurst, hlines, countBad_good hgood hbuf, hall, hlast, hgood, if_true, Chain.movedOn]
  rfl

/-- A burst within an element of a channel under abort ends, and no other begins (R141). -/
theorem Dev.afterBurst_abort (hsize : c.burst = 64 * n) (hgood : c.badLines = 0) (hbuf : ∀ k < n, buf.any (fun y => y.1 == k) = true)
    (hmore : c.moved + 64 * n ≠ field c.elem 256 32) (habort : c.abort = true) :
    d.afterBurst j c buf = d.putJob { j with chain := some (c.movedOn n d.now) } := by
  have hlines : c.burst / 64 = n := by omega
  simp only [Dev.afterBurst, hlines, countBad_good hgood hbuf, if_neg hmore, habort, if_true, Chain.movedOn]

/-- The burst of a FILL stores its pattern in each of its lines (R138). -/
theorem Dev.endBurst_fill (hop : dOpcode c.elem = 2) (hsize : c.burst = 64 * n)
    (hdst : d.dstSide (dCtx j.desc) c = .ok (.region r off)) (hlines : Lines d r off n u) (hfree : FreeToWrite d r) (hplain : NoParity d)
    (hcalm : Calm d n) :
    d.endBurst j c = (written d n u fun _ => fillLine c.elem).afterBurst j c (fillBuffer c.elem n) ∧
      OnlyArrays d (written d n u fun _ => fillLine c.elem) := by
  have hn : c.burst / 64 = n := by omega
  obtain ⟨hwrite, harrays⟩ := Dev.writeBurst_good (x := fun _ => fillLine c.elem) (buf := fillBuffer c.elem n) (ks := List.range n)
    (fun k hk => find?_numbered _ hk) (fun k hk => List.mem_range.mp hk) hlines hfree hplain (by simpa using hcalm)
  refine ⟨?_, harrays⟩
  simp only [Dev.endBurst, Dev.srcSide_fill hop, hdst, hn, Side.isRemote, hwrite, Bool.or_false, Bool.false_eq_true, if_false, if_true]
  rfl

/-- The burst of a COPY between regions stores the source's lines, which are read before any is written (R138). -/
theorem Dev.endBurst_copy (hsize : c.burst = 64 * n) (hsrc : d.srcSide (dCtx j.desc) c = .ok (some (.region r' off')))
    (hdst : d.dstSide (dCtx j.desc) c = .ok (.region r off)) (hlines : Lines d r off n u) (hfree : FreeToWrite d r)
    (hplain : NoParity d) (hcalm : Calm d (2 * n)) (hvalid : ∀ k, k < n → ValidLine d r' (off' + 64 * k) (v k).1 (v k).2) :
    d.endBurst j c = (written (activated d n v) n u fun k => d.lineData (v k).1 (v k).2).afterBurst j c
        ((List.range n).map fun k => (k, d.lineData (v k).1 (v k).2)) ∧
      OnlyArrays d (written (activated d n v) n u fun k => d.lineData (v k).1 (v k).2) := by
  have hn : c.burst / 64 = n := by omega
  obtain ⟨hread, hrows, hleft⟩ := Dev.readBurst_valid (n := n) (ks := List.range n) (fun k hk => hvalid k (List.mem_range.mp hk))
    (by simpa [Nat.two_mul] using hcalm)
  obtain ⟨hwrite, harrays⟩ := Dev.writeBurst_good (x := fun k => d.lineData (v k).1 (v k).2) (ks := List.range n)
    (fun k hk => find?_numbered _ hk) (fun k hk => List.mem_range.mp hk) (hrows.arrays.lines hlines) (hrows.arrays.freeToWrite hfree)
    (hrows.arrays.noParity hplain) (by simpa using hleft)
  refine ⟨?_, hrows.arrays.trans harrays⟩
  simp only [Dev.endBurst, hsrc, hdst, hn, Side.isRemote, hread, hwrite, Bool.or_false, Bool.false_eq_true, if_false, if_true]
  rfl

/-- A burst of a channel whose turn it is, with nothing outstanding and no abort, ends (R138). -/
theorem Dev.burstDone_ends (hchain : j.chain = some c) (hstarted : c.started = true) (hturn : c.turn = true) (hfetch : c.needFetch = false)
    (hreplies : c.outstanding = []) (hreading : c.reading = false) (habort : c.abort = false) : Dev.burstDone j d = d.endBurst j c := by
  simp only [Dev.burstDone, hchain, hstarted, hturn, hfetch, hreplies, hreading, habort, Bool.not_false, BEq.rfl, Bool.and_self, if_true]

/-! ### Aborts (R141) -/

theorem Dev.job_putJob {i : Nat} {j j' : Job} (hjob : d.job i = some j) (hid : j'.id = i) : (d.putJob j').job i = some j' := by
  have hsame : (fun x : Job => x.id == i) ∘ (fun x => if x.id == j'.id then j' else x) = fun x => x.id == i := by
    funext x
    by_cases hx : x.id = i <;> simp [hid, hx]
  have hplace : d.jobs.find? (fun x => x.id == i) = some j := hjob
  have hfound : (j.id == j'.id) = true := by
    rw [hid]
    exact List.find?_some (p := fun x : Job => x.id == i) hplace
  rw [Dev.job, Dev.putJob, List.find?_map, hsame, hplace, Option.map_some, if_pos hfound]

/-- A chain that has started ends PARTIAL with what of its element is not moved, and the abort is reported (R141, Table 6.12). -/
theorem Dev.abortJob_started (hop : dOpcode j.desc = 1 ∨ dOpcode j.desc = 2) (hchain : j.chain = some c) (hstarted : c.started = true) :
    d.abortJob j .part = (ended d j .part (BitVec.ofNat 64 c.elemAddr)
      (BitVec.ofNat 32 (field c.elem 256 32 - c.moved))).moverAborted j .part := by
  have hmover : ¬ dOpcode j.desc = 0x30 := by omega
  have hsame : { j with chain := some c } = j := by rw [← hchain]
  simp only [Dev.abortJob, if_neg hmover, hchain, hstarted, if_true, Dev.stopChain, Dev.endChain, hsame]
  rfl

/-- A channel under abort between bursts ends its chain at once (R141). -/
theorem Dev.doAbort_between {i : Nat} (hjob : d.job i = some j) (hid : j.id = i) (hresult : j.result = none) (hchain : j.chain = some c)
    (habort : c.abort = true) (hreplies : c.outstanding = []) (hbetween : c.turn = false ∨ c.needFetch = true) :
    Dev.doAbort j d = d.abortJob j .part := by
  subst hid
  rcases hbetween with hturn | hfetch
  · simp only [Dev.doAbort, hchain, habort, hreplies, hturn, hjob, hresult, BEq.rfl, Bool.and_self, Bool.and_false, Bool.false_and,
      Bool.false_eq_true, if_false, if_true]
  · simp only [Dev.doAbort, hchain, habort, hreplies, hfetch, hjob, hresult, BEq.rfl, Bool.not_true, Bool.and_self, Bool.and_false,
      Bool.false_and, Bool.false_eq_true, if_false, if_true]

/-- A channel under abort within a burst ends the burst, then its chain (R141). -/
theorem Dev.doAbort_within {i : Nat} {j' : Job} (hchain : j.chain = some c) (habort : c.abort = true) (hreplies : c.outstanding = [])
    (hstarted : c.started = true) (hturn : c.turn = true) (hfetch : c.needFetch = false) (hreading : c.reading = false)
    (hop : dOpcode j.desc ≠ 0x30) (hend : d.endBurst j c = e) (hid : j.id = i) (hjob : e.job i = some j') (hresult : j'.result = none) :
    Dev.doAbort j d = e.abortJob j' .part := by
  subst hid
  have hmover : (dOpcode j.desc != 0x30) = true := bne_iff_ne.mpr hop
  simp only [Dev.doAbort, hchain, habort, hreplies, hstarted, hturn, hfetch, hreading, hmover, hend, hjob, hresult, BEq.rfl,
    Bool.not_false, Bool.and_self, if_true]

end Bursts

/-- A burst's lines by number are all at hand. -/
theorem any_numbered (f : Nat → Line) (n : Nat) : ∀ k < n, (((List.range n).map fun a => (a, f a)).any fun y => y.1 == k) = true :=
  fun k hk => List.any_eq_true.mpr ⟨(k, f k), List.mem_map.mpr ⟨k, List.mem_range.mpr hk, rfl⟩, BEq.rfl⟩

/-- The report of an abort leaves nothing to wait for (R141). -/
theorem undisturbed_moverAborted {d e : Dev} {j : Job} {st : Status} (h : Undisturbed d e) : Undisturbed d (e.moverAborted j st) := by
  simp only [Undisturbed, Dev.moverAborted, Dev.raise_frame]
  exact h

/-- Settles O14: a burst moves its lines alone, and then its chain ends, by its last element or by an abort. -/
theorem burstsAndAborts : Obligations.BurstsAndAborts := by
  unfold Obligations.BurstsAndAborts
  refine ⟨?fill, ?copy, ?between, ?within⟩
  case fill =>
    intro s i n r off j c u hrun hchain hstarted hturn hfetch hreplies hreading habort hop hsize hall hlast hgood hdst hfree hcalm
      hlines hplain
    obtain ⟨hend, harrays⟩ := Dev.endBurst_fill (d := under s.dev i j) hop hsize hdst hlines hfree hplain hcalm
    have hlastBurst := Dev.afterBurst_last (d := written (under s.dev i j) n u fun _ => fillLine c.elem) (j := j)
      (buf := fillBuffer c.elem n) hsize hgood (any_numbered (fun _ => fillLine c.elem) n) hall hlast
    rw [harrays.now] at hlastBurst
    have hwhole := (Dev.burstDone_ends hchain hstarted hturn hfetch hreplies hreading habort).trans (hend.trans hlastBurst)
    have hrow : exec (.moverBurstDone i) s = devStep (fun d => d.runJob i [2] Dev.burstDone) s := devStep_runJobs (ops := [1, 2]) hrun rfl
    exact hrow.trans (devStep_runJob hrun hwhole (undisturbed_ended (harrays.memory.undisturbed (undisturbed_under s.dev i j))))
  case copy =>
    intro s i n r off r' off' j c u v hrun hchain hstarted hturn hfetch hreplies hreading habort hop hsize hall hlast hgood hsrc hdst
      hfree hcalm hlines hplain hvalid
    obtain ⟨hend, harrays⟩ := Dev.endBurst_copy (d := under s.dev i j) hsize hsrc hdst hlines hfree hplain hcalm hvalid
    have hlastBurst := Dev.afterBurst_last (d := written (activated (under s.dev i j) n v) n u fun k =>
      (under s.dev i j).lineData (v k).1 (v k).2) (j := j) hsize hgood
      (any_numbered (fun k => (under s.dev i j).lineData (v k).1 (v k).2) n) hall hlast
    rw [harrays.now] at hlastBurst
    have hwhole := (Dev.burstDone_ends hchain hstarted hturn hfetch hreplies hreading habort).trans (hend.trans hlastBurst)
    have hrow : exec (.moverBurstDone i) s = devStep (fun d => d.runJob i [1] Dev.burstDone) s := devStep_runJobs (ops := [1, 2]) hrun rfl
    exact hrow.trans (devStep_runJob hrun hwhole (undisturbed_ended (harrays.memory.undisturbed (undisturbed_under s.dev i j))))
  case between =>
    intro s i j c hjob hid hresult hop hchain habort hreplies hstarted hbetween
    have hrun : Running s.dev i j (dOpcode j.desc) := ⟨hjob, hresult, rfl⟩
    have hmem : moverOps.contains (dOpcode j.desc) = true := by rcases hop with hop | hop <;> rw [hop] <;> rfl
    have hwhole := (Dev.doAbort_between (d := under s.dev i j) hjob hid hresult hchain habort hreplies hbetween).trans
      (Dev.abortJob_started hop hchain hstarted)
    exact (devStep_runJobs hrun hmem).trans
      (devStep_runJob hrun hwhole (undisturbed_moverAborted (undisturbed_ended (undisturbed_under s.dev i j))))
  case within =>
    intro s i n r off j c u hrun hid hchain habort hreplies hstarted hturn hfetch hreading hop hsize hmore hgood hdst hfree hcalm
      hlines hplain
    obtain ⟨hend, harrays⟩ := Dev.endBurst_fill (d := under s.dev i j) hop hsize hdst hlines hfree hplain hcalm
    have hburst := Dev.afterBurst_abort (d := written (under s.dev i j) n u fun _ => fillLine c.elem) (j := j)
      (buf := fillBuffer c.elem n) hsize hgood (any_numbered (fun _ => fillLine c.elem) n) hmore habort
    rw [harrays.now] at hburst
    have hjob := Dev.job_putJob (j' := { j with chain := some (c.movedOn n s.dev.now) }) ((harrays.job i).trans hrun.1) hid
    have hmover : dOpcode j.desc ≠ 0x30 := by rw [hrun.2.2]; decide
    have hwhole := (Dev.doAbort_within hchain habort hreplies hstarted hturn hfetch hreading hmover (hend.trans hburst) hid hjob
      hrun.2.1).trans (Dev.abortJob_started (.inr hrun.2.2) rfl hstarted)
    have hrow : exec (.moverAbort i) s = devStep (fun d => d.runJob i [2] Dev.doAbort) s := devStep_runJobs (ops := moverOps) hrun rfl
    exact hrow.trans (devStep_runJob hrun hwhole
      (undisturbed_moverAborted (undisturbed_ended (harrays.memory.undisturbed (undisturbed_under s.dev i j)))))

end Sys2Proof.Machine

/-! ## Queue and tally commands (R113, R127, R131, R141, R412) -/

namespace Sys2Proof.Machine

open Sys2Proof Sys2Proof.Safety

/-- Of two writes of one entry the later stands. -/
theorem tset_tset {α : Type} (t : Tab α) (k : Nat) (v w : α) : tset (tset t k v) k w = tset t k w := by
  induction t with
  | nil => simp [tset]
  | cons x r ih =>
    obtain ⟨j, y⟩ := x
    by_cases hsame : j = k
    · simp [tset, hsame]
    · by_cases hbelow : k < j
      · simp [tset, hsame, hbelow]
      · simp [tset, hsame, hbelow, ih]

section Queues

variable {d : Dev} {q p : Nat}

/-- A change of a queue pair rests on its present record alone. -/
theorem Dev.modQueue_congr {f g : Queue → Queue} (h : f (d.queue q) = g (d.queue q)) : d.modQueue q f = d.modQueue q g := by
  rw [Dev.queue] at h
  rw [Dev.modQueue, Dev.modQueue, tmod, tmod, h]

/-- Two changes of a queue pair are one. -/
theorem Dev.modQueue_modQueue (f g : Queue → Queue) : (d.modQueue q f).modQueue q g = d.modQueue q fun y => g (f y) := by
  simp only [Dev.modQueue, tmod, tgetD, tget_tset_same, Option.getD_some, tset_tset]

theorem Dev.reach_past {t : Nat} (h : t ≤ d.now) : d.reach t = d := by
  rw [Dev.reach, Nat.max_eq_left h]

/-- A queue without waits has none to end. -/
theorem Dev.dropWaits_none (h : d.jobs.any (fun j => j.waiting && j.queue == q) = false) : d.dropWaits (fun x => x == q) = d := by
  have hnone : d.jobs.filter (fun j => j.waiting && j.queue == q) = [] := by
    simpa [List.filter_eq_nil_iff] using h
  rw [Dev.dropWaits, hnone, List.foldl_nil]

/-- A reset of a queue pair that exists, at once where the tag rate allows and with no wait to end (R127, R339). -/
theorem Dev.resetQueue_atOnce (hexists : (d.queue q).exists_ = true) (htag : d.tagAt (.queue q) ≤ d.now)
    (hwaits : d.jobs.any (fun j => j.waiting && j.queue == q) = false) :
    d.resetQueue q = ((d.abortMovers (fun j => j.queue == q)).incTag (.queue q)).modQueue q fun y =>
      { y with state := .active, sqTail := 0, sqHead := 0, cqTail := 0, cqHead := 0, inFlight := 0, fetched := [] } := by
  have hstays : (((d.abortMovers (fun j => j.queue == q)).incTag (.queue q)).queue q).exists_ = true := by
    rw [Dev.incTag, Dev.queue_modQueue_same]
    exact hexists
  simp only [Dev.resetQueue, Dev.reach_past htag, Dev.dropWaits_none hwaits]
  exact Dev.modQueue_congr (by rw [Queue.fresh, if_pos hstays])

/-- A reset moves the queue's tag on by one (R127). -/
theorem Dev.queue_incTag_gen (d : Dev) (q : Nat) (sel : Job → Bool) :
    (((d.abortMovers sel).incTag (.queue q)).queue q).gen = (d.queue q).gen + 1 := by
  rw [Dev.incTag, Dev.queue_modQueue_same]
  rfl

/-- A command on a queue pair that exists answers its tag (R115). -/
theorem Dev.onQueue_exists {e : Dev} (hexists : (d.queue q).exists_ = true) :
    d.onQueue q e = (.ok, [((e.queue q).gen).setWidth 64], e) := if_pos hexists

/-- QUEUE_RESET at once: the counts are zero, the queue is ACTIVE, and its tag has moved on by one (R127). -/
theorem Dev.onQueue_reset (hexists : (d.queue q).exists_ = true) (htag : d.tagAt (.queue q) ≤ d.now)
    (hwaits : d.jobs.any (fun j => j.waiting && j.queue == q) = false) :
    d.onQueue q (d.resetQueue q) = (.ok, [((d.queue q).gen + 1).setWidth 64],
      ((d.abortMovers (fun j => j.queue == q)).incTag (.queue q)).modQueue q fun y =>
        { y with state := .active, sqTail := 0, sqHead := 0, cqTail := 0, cqHead := 0, inFlight := 0, fetched := [] }) := by
  simp only [Dev.resetQueue_atOnce hexists htag hwaits, Dev.onQueue_exists hexists, Dev.queue_modQueue_same, Dev.queue_incTag_gen]

/-- QUEUE_DESTROY at once: of the queue pair its tag alone is left, moved on by one (R113, R127). -/
theorem Dev.onQueue_destroy (hexists : (d.queue q).exists_ = true) (htag : d.tagAt (.queue q) ≤ d.now)
    (hwaits : d.jobs.any (fun j => j.waiting && j.queue == q) = false) :
    d.onQueue q ((d.resetQueue q).modQueue q fun y => { gen := y.gen }) = (.ok, [((d.queue q).gen + 1).setWidth 64],
      ((d.abortMovers (fun j => j.queue == q)).incTag (.queue q)).modQueue q fun y => { gen := y.gen }) := by
  simp only [Dev.resetQueue_atOnce hexists htag hwaits, Dev.modQueue_modQueue, Dev.onQueue_exists hexists, Dev.queue_modQueue_same,
    Dev.queue_incTag_gen]

/-- A queue pair that is well formed, free and has its rings within its context is created (R113). -/
theorem Dev.queueCreate_free {x : QueueIn} (howner : queueOwner x.queue d = some p) (hformat : queueFormat x = false)
    (hfree : (d.queue x.queue).exists_ = false) (hctx : d.ctxOf p x.context = none)
    (hsq : d.ringCheck x.context x.sqBase (64 * 2 ^ x.sqLog2) .r = none)
    (hcq : d.ringCheck x.context x.cqBase (32 * 2 ^ x.cqLog2) .w = none) :
    d.queueCreate x = (.ok, [], d.modQueue x.queue fun y =>
      { gen := y.gen, exists_ := true, partition := p, anyContext := x.anyContext, context := x.context, sqLog2 := x.sqLog2
        cqLog2 := x.cqLog2, group := x.group, prioCap := x.prioCap, state := .active, weight := x.weight
        sqBase := x.sqBase, cqBase := x.cqBase }) := by
  simp only [Dev.queueCreate, hformat, howner, hfree, hctx, hsq, hcq, firstFail, Bool.false_eq_true, if_false]
  rfl

end Queues

section Tallies

variable {d : Dev} {a b k p t : Nat}

/-- Where no TALLY_WAIT waits, none is ended (R412). -/
theorem Dev.abandonWaits_none (ts : List Nat) (h : d.jobs.any (fun j => j.waiting && dOpcode j.desc == 0x41) = false) :
    d.abandonWaits ts = d := by
  have hnone : d.jobs.filter (fun j => j.waiting && dOpcode j.desc == 0x41 && ts.contains (jobTally j)) = [] := by
    rw [List.any_eq_false] at h
    exact List.filter_eq_nil_iff.mpr fun j hj hwait => h j hj (Bool.and_eq_true_iff.mp hwait).1
  rw [Dev.abandonWaits, hnone, List.foldl_nil]

/-- Two counters of one partition whose values meet the bound are paired (R412). -/
theorem Dev.tallyPair_fit (ha : tallyOwner a d = some p) (hb : tallyOwner b d = some p) (hab : a ≠ b) (hfreeA : pairOf d.pairs a = none)
    (hfreeB : pairOf d.pairs b = none) (hk : 0 < k) (hkMax : k ≤ 4294967296)
    (hlow : (d.tally b).value.toNat ≤ (d.tally a).value.toNat) (hhigh : (d.tally a).value.toNat ≤ (d.tally b).value.toNat + k)
    (hwaits : d.jobs.any (fun j => j.waiting && dOpcode j.desc == 0x41) = false) :
    d.tallyPair a b k = (.ok, [], { d with pairs := d.pairs ++ [{ producer := a, consumer := b, k := k }] }) := by
  have howned : ¬ (tallyOwner a d = none ∨ tallyOwner b d ≠ tallyOwner a d) := by simp [ha, hb]
  have hfits : ¬ (a = b ∨ (pairOf d.pairs a).isSome ∨ (pairOf d.pairs b).isSome ∨ k = 0 ∨ 4294967296 < k ∨
      pairHolds (d.tally a).value.toNat (d.tally b).value.toNat k = false) := by
    simp only [hfreeA, hfreeB, pairHolds, decide_eq_true hlow, decide_eq_true hhigh, Option.isSome_none, Bool.and_self,
      Bool.true_eq_false, Bool.false_eq_true, false_or, or_false]
    omega
  rw [Dev.tallyPair, if_neg howned, if_neg hfits]
  exact congrArg (fun e : Dev => e.done) (Dev.abandonWaits_none _ hwaits)

/-- A pair is dissolved; values and flags stay (R412). -/
theorem Dev.tallyUnpair_paired {x : TallyPair} (ht : tallyOwner t d = some p) (hpair : pairOf d.pairs t = some x)
    (hwaits : d.jobs.any (fun j => j.waiting && dOpcode j.desc == 0x41) = false) :
    d.tallyUnpair t = (.ok, [], { d with pairs := d.pairs.filter fun y => y != x }) := by
  simp only [Dev.tallyUnpair, ht, hpair, reduceCtorEq, if_false]
  exact congrArg (fun e : Dev => e.done) (Dev.abandonWaits_none _ hwaits)

/-- A value that keeps the bound of the counter's pair is set, with the flags clear (R131). -/
theorem Dev.tallySet_fit {v : U64} (ht : tallyOwner t d = some p) (hfits : d.tallyFits t v.toNat = true)
    (hwaits : d.jobs.any (fun j => j.waiting && dOpcode j.desc == 0x41) = false) :
    d.tallySet t v = (.ok, [], d.setTally t { value := v }) := by
  simp only [Dev.tallySet, ht, hfits, reduceCtorEq, if_false, if_true]
  exact congrArg (fun e : Dev => e.done) (Dev.abandonWaits_none _ hwaits)

end Tallies

/-- Settles O47: each clause is the command's own equation on the device without its earlier outputs, which a command that is accepted
runs and answers. -/
theorem queueAndTallyCommands : Obligations.QueueAndTallyCommands := by
  unfold Obligations.QueueAndTallyCommands
  refine ⟨?create, ?reset, ?abort, ?destroy, ?pair, ?unpair, ?set⟩
  case create =>
    intro s h x p howner ha hformat hfree hctx hsq hcq
    exact huanikStep_of_accepts ha howner (Dev.queueCreate_free (d := { s.dev with out := [] }) howner hformat hfree hctx hsq hcq)
  case reset =>
    intro s h q p howner ha hexists htag hwaits
    exact huanikStep_of_accepts ha howner (Dev.onQueue_reset (d := { s.dev with out := [] }) hexists htag hwaits)
  case abort =>
    intro s h q p howner ha hexists
    exact huanikStep_of_accepts ha howner (Dev.onQueue_exists hexists)
  case destroy =>
    intro s h q p howner ha hexists htag hwaits
    exact huanikStep_of_accepts ha howner (Dev.onQueue_destroy (d := { s.dev with out := [] }) hexists htag hwaits)
  case pair =>
    intro s h a b k p hownerA hownerB ha hab hfreeA hfreeB hk hkMax hlow hhigh hwaits
    exact huanikStep_of_accepts ha hownerA
      (Dev.tallyPair_fit (d := { s.dev with out := [] }) hownerA hownerB hab hfreeA hfreeB hk hkMax hlow hhigh hwaits)
  case unpair =>
    intro s h t p x howner ha hpair hwaits
    exact huanikStep_of_accepts ha howner (Dev.tallyUnpair_paired (d := { s.dev with out := [] }) howner hpair hwaits)
  case set =>
    intro s h t p v howner ha hfits hwaits
    exact huanikStep_of_accepts ha howner (Dev.tallySet_fit (d := { s.dev with out := [] }) howner hfits hwaits)

end Sys2Proof.Machine

/-! ## Partition commands (R259, R260, R263, R266, R299, R300) -/

namespace Sys2Proof.Machine

open Sys2Proof Sys2Proof.Safety

/-- What every step of a fold keeps, the fold keeps. -/
theorem foldl_keeps {α β γ : Type} (g : α → γ) {f : α → β → α} (hf : ∀ a x, g (f a x) = g a) (l : List β) (a : α) :
    g (l.foldl f a) = g a := by
  induction l generalizing a with
  | nil => rfl
  | cons x l ih => exact (ih (f a x)).trans (hf a x)

section Creation

variable {d : Dev} {p : Nat} {r : PartIn}

/-- The units that partition `p` takes leave partition 0 where they were its metadata subchannels, and begin their Transit passes, before
its key is drawn (R30, R158, R268). -/
def Dev.withPasses (d : Dev) (units : List Nat) : Dev := units.foldl (fun e m => (e.dropMeta m).beginPass m) d

/-- The units that a record names are to be cleared for partition `p` under its fresh key (R260, R268). -/
def Dev.claimed (d : Dev) (p : Nat) (units : List Nat) : Dev := units.foldl (fun e m => e.claimUnit p m) (d.newKey p [])

/-- The partition's record as PART_CREATE names it (Table 11.1). -/
def Dev.recorded (d : Dev) (p : Nat) (r : PartIn) : Dev :=
  d.setPart p fun x =>
    { x with
      number := p, state := .active, diag := r.diag, clearing := true, subchannels := r.subchannels
      pseudoChannels := r.pseudoChannels, engines := r.engines, movers := r.movers, queueBase := r.queueBase
      queueCount := r.queueCount, tallyBase := r.tallyBase, tallyCount := r.tallyCount, dirWays := r.dirWays
      spareSlots := r.spareSlots, rekeyed := false }

/-- The dispatch groups of partition `p` are gone (R128). -/
def Dev.ungrouped (d : Dev) (p : Nat) : Dev :=
  (List.range 16).foldl (fun e g => { e with groups := terase e.groups (groupKey p g) }) d

/-- A partition other than partition 0 with its units claimed, its record named and its groups gone (R259, R260). -/
def Dev.created (d : Dev) (p : Nat) (r : PartIn) : Dev :=
  let units := unitsIn r.subchannels r.pseudoChannels
  (((d.withPasses units).claimed p units).recorded p r).ungrouped p

@[simp] theorem Dev.partn_setPart_same (d : Dev) (p : Nat) (f : Partition → Partition) : (d.setPart p f).partn p = f (d.partn p) := by
  simp only [Dev.setPart, Dev.partn, Dev.measure_frame]
  exact Dev.partn_modPart_same d p f

theorem Dev.partn_setPart_other (d : Dev) {p k : Nat} (f : Partition → Partition) (h : k ≠ p) : (d.setPart p f).partn k = d.partn k := by
  simp only [Dev.setPart, Dev.partn, Dev.measure_frame]
  exact Dev.partn_modPart_other d f h

/-- A metadata subchannel passes from partition 0; no other record changes (R30). -/
theorem Dev.partn_dropMeta (hp : p ≠ 0) (d : Dev) (m : Nat) : (d.dropMeta m).partn p = d.partn p := by
  rw [Dev.dropMeta]
  split
  · exact Dev.partn_setPart_other d _ hp
  · rfl

/-- A creation leaves the partition's tag where it stands. -/
theorem Dev.partn_created_gen (hp : p ≠ 0) : ((d.created p r).partn p).gen = (d.partn p).gen := by
  have hpasses : ∀ units, (d.withPasses units).partn p = d.partn p := fun units =>
    foldl_keeps (fun e => Dev.partn e p) (f := fun e m => (e.dropMeta m).beginPass m) (fun e m => Dev.partn_dropMeta hp e m) units d
  have hclaimed : ∀ (e : Dev) (units : List Nat), (e.claimed p units).partn p = e.partn p := fun e units =>
    foldl_keeps (fun e => Dev.partn e p) (f := fun e m => e.claimUnit p m) (fun _ _ => rfl) units (e.newKey p [])
  have hrecorded : ∀ e : Dev, ((e.recorded p r).partn p).gen = (e.partn p).gen := fun e => by
    rw [Dev.recorded, Dev.partn_setPart_same]
  have hungrouped : ∀ e : Dev, (e.ungrouped p).partn p = e.partn p := fun e =>
    foldl_keeps (fun e => Dev.partn e p) (f := fun e g => { e with groups := terase e.groups (groupKey p g) }) (fun _ _ => rfl)
      (List.range 16) e
  rw [Dev.created, hungrouped, hrecorded, hclaimed, hpasses]

/-- PART_CREATE of a free partition whose record is well formed, in range and of units that are free and usable (R259, R260). -/
theorem Dev.partCreate_free (hp : p ≠ 0) (hrsvd : r.rsvd = false) (hspare : r.spareSlots = 0 ∨ 3 ≤ (bitsOf r.subchannels).length)
    (hqueues : r.queueBase + r.queueCount ≤ 262144) (htallies : r.tallyBase + r.tallyCount ≤ 1048576)
    (hways : d.dirWaysUsed p + r.dirWays ≤ 32) (hlife : d.sys.lifeCycle ≠ .manufactured) (hfree : (d.partn p).state = .free)
    (hclash : d.partClash p r = false) (husable : (unitsIn r.subchannels r.pseudoChannels).all (fun m => d.unitUsable m) = true)
    (hsub : r.subchannels ≠ 0) (heng : r.engines ≠ 0) (hmov : r.movers ≠ 0) (hqueue : r.queueCount ≠ 0) (htally : r.tallyCount ≠ 0) :
    d.partCreate p r = (.ok, [(d.partn p).gen.setWidth 64],
      ((d.created p r).modGroup p 0 fun g => { g with engines := r.engines, movers := r.movers }).settleClearing (some p)) := by
  have hsubs : r.subchannels ||| (0 : BitVec 48) = r.subchannels := BitVec.or_zero
  have hformat : ¬ (r.rsvd = true ∨ r.spareSlots ≠ 0 ∧ (bitsOf r.subchannels).length < 3) := by
    rw [hrsvd]
    simp only [Bool.false_eq_true, false_or]
    omega
  have hbounds : ¬ (262144 < r.queueBase + r.queueCount ∨ 1048576 < r.tallyBase + r.tallyCount ∨ 32 < r.dirWays) := by omega
  have hunits : (unitsIn r.subchannels r.pseudoChannels).any (fun m => !d.unitUsable m) = false := by
    simpa using husable
  have hroom : ¬ 32 < d.dirWaysUsed p + r.dirWays := by omega
  have hresource : ¬ ((d.partn p).state ≠ .free ∨ d.partClash p r = true ∨ 32 < d.dirWaysUsed p + r.dirWays ∨
      (unitsIn r.subchannels r.pseudoChannels).any (fun m => !d.unitUsable m) = true ∨ r.subchannels = 0 ∨ r.engines = 0 ∨
      r.movers = 0 ∨ r.queueCount = 0 ∨ r.tallyCount = 0) := by
    simp only [hfree, hclash, hunits, hsub, heng, hmov, hqueue, htally, hroom, ne_eq, not_true_eq_false, Bool.false_eq_true, or_self,
      not_false_eq_true]
  rw [← Dev.partn_created_gen (r := r) hp]
  simp only [Dev.partCreate, if_neg hp, hsubs, if_neg hformat, if_neg hbounds, hlife, false_and, if_false, if_neg hresource]
  rfl

end Creation

section Operations

variable {d : Dev} {p : Nat}

/-- PART_TENANT_CHANGE and PART_DESTROY of a partition without a long operation start theirs (R263, R295). -/
theorem Dev.tenantCommand_idle (destroy : Bool) (hheld : (d.partn p).state ≠ .free) (hidle : d.partBusy p = false) :
    d.tenantCommand p destroy = (.ok, [BitVec.ofNat 64 (d.hk.opNo + 1)],
      (({ d with hk := { d.hk with
          opNo := d.hk.opNo + 1
          ops := d.hk.ops ++ [(d.hk.opNo + 1, LongOp.tenantChange p destroy)] } } : Dev).fenceLeases p).startPartReset p) := by
  simp only [Dev.tenantCommand, if_neg hheld, hidle, Bool.false_eq_true, if_false]
  rfl

/-- PART_ADD_UNIT of a usable unit that no partition holds starts its clearing (R260, R266). -/
theorem Dev.addUnit_unheld {m u : Nat} {near : Bool} (hm : m = if near then 48 + u else u) (hu : u < if near then 64 else 48)
    (hheld : (d.partn p).state ≠ .free) (howner : d.unitOwner m = none) (husable : d.unitUsable m = true) (hops : d.hk.ops = []) :
    d.addUnit p near u = (.ok, [BitVec.ofNat 64 (d.hk.opNo + 1)],
      { d.claimUnit p m with
        hk := { (d.claimUnit p m).hk with opNo := d.hk.opNo + 1, ops := [(d.hk.opNo + 1, LongOp.addUnit p m)] } }) := by
  have hbounds : ¬ ((d.partn p).state = .free ∨ (if near then 64 else 48) ≤ u) := not_or.mpr ⟨hheld, Nat.not_le.mpr hu⟩
  have hchanging : d.tenantChanging p = false := by rw [Dev.tenantChanging, hops, List.any_nil]
  have hlist : (d.claimUnit p m).hk.ops = [] := hops
  subst hm
  simp only [Dev.addUnit, if_neg hbounds, howner, husable, hchanging, Dev.startOp, hlist, Option.isSome_none, Bool.false_eq_true,
    Bool.true_eq_false, false_and, or_self, if_false, List.nil_append]
  rfl

end Operations

section Rings

variable {d : Dev} {p c : Nat}

/-- PART_MAILBOX places the partition's rings of commands and responses within their context (R299). -/
theorem Dev.partMailbox_within {a b : Nat} (ha : a % 64 = 0) (hb : b % 64 = 0) (hheld : (d.partn p).state ≠ .free) (hc : c < 65536)
    (hctx : d.ctxOf p c = none) (hcmd : d.ringCheck c a (64 * 256) .r = none) (hrsp : d.ringCheck c b (64 * 64) .w = none) :
    d.partMailbox p c a b =
      (.ok, [], { d with partMbx := tset d.partMbx p { ctx := c, cmdAddr := a, rspAddr := b } }) := by
  have hformat : ¬ (a % 64 ≠ 0 ∨ b % 64 ≠ 0) := by omega
  have hbounds : ¬ ((d.partn p).state = .free ∨ 65536 ≤ c) := not_or.mpr ⟨hheld, Nat.not_le.mpr hc⟩
  simp only [Dev.partMailbox, if_neg hformat, if_neg hbounds, hctx, hcmd, hrsp, firstFail]
  rfl

/-- PART_EVENT_RING places the partition's event ring within its context (R300). -/
theorem Dev.partEventRing_within {a n : Nat} (ha : a % 64 = 0) (hlow : 6 ≤ n) (hhigh : n ≤ 16) (hheld : (d.partn p).state ≠ .free)
    (hc : c < 65536) (hctx : d.ctxOf p c = none) (hring : d.ringCheck c a (64 + 64 * 2 ^ n) .w = none) :
    d.partEventRing p c a n = (.ok, [], { d with partRings := tset d.partRings p { ctx := c, addr := a, log2 := n } }) := by
  have hformat : ¬ (a % 64 ≠ 0 ∨ n < 6 ∨ 16 < n) := by omega
  have hbounds : ¬ ((d.partn p).state = .free ∨ 65536 ≤ c) := not_or.mpr ⟨hheld, Nat.not_le.mpr hc⟩
  simp only [Dev.partEventRing, if_neg hformat, if_neg hbounds, hctx, hring, firstFail]
  rfl

end Rings

/-- Settles O44: each clause is the command's own equation on the device without its earlier outputs, which a command that is accepted
runs and answers. -/
theorem partitionCommands : Obligations.PartitionCommands := by
  unfold Obligations.PartitionCommands
  refine ⟨?create, ?change, ?destroy, ?mailbox, ?ring, ?add⟩
  case create =>
    rintro s h r p rfl ha hp hrsvd hspare hqueues htallies hways hlife hfree hclash husable hsub heng hmov hqueue htally
    exact huanikStep_of_accepts ha rfl (Dev.partCreate_free (d := { s.dev with out := [] }) hp hrsvd hspare hqueues htallies hways hlife
      hfree hclash husable hsub heng hmov hqueue htally)
  case change =>
    rintro s h p rfl ha hheld hidle
    exact huanikStep_of_accepts ha rfl (Dev.tenantCommand_idle (d := { s.dev with out := [] }) false hheld hidle)
  case destroy =>
    rintro s h p rfl ha hheld hidle
    exact huanikStep_of_accepts ha rfl (Dev.tenantCommand_idle (d := { s.dev with out := [] }) true hheld hidle)
  case mailbox =>
    rintro s h p c a b rfl hacc ha hb hheld hc hctx hcmd hrsp
    exact huanikStep_of_accepts hacc rfl (Dev.partMailbox_within (d := { s.dev with out := [] }) ha hb hheld hc hctx hcmd hrsp)
  case ring =>
    rintro s h p c a n rfl hacc ha hlow hhigh hheld hc hctx hring
    exact huanikStep_of_accepts hacc rfl
      (Dev.partEventRing_within (d := { s.dev with out := [] }) ha hlow hhigh hheld hc hctx hring)
  case add =>
    rintro s h p m u near rfl ha hm hu hheld howner husable hops
    exact huanikStep_of_accepts ha rfl
      (Dev.addUnit_unheld (d := { s.dev with out := [] }) hm hu hheld howner husable hops)

end Sys2Proof.Machine

/-! ## Demand reads (R147, R148, R171) -/

namespace Sys2Proof.Machine

open Sys2Proof Sys2Proof.Safety

/-! ### What the decoder makes of a stored word (R144, R147) -/

section Classes

variable {near : Bool} {f : LineFault} {x : BitVec 640} {p : Nat}

theorem classify_of_nil (herr : errPositions near (f.mask ^^^ x) = []) (hclean : f.poison = false) : classify near f x = .valid := by
  simp only [classify, herr, hclean]

theorem classify_of_single (herr : errPositions near (f.mask ^^^ x) = [p]) (hclean : f.poison = false) :
    classify near f x = .corrected p := by
  simp only [classify, herr, hclean]

/-- The poison pattern is known by up to one position in error (R147). -/
theorem classify_of_poison (herr : (errPositions near (f.mask ^^^ x)).length ≤ 1) (hpoison : f.poison = true) :
    classify near f x = .poison := by
  match hlist : errPositions near (f.mask ^^^ x) with
  | [] => simp only [classify, hlist, hpoison]
  | [_] => simp only [classify, hlist, hpoison]
  | _ :: _ :: _ => simp [hlist] at herr

/-- Two positions in error are uncorrectable, in a word and in the poison pattern alike (R144). -/
theorem classify_of_double (herr : (errPositions near (f.mask ^^^ x)).length = 2) : classify near f x = .uncorrectable := by
  obtain ⟨p, q, hlist⟩ := List.length_eq_two.mp herr
  simp only [classify, hlist]

end Classes

section DemandReads

variable {d e : Dev} {m line : Nat} {w : Line}

/-! ### A line that nothing reconstructs, and one that its group does -/

theorem Dev.canReconstruct_alone (halone : d.lineGroup m line = none) : d.canReconstruct m line = false := by
  simp only [Dev.canReconstruct, halone]

/-- A line of no parity group is given up alone (R164, Table 7.2). -/
theorem Dev.giveUpLine_alone (halone : d.lineGroup m line = none) :
    d.giveUpLine m line = { d with pool := d.pool.poisonLine m line } := by
  have hnone : ({ d with pool := d.pool.poisonLine m line } : Dev).lineGroup m line = none := halone
  simp only [Dev.giveUpLine, hnone, ite_self]

/-- A reconstruction changes nothing that is stored. -/
theorem Dev.reconstruct_pool (d : Dev) (m line : Nat) : (d.reconstruct m line).2.pool = d.pool := by
  rw [Dev.reconstruct]
  split
  · rfl
  · dsimp only
    split
    · rfl
    · split <;> rfl

/-- A line of no group that is uncorrectable twice becomes poison and is reported (Table 7.2). -/
theorem Dev.uncorrectableTwice_alone (halone : d.lineGroup m line = none) :
    d.uncorrectableTwice m line =
      (let e := { d.bump .diUeTotal with pool := d.pool.poisonLine m line }
       (.uncorrectable, 0, e.raise (e.lineEvent .ueDemand (e.unitOwner m) m line))) := by
  have halone' : (d.bump .diUeTotal).lineGroup m line = none := halone
  simp only [Dev.uncorrectableTwice, Dev.canReconstruct_alone halone', Dev.giveUpLine_alone halone', Bool.false_eq_true, if_false]
  rfl

/-- A line that is uncorrectable twice, and that its group gives, is rewritten, reported and answered (Table 7.2, R147). -/
theorem Dev.uncorrectableTwice_reconstructed (hcan : (d.bump .diUeTotal).canReconstruct m line = true)
    (hdata : (d.bump .diUeTotal).reconstruct m line = (w, e)) :
    d.uncorrectableTwice m line =
      (let e1 := { e with pool := if (d.pool.fault m line).poison then e.pool.poisonLine m line else e.pool.store m line w }
       (.ok, w, (e1.bump .diUeRecon).raise (e1.lineEvent .ueReconstructed (e1.unitOwner m) m line))) := by
  have hpool : e.pool = d.pool := by
    have hkept := Dev.reconstruct_pool (d.bump .diUeTotal) m line
    rwa [hdata] at hkept
  simp only [Dev.uncorrectableTwice, hcan, hdata, hpool, if_true]

/-! ### On a living unit outside a retrain, by the class of the word at the first read, then at the second -/

section Living

variable {x1 x2 : BitVec 640} {p : Nat}

/-- Nothing keeps a read from its unit (R171, R343). -/
theorem Dev.reads_of_living (halive : (d.unit m).dead = false) (hidle : (d.unit m).retrain = none) :
    ((d.unit m).dead || ((d.unit m).retrain.isSome && (d.lineGroup m line).isSome)) = false := by
  simp only [halive, hidle, Option.isSome_none, Bool.false_and, Bool.or_self]

variable (hreads : ((d.unit m).dead || ((d.unit m).retrain.isSome && (d.lineGroup m line).isSome)) = false)
include hreads

theorem Dev.demandRead_of_valid (h1 : classify (decide (48 ≤ m)) (d.pool.fault m line) x1 = .valid) :
    d.demandRead m line x1 x2 = (.ok, d.lineData m line, d) := by
  simp only [Dev.demandRead, hreads, h1, Bool.false_eq_true, if_false]

theorem Dev.demandRead_of_corrected (h1 : classify (decide (48 ≤ m)) (d.pool.fault m line) x1 = .corrected p) :
    d.demandRead m line x1 x2 = (.ok, d.lineData m line, d.logCorrection m line p 0) := by
  simp only [Dev.demandRead, hreads, h1, Bool.false_eq_true, if_false]

theorem Dev.demandRead_of_poison (h1 : classify (decide (48 ≤ m)) (d.pool.fault m line) x1 = .poison) :
    d.demandRead m line x1 x2 = (.poison, 0, d.bump .diPoisonReads) := by
  simp only [Dev.demandRead, hreads, h1, Bool.false_eq_true, if_false]

variable (h1 : classify (decide (48 ≤ m)) (d.pool.fault m line) x1 = .uncorrectable)
include h1

theorem Dev.demandRead_again_valid (h2 : classify (decide (48 ≤ m)) (d.pool.fault m line) x2 = .valid) :
    d.demandRead m line x1 x2 = (.ok, d.lineData m line, (d.bump .diTransient).logTransient m line) := by
  simp only [Dev.demandRead, hreads, h1, h2, Bool.false_eq_true, if_false]

theorem Dev.demandRead_again_corrected (h2 : classify (decide (48 ≤ m)) (d.pool.fault m line) x2 = .corrected p) :
    d.demandRead m line x1 x2 = (.ok, d.lineData m line, (d.bump .diTransient).logCorrection m line p 2) := by
  simp only [Dev.demandRead, hreads, h1, h2, Bool.false_eq_true, if_false]

theorem Dev.demandRead_again_uncorrectable (h2 : classify (decide (48 ≤ m)) (d.pool.fault m line) x2 = .uncorrectable) :
    d.demandRead m line x1 x2 = d.uncorrectableTwice m line := by
  simp only [Dev.demandRead, hreads, h1, h2, Bool.false_eq_true, if_false]

end Living

/-! ### On a dead unit (R171, Table 7.9) -/

theorem Dev.demandRead_dead_alone (x1 x2 : BitVec 640) (hdead : (d.unit m).dead = true) (halone : d.lineGroup m line = none) :
    d.demandRead m line x1 x2 = (.poison, 0, d.bump .diPoisonReads) := by
  simp only [Dev.demandRead, hdead, halone, Option.isNone_none, Bool.true_or, if_true]

theorem Dev.demandRead_dead_lost (x1 x2 : BitVec 640) (hdead : (d.unit m).dead = true) (hgroup : (d.lineGroup m line).isSome = true)
    (hlost : d.canReconstruct m line = false) : d.demandRead m line x1 x2 = (.uncorrectable, 0, d) := by
  have hgroup' : (d.lineGroup m line).isNone = false := by simp [Option.isNone_eq_false_iff, hgroup]
  simp only [Dev.demandRead, hdead, hgroup', hlost, Bool.true_or, Bool.not_false, Bool.false_eq_true, if_true, if_false]

end DemandReads

/-- Settles O18: each clause is a read's equation by the class of the stored word at its first and second read, or on a dead unit. -/
theorem demandReadOutcomes : Obligations.DemandReadOutcomes := by
  unfold Obligations.DemandReadOutcomes
  refine ⟨?valid, ?corrected, ?poison, ?againValid, ?againCorrected, ?alone, ?reconstructed, ?dead, ?lost⟩
  case valid =>
    rintro d m line f x1 x2 halive hidle rfl h1 hclean
    exact Dev.demandRead_of_valid (Dev.reads_of_living halive hidle) (classify_of_nil h1 hclean)
  case corrected =>
    rintro d m line p f x1 x2 halive hidle rfl h1 hclean
    exact Dev.demandRead_of_corrected (Dev.reads_of_living halive hidle) (classify_of_single h1 hclean)
  case poison =>
    rintro d m line f x1 x2 halive hidle rfl h1 hpoison
    exact Dev.demandRead_of_poison (Dev.reads_of_living halive hidle) (classify_of_poison h1 hpoison)
  case againValid =>
    rintro d m line f x1 x2 halive hidle rfl h1 h2 hclean
    exact Dev.demandRead_again_valid (Dev.reads_of_living halive hidle) (classify_of_double h1) (classify_of_nil h2 hclean)
  case againCorrected =>
    rintro d m line p f x1 x2 halive hidle rfl h1 h2 hclean
    exact Dev.demandRead_again_corrected (Dev.reads_of_living halive hidle) (classify_of_double h1) (classify_of_single h2 hclean)
  case alone =>
    rintro d m line f x1 x2 halive hidle rfl h1 h2 halone
    exact (Dev.demandRead_again_uncorrectable (Dev.reads_of_living halive hidle) (classify_of_double h1) (classify_of_double h2)).trans
      (Dev.uncorrectableTwice_alone halone)
  case reconstructed =>
    rintro d e m line f w x1 x2 halive hidle rfl h1 h2 hcan hdata
    exact (Dev.demandRead_again_uncorrectable (Dev.reads_of_living halive hidle) (classify_of_double h1) (classify_of_double h2)).trans
      (Dev.uncorrectableTwice_reconstructed hcan hdata)
  case dead =>
    intro d m line x1 x2 hdead halone
    exact Dev.demandRead_dead_alone x1 x2 hdead halone
  case lost =>
    intro d m line x1 x2 hdead hgroup hlost
    exact Dev.demandRead_dead_lost x1 x2 hdead hgroup hlost

end Sys2Proof.Machine

/-! ## A line, written and read back (R5, R150) -/

namespace Sys2Proof.Machine

open Sys2Proof Sys2Proof.Safety

section Bytes

/-- The lowest `n` bytes of a number make that number again, up to their width (R5). -/
theorem natOfBytes_lowBytes (n x : Nat) :
    natOfBytes ((List.range n).map fun i => BitVec.ofNat 8 (x / 2 ^ (8 * i))) = x % 2 ^ (8 * n) := by
  induction n generalizing x with
  | zero => simp [natOfBytes, Nat.mod_one]
  | succ n ih =>
    have hshift : ∀ i, x / 2 ^ (8 * (i + 1)) = x / 256 / 2 ^ (8 * i) := fun i => by
      rw [Nat.div_div_eq_div_mul, show 256 = 2 ^ 8 from rfl, ← pow_add, Nat.mul_succ, Nat.add_comm]
    have hpow : 2 ^ (8 * (n + 1)) = 2 ^ 8 * 2 ^ (8 * n) := by rw [Nat.mul_succ, pow_add, Nat.mul_comm]
    have hsplit : natOfBytes ((List.range (n + 1)).map fun i => BitVec.ofNat 8 (x / 2 ^ (8 * i))) =
        x % 256 + 256 * natOfBytes ((List.range n).map fun i => BitVec.ofNat 8 (x / 256 / 2 ^ (8 * i))) := by
      simp only [List.range_succ_eq_map, List.map_cons, List.map_map, Function.comp_def, Nat.succ_eq_add_one, hshift, natOfBytes,
        List.foldr_cons, Nat.mul_zero, pow_zero, Nat.div_one, BitVec.toNat_ofNat, Nat.reducePow]
    rw [hsplit, ih, hpow, Nat.mod_mul]
    rfl

theorem length_bytesOf {w : Nat} (n : Nat) (x : BitVec w) : (bytesOf n x).length = n := by simp [bytesOf]

/-- A list of bytes, read back from where it was written. -/
theorem memReadList_memWriteList {m : List Host.Cell} (hwf : memWf m = true) (a : Nat) (bs : List Byte) :
    memReadList (memWriteList m a bs) a bs.length = bs := by
  refine List.ext_getElem (by simp [memReadList]) fun i hi _ => ?_
  have hin : i < bs.length := by simpa [memReadList] using hi
  have hrange : a ≤ a + i ∧ a + i < a + bs.length := ⟨Nat.le_add_right a i, Nat.add_lt_add_left hin a⟩
  simp only [memReadList, List.getElem_map, List.getElem_range, memRead_memWriteList bs m hwf, if_pos hrange, Nat.add_sub_cancel_left]
  exact List.getD_eq_getElem _ _ hin

theorem memReadLine_memWriteLine {m : List Host.Cell} (hwf : memWf m = true) (a : Nat) (x : Line) :
    memReadLine (memWriteLine m a x) a = x := by
  have hread : memReadList (memWriteLine m a x) a 64 = bytesOf 64 x := by
    conv_lhs => rw [← length_bytesOf 64 x]
    exact memReadList_memWriteList hwf a (bytesOf 64 x)
  have hbits : 8 * 64 = 512 := rfl
  rw [memReadLine, hread, bytesOf, natOfBytes_lowBytes, hbits, BitVec.toNat_mod_cancel, BitVec.ofNat_toNat, BitVec.setWidth_eq]

/-- The fault of a line is what was set for it, in a lost or garbled range too. -/
@[simp] theorem Pool.fault_setFault_same (p : Pool) (m line : Nat) (f : LineFault) : (p.setFault m line f).fault m line = f := by
  rw [Pool.setFault]
  split
  · obtain ⟨rfl, hlost, hgarbled⟩ := ‹_›
    have hlost' : Pool.inLost { p with faults := terase p.faults (lineKey m line) } (lineKey m line) = false := hlost
    have hgarbled' : Pool.inGarbled { p with faults := terase p.faults (lineKey m line) } (lineKey m line) = false := hgarbled
    simp only [Pool.fault, tget_terase_same, Option.getD_none, hlost', hgarbled', Bool.false_eq_true, if_false]
  · simp only [Pool.fault, tget_tset_same, Option.getD_some]

/-- A stored line holds a valid word (R150). -/
theorem Pool.store_fault (p : Pool) (m line : Nat) (x : Line) : (p.store m line x).fault m line = {} :=
  Pool.fault_setFault_same _ m line {}

/-- A stored line holds the data that was written (R150). -/
theorem Pool.store_data {p : Pool} (hwf : memWf p.cells = true) (m line : Nat) (x : Line) : (p.store m line x).data m line = x := by
  rw [Pool.data, Pool.store_cells]
  exact memReadLine_memWriteLine hwf _ x

end Bytes

end Sys2Proof.Machine

/-! ## What writes of lines keep, events and activations keep (R11, R174, R297, R300) -/

namespace Sys2Proof.Machine

open Sys2Proof Sys2Proof.Safety

/-! ### The arrays and the regions -/

section Kept

variable {P : Pool → Tab Region → Prop}

/-- Every write of a line at its controller keeps `P` of the arrays and the regions. -/
def KeptByWrites (P : Pool → Tab Region → Prop) : Prop :=
  ∀ (d : Dev) (m line : Nat) (x : Line), P d.pool d.regions → P (d.putLine m line x).pool (d.putLine m line x).regions

variable (hP : KeptByWrites P) {d : Dev} (h : P d.pool d.regions)
include hP h

theorem kept_quietStore (ctx addr : Nat) (x : Line) : P (d.quietStore ctx addr x).pool (d.quietStore ctx addr x).regions := by
  rw [Dev.quietStore]
  split
  · exact h
  · split
    · exact h
    · exact hP d _ _ x h

theorem kept_putRingControl (p : Nat) : P (d.putRingControl p).pool (d.putRingControl p).regions := by
  rw [Dev.putRingControl]
  split
  · exact kept_quietStore hP h _ _ _
  · exact h

theorem kept_putPartEvent (p : Nat) (e : Event) : P (d.putPartEvent p e).pool (d.putPartEvent p e).regions := by
  rw [Dev.putPartEvent]
  split
  · exact h
  · split
    · refine kept_putRingControl hP ?_ p
      exact h
    · refine kept_putRingControl hP ?_ p
      exact kept_quietStore hP h _ _ _

/-- An event is written into rings by writes of lines (R300). -/
theorem kept_raise (e : Event) : P (d.raise e).pool (d.raise e).regions := by
  have hdev : P ((d.emit (.event e)).putDevEvent e).pool ((d.emit (.event e)).putDevEvent e).regions := by
    simpa only [Dev.putDevEvent_frame, Dev.emit_frame] using h
  rw [Dev.raise]
  cases e.part with
  | none => split <;> exact hdev
  | some p => split <;> exact kept_putPartEvent hP hdev p e

end Kept

section Arrays

/-- A pool whose bytes are in canonical form, and whose slots in raw mode are `raw` (log entry 1, R176). -/
def Pool.Sound (raw : List Extent) (p : Pool) : Prop := memWf p.cells = true ∧ p.rawExtents = raw

@[simp] theorem Pool.setFault_rawExtents (p : Pool) (m line : Nat) (f : LineFault) :
    (p.setFault m line f).rawExtents = p.rawExtents := by
  rw [Pool.setFault]
  split <;> rfl

@[simp] theorem Pool.store_rawExtents (p : Pool) (m line : Nat) (x : Line) : (p.store m line x).rawExtents = p.rawExtents :=
  Pool.setFault_rawExtents _ m line {}

@[simp] theorem Dev.reformParity_rawExtents (d : Dev) (g : ParityGroup) (es : List Extent) (off : Nat) :
    (d.reformParity g es off).rawExtents = d.pool.rawExtents := by
  rw [Dev.reformParity]
  refine (Pool.setFault_rawExtents _ _ _ _).trans (foldl_keeps Pool.rawExtents (fun q e => ?_) _ _)
  dsimp only
  split
  · rfl
  · exact Pool.setFault_rawExtents _ _ _ _

/-- The parity step of a write leaves the slots in raw mode. -/
@[simp] theorem Dev.parityPool_rawExtents (d : Dev) (m line : Nat) : (d.parityPool m line).rawExtents = d.pool.rawExtents := by
  rw [Dev.parityPool]
  split
  · split
    · rfl
    · dsimp only
      split
      · rfl
      · split
        · exact Pool.setFault_rawExtents _ _ _ _
        · exact Dev.reformParity_rawExtents _ _ _ _
  · rfl

theorem keptByWrites_sound (raw : List Extent) : KeptByWrites fun p _ => p.Sound raw := by
  rintro d m line x ⟨hwf, hraw⟩
  rw [Dev.putLine_pool]
  exact ⟨Pool.store_wf _ m line x (by rwa [Dev.parityPool_cells]), by rw [Pool.store_rawExtents, Dev.parityPool_rawExtents, hraw]⟩

end Arrays

/-! ### Events without partition rings -/

section Ringless

variable {d : Dev}

theorem Dev.putPartEvent_ringless {p : Nat} (h : tget d.partRings p = none) (e : Event) : d.putPartEvent p e = d := by
  simp only [Dev.putPartEvent, h]

/-- Where no partition has an event ring, an event leaves the arrays (R300). -/
theorem Dev.raise_pool_of_noRings (h : d.partRings = []) (e : Event) : (d.raise e).pool = d.pool := by
  have hdev : ((d.emit (.event e)).putDevEvent e).pool = d.pool := by simp only [Dev.putDevEvent_frame, Dev.emit_frame]
  rw [Dev.raise]
  cases e.part with
  | none => split <;> exact hdev
  | some p =>
    have hring : tget ((d.emit (.event e)).putDevEvent e).partRings p = none := by
      simp only [Dev.putDevEvent_frame, Dev.emit_frame, h, tget_nil]
    simp only [Dev.putPartEvent_ringless hring]
    split <;> exact hdev

end Ringless

/-! ### What an activation leaves as it is, where it throttles a stream too -/

section Records

variable {d e f : Dev} {m line : Nat}

/-- What a change of a unit's record keeps of it, it keeps of every unit. -/
theorem Dev.unit_modUnit_keeps {α : Type} (g : MemUnit → α) {u : MemUnit → MemUnit} (hu : g (u (d.unit m)) = g (d.unit m)) (k : Nat) :
    g ((d.modUnit m u).unit k) = g (d.unit k) := by
  by_cases hk : k = m
  · rw [hk, Dev.unit_modUnit_same, hu]
  · rw [Dev.unit_modUnit_other d u hk]

/-- Device `e` is `d` but for its outputs, its record of power, and what its memory units record; they are dead, or in a retrain, as those
of `d` are. -/
structure OnlyRecords (d e : Dev) : Prop where
  rest : e = { d with units := e.units, out := e.out, pow := e.pow }
  dead : ∀ k, (e.unit k).dead = (d.unit k).dead
  retrain : ∀ k, (e.unit k).retrain = (d.unit k).retrain

theorem OnlyRecords.refl (d : Dev) : OnlyRecords d d := ⟨rfl, fun _ => rfl, fun _ => rfl⟩

theorem OnlyRecords.trans (h : OnlyRecords d e) (h' : OnlyRecords e f) : OnlyRecords d f :=
  ⟨by rw [h'.rest, h.rest], fun k => (h'.dead k).trans (h.dead k), fun k => (h'.retrain k).trans (h.retrain k)⟩

theorem OnlyRecords.modUnit {u : MemUnit → MemUnit} (hdead : (u (d.unit m)).dead = (d.unit m).dead)
    (hretrain : (u (d.unit m)).retrain = (d.unit m).retrain) : OnlyRecords d (d.modUnit m u) :=
  ⟨rfl, Dev.unit_modUnit_keeps MemUnit.dead hdead, Dev.unit_modUnit_keeps MemUnit.retrain hretrain⟩

theorem OnlyRecords.withPow (d : Dev) (w : Power) : OnlyRecords d { d with pow := w } := ⟨rfl, fun _ => rfl, fun _ => rfl⟩

theorem OnlyRecords.issueRfm (d : Dev) (m bank : Nat) : OnlyRecords d (d.issueRfm m bank) := by
  have hunit : OnlyRecords d (d.modUnit m fun v =>
      { v with raa := tset v.raa bank (tgetD v.raa bank 0 - v.raaimt), streams := v.streams.filter (fun x => x.1 != bank) }) :=
    .modUnit rfl rfl
  exact hunit.trans ⟨rfl, fun _ => rfl, fun _ => rfl⟩

theorem OnlyRecords.countRow (d : Dev) (m line : Nat) : OnlyRecords d (d.countRow m line) := .modUnit rfl rfl

theorem OnlyRecords.pool (h : OnlyRecords d e) : e.pool = d.pool := congrArg (fun x => x.pool) h.rest

theorem OnlyRecords.regions (h : OnlyRecords d e) : e.regions = d.regions := congrArg (fun x => x.regions) h.rest

theorem OnlyRecords.partRings (h : OnlyRecords d e) : e.partRings = d.partRings := congrArg (fun x => x.partRings) h.rest

/-- A throttle is recorded, and raises at most one event (R175). -/
theorem Dev.throttleBank_cases (d : Dev) (m bank line : Nat) :
    ∃ e, OnlyRecords d e ∧ (d.throttleBank m bank line = e ∨ ∃ x, d.throttleBank m bank line = e.raise x) := by
  simp only [Dev.throttleBank]
  split
  · exact ⟨d, .refl d, .inl rfl⟩
  · split
    · exact ⟨_, .modUnit rfl rfl, .inl rfl⟩
    · refine ⟨_, OnlyRecords.trans (.modUnit (m := m) ?_ ?_) (.trans (.modUnit (m := m) ?_ ?_) (.withPow _ _)), .inr ⟨_, rfl⟩⟩ <;>
        rfl

/-- An activation of a bank of a subchannel is counted, and the count is held against the thresholds that the DRAM gives (R174, R175). -/
theorem Dev.activate_subchannel (hm : m < 48) (line : Nat) :
    d.activate m line =
      if ((d.countRow m line).unit m).raaimt = 0 then d.countRow m line
      else
        let d2 := if ((d.countRow m line).unit m).raammt ≤ tgetD (d.unit m).raa (d.bankOf m line) 0 + 1 ∧
            ((d.countRow m line).unit m).raammt ≠ 0 then
          (d.countRow m line).throttleBank m (d.bankOf m line) line else d.countRow m line
        if rfmTrigger ((d.countRow m line).unit m) ≤ tgetD (d.unit m).raa (d.bankOf m line) 0 + 1 then
          d2.issueRfm m (d.bankOf m line) else d2 := by
  rw [Dev.activate, if_pos hm]
  rfl

/-- An activation is recorded; where the DRAM needs RFM commands it may raise one event on the way (R174, R175). -/
theorem Dev.activate_recorded (d : Dev) (m line : Nat) :
    ∃ e f, OnlyRecords d e ∧ (f = e ∨ (d.unit m).raaimt ≠ 0 ∧ ∃ x, f = e.raise x) ∧ OnlyRecords f (d.activate m line) := by
  by_cases hm : m < 48
  · have himt : ((d.countRow m line).unit m).raaimt = (d.unit m).raaimt := by rw [Dev.countRow, Dev.unit_modUnit_same]; rfl
    have hcount := OnlyRecords.countRow d m line
    have hrfm : ∀ (p : Prop) [Decidable p] (f : Dev), OnlyRecords f (if p then f.issueRfm m (d.bankOf m line) else f) := fun p _ f => by
      split
      · exact .issueRfm f m _
      · exact .refl f
    have hthrottle : ∀ (p : Prop) [Decidable p], ∃ e, OnlyRecords d e ∧
        ((if p then (d.countRow m line).throttleBank m (d.bankOf m line) line else d.countRow m line) = e ∨
          ∃ x, (if p then (d.countRow m line).throttleBank m (d.bankOf m line) line else d.countRow m line) = e.raise x) := fun p _ => by
      split
      · obtain ⟨e, he, hraised⟩ := (d.countRow m line).throttleBank_cases m (d.bankOf m line) line
        exact ⟨e, hcount.trans he, hraised⟩
      · exact ⟨_, hcount, .inl rfl⟩
    rw [Dev.activate_subchannel hm line, himt]
    split
    · exact ⟨_, _, hcount, .inl rfl, .refl _⟩
    · obtain ⟨e, he, hraised⟩ := hthrottle (((d.countRow m line).unit m).raammt ≤ tgetD (d.unit m).raa (d.bankOf m line) 0 + 1 ∧
        ((d.countRow m line).unit m).raammt ≠ 0)
      exact ⟨e, _, he, hraised.imp id fun hevent => ⟨‹_›, hevent⟩, hrfm _ _⟩
  · exact ⟨d, d, .refl d, .inl rfl, by rw [Dev.activate, if_neg hm]; exact .refl d⟩

/-- What writes of lines keep of the arrays and the regions, an activation keeps. -/
theorem kept_activate {P : Pool → Tab Region → Prop} (hP : KeptByWrites P) (h : P d.pool d.regions) (m line : Nat) :
    P (d.activate m line).pool (d.activate m line).regions := by
  obtain ⟨e, f, hbefore, hevent, hafter⟩ := d.activate_recorded m line
  have he : P e.pool e.regions := by rwa [hbefore.pool, hbefore.regions]
  rw [hafter.pool, hafter.regions]
  obtain rfl | ⟨-, x, rfl⟩ := hevent
  · exact he
  · exact kept_raise hP he x

/-- An activation leaves the arrays where its DRAM needs no RFM commands, or no partition has an event ring (R174, R175). -/
theorem Dev.activate_pool {m : Nat} (h : (d.unit m).raaimt = 0 ∨ d.partRings = []) (line : Nat) : (d.activate m line).pool = d.pool := by
  obtain ⟨e, f, hbefore, hevent, hafter⟩ := d.activate_recorded m line
  rw [hafter.pool, ← hbefore.pool]
  obtain rfl | ⟨hneeds, x, rfl⟩ := hevent
  · rfl
  · exact Dev.raise_pool_of_noRings (hbefore.partRings.trans (h.resolve_left hneeds)) x

end Records

/-! ### Where lines are served, and whether their units can be read -/

section Places

variable {d e f : Dev} {m line : Nat}

/-- Device `e` serves every line from where `d` does, and its units are dead, or in a retrain, as those of `d` are. -/
structure ServesAs (d e : Dev) : Prop where
  metaPlace : e.metaPlace = d.metaPlace
  rebuilds : e.rebuilds = d.rebuilds
  dead : ∀ k, (e.unit k).dead = (d.unit k).dead
  retrain : ∀ k, (e.unit k).retrain = (d.unit k).retrain

theorem ServesAs.trans (h : ServesAs d e) (h' : ServesAs e f) : ServesAs d f :=
  ⟨h'.metaPlace.trans h.metaPlace, h'.rebuilds.trans h.rebuilds, fun k => (h'.dead k).trans (h.dead k),
    fun k => (h'.retrain k).trans (h.retrain k)⟩

theorem OnlyRecords.servesAs (h : OnlyRecords d e) : ServesAs d e :=
  ⟨congrArg (fun x => x.metaPlace) h.rest, congrArg (fun x => x.rebuilds) h.rest, h.dead, h.retrain⟩

@[simp] theorem Dev.raise_unit (d : Dev) (x : Event) (k : Nat) : (d.raise x).unit k = d.unit k := by
  simp only [Dev.unit, Dev.raise_frame]

theorem ServesAs.raise (d : Dev) (x : Event) : ServesAs d (d.raise x) :=
  ⟨by simp only [Dev.raise_frame], by simp only [Dev.raise_frame], fun k => by rw [Dev.raise_unit], fun k => by rw [Dev.raise_unit]⟩

/-- Every line stays where it is through an activation (R174, R175). -/
theorem ServesAs.activate (d : Dev) (m line : Nat) : ServesAs d (d.activate m line) := by
  obtain ⟨e, f, hbefore, hevent, hafter⟩ := d.activate_recorded m line
  refine hbefore.servesAs.trans (.trans ?_ hafter.servesAs)
  obtain rfl | ⟨-, x, rfl⟩ := hevent
  · exact (OnlyRecords.refl f).servesAs
  · exact .raise e x

theorem ServesAs.metaIndex (h : ServesAs d e) (m line : Nat) : e.metaIndex m line = d.metaIndex m line := by
  simp only [Dev.metaIndex, h.metaPlace]

theorem extM_lineExtent (m line : Nat) : extM (lineExtent m line) = m := by
  by_cases hm : m < 48
  · simp [extM, lineExtent, hm]
  · simp only [extM, lineExtent, if_neg hm, decide_eq_true (Nat.le_of_not_lt hm), if_true]
    omega

/-- Where no rebuild runs a line is served from its own place (R169). -/
theorem Dev.lineServed_of_noRebuilds (h : d.rebuilds = []) (m line : Nat) : d.lineServed m line = (m, line) := by
  simp only [Dev.lineServed, Dev.groupLine, rebuiltPlace, h, List.find?_nil, extM_lineExtent]
  exact congrArg (Prod.mk m) (Nat.div_add_mod' line slotLines)

end Places


section Writes

variable {d : Dev} {m line : Nat}

theorem errPositions_zero (near : Bool) : errPositions near 0#640 = [] := by
  simp only [errPositions, BitVec.toNat_zero, Nat.zero_div, Nat.zero_mod, bne_self_eq_false, List.filter_false, ite_self]

/-- A write that nothing holds, of a line served from its own place, stores a valid word with its data (R150). -/
theorem Dev.lineWrite_stores (x : Line) (hserve : d.unitServes m = true) (hfree : (d.lineHeld m line).1 = false)
    (hclear : d.awaitsClear m line = false) (hgo : d.mustWait m line true = false) (hraw : d.isRaw m line = false)
    (hmeta : d.metaIndex m line = none) (hrebuilds : d.rebuilds = []) (hwf : memWf d.pool.cells = true) :
    (d.lineWrite m line x).pool.fault m line = {} ∧ (d.lineWrite m line x).pool.data m line = x := by
  have hserves := ServesAs.activate d m line
  obtain ⟨hwf', hraw'⟩ := kept_activate (keptByWrites_sound d.pool.rawExtents) ⟨hwf, rfl⟩ m line
  have hawake : (d.activate m line).isRaw m line = false := by rwa [Dev.isRaw, hraw', ← Dev.isRaw]
  have hmeta' : (d.activate m line).metaIndex m line = none := (hserves.metaIndex m line).trans hmeta
  have hpool : (d.lineWrite m line x).pool = ((d.activate m line).parityPool m line).store m line x := by
    rw [Dev.lineWrite_served x hserve hfree hclear hgo hawake hmeta', Dev.lineServed_of_noRebuilds (hserves.rebuilds.trans hrebuilds)]
    exact Dev.putLine_pool _ m line x
  rw [hpool]
  exact ⟨Pool.store_fault _ m line x, Pool.store_data (by rwa [Dev.parityPool_cells]) m line x⟩

/-- A write narrower than a line, which would be merged into poison, is not made, and its requester is told so (R150, R151). -/
theorem Dev.lineMerge_poison (x : Line) (en : U64) (hserve : d.unitServes m = true) (hfree : (d.lineHeld m line).1 = false)
    (hclear : d.awaitsClear m line = false) (hgo : d.mustWait m line true = false) (hraw : d.isRaw m line = false)
    (hmeta : d.metaIndex m line = none) (hrebuilds : d.rebuilds = []) (hidle : (d.unit m).retrain = none)
    (halive : (d.unit m).dead = false) (hpoison : d.pool.fault m line = { poison := true })
    (hquiet : (d.unit m).raaimt = 0 ∨ d.partRings = []) :
    d.lineMerge m line x en 0 0 = ((d.activate m line).bump .diPoisonReads).emit (.lineAck .poison) := by
  have hserves := ServesAs.activate d m line
  have hpool := Dev.activate_pool hquiet line
  have hawake : (d.activate m line).isRaw m line = false := by rwa [Dev.isRaw, hpool, ← Dev.isRaw]
  have hmeta' : (d.activate m line).metaIndex m line = none := (hserves.metaIndex m line).trans hmeta
  have hclass : classify (decide (48 ≤ m)) ((d.activate m line).pool.fault m line) 0 = .poison := by
    rw [hpool, hpoison]
    refine classify_of_poison ?_ rfl
    have hnone : errPositions (decide (48 ≤ m)) (({ poison := true } : LineFault).mask ^^^ 0) = [] :=
      (congrArg (errPositions _) BitVec.xor_self).trans (errPositions_zero _)
    rw [hnone]
    exact Nat.zero_le 1
  have hread : (d.activate m line).demandRead m line 0 0 = (.poison, 0, (d.activate m line).bump .diPoisonReads) :=
    Dev.demandRead_of_poison (Dev.reads_of_living ((hserves.dead m).trans halive) ((hserves.retrain m).trans hidle)) hclass
  rw [Dev.lineMerge_served x en 0 0 hserve hfree hclear hgo hawake hmeta',
    Dev.lineServed_of_noRebuilds (hserves.rebuilds.trans hrebuilds)]
  simp only [hread]
  rfl

end Writes

/-- Settles O20: a full write stores a valid word, whatever its activation and its parity write besides; a merge reads poison and stores
nothing. -/
theorem fullWriteClearsPoison : Obligations.FullWriteClearsPoison := by
  unfold Obligations.FullWriteClearsPoison
  refine ⟨?full, ?narrow⟩
  case full =>
    intro s m line x hlive hline hserve hclear hgo hraw hmeta hrebuilds hfree hwf
    exact ⟨_, exec_lineWrite hlive hline rfl,
      Dev.lineWrite_stores (d := { s.dev with out := [] }) x hserve hfree hclear hgo hraw hmeta hrebuilds hwf⟩
  case narrow =>
    intro s m line x en hlive hline hserve hclear hgo hraw hmeta hrebuilds hfree hidle halive hpoison hquiet
    have hmerge := Dev.lineMerge_poison (d := { s.dev with out := [] }) x en hserve hfree hclear hgo hraw hmeta hrebuilds hidle halive
      hpoison hquiet
    refine ⟨_, exec_readModifyWrite hlive hline hmerge, Dev.activate_pool (d := { s.dev with out := [] }) hquiet line, ?_⟩
    simp only [Dev.emit_out, List.mem_append, List.mem_singleton, or_true]

end Sys2Proof.Machine

/-! ## Device metadata and the translation caches (R15, R172, R345) -/

namespace Sys2Proof.Machine

open Sys2Proof Sys2Proof.Safety

/-- A row of the islands, while they run, is its operation on the device without its earlier outputs. -/
theorem liveStep_of_live {s : State} {f : Dev → Dev} {e : Dev} (hlive : s.dev.sys.live = true) (h : f { s.dev with out := [] } = e) :
    liveStep f s = .next { s with dev := e } := by
  rw [liveStep_live _ _ hlive, ← h]
  rfl

section Metadata

variable {d e : Dev} {idx : Nat} {a b : Nat × Nat}

/-- A metadata line goes to both mirror copies (R172). -/
theorem Dev.metaWrite_both (x : Line) (h0 : d.metaLine false idx = some a) (h1 : d.metaLine true idx = some b) :
    d.metaWrite idx x = { d with pool := (d.pool.store a.1 a.2 x).store b.1 b.2 x } := by
  simp only [Dev.metaWrite, h0, h1]

/-- A write of a metadata line that both copies place is made, and acknowledged. -/
theorem Dev.metaWrite_guarded (x : Line) (h0 : d.metaLine false idx = some a) (h1 : d.metaLine true idx = some b) :
    d.guard ((d.metaLine false idx).isSome && (d.metaLine true idx).isSome) (fun e => (e.metaWrite idx x).emit (.lineAck .ok)) =
      { d with pool := (d.pool.store a.1 a.2 x).store b.1 b.2 x }.emit (.lineAck .ok) := by
  simp only [h0, h1, Option.isSome_some, Bool.and_self, Dev.guard_true, Dev.metaWrite_both x h0 h1]

/-- A copy with a valid word on a living unit serves, and is not rewritten (Table 7.2). -/
theorem Dev.metaProbe_valid {m line : Nat} (halive : (d.unit m).dead = false) (hvalid : d.pool.fault m line = {}) :
    d.metaProbe idx m line 0 = (some (d.metaData idx m line, false), d) := by
  simp only [Dev.metaProbe, halive, hvalid, classify_valid, Bool.false_eq_true, if_false]

/-- Copy 0 serves, unless copy 1 alone lies in the asking quadrant (R172, log entry 66). -/
theorem Dev.metaRead_first {q : Nat} (x1 : BitVec 640) (h0 : d.metaLine false idx = some a) (h1 : d.metaLine true idx = some b)
    (hnear : a.1 / 12 = q ∨ b.1 / 12 ≠ q) (halive : (d.unit a.1).dead = false) (hvalid : d.pool.fault a.1 a.2 = {}) :
    d.metaRead idx q 0 x1 = some (some (d.metaData idx a.1 a.2), d) := by
  have hfirst : (decide (a.1 / 12 ≠ q) && decide (b.1 / 12 = q)) = false := by
    rcases hnear with hnear | hfar <;> simp [*]
  simp only [Dev.metaRead, h0, h1, hfirst, Dev.metaProbe_valid halive hvalid, Bool.false_eq_true, if_false]

end Metadata

section Translations

variable {d e : Dev} {n c a : Nat} {g : Segment} {r : Region} {x : TransEntry}

/-- A region that does not migrate is served from its placement (R45). -/
theorem Region.useNew_still (hstill : r.migrating = false) (off : Nat) : r.useNew off = false := by
  simp only [Region.useNew, hstill, Bool.false_and]

variable (hvalid : (d.context c).valid = true) (hseg : segOf (d.context c) a = some g) (hkind : g.kind = .region)
  (hreg : tget d.regions g.targetId = some r) (hstill : r.migrating = false)
  (hx : x = ⟨c, g.targetId, (decomposeIdx (grainBytes r.grainM8) r.width r.salt.toNat (g.targetOff + (a - g.base))).1⟩)
include hvalid hseg hkind hreg hstill hx

/-- A hit makes its entry the one used last (R15). -/
theorem Dev.transFill_hit (hhit : (d.transOf n).contains x = true) : d.transFill n c a = d.setTrans n (x :: (d.transOf n).erase x) := by
  subst hx
  simp only [Dev.transFill, hvalid, hseg, hkind, hreg, Region.useNew_still hstill, hhit, Bool.false_eq_true, if_true, if_false]

/-- A miss reads a line of the extent table and installs the entry, in a cache with room for it (R15). -/
theorem Dev.transFill_miss {w : Line} (hmiss : (d.transOf n).contains x = false) (hroom : (d.transOf n).length < 4096)
    (hread : d.metaRead (r.listLine + x.ext / 16) (if n < 32 then n / 8 else n - 32) 0 0 = some (some w, e)) :
    d.transFill n c a = e.setTrans n (x :: d.transOf n) := by
  subst hx
  simp only [Dev.transFill, hvalid, hseg, hkind, hreg, Region.useNew_still hstill, hmiss, hread, Nat.not_le.mpr hroom, Bool.false_eq_true,
    if_true, if_false]

end Translations

/-- Settles O21: each clause is its row's equation, from the copy that serves a metadata line and from what a cache holds. -/
theorem metadataAndTranslation : Obligations.MetadataAndTranslation := by
  unfold Obligations.MetadataAndTranslation
  refine ⟨?write, ?read, ?lost, ?miss, ?hit⟩
  case write =>
    intro s idx x a b hlive h0 h1
    exact liveStep_of_live hlive (Dev.metaWrite_guarded (d := { s.dev with out := [] }) x h0 h1)
  case read =>
    intro s idx q k x1 a b hlive h0 h1 hnear halive hvalid
    refine liveStep_of_live hlive ?_
    simp only [Dev.metaRead_first (d := { s.dev with out := [] }) x1 h0 h1 hnear halive hvalid]
  case lost =>
    intro s idx q k x0 x1 e hlive hlost
    refine liveStep_of_live hlive ?_
    simp only [hlost]
  case miss =>
    intro s n c a g r x w e hlive _ hvalid hseg hkind hreg hstill hx hmiss hroom hread
    exact liveStep_of_live hlive
      (Dev.transFill_miss (d := { s.dev with out := [] }) hvalid hseg hkind hreg hstill hx hmiss hroom hread)
  case hit =>
    intro s n c a g r x hlive _ hvalid hseg hkind hreg hstill hx hhit
    exact liveStep_of_live hlive (Dev.transFill_hit (d := { s.dev with out := [] }) hvalid hseg hkind hreg hstill hx hhit)

end Sys2Proof.Machine

/-! ## Parity ranges (R165) -/

namespace Sys2Proof.Machine

open Sys2Proof Sys2Proof.Safety

section Ranges

variable {d : Dev} {r g : Nat} {reg : Region} {pg : ParityGroup}

/-- The groups of a DURABLE region that has no new placement are those of its extents. -/
theorem Dev.groupOf_settled (hreg : tget d.regions r = some reg) (hdurable : reg.durable = true) (hsettled : reg.newParity = [])
    (hpg : reg.parity[g]? = some pg) : d.groupOf r g = some pg := by
  simp [Dev.groupOf, hreg, Region.groups, hdurable, hsettled, hpg]

/-- A change of one of its groups is a change of that group's record alone. -/
theorem Dev.modGroupOf_settled (hreg : tget d.regions r = some reg) (hsettled : reg.newParity = []) (f : ParityGroup → ParityGroup) :
    d.modGroupOf r g f =
      { d with regions := tset d.regions r { reg with parity := reg.parity.mapIdx fun i x => if i = g then f x else x } } := by
  have hnone : reg.newParity.mapIdx (fun i x => if reg.parity.length + i = g then f x else x) = reg.newParity := by rw [hsettled]; rfl
  simp only [Dev.modGroupOf, hreg, hnone]

/-- The parity of a range is made anew in the arrays alone. -/
theorem Dev.recomputeRange_regions (d : Dev) (r g k : Nat) : (d.recomputeRange r g k).regions = d.regions := by
  rw [Dev.recomputeRange]
  cases (tget d.regions r).bind fun x => x.groups[g]? with
  | none => rfl
  | some x =>
    exact foldl_keeps (fun e : Dev => e.regions)
      (f := fun e i => { e with pool := e.reformParity x.1 (groupExtents x) (k * 1024 + i) }) (fun _ _ => rfl) (List.range 1024) d

theorem Dev.modGroupOf_recomputed (hreg : tget d.regions r = some reg) (hsettled : reg.newParity = []) (k : Nat)
    (f : ParityGroup → ParityGroup) :
    (d.recomputeRange r g k).modGroupOf r g f =
      { d.recomputeRange r g k with
        regions := tset d.regions r { reg with parity := reg.parity.mapIdx fun i x => if i = g then f x else x } } := by
  have hregions := d.recomputeRange_regions r g k
  rw [Dev.modGroupOf_settled (by rwa [hregions]) hsettled, hregions]

end Ranges

/-- Settles O22: each clause is its row's equation on the one group that it names. -/
theorem parityRanges : Obligations.ParityRanges := by
  unfold Obligations.ParityRanges
  refine ⟨?clean, ?recomputed⟩
  case clean =>
    intro s r g k t reg pg hlive hreg hdurable hsettled hpg hstale hprotected
    refine liveStep_of_live hlive ?_
    have hgroup : ({ s.dev with out := [] } : Dev).groupOf r g = some pg := Dev.groupOf_settled hreg hdurable hsettled hpg
    simp only [hgroup, hstale, hprotected, Bool.false_eq_true, if_false]
    exact Dev.modGroupOf_settled (d := ({ s.dev with out := [] } : Dev).reach (t + 1000000000)) hreg hsettled _
  case recomputed =>
    intro s r g k reg pg hlive hreg hdurable hsettled hpg hunprotected
    refine liveStep_of_live hlive ?_
    have hgroup : ({ s.dev with out := [] } : Dev).groupOf r g = some pg := Dev.groupOf_settled hreg hdurable hsettled hpg
    simp only [hgroup, hunprotected, Dev.guard_true]
    exact Dev.modGroupOf_recomputed (d := { s.dev with out := [] }) hreg hsettled k _

end Sys2Proof.Machine

/-! ## Transit (R158 to R161) and the hour of the correction rate (R156) -/

namespace Sys2Proof.Machine

open Sys2Proof Sys2Proof.Safety

section Transit

variable {d : Dev} {m l : Nat}

/-! ### Passes and their shares -/

/-- A change of a memory unit rests on its present record alone. -/
theorem Dev.modUnit_congr {f g : MemUnit → MemUnit} (h : f (d.unit m) = g (d.unit m)) : d.modUnit m f = d.modUnit m g := by
  rw [Dev.unit] at h
  rw [Dev.modUnit, Dev.modUnit, tmod, tmod, h]

/-- A pass begins at the end of the last one's time, or at once where that one was overdue (R158, R160). -/
theorem Dev.passStart_next (d : Dev) (m : Nat) :
    (let e1 := if (d.unit m).overdue then d else d.reach ((d.unit m).passStart + d.passTime)
     e1.modUnit m fun v => { v with
       transitLine := 0, transitPass := v.transitPass + 1, passStart := e1.now, passDone := false, overdue := false, shareTenths := 0 }) =
    (let t := if (d.unit m).overdue then d.now else max d.now ((d.unit m).passStart + (d.param 0x0010 0).toNat * 3600000000000)
     { d with now := t }.modUnit m fun v => { v with
       transitLine := 0, transitPass := v.transitPass + 1, passStart := t, passDone := false, overdue := false, shareTenths := 0 }) := by
  cases (d.unit m).overdue <;> rfl

/-- The next share of a pass that is not at its end (Table 7.6). -/
theorem nextShare_within {old pct new : Nat}
    (h : (old < 5 ∧ pct = 50 ∧ new = 5) ∨ (5 ≤ old ∧ old < 10 ∧ pct = 75 ∧ new = 10) ∨
      (10 ≤ old ∧ old < 20 ∧ pct = 90 ∧ new = 20)) :
    nextShare old = some (pct, new) ∧ pct ≠ 100 := by
  rcases h with ⟨hold, rfl, rfl⟩ | ⟨hlow, hold, rfl, rfl⟩ | ⟨hlow, hold, rfl, rfl⟩
  · simp [nextShare, hold]
  · simp [nextShare, hold, Nat.not_lt.mpr hlow]
  · have hlow' : ¬ old < 5 := by omega
    simp [nextShare, hold, hlow', Nat.not_lt.mpr hlow]

theorem nextShare_last {old : Nat} (hlow : 20 ≤ old) (hold : old < 50) : nextShare old = some (100, 50) := by
  have h5 : ¬ old < 5 := by omega
  have h10 : ¬ old < 10 := by omega
  simp [nextShare, hold, h5, h10, Nat.not_lt.mpr hlow]

/-! ### What a check makes of a line (R159, Table 7.5) -/

theorem Dev.scrubLine_valid (x2 : BitVec 640) (hraw : d.isRaw m l = false) (hvalid : d.pool.fault m l = {}) :
    d.scrubLine m l 0 x2 = d := by
  simp only [Dev.scrubLine, hraw, hvalid, classify_valid, Bool.false_eq_true, if_false]

theorem Dev.scrubLine_corrected {p : Nat} {x1 : BitVec 640} (x2 : BitVec 640) (hraw : d.isRaw m l = false)
    (h1 : classify (decide (48 ≤ m)) (d.pool.fault m l) x1 = .corrected p) :
    d.scrubLine m l x1 x2 = (let e := d.logCorrection m l p 1; { e with pool := e.pool.setFault m l {} }) := by
  simp only [Dev.scrubLine, hraw, h1, Bool.false_eq_true, if_false]

theorem Dev.scrubLine_uncorrectable {x1 x2 : BitVec 640} (hraw : d.isRaw m l = false)
    (h1 : classify (decide (48 ≤ m)) (d.pool.fault m l) x1 = .uncorrectable)
    (h2 : classify (decide (48 ≤ m)) (d.pool.fault m l) x2 = .uncorrectable) : d.scrubLine m l x1 x2 = d.scrubBad m l := by
  simp only [Dev.scrubLine, hraw, h1, h2, Bool.false_eq_true, if_false]

/-- A line of no group, outside metadata and the spare slots, that is uncorrectable twice becomes poison and is reported (Table 7.5). -/
theorem Dev.scrubBad_alone (hmeta : d.metaIndex m l = none) (halone : d.lineGroup m l = none)
    (hspare : d.isSpare m (l / slotLines) = false) :
    d.scrubBad m l = (let e := { d.bump .diUeTotal with pool := d.pool.poisonLine m l }
      e.raise (e.lineEvent .ueScrub (e.unitOwner m) m l)) := by
  have hmeta' : (d.bump .diUeTotal).metaIndex m l = none := hmeta
  have halone' : (d.bump .diUeTotal).lineGroup m l = none := halone
  have hspare' : (d.bump .diUeTotal).isSpare m (l / slotLines) = false := hspare
  have hparity : (d.bump .diUeTotal).holdsParity m l = false := by simp only [Dev.holdsParity, halone']
  simp only [Dev.scrubBad, hmeta', Dev.canReconstruct_alone halone', hspare', hparity, Dev.giveUpLine_alone halone', Bool.false_eq_true,
    if_false]
  rfl

end Transit

/-- A row of the islands whose precondition holds, while they run. -/
theorem liveStep_guarded {s : State} {b : Dev → Bool} {f : Dev → Dev → Dev} {e : Dev} (hlive : s.dev.sys.live = true)
    (hb : b { s.dev with out := [] } = true) (h : f { s.dev with out := [] } { s.dev with out := [] } = e) :
    liveStep (fun d => d.guard (b d) (f d)) s = .next { s with dev := e } := by
  refine liveStep_of_live hlive ?_
  rw [hb, Dev.guard_true, h]

section TransitRows

variable {s : State} {m : Nat} (hlive : s.dev.sys.live = true) (hruns : s.dev.transitRuns m = true)
  (hopen : (s.dev.unit m).passDone = false)
include hlive hruns hopen

/-- TRANSIT_ESCALATE at a threshold of a pass: the unfinished unit gets its share (R160, Table 7.6). -/
theorem exec_transitEscalate_within {old pct new : Nat} (hold : (s.dev.unit m).shareTenths = old)
    (h : (old < 5 ∧ pct = 50 ∧ new = 5) ∨ (5 ≤ old ∧ old < 10 ∧ pct = 75 ∧ new = 10) ∨
      (10 ≤ old ∧ old < 20 ∧ pct = 90 ∧ new = 20)) :
    exec (.transitEscalate m) s = .next (s.onDev fun d =>
      { d with now := max d.now ((d.unit m).passStart + (d.param 0x0010 0).toNat * 3600000000000 * pct / 100) }.modUnit m fun v =>
        { v with shareTenths := new, overdue := v.overdue }) := by
  obtain ⟨hshare, hpct⟩ := nextShare_within h
  have hnext : nextShare (({ s.dev with out := [] } : Dev).unit m).shareTenths = some (pct, new) := (congrArg nextShare hold).trans hshare
  refine liveStep_guarded hlive (Bool.and_eq_true_iff.mpr ⟨hruns, (congrArg not hopen).trans rfl⟩) ?_
  simp only [hnext, if_neg hpct, beq_false_of_ne hpct, Bool.or_false]
  rfl

/-- TRANSIT_ESCALATE at the end of a pass's time: the unfinished unit is overdue, and is reported (R160, Table 7.6). -/
theorem exec_transitEscalate_last (hlow : 20 ≤ (s.dev.unit m).shareTenths) (hshare : (s.dev.unit m).shareTenths < 50) :
    exec (.transitEscalate m) s = .next (s.onDev fun d =>
      let e := { d with now := max d.now ((d.unit m).passStart + (d.param 0x0010 0).toNat * 3600000000000) }.modUnit m fun v =>
        { v with shareTenths := 50, overdue := true }
      e.raise (e.lineEvent .scrubOverdue (e.unitOwner m) m (d.unit m).transitLine)) := by
  have hnext : nextShare (({ s.dev with out := [] } : Dev).unit m).shareTenths = some (100, 50) := nextShare_last hlow hshare
  have hend : ∀ t : Nat, t * 100 / 100 = t := fun t => Nat.mul_div_cancel t (by decide)
  refine liveStep_guarded hlive (Bool.and_eq_true_iff.mpr ⟨hruns, (congrArg not hopen).trans rfl⟩) ?_
  simp only [hnext, hend, if_true, beq_self_eq_true, Bool.or_true]
  rfl

end TransitRows

section Hour

theorem ctrGet_ctrPut (ctr : List (Ctr × U64)) (k e : Ctr) (v : U64) : ctrGet (ctrPut ctr k v) e = if e = k then v else ctrGet ctr e := by
  induction ctr with
  | nil => simp [ctrPut, ctrGet, eq_comm]
  | cons x ctr ih =>
    obtain ⟨c, w⟩ := x
    by_cases hck : c = k
    · by_cases hek : e = k
      · simp [ctrPut, ctrGet, hck, hek]
      · simp [ctrPut, ctrGet, hck, hek, Ne.symm hek]
    · by_cases hce : c = e
      · have hek : ¬ e = k := hce ▸ hck
        simp [ctrPut, ctrGet, hce, hek]
      · simp [ctrPut, ctrGet, hck, hce, ih]

/-- The hour restarts the counters of new locations of some units, and no other (R156). -/
theorem ctrGet_restarted (ms : List Nat) (ctr : List (Ctr × U64)) (e : Ctr) :
    ctrGet (ms.foldl (fun c m => if ctrGet c (.diUnitNew m) = 0 then c else ctrPut c (.diUnitNew m) 0) ctr) e =
      if e ∈ ms.map Ctr.diUnitNew then 0 else ctrGet ctr e := by
  induction ms generalizing ctr with
  | nil => simp
  | cons m ms ih =>
    have hone : ctrGet (if ctrGet ctr (.diUnitNew m) = 0 then ctr else ctrPut ctr (.diUnitNew m) 0) e =
        if e = .diUnitNew m then 0 else ctrGet ctr e := by
      split
      · split
        · simp [*]
        · rfl
      · exact ctrGet_ctrPut ctr _ e 0
    rw [List.foldl_cons, ih, hone]
    by_cases hrest : e ∈ ms.map Ctr.diUnitNew
    · simp [hrest]
    · simp [hrest]

/-- The device at the end of an hour of the correction rate (R156). -/
def Dev.hourTurned (d : Dev) : Dev :=
  let e := d.reach (d.hourStart + 3600000000000)
  let last := fun (near : Bool) =>
    (e.units.filter (fun u => u.2.trained && decide (48 ≤ u.1) == near)).map (fun u => (e.count (.diUnitNew u.1)).toNat)
  { e with
    hourStart := e.now
    peerMedian := (medianTwice (last false), medianTwice (last true))
    ctr := (List.range 112).foldl (fun c m => if ctrGet c (.diUnitNew m) = 0 then c else ctrPut c (.diUnitNew m) 0) e.ctr
    units := e.units.map (fun u => (u.1, { u.2 with rateAlarm := false })) }

theorem exec_ceRateHourRollover {s : State} (hlive : s.dev.sys.live = true) :
    exec .ceRateHourRollover s = .next (s.onDev Dev.hourTurned) := liveStep_live _ _ hlive

theorem Dev.count_hourTurned (d : Dev) (c : Ctr) :
    d.hourTurned.count c = if c ∈ (List.range 112).map Ctr.diUnitNew then 0 else d.count c := by
  simp only [Dev.count, Dev.hourTurned, ctrGet_restarted, Dev.reach_frame]

end Hour

end Sys2Proof.Machine

/-! ## Refresh and row disturbance (R173 to R175) -/

namespace Sys2Proof.Machine

open Sys2Proof Sys2Proof.Safety

/-- Where nothing waits at a unit nothing is tried again. -/
theorem Dev.retryHeld_none {d : Dev} {m : Nat} (h : (d.unit m).held = []) : d.retryHeld m = d := if_pos h

/-- A unit at the end of a bank's throttle window: the window repeats while the bank's count is at or above RAAIMT, and else ends with its
episode (R175). -/
def MemUnit.windowEnded (u : MemUnit) (b : Nat) (t : Throttle) (now : Nat) : MemUnit :=
  if u.raaimt ≤ tgetD u.raa b 0 then
    { u with throttles := u.throttles.map (fun (x : Throttle) =>
        if x.bank == b then { x with until_ := t.until_ + 64000, left := streamRate u b t.stream now / 2 } else x) }
  else
    { u with throttles := u.throttles.filter (fun x => x.bank != b), throttleEpisode := u.throttleEpisode.filter (fun x => x != b) }

theorem MemUnit.windowEnded_held (u : MemUnit) (b : Nat) (t : Throttle) (now : Nat) : (u.windowEnded b t now).held = u.held := by
  rw [MemUnit.windowEnded]
  split <;> rfl

section RefreshRows

variable {s : State} {m k n b : Nat} (hlive : s.dev.sys.live = true)
include hlive

/-- REFRESH_DUE while reads are queued and fewer than 8 refreshes are due: one more is postponed (R173). -/
theorem exec_refreshDue_postponed (hpower : s.dev.powered m = true) (hdue : tgetD (s.dev.unit m).postponed k 0 = n) (hfew : n + 1 < 8) :
    exec (.refreshDue m k true) s =
      .next (s.onDev fun d => d.modUnit m fun u => { u with postponed := tset u.postponed k (n + 1) }) := by
  have hdue' : tgetD (({ s.dev with out := [] } : Dev).unit m).postponed k 0 = n := hdue
  refine liveStep_guarded hlive hpower ?_
  simp only [hdue', decide_eq_true hfew, Bool.and_self, if_true]

/-- REFRESH_DUE while no read is queued, or 8 refreshes are due: they are issued (R173). -/
theorem exec_refreshDue_issued {queued : Bool} (hpower : s.dev.powered m = true) (hdue : tgetD (s.dev.unit m).postponed k 0 = n)
    (hnow : queued = false ∨ 8 ≤ n + 1) :
    exec (.refreshDue m k queued) s = .next (s.onDev fun d => d.issueRefresh m k (n + 1)) := by
  have hdue' : tgetD (({ s.dev with out := [] } : Dev).unit m).postponed k 0 = n := hdue
  have hissue : (queued && decide (n + 1 < 8)) = false := by
    rcases hnow with rfl | hmany
    · rfl
    · rw [decide_eq_false (Nat.not_lt.mpr hmany), Bool.and_false]
  refine liveStep_guarded hlive hpower ?_
  simp only [hdue', hissue, Bool.false_eq_true, if_false]

/-- REFRESH_CATCHUP issues the refreshes that were postponed (R173). -/
theorem exec_refreshCatchup (hpower : s.dev.powered m = true) (hdue : tgetD (s.dev.unit m).postponed k 0 = n) (hsome : n ≠ 0) :
    exec (.refreshCatchup m k) s = .next (s.onDev fun d => d.issueRefresh m k n) := by
  have hdue' : tgetD (({ s.dev with out := [] } : Dev).unit m).postponed k 0 = n := hdue
  refine liveStep_guarded hlive (Bool.and_eq_true_iff.mpr ⟨?_, hpower⟩) ?_
  · rw [hdue']
    exact bne_iff_ne.mpr hsome
  · simp only [hdue']

/-- ROW_THROTTLE_WINDOW_END ends the bank's window at its time, and lets nothing on that did not wait (R175). -/
theorem exec_rowThrottleWindowEnd {t : Throttle} (hfind : (s.dev.unit m).throttles.find? (fun x => x.bank == b) = some t)
    (hheld : (s.dev.unit m).held = []) :
    exec (.rowThrottleWindowEnd m b) s = .next { s with dev :=
      { s.dev with out := [], now := max s.dev.now t.until_ }.modUnit m fun u => u.windowEnded b t (max s.dev.now t.until_) } := by
  have hfind' : (({ s.dev with out := [] } : Dev).unit m).throttles.find? (fun x => x.bank == b) = some t := hfind
  refine liveStep_of_live hlive ?_
  simp only [hfind']
  refine Dev.retryHeld_none (d := { s.dev with out := [], now := max s.dev.now t.until_ }.modUnit m _) ?_
  rw [Dev.unit_modUnit_same]
  exact (MemUnit.windowEnded_held (s.dev.unit m) b t (max s.dev.now t.until_)).trans hheld

end RefreshRows

/-- Settles O23: each clause is its row's equation, or what a check of one line does by the class of its word. -/
theorem transitAndRefresh : Obligations.TransitAndRefresh := by
  unfold Obligations.TransitAndRefresh
  refine ⟨?start, ?check, ?valid, ?corrected, ?bad, ?share, ?overdue, ?hour, ?postponed, ?issued, ?catchUp, ?throttleEnds, ?throttleAgain,
    ?crossing⟩
  case start =>
    intro s m hlive hruns hdone
    exact liveStep_guarded hlive (Bool.and_eq_true_iff.mpr ⟨hruns, hdone⟩) (Dev.passStart_next _ m)
  case check =>
    rintro s m l x1 x2 e hlive hruns hopen rfl rfl
    exact liveStep_guarded hlive (Bool.and_eq_true_iff.mpr ⟨hruns, (congrArg not hopen).trans rfl⟩) rfl
  case valid =>
    intro d m l x2 hraw hvalid
    exact Dev.scrubLine_valid x2 hraw hvalid
  case corrected =>
    intro d m l p x1 x2 hraw h1 hclean
    exact Dev.scrubLine_corrected x2 hraw (classify_of_single h1 hclean)
  case bad =>
    intro d m l x1 x2 hraw h1 h2 hmeta halone hspare
    exact (Dev.scrubLine_uncorrectable hraw (classify_of_double h1) (classify_of_double h2)).trans (Dev.scrubBad_alone hmeta halone hspare)
  case share =>
    intro s m old pct new hlive hruns hopen hold h
    exact exec_transitEscalate_within hlive hruns hopen hold h
  case overdue =>
    intro s m hlive hruns hopen hlow hshare
    exact exec_transitEscalate_last hlive hruns hopen hlow hshare
  case hour =>
    intro s hlive
    refine ⟨_, exec_ceRateHourRollover hlive, fun m hm => ?_, fun c hc => ?_, rfl, rfl, rfl, rfl⟩
    · exact (Dev.count_hourTurned _ _).trans (if_pos (List.mem_map_of_mem (List.mem_range.mpr hm)))
    · refine (Dev.count_hourTurned _ _).trans (if_neg fun hmem => ?_)
      obtain ⟨m, -, hm⟩ := List.mem_map.mp hmem
      exact hc m hm.symm
  case postponed =>
    intro s m k n hlive hpower hdue hfew
    exact exec_refreshDue_postponed hlive hpower hdue hfew
  case issued =>
    intro s m k n queued hlive hpower hdue hnow
    exact exec_refreshDue_issued hlive hpower hdue hnow
  case catchUp =>
    intro s m k n hlive hpower hdue hsome
    exact exec_refreshCatchup hlive hpower hdue hsome
  case throttleEnds =>
    intro s m b t hlive hfind hbelow hheld
    refine (exec_rowThrottleWindowEnd hlive hfind hheld).trans
      (congrArg (fun d => Host.Outcome.next { s with dev := d }) (Dev.modUnit_congr ?_))
    exact if_neg (Nat.not_le.mpr hbelow)
  case throttleAgain =>
    intro s m b t hlive hfind hreached hheld
    refine (exec_rowThrottleWindowEnd hlive hfind hheld).trans
      (congrArg (fun d => Host.Outcome.next { s with dev := d }) (Dev.modUnit_congr ?_))
    exact if_pos hreached
  case crossing =>
    intro s m a b h hlive htrained
    exact liveStep_guarded hlive htrained rfl

end Sys2Proof.Machine

/-! ## Pages that move (R40, R41, R45 to R48, R139, R169) -/

namespace Sys2Proof.Machine

open Sys2Proof Sys2Proof.Safety

/-! ### Rebuilds (R169) -/

section Rebuilds

variable {d e : Dev} {u p slot v f : Nat} {b : Rebuild}

theorem Dev.haveCopy_units (d : Dev) (p : Nat) (rebuild : Bool) (n : Nat) : (d.haveCopy p rebuild n).units = d.units := by
  rw [Dev.haveCopy]
  split
  · rfl
  · rw [Dev.openCopy]
    split <;> rfl

/-- The one rebuild that runs is the one that its unit's copies belong to. -/
theorem Dev.find?_rebuild_single (hone : d.rebuilds = [b]) (hunit : b.unit = u) (hstarted : b.started = true) :
    d.rebuilds.find? (fun r => r.unit == u && r.started) = some b := by
  simp [hone, hunit, hstarted]

variable (hone : d.rebuilds = [b]) (hunit : b.unit = u) (hstarted : b.started = true) (hcur : b.cur = some (slot, v, f))
  (hidle : (d.unit u).retrain = none) (hcleared : (d.unit v).cleared.contains f = true) (howner : (d.unitOwner u).getD 0 = p)
include hone hunit hstarted hcur hidle hcleared howner

/-- A rebuild's page before the last is copied, and the cursor moves on (R169). -/
theorem Dev.rebuildStep_copied (hmore : b.cursor + 1 < extentPages) (hruns : (d.haveCopy p true u).copyRuns p true u = true)
    (hcopied : ((d.haveCopy p true u).rebuildPage u slot v f b.cursor).endCopy true u = e) (hstill : e.rebuilds = [b]) :
    d.rebuildStep u = { e with rebuilds := [{ b with cursor := b.cursor + 1 }] } := by
  subst howner
  simp only [Dev.rebuildStep, Dev.find?_rebuild_single hone hunit hstarted, hcur, hidle, hcleared, hruns, hcopied, hstill, hmore, hunit,
    List.map_cons, List.map_nil, beq_self_eq_true, Option.isSome_none, Bool.not_true, Bool.false_eq_true, if_true, if_false]

/-- A rebuild's page waits for the chains before it on its mover (R139). -/
theorem Dev.rebuildStep_waits (hwaits : (d.haveCopy p true u).copyRuns p true u = false) : d.rebuildStep u = d.haveCopy p true u := by
  subst howner
  simp only [Dev.rebuildStep, Dev.find?_rebuild_single hone hunit hstarted, hcur, hidle, hcleared, hwaits, Option.isSome_none, Bool.not_true,
    Bool.not_false, Bool.false_eq_true, if_true, if_false]

end Rebuilds

/-! ### Migrations (R45 to R48) -/

section Migrations

variable {d e : Dev} {r : Nat} {reg : Region}

/-- Nothing waits at any memory unit. -/
theorem Dev.held_of_units (h : d.units.all (fun u => u.2.held.isEmpty) = true) (m : Nat) : (d.unit m).held = [] := by
  rcases tgetD_eq_or_mem d.units m {} with hnone | hmem
  · rw [Dev.unit, hnone]
  · exact List.isEmpty_iff.mp (List.all_eq_true.mp h _ hmem)

/-- Where nothing waits, nothing goes on at the units of a list of extents. -/
theorem foldl_retryHeld_none (h : ∀ m, (d.unit m).held = []) (es : List Extent) : es.foldl (fun e x => e.retryHeld (extM x)) d = d := by
  induction es with
  | nil => rfl
  | cons x es ih => rw [List.foldl_cons, Dev.retryHeld_none (h _), ih]

/-- The device with region `r` at its new placement, and no translation of it kept (R48). -/
def Dev.replaced (d : Dev) (r : Nat) (reg : Region) : Dev :=
  { d with regions := tset d.regions r (reg.installed d.serial), serial := d.serial + 1 }.keepTrans (fun x => x.region != r)

/-- The device whose page copy of region `r` was the last: the new placement is in force, and the old slots are given back (R48). -/
def Dev.migrated (d : Dev) (r : Nat) (reg : Region) : Dev :=
  ((d.replaced r reg).giveBack (reg.extents ++ reg.parity.map ParityGroup.parity)).commandDone reg.migrateOp (some reg.partition) .ok

section Copies

variable (hreg : tget d.regions r = some reg) (hmigrating : reg.migrating = true)
  (hcleared : d.allCleared (reg.newExtents ++ reg.newParity.map ParityGroup.parity) = true)
  (hruns : (d.haveCopy reg.partition false r).copyRuns reg.partition false r = true)
  (hcopied : ((d.haveCopy reg.partition false r).migratePage reg reg.cursor).endCopy false r = e) (hstill : tget e.regions r = some reg)
include hreg hmigrating hcleared hruns hcopied hstill

theorem Dev.migrateCopied_next (hmore : reg.cursor + 1 < reg.extents.length * extentPages) :
    d.migrateCopied r = { e with regions := tset e.regions r { reg with cursor := reg.cursor + 1 } } := by
  simp only [Dev.migrateCopied, hreg, hmigrating, hcleared, hruns, hcopied, hstill, hmore, Bool.not_true, Bool.or_self, Bool.false_eq_true,
    if_true, if_false]

theorem Dev.migrateCopied_last (hlast : reg.cursor + 1 = reg.extents.length * extentPages) : d.migrateCopied r = e.migrated r reg := by
  have hend : ¬ reg.cursor + 1 < reg.extents.length * extentPages := hlast.not_lt
  simp only [Dev.migrateCopied, hreg, hmigrating, hcleared, hruns, hcopied, hstill, hend, Bool.not_true, Bool.or_self, Bool.false_eq_true,
    if_false]
  rfl

end Copies

/-- MIGRATE_PAGE_COPIED of a region, where its copy leaves nothing waiting. -/
theorem exec_migratePageCopied {s : State} (hlive : s.dev.sys.live = true) (hreg : tget s.dev.regions r = some reg)
    (hcopied : { s.dev with out := [] }.migrateCopied r = e) (hheld : ∀ m, (e.unit m).held = []) :
    exec (.migratePageCopied r) s = .next { s with dev := e } := by
  have hreg' : tget ({ s.dev with out := [] } : Dev).regions r = some reg := hreg
  refine liveStep_of_live hlive ?_
  simp only [hreg', hcopied, Option.map_some, Option.getD_some, foldl_retryHeld_none hheld]

/-! ### What giving slots back does (R48, R265) -/

/-- Giving slots back leaves the ports, the regions and the arrays. -/
theorem Dev.giveBack_frame (es : List Extent) (d : Dev) :
    (d.giveBack es).ports = d.ports ∧ (d.giveBack es).regions = d.regions ∧ (d.giveBack es).pool = d.pool := by
  induction es generalizing d with
  | nil => exact ⟨rfl, rfl, rfl⟩
  | cons x es ih => exact ih _

theorem Dev.giveBack_held (es : List Extent) (d : Dev) (k : Nat) : ((d.giveBack es).unit k).held = (d.unit k).held := by
  induction es generalizing d with
  | nil => rfl
  | cons x es ih =>
    exact (ih _).trans (Dev.unit_modUnit_keeps (d := d) (m := extM x)
      (u := fun u => { u with cleared := u.cleared.filter (fun i => i != x.slot) }) MemUnit.held rfl k)

/-- The slots that wait to be cleared, with one more slot. -/
theorem mem_noted {α : Type} [BEq α] [LawfulBEq α] (w : List α) (k x : α) :
    x ∈ (if w.contains k then w else w ++ [k]) ↔ x = k ∨ x ∈ w := by
  split
  · have hk : k ∈ w := List.contains_iff_mem.mp ‹_›
    exact ⟨.inr, fun h => h.elim (fun hx => hx ▸ hk) id⟩
  · rw [List.mem_append, List.mem_singleton, or_comm]

/-- Slots that are given back wait to be cleared, with those that waited (R265). -/
theorem Dev.mem_giveBack_waitClear (es : List Extent) (d : Dev) (k : Nat × Nat) :
    k ∈ (d.giveBack es).waitClear ↔ k ∈ d.waitClear ∨ ∃ x ∈ es, k = (extM x, x.slot) := by
  induction es generalizing d with
  | nil => simp [Dev.giveBack]
  | cons x es ih =>
    refine (ih _).trans ?_
    simp only [mem_noted, List.mem_cons, exists_eq_or_imp]
    tauto

/-! ### The end of a long command (R295) -/

/-- The end of a long command is an event, and leaves the units, the ports and the slots that wait. -/
theorem Dev.commandDone_frame (d : Dev) (op part : Option Nat) (st : Status) :
    (d.commandDone op part st).units = d.units ∧ (d.commandDone op part st).ports = d.ports ∧
    (d.commandDone op part st).waitClear = d.waitClear := by
  cases op with
  | none => exact ⟨rfl, rfl, rfl⟩
  | some n => simp only [Dev.commandDone, Dev.raise_frame, and_self]

theorem kept_commandDone {P : Pool → Tab Region → Prop} (hP : KeptByWrites P) (h : P d.pool d.regions) (op part : Option Nat)
    (st : Status) : P (d.commandDone op part st).pool (d.commandDone op part st).regions := by
  cases op with
  | none => exact h
  | some n =>
    refine kept_raise hP ?_ _
    exact h

/-- The record of region `r` is `reg`, but for what its parity groups record (R165). -/
def Stands (r : Nat) (reg : Region) (_ : Pool) (rs : Tab Region) : Prop :=
  ∃ ps qs, tget rs r = some { reg with parity := ps, newParity := qs }

/-- Marking a parity range stale changes what parity groups record alone (R165). -/
theorem Dev.markStale_regions (d : Dev) (m line : Nat) :
    ∃ g : Nat × Region → Nat × Region, (∀ x, (g x).1 = x.1 ∧ ∃ ps qs, (g x).2 = { x.2 with parity := ps, newParity := qs }) ∧
      (d.markStale m line).regions = d.regions.map g := by
  have hsame : ∃ g : Nat × Region → Nat × Region,
      (∀ x, (g x).1 = x.1 ∧ ∃ ps qs, (g x).2 = { x.2 with parity := ps, newParity := qs }) ∧ d.regions = d.regions.map g :=
    ⟨id, fun x => ⟨rfl, x.2.parity, x.2.newParity, rfl⟩, (List.map_id _).symm⟩
  rw [Dev.markStale]
  split
  · split
    · refine ⟨_, fun x => ?_, rfl⟩
      split
      · exact ⟨rfl, _, _, rfl⟩
      · exact ⟨rfl, x.2.parity, x.2.newParity, rfl⟩
    · exact hsame
  · exact hsame

/-- A write of a line changes no placement of a region (R165). -/
theorem keptByWrites_stands (r : Nat) (reg : Region) : KeptByWrites (Stands r reg) := by
  rintro d m line x ⟨ps, qs, hreg⟩
  obtain ⟨g, hg, hmap⟩ := Dev.markStale_regions { d with pool := (d.parityPool m line).store m line x } m line
  obtain ⟨-, ps', qs', hrecord⟩ := hg (r, { reg with parity := ps, newParity := qs })
  have hput : (d.putLine m line x).regions = d.regions.map g := hmap
  refine ⟨ps', qs', ?_⟩
  rw [hput, tget_map (fun y => (hg y).1), hreg, Option.map_some, hrecord]

/-! ### What holds after the last page (R48) -/

theorem Dev.migrated_held (h : ∀ k, (d.unit k).held = []) (k : Nat) : ((d.migrated r reg).unit k).held = [] := by
  obtain ⟨hunits, -⟩ := Dev.commandDone_frame ((d.replaced r reg).giveBack (reg.extents ++ reg.parity.map ParityGroup.parity))
    reg.migrateOp (some reg.partition) .ok
  rw [Dev.migrated, Dev.unit, hunits]
  exact (Dev.giveBack_held _ (d.replaced r reg) k).trans (h k)

theorem Dev.migrated_stands (d : Dev) (r : Nat) (reg : Region) :
    Stands r (reg.installed d.serial) (d.migrated r reg).pool (d.migrated r reg).regions := by
  obtain ⟨-, hregions, -⟩ := Dev.giveBack_frame (reg.extents ++ reg.parity.map ParityGroup.parity) (d.replaced r reg)
  refine kept_commandDone (keptByWrites_stands r _) ?_ _ _ _
  rw [hregions]
  exact ⟨_, _, tget_tset_same d.regions r (reg.installed d.serial)⟩

theorem Dev.keepTrans_port (d : Dev) (f : TransEntry → Bool) (n : Nat) : ((d.keepTrans f).port n).trans = (d.port n).trans.filter f := by
  have hport : tget (d.keepTrans f).ports n = (tget d.ports n).map fun p => { p with trans := p.trans.filter f } :=
    tget_map (g := fun (p : Nat × Port) => (p.1, ({ p.2 with trans := p.2.trans.filter f } : Port))) (fun _ => rfl) d.ports n
  rw [Dev.port, Dev.port, tgetD, tgetD, hport]
  cases tget d.ports n <;> rfl

/-- No port keeps a translation of a region that has moved (R15, R48). -/
theorem Dev.migrated_trans (d : Dev) (r : Nat) (reg : Region) (n : Nat) : ∀ x ∈ ((d.migrated r reg).port n).trans, x.region ≠ r := by
  obtain ⟨-, hdone, -⟩ := Dev.commandDone_frame ((d.replaced r reg).giveBack (reg.extents ++ reg.parity.map ParityGroup.parity))
    reg.migrateOp (some reg.partition) .ok
  obtain ⟨hback, -⟩ := Dev.giveBack_frame (reg.extents ++ reg.parity.map ParityGroup.parity) (d.replaced r reg)
  have hport : (d.migrated r reg).port n = (d.replaced r reg).port n := congrArg (fun ps => tgetD ps n ({} : Port)) (hdone.trans hback)
  intro x hx
  rw [hport, Dev.replaced, Dev.keepTrans_port, List.mem_filter] at hx
  exact bne_iff_ne.mp hx.2

/-- The old extents wait to be cleared (R48, R265). -/
theorem Dev.migrated_waitClear (d : Dev) {r : Nat} {reg : Region} {x : Extent} (hx : x ∈ reg.extents) :
    (extM x, x.slot) ∈ (d.migrated r reg).waitClear := by
  obtain ⟨-, -, hdone⟩ := Dev.commandDone_frame ((d.replaced r reg).giveBack (reg.extents ++ reg.parity.map ParityGroup.parity))
    reg.migrateOp (some reg.partition) .ok
  rw [Dev.migrated, hdone]
  exact (Dev.mem_giveBack_waitClear _ _ _).mpr (.inr ⟨x, List.mem_append_left _ hx, rfl⟩)

end Migrations

/-! ### Promotion and summary pages (R40, R41) -/

section Promotion

variable {d e : Dev} {p r k : Nat} {reg : Region}

/-- The oldest region that can go back to the near tier goes, where the pool keeps 1 GiB (R40). -/
theorem Dev.nearPromote_oldest {rest : List (Nat × Region)} (holdest : d.demoted p = (r, reg) :: rest)
    (hroom : reg.extents.length * 4096 + 16384 ≤ d.poolLeft p)
    (hstart : d.startMigration r reg.width .nearIfFree true 25 reg.salt none = some e) : d.nearPromote p = e := by
  simp only [Dev.nearPromote, holdest, List.findSome?_cons, if_pos hroom, hstart, Option.getD_some]

/-- The one old page that no descriptor reads any longer is freed (R41). -/
theorem Dev.oldPages_freed {js : List Nat} (hone : (d.pages r).moved = [(false, k, js)]) (hread : ∀ i ∈ js, d.job i = none) :
    d.oldPages r = (d.modPages r fun x => { x with moved := [] }).setUsed r k false := by
  have hfree : js.any (fun i => (d.job i).isSome) = false := List.any_eq_false.mpr fun i hi => by simp [hread i hi]
  have hparts : [(false, k, js)].partition (fun x => x.2.2.any fun i => (d.job i).isSome) = ([], [(false, k, js)]) := by
    simp [List.partition, List.partition.loop, hfree]
  simp only [Dev.oldPages, hone, hparts, List.foldl_cons, List.foldl_nil, Bool.false_eq_true, if_false]

/-- A row of the islands whose accesses meet nothing to wait for (R253). -/
theorem liveStep_windowed {s : State} {op : Dev → Dev} (hlive : s.dev.sys.live = true) (hop : op (Safety.ready s.dev) = e)
    (hu : Undisturbed s.dev e) : liveStep (fun d => d.windowed op) s = .next { s with dev := e } := by
  obtain ⟨hagain, hdone, -⟩ := hu
  exact liveStep_of_live hlive (Dev.windowed_undisturbed (d := { s.dev with out := [] }) hop hagain hdone)

/-- A summary page moves to the other tier: it is copied, its count goes along, and every map entry that names it names the new page; the
old one stays for the descriptors that read it (R41). -/
theorem Dev.summaryMove_moves {i : Nat} {near : Bool} {o : Obj} {old new : Bool × Nat} {d1 d2 d3 : Dev}
    (hreg : tget d.regions r = some reg) (hmover : d.idleMover reg.partition = true) (ho : d.obj r i = o) (hstate : o.state ≠ .free)
    (hflat : o.flat = false) (hchunk : o.chunkPages ≠ 0) (hsummary : o.kvChunkPages ≤ p % o.chunkPages)
    (hold : d.mappedPage r i p = some old) (hother : old.1 ≠ near)
    (htaken : (if near = true then (d.takeNear reg.partition).map (fun x => ((true, x.1), x.2))
      else (d.takePage r).map (fun x => ((false, x.1), x.2))) = some (new, d1))
    (hcopied : d1.copyPage r old new = d2) (hcounted : (d2.setCount r new ((d2.pages r).count old)).setCount r old 0 = d3) :
    d.summaryMove r i p near =
      (((d3.pages r).maps.flatMap (fun m => (m.2.filter (fun y => y.2 == old)).map (fun y => (m.1, y.1)))).foldl
        (fun f y => f.setEntry r y.1 y.2 new) d3).modPages r (fun g => { g with moved := g.moved ++ [(old.1, old.2,
          (d2.jobs.filter (fun j => j.snap.any (fun s => s.names r old) || j.before.any (fun s => s.names r old))).map
            (fun j => j.id))] }) := by
  subst hcopied hcounted
  simp only [Dev.summaryMove, hreg, hmover, ho, hstate, hflat, hchunk, Nat.not_lt.mpr hsummary, hold, hother, htaken, Bool.not_true,
    decide_false, Bool.or_self, Bool.false_eq_true, if_false]

end Promotion

/-- Settles O24: each clause is its row's equation on the device as it finds it, with what the last page of a migration leaves. -/
theorem pagesMove : Obligations.PagesMove := by
  unfold Obligations.PagesMove
  refine ⟨?copied, ?waits, ?page, ?last, ?promote, ?free, ?move⟩
  case copied =>
    intro s u p slot v f b d0 e hlive hone hunit hstarted hcur hidle hcleared hmore howner hchain hruns hcopied hstill hheld
    subst hchain
    refine liveStep_of_live hlive ?_
    exact (congrArg (fun x : Dev => x.retryHeld u) (Dev.rebuildStep_copied (d := { s.dev with out := [] }) hone hunit hstarted hcur hidle
      hcleared howner hmore hruns hcopied hstill)).trans (Dev.retryHeld_none hheld)
  case waits =>
    intro s u p slot v f b d0 hlive hone hunit hstarted hcur hidle hcleared howner hchain hwaits hheld
    subst hchain
    have hunits := Dev.haveCopy_units { s.dev with out := [] } p true u
    refine liveStep_of_live hlive ?_
    refine (congrArg (fun x : Dev => x.retryHeld u) (Dev.rebuildStep_waits (d := { s.dev with out := [] }) hone hunit hstarted hcur hidle
      hcleared howner hwaits)).trans (Dev.retryHeld_none ?_)
    rw [Dev.unit, hunits]
    exact hheld
  case page =>
    intro s r reg d0 e hlive hreg hmigrating hcleared hmore hchain hruns hcopied hstill hheld
    subst hchain
    exact exec_migratePageCopied hlive hreg
      (Dev.migrateCopied_next (d := { s.dev with out := [] }) hreg hmigrating hcleared hruns hcopied hstill hmore) (Dev.held_of_units hheld)
  case last =>
    intro s r reg d0 e hlive hreg hmigrating hcleared hlast hchain hruns hcopied hstill hheld
    subst hchain
    have hstep := exec_migratePageCopied hlive hreg
      (Dev.migrateCopied_last (d := { s.dev with out := [] }) hreg hmigrating hcleared hruns hcopied hstill hlast)
      (Dev.migrated_held (Dev.held_of_units hheld))
    obtain ⟨ps, qs, hnew⟩ := e.migrated_stands r reg
    exact ⟨_, _, hstep, hnew, rfl, rfl, rfl, rfl, rfl, e.migrated_trans r reg, fun x hx => e.migrated_waitClear hx⟩
  case promote =>
    intro s p r reg rest e hlive holdest hroom hstart
    exact liveStep_of_live hlive (Dev.nearPromote_oldest (d := { s.dev with out := [] }) holdest hroom hstart)
  case free =>
    intro s r k js e hlive hone hread he hu
    exact liveStep_windowed hlive ((Dev.oldPages_freed (d := Safety.ready s.dev) hone hread).trans he) hu
  case move =>
    intro s r i p near reg o old new d1 d2 d3 e hlive hreg hmover ho hstate hflat hchunk hsummary hold hother htaken hcopied hcounted he hu
    exact liveStep_windowed hlive ((Dev.summaryMove_moves (d := Safety.ready s.dev) hreg hmover ho hstate hflat hchunk hsummary hold hother
      htaken hcopied hcounted).trans he) hu

end Sys2Proof.Machine

/-! ## What COUNTERS_READ leaves of the waits that run (R202, R231) -/

namespace Sys2Proof.Machine

open Sys2Proof Sys2Proof.Safety

section CountersRead

/-- COUNTERS_READ reports a block with the waits that run counted up to now; the device itself does not count them. -/
theorem exec_countersRead {s : State} {h : CmdHdr} {k : Nat} {ws : List U64} (ha : Accepts s h { device := true, fm := true } none)
    (hws : (counted { s.dev with out := [] }).counterBlock k = some ws) :
    exec (.countersRead h k) s = .next (answered s h 0x0804 .ok [BitVec.ofNat 64 (8 * ws.length)] fun d => staged d h ws) := by
  refine huanikStep_of_accepts ha rfl ?_
  rw [counted] at hws
  simp only [hws]
  rfl

theorem staged_ctr (d : Dev) (h : CmdHdr) (ws : List U64) : (staged d h ws).ctr = d.ctr := rfl

/-- An answer to the fabric manager changes no counter. -/
theorem answered_fm_ctr {s : State} {h : CmdHdr} {opcode : Nat} {st : Status} {outs : List U64} {f : Dev → Dev} (hfm : h.src = .fm) :
    (answered s h opcode st outs f).dev.ctr = (f { s.dev with out := [] }).ctr := by
  simp only [answered, State.answer, hfm]
  rfl

/-- A running device whose port 3 has been excluded since 4000 ns from the spray set of ports 3 and 4, which a route in force names; it
is 5000 ns now. -/
def excludedPort : State :=
  { dev :=
      { now := 5000
        sys := { stage := .running, resetN := true }
        ports := [(3, { state := .active, exclSince := some 4000 }), (4, { state := .active })]
        rt := { v0 := { state := .active, routes := [(5, { spray := 24, escapePort := 3 })] }
                sprays := [{ spray := 24, port := 3, excluded := true }] } } }

/-- The fabric manager's header. -/
def managerHeader : CmdHdr := { src := .fm, seq := 0, partition := 0 }

theorem accepts_excludedPort : Accepts excludedPort managerHeader { device := true, fm := true } none := by decide

/-- The 1000 ns of its exclusion, which counting up to now adds. -/
theorem counted_excludedPort : (counted { excludedPort.dev with out := [] }).ctr = [(.swExcluded 3, 1000)] := by decide +kernel

end CountersRead

/-- Refutes O50: COUNTERS_READ reads the block from a copy in which the waits that run are counted up to now, and keeps the device
whose waits are not, where the statement keeps the counted one. On `excludedPort` the two differ in SW.EXCLUDED of port 3. -/
theorem not_diagCommands : ¬ Obligations.DiagCommands := by
  unfold Obligations.DiagCommands
  rintro ⟨-, -, hcounters, -⟩
  have hblock : (counted { excludedPort.dev with out := [] }).counterBlock 0 = some [0, 0] := by decide +kernel
  have hstated := hcounters excludedPort managerHeader 0 [0, 0] accepts_excludedPort hblock
  have hmodel := exec_countersRead accepts_excludedPort hblock
  have hctr := congrArg (fun t => t.dev.ctr) (Host.Outcome.next.inj (hstated.symm.trans hmodel))
  simp only [answered_fm_ctr (h := managerHeader) rfl, staged_ctr, counted_excludedPort] at hctr
  exact List.cons_ne_nil _ _ hctr

end Sys2Proof.Machine

/-! ## The link layer of a port (Chapter 8) -/

namespace Sys2Proof.Machine

open Sys2Proof Sys2Proof.Safety

/-- The outcome of a command whose work on the device, without the outputs of the command before, is the work stated. -/
theorem devStep_of_eq {s : State} {f g : Dev → Dev} (h : f { s.dev with out := [] } = g { s.dev with out := [] }) :
    devStep f s = .next (s.onDev g) := by
  rw [devStep_eq, State.onDev, State.onDev, h]

section Ports

variable {d : Dev} {n : Nat}

/-- A change of a port rests on its present record alone. -/
theorem Dev.modPort_congr {f g : Port → Port} (h : f (d.port n) = g (d.port n)) : d.modPort n f = d.modPort n g := by
  rw [Dev.port] at h
  rw [Dev.modPort, Dev.modPort, tmod, tmod, h]

/-- Two changes of a port are one. -/
theorem Dev.modPort_modPort (f g : Port → Port) : (d.modPort n f).modPort n g = d.modPort n fun x => g (f x) := by
  simp only [Dev.modPort, tmod, tgetD, tget_tset_same, Option.getD_some, tset_tset]

/-- A port's record does not rest on the outputs of the command before. -/
theorem Dev.port_out (o : List Output) : { d with out := o }.port n = d.port n := rfl

/-- A work that waits for a state of the port is done in that state. -/
theorem Dev.guard_port_state {st : PortState} (f : Dev → Dev) (hstate : (d.port n).state = st) :
    d.guard ((d.port n).state == st) f = f d := by
  rw [hstate, beq_self_eq_true, Dev.guard_true]

end Ports

/-! ### Training, RETRAIN and DOWN (R193 to R199) -/

section LinkStates

variable {d : Dev} {n : Nat}

/-- An entry of RETRAIN that is not the ninth within 10 s is counted, and the port starts its steps afresh (R196). -/
theorem Dev.enterRetrain_few {ts : List Nat}
    (hts : ts = (d.port n).retrainTimes.filter (fun t => decide (d.now < t + 10000000000)) ++ [d.now]) (hfew : ts.length < 9) :
    d.enterRetrain n = (d.bump (.swRetrains n)).modPort n fun x =>
      { x with retrainTimes := ts, state := .retrain, since := d.now, retrainStep := 0, phase := 0, nakSince := none
               badRun := 0, badTimes := [], replayFrom := none, txKey := 0, rxKey := 0, rxNextKey := 0 } := by
  subst hts
  exact if_neg (Nat.not_le.mpr hfew)

/-- The ninth entry of RETRAIN within 10 s takes the port DOWN and raises SW_FLAPPING (R197). -/
theorem Dev.enterRetrain_ninth {ts : List Nat}
    (hts : ts = (d.port n).retrainTimes.filter (fun t => decide (d.now < t + 10000000000)) ++ [d.now]) (hmany : 9 ≤ ts.length) :
    d.enterRetrain n = (((d.bump (.swRetrains n)).modPort n fun x =>
      { x with retrainTimes := ts, state := .retrain, since := d.now, retrainStep := 0, phase := 0, nakSince := none
               badRun := 0, badTimes := [], replayFrom := none, txKey := 0, rxKey := 0, rxNextKey := 0 }).enterDown n true).raise
        { code := .swFlapping, unit := some (.swPort, n), detail0 := some (d.port n).partnerId,
          detail1 := some (BitVec.ofNat 64 ts.length) } := by
  subst hts
  exact if_pos hmany

/-- A backoff before the last attempt ends in DETECT (R194). -/
theorem Dev.backoffEnd_next (hstate : (d.port n).state = .backoff) (hfew : (d.port n).attempt < 16) :
    d.backoffEnd n =
      (d.reach ((d.port n).since + min (2 ^ ((d.port n).attempt - 1)) 1024 * 1000000)).enterDetect n ((d.port n).attempt + 1) := by
  rw [Dev.backoffEnd, if_neg (not_not.mpr hstate), if_neg (Nat.not_le.mpr hfew)]

/-- The last backoff leaves the port ABSENT (R194). -/
theorem Dev.backoffEnd_last (hstate : (d.port n).state = .backoff) (hlast : 16 ≤ (d.port n).attempt) :
    d.backoffEnd n = (d.goTo n .absent).raise
      { code := .swAbsent, unit := some (.swPort, n), detail0 := some (d.port n).partnerId,
        detail1 := some (BitVec.ofNat 64 (d.port n).attempt) } := by
  rw [Dev.backoffEnd, if_neg (not_not.mpr hstate), if_pos hlast]

/-! #### DOWN of a port that holds nothing -/

/-- A class whose head packet is not there and whose waits do not run has nothing to count (R202, R230). -/
theorem Dev.settleWait_idle (t : Nat) (hegress : (d.port n).egress = []) (hstall : (d.port n).stallSince = [])
    (hgate : (d.port n).gateSince = []) : d.settleWait n t = d := by
  simp only [Dev.settleWait, hegress, hstall, hgate, List.find?_nil, Option.map_none, Option.any_none, tget_nil, Option.isNone_none,
    Bool.not_false, Bool.and_self, if_true]

theorem Dev.settleWaits_idle (hegress : (d.port n).egress = []) (hstall : (d.port n).stallSince = [])
    (hgate : (d.port n).gateSince = []) : d.settleWaits n = d := by
  rw [Dev.settleWaits]
  induction List.range 8 with
  | nil => rfl
  | cons t ts ih => rw [List.foldl_cons, Dev.settleWait_idle t hegress hstall hgate, ih]

/-- Where no port is excluded from a spray set and no exclusion runs, none is counted (R231). -/
theorem Dev.settleExcluded_idle (hsprays : d.rt.sprays = []) (hexcl : ∀ k, (d.port k).exclSince = none) : d.settleExcluded = d := by
  rw [Dev.settleExcluded]
  induction d.ports with
  | nil => rfl
  | cons x xs ih => simpa only [List.foldl_cons, hexcl, hsprays, List.any_nil, Bool.and_false, Bool.false_eq_true, if_false] using ih

/-- No port is excluded from a spray set where none that is listed is. -/
theorem exclSince_none_of_all (h : d.ports.all (fun x => x.2.exclSince.isNone) = true) (k : Nat) : (d.port k).exclSince = none := by
  rw [Dev.port, tgetD]
  generalize d.ports = ps at h
  induction ps with
  | nil => rfl
  | cons x xs ih =>
    rw [List.all_cons, Bool.and_eq_true, Option.isNone_iff_eq_none] at h
    rw [tget]
    split
    · exact h.1
    · exact ih h.2

/-- DOWN of a port that holds nothing: its tag moves on, the DOWN is counted, and the link state is a fresh one (R198). -/
theorem Dev.goDown_idle (flapping : Bool) (hunacked : (d.port n).unacked = []) (hegress : (d.port n).egress = [])
    (hpartial : (d.port n).rxPartial = none) (hstall : (d.port n).stallSince = []) (hgate : (d.port n).gateSince = [])
    (hsprays : d.rt.sprays = []) (hexcl : ∀ k, (d.port k).exclSince = none) :
    d.goDown n flapping = ((d.incTag (.port n)).bump (.swDowns n)).modPort n fun x =>
      { x.fresh with state := .down, since := d.now, flapping := flapping } := by
  have hexclAfter : ∀ k, ((((d.incTag (.port n)).bump (.swDowns n)).modPort n fun x =>
      { x.fresh with state := .down, since := d.now, flapping := flapping }).port k).exclSince = none := by
    intro k
    by_cases hk : k = n
    · subst hk
      rw [Dev.port_modPort_same]
      exact hexcl k
    · rw [Dev.port_modPort_other _ _ hk]
      exact hexcl k
  have hunsent : (d.port n).unsent = [] := by rw [Port.unsent, hunacked, hegress]; rfl
  simp only [Dev.goDown, Dev.settleWaits_idle hegress hstall hgate, hpartial, hunsent, Option.isSome_none, Bool.false_eq_true, if_false,
    List.foldl_nil]
  exact Dev.settleExcluded_idle hsprays hexclAfter

/-- A port whose tag may move on, and which does not wait already, goes DOWN at once (R198, R339). -/
theorem Dev.enterDown_free (flapping : Bool) (hwaits : d.downWaits n = false) (htag : d.tagFree (.port n) = true) :
    d.enterDown n flapping = d.goDown n flapping := by
  rw [Dev.enterDown, if_neg (Bool.eq_false_iff.mp hwaits), if_pos htag]

end LinkStates

/-- Settles O31: each clause is the equation of the command's work on the device, by the state of its port. -/
theorem linkStates : Obligations.LinkStates := by
  unfold Obligations.LinkStates
  refine ⟨?detect, ?equalise, ?equaliseAgain, ?align, ?alignAgain, ?bound, ?backoff, ?absent, ?signal, ?lost, ?downEnd, ?alignmentLost,
    ?eyeLow, ?ninth, ?retrainLost, ?retrainLong, ?down⟩
  case detect =>
    intro s n hstate
    exact devStep_of_eq (Dev.guard_port_state (d := { s.dev with out := [] }) _ hstate)
  case equalise =>
    intro s n hstate
    exact devStep_of_eq (by simp only [Dev.port_out, hstate]; rfl)
  case equaliseAgain =>
    intro s n hstate hstep
    refine devStep_of_eq ?_
    simp only [Dev.port_out, hstate]
    exact Dev.modPort_congr (by simp only [Dev.port_out, hstep, Nat.zero_max])
  case align =>
    intro s n hstate
    exact devStep_of_eq (by simp only [Dev.port_out, hstate]; rfl)
  case alignAgain =>
    intro s n hstate hstep
    exact devStep_of_eq (by simp only [Dev.port_out, hstate, hstep, if_true])
  case bound =>
    intro s n t hbound
    exact devStep_of_eq (by simp only [Dev.port_out, hbound]; rfl)
  case backoff =>
    intro s n hstate hfew
    exact devStep_of_eq (Dev.backoffEnd_next (d := { s.dev with out := [] }) hstate hfew)
  case absent =>
    intro s n hstate hlast
    exact devStep_of_eq (Dev.backoffEnd_last (d := { s.dev with out := [] }) hstate hlast)
  case signal =>
    intro s n hstate
    exact devStep_of_eq (Dev.guard_port_state (d := { s.dev with out := [] }) _ hstate)
  case lost =>
    rintro s n (hstate | hstate | hstate) <;> exact devStep_of_eq (by simp only [Dev.port_out, hstate]; rfl)
  case downEnd =>
    intro s n hlive hstate
    exact liveStep_of_live hlive (Dev.guard_port_state (d := { s.dev with out := [] }) _ hstate)
  case alignmentLost =>
    intro s n ts hstate hts hfew
    exact devStep_of_eq ((Dev.guard_port_state (d := { s.dev with out := [] }) _ hstate).trans (Dev.enterRetrain_few hts hfew))
  case eyeLow =>
    intro s n ts hstate hts hfew
    exact devStep_of_eq ((Dev.guard_port_state (d := { s.dev with out := [] }) _ hstate).trans (Dev.enterRetrain_few hts hfew))
  case ninth =>
    intro s n ts hstate hts hmany
    exact devStep_of_eq ((Dev.guard_port_state (d := { s.dev with out := [] }) _ hstate).trans (Dev.enterRetrain_ninth hts hmany))
  case retrainLost =>
    intro s n hstate
    exact devStep_of_eq (by simp only [Dev.port_out, hstate])
  case retrainLong =>
    intro s n hstate
    exact devStep_of_eq (Dev.guard_port_state (d := { s.dev with out := [] }) _ hstate)
  case down =>
    intro s n hstate hunacked hegress hpartial hstall hgate hsprays hexcl hwaits htag
    refine devStep_of_eq ?_
    simp only [Dev.port_out, hstate]
    exact (Dev.enterDown_free (d := { s.dev with out := [] }) false hwaits htag).trans
      (Dev.goDown_idle (d := { s.dev with out := [] }) false hunacked hegress hpartial hstall hgate hsprays (exclSince_none_of_all hexcl))

end Sys2Proof.Machine

/-! ## Frames received on an ACTIVE port (R182 to R186, R201) -/

namespace Sys2Proof.Machine

open Sys2Proof Sys2Proof.Safety

section Frames

variable {d : Dev} {n : Nat} {f : Frame} {c : FrameCond}

/-! ### The header of a good frame leaves the receiver where it is -/

/-- `e` has the clock of `d`, and port `n` is in the state, and expects the frame, that it did in `d`. -/
def ReceiverKept (n : Nat) (d e : Dev) : Prop :=
  e.now = d.now ∧ (e.port n).state = (d.port n).state ∧ (e.port n).rxExp = (d.port n).rxExp

theorem ReceiverKept.refl (d : Dev) : ReceiverKept n d d := ⟨rfl, rfl, rfl⟩

theorem ReceiverKept.trans {a b c : Dev} (hab : ReceiverKept n a b) (hbc : ReceiverKept n b c) : ReceiverKept n a c := by
  obtain ⟨hnow, hstate, hexp⟩ := hab
  obtain ⟨hnow', hstate', hexp'⟩ := hbc
  exact ⟨hnow'.trans hnow, hstate'.trans hstate, hexp'.trans hexp⟩

theorem ReceiverKept.modPort (g : Port → Port) (hstate : (g (d.port n)).state = (d.port n).state)
    (hexp : (g (d.port n)).rxExp = (d.port n).rxExp) : ReceiverKept n d (d.modPort n g) :=
  ⟨rfl, by rw [Dev.port_modPort_same, hstate], by rw [Dev.port_modPort_same, hexp]⟩

@[simp] theorem Dev.port_accrue (x : Ctr) (k : Nat) : (d.accrue x k).port n = d.port n := by
  unfold Dev.accrue
  split <;> rfl

/-- Counting a class's waits changes of its port the waits alone (R202, R230). -/
theorem Dev.port_settleWait (d : Dev) (n t : Nat) :
    ∃ a b, (d.settleWait n t).port n = { d.port n with stallSince := a, gateSince := b } := by
  unfold Dev.settleWait
  dsimp only
  split
  · exact ⟨_, _, rfl⟩
  · rw [Dev.port_modPort_same]
    split
    · split <;> simp only [Dev.port_accrue] <;> exact ⟨_, _, rfl⟩
    · split
      · rw [Dev.port_accrue]
        exact ⟨_, _, rfl⟩
      · exact ⟨_, _, rfl⟩

theorem ReceiverKept.settleWait (d : Dev) (n t : Nat) : ReceiverKept n d (d.settleWait n t) := by
  obtain ⟨a, b, hport⟩ := d.port_settleWait n t
  exact ⟨by simp only [Dev.settleWait_frame], by rw [hport], by rw [hport]⟩

theorem ReceiverKept.takeCredit (d : Dev) (n : Nat) (x : CreditRet) : ReceiverKept n d (d.takeCredit n x) :=
  (ReceiverKept.modPort _ rfl rfl).trans (.settleWait _ n x.tc)

theorem ReceiverKept.takeKeyPhase (d : Dev) (n : Nat) (phase : Bool) : ReceiverKept n d (d.takeKeyPhase n phase) := by
  unfold Dev.takeKeyPhase
  split
  · exact .refl d
  · exact .modPort _ rfl rfl

theorem ReceiverKept.takeAck (d : Dev) (n : Nat) (a : U12) : ReceiverKept n d (d.takeAck n a) := by
  unfold Dev.takeAck
  dsimp only
  split
  · exact .modPort _ rfl rfl
  · exact .refl d

/-- The header of a frame without a negative acknowledgement. -/
theorem Dev.takeHeader_acked (hnak : f.nak = false) :
    d.takeHeader n f =
      (let d1 := ((d.takeKeyPhase n f.keyPhase).takeCredit n f.crA).takeCredit n f.crB
       if f.ackValid then d1.takeAck n f.ackSeq else d1) := by
  simp only [Dev.takeHeader, hnak, Bool.false_eq_true, if_false]

theorem ReceiverKept.takeHeader (hnak : f.nak = false) : ReceiverKept n d (d.takeHeader n f) := by
  have hcredits : ReceiverKept n d (((d.takeKeyPhase n f.keyPhase).takeCredit n f.crA).takeCredit n f.crB) :=
    ((ReceiverKept.takeKeyPhase d n _).trans (.takeCredit _ n _)).trans (.takeCredit _ n _)
  rw [Dev.takeHeader_acked hnak]
  dsimp only
  split
  · exact hcredits.trans (.takeAck _ n _)
  · exact hcredits

/-- So does the header of a good frame, which ends a run of bad ones. -/
theorem ReceiverKept.afterHeader (hnak : f.nak = false) :
    ReceiverKept n d ((d.modPort n fun x => { x with badRun := 0 }).takeHeader n f) :=
  (ReceiverKept.modPort _ rfl rfl).trans (.takeHeader hnak)

/-! ### Good frames -/

theorem Dev.countFrame_clean (d : Dev) (n : Nat) : d.countFrame n {} = d := rfl

/-- A good DATA frame with the expected number: its header, then its slots, at the present time (R184, R185, R188). -/
theorem Dev.takeFrame_data (hstate : (d.port n).state = .active) (htype : f.ftype = 1) (hgood : badFrame f {} = false)
    (hnak : f.nak = false) (hseq : f.seq = (d.port n).rxExp) :
    d.takeFrame n f {} 1 =
      (let d1 := (((d.modPort n fun x => { x with badRun := 0 }).takeKeyPhase n f.keyPhase).takeCredit n f.crA).takeCredit n f.crB
       let d2 := if f.ackValid then d1.takeAck n f.ackSeq else d1
       let d3 := d2.modPort n fun x =>
        { x with rxExp := x.rxExp + 1, rxAny := true, nakSince := none, rxUnacked := x.rxUnacked + 1
                 rxFirstUnacked := if x.rxUnacked = 0 then d.now else x.rxFirstUnacked }
       let d4 := f.slots.foldl (fun e x => e.takeSlot n x) d3
       if 128 ≤ (d4.port n).rxUnacked then d4.sendControl n false else d4) := by
  obtain ⟨hnow, hafter, hexp⟩ := ReceiverKept.afterHeader (d := d) (n := n) hnak
  simp only [Dev.takeFrame, hstate, htype, hgood, Dev.countFrame_clean, hafter, Dev.takeData, Dev.acceptFrame, hseq, hexp, hnow,
    BitVec.sub_self, BitVec.toNat_zero, ne_eq, not_true_eq_false, false_and, or_self, Bool.false_eq_true, if_false, if_true]
  rw [Dev.takeHeader_acked hnak]

/-- A good CONTROL frame: its header, then its eight credit returns (R182). -/
theorem Dev.takeFrame_control (hstate : (d.port n).state = .active) (htype : f.ftype = 2) (hgood : badFrame f {} = false)
    (hnak : f.nak = false) :
    d.takeFrame n f {} 2 =
      (let d1 := (((d.modPort n fun x => { x with badRun := 0 }).takeKeyPhase n f.keyPhase).takeCredit n f.crA).takeCredit n f.crB
       let d2 := if f.ackValid then d1.takeAck n f.ackSeq else d1
       (slotCredits f.control).zipIdx.foldl (fun e x =>
         e.takeCredit n { tc := x.2, hdr := BitVec.ofNat 16 x.1.1, data := BitVec.ofNat 20 x.1.2 }) d2) := by
  obtain ⟨-, hafter, -⟩ := ReceiverKept.afterHeader (d := d) (n := n) hnak
  simp only [Dev.takeFrame, hstate, htype, hgood, Dev.countFrame_clean, hafter, ne_eq, not_true_eq_false, false_and, or_self,
    Bool.false_eq_true, if_false, List.foldl_map, OfNat.ofNat_ne_one]
  rw [Dev.takeHeader_acked hnak]

/-! ### Bad frames (R183, R186, R196) -/

@[simp] theorem Dev.port_countFrame (k : Nat) : (d.countFrame n c).port k = d.port k := by
  unfold Dev.countFrame
  dsimp only
  split <;> split <;> split <;> rfl

@[simp] theorem Dev.now_countFrame : (d.countFrame n c).now = d.now := by
  unfold Dev.countFrame
  dsimp only
  split <;> split <;> split <;> rfl

/-- A port that waits for no replay asks for one (R186). -/
theorem Dev.sendNak_of_none (hnak : (d.port n).nakSince = none) :
    d.sendNak n = (d.sendControl n true).modPort n fun x => { x with nakSince := some d.now } := by
  rw [Dev.sendNak, hnak, Option.isSome_none, if_neg Bool.false_ne_true]

/-- A bad frame of either type is counted. -/
theorem Dev.takeFrame_bad (type : Nat) (hstate : (d.port n).state = .active) (hbad : badFrame f c = true) :
    d.takeFrame n f c type = (d.countFrame n c).takeBad n := by
  simp only [Dev.takeFrame, hstate, hbad, ne_eq, not_true_eq_false, Bool.true_eq_false, and_false, or_self, if_false, if_true]

/-- A bad frame that neither ends a run of 16 nor is the 17th in 1 ms, on a port that waits for no replay, asks for one. -/
theorem Dev.takeFrame_bad_few (type : Nat) (hstate : (d.port n).state = .active) (hbad : badFrame f c = true)
    (hfew : (d.port n).badTimes.length < 16) (hrun : (d.port n).badRun < 15) (hnak : (d.port n).nakSince = none) :
    d.takeFrame n f c type =
      (let d1 := (d.countFrame n c).modPort n fun x =>
        { x with badTimes := x.badTimes.filter (fun t => decide (d.now < t + 1000000)) ++ [d.now], badRun := x.badRun + 1 }
       (d1.sendControl n true).modPort n fun x => { x with nakSince := some d.now }) := by
  have hport : (d.countFrame n c).port n = d.port n := Dev.port_countFrame n
  have hstay : ¬ (16 < ((d.port n).badTimes.filter (fun t => decide (d.now < t + 1000000)) ++ [d.now]).length ∨
      16 ≤ (d.port n).badRun + 1) := by
    have hkept := List.length_filter_le (fun t => decide (d.now < t + 1000000)) (d.port n).badTimes
    rw [List.length_append, List.length_singleton]
    omega
  simp only [Dev.takeFrame_bad type hstate hbad, Dev.takeBad, Dev.port_modPort_same, hport, Dev.now_countFrame, if_neg hstay]
  rw [Dev.sendNak_of_none (by rw [Dev.port_modPort_same, hport, hnak])]
  simp only [Dev.modPort_frame, Dev.now_countFrame]
  refine congrArg (fun e : Dev => (e.sendControl n true).modPort n fun x => { x with nakSince := some d.now }) (Dev.modPort_congr ?_)
  rw [hport]

/-- The 16th bad frame in a row makes the port retrain. -/
theorem Dev.takeFrame_bad_sixteenth (type : Nat) (hstate : (d.port n).state = .active) (hbad : badFrame f c = true)
    (hrun : (d.port n).badRun = 15) :
    d.takeFrame n f c type = ((d.countFrame n c).modPort n fun x =>
      { x with badTimes := x.badTimes.filter (fun t => decide (d.now < t + 1000000)) ++ [d.now], badRun := 16 }).enterRetrain n := by
  have hport : (d.countFrame n c).port n = d.port n := Dev.port_countFrame n
  simp only [Dev.takeFrame_bad type hstate hbad, Dev.takeBad, Dev.port_modPort_same, hport, Dev.now_countFrame, hrun,
    Nat.reduceAdd, le_refl, or_true, if_true]
  refine congrArg (fun e : Dev => e.enterRetrain n) (Dev.modPort_congr ?_)
  rw [hport, hrun]

end Frames

/-- Settles O32: a good frame is its header, which keeps the port ACTIVE and its expected number, then its slots or its credits; a bad
one is counted, and its run and its times decide between a negative acknowledgement and a retrain. -/
theorem framesReceived : Obligations.FramesReceived := by
  unfold Obligations.FramesReceived
  refine ⟨?data, ?control, ?bad, ?sixteenth⟩
  case data =>
    intro s n f hstate htype hgood hnak hseq
    exact devStep_of_eq (Dev.takeFrame_data (d := { s.dev with out := [] }) hstate htype hgood hnak hseq)
  case control =>
    intro s n f hstate htype hgood hnak
    exact devStep_of_eq (Dev.takeFrame_control (d := { s.dev with out := [] }) hstate htype hgood hnak)
  case bad =>
    intro s n f c hstate hbad hfew hrun hnak
    exact devStep_of_eq (Dev.takeFrame_bad_few (d := { s.dev with out := [] }) 1 hstate hbad hfew hrun hnak)
  case sixteenth =>
    intro s n f c hstate hbad hrun
    exact devStep_of_eq (Dev.takeFrame_bad_sixteenth (d := { s.dev with out := [] }) 2 hstate hbad hrun)

end Sys2Proof.Machine

/-! ## The link's timers and sending (R181, R184, R186 to R188, R190, R201, R202) -/

namespace Sys2Proof.Machine

open Sys2Proof Sys2Proof.Safety

section Sending

variable {d : Dev} {n tc : Nat} {t : TxFrame} {r : List TxFrame} {e : EgressPkt}

/-- A port whose oldest frame has been replayed fewer than four times replays (R187). -/
theorem Dev.replayOrRetrain_few (hunacked : (d.port n).unacked = t :: r) (hfew : t.replays < 4) : d.replayOrRetrain n = d.replay n := by
  rw [Dev.replayOrRetrain, hunacked]
  exact if_neg (Nat.not_le.mpr hfew)

/-- A port whose oldest frame has been replayed four times retrains (R187). -/
theorem Dev.replayOrRetrain_four (hunacked : (d.port n).unacked = t :: r) (hfour : 4 ≤ t.replays) :
    d.replayOrRetrain n = d.enterRetrain n := by
  rw [Dev.replayOrRetrain, hunacked]
  exact if_pos hfour

/-- A packet with the credit it needs and an open gate is sent in frames of its own, is counted and consumes its credits (R181, R190). -/
theorem Dev.transmit_sent (hhead : (d.port n).egress.find? (fun x => x.p.tc == tc) = some e) (hstate : (d.port n).state = .active)
    (hroom : (d.port n).unacked.length + (packetFrames e.p).length ≤ 1024) (hflow : d.flowRoom e.p = true)
    (hcredit : (d.port n).hasCredit e.p = true) (hgate : d.gateOpen n tc (spanFrames e.p) = true) :
    d.transmit n tc =
      (let d1 := (d.settleWait n tc).modPort n fun x =>
        { x with egress := x.egress.erase e, consumed := addCredit x.consumed tc e.p.units }
       ((((d1.sendFrames n e.p e.at_).bump (.swTxPkts n tc)).bump (.swTxUnits n tc) e.p.units).settleWait n tc).recordSent e.p) := by
  simp only [Dev.transmit, hhead, hstate, hflow, hcredit, hgate, Nat.not_lt.mpr hroom, ne_eq, not_true_eq_false, Bool.true_eq_false,
    or_self, if_false]

/-- A packet without the credit it needs waits, and its waits are counted (R190, R202). -/
theorem Dev.transmit_dry (hhead : (d.port n).egress.find? (fun x => x.p.tc == tc) = some e) (hstate : (d.port n).state = .active)
    (hroom : (d.port n).unacked.length + (packetFrames e.p).length ≤ 1024) (hflow : d.flowRoom e.p = true)
    (hcredit : (d.port n).hasCredit e.p = false) : d.transmit n tc = d.settleWait n tc := by
  simp only [Dev.transmit, hhead, hstate, hflow, hcredit, Nat.not_lt.mpr hroom, ne_eq, not_true_eq_false, Bool.true_eq_false, or_self,
    true_or, if_false, if_true]

/-- The wait of a head packet that lacks credit, on a port where no wait is counted yet, is counted from now on (R202). -/
theorem Dev.settleWait_dry (hhead : (d.port n).egress.find? (fun x => x.p.tc == tc) = some e) (hcredit : (d.port n).hasCredit e.p = false)
    (hstall : (d.port n).stallSince = []) (hgate : (d.port n).gateSince = []) :
    d.settleWait n tc = d.modPort n fun x => { x with stallSince := [(tc, (d.now, d.now))] } := by
  simp only [Dev.settleWait, hhead, hcredit, hstall, hgate, Option.map_some, Option.any_some, tget_nil, Option.map_none, Option.getD_none,
    Bool.not_false, Bool.not_true, Bool.false_and, Bool.false_eq_true, if_false, if_true]
  exact Dev.modPort_congr (by simp only [hstall, hgate]; rfl)

end Sending

/-- Settles O33: each clause is the equation of the timer's or the port's work on the device, by the state of its port. The frames
of a packet start at slot 0 of a new frame (log entries 63 and 87). -/
theorem linkTimersAndSending : Obligations.LinkTimersAndSending := by
  unfold Obligations.LinkTimersAndSending
  refine ⟨?nak, ?replay, ?retrain, ?ack, ?sent, ?dry, ?rekey⟩
  case nak =>
    intro s n t hstate hnak
    refine devStep_of_eq ?_
    simp only [Dev.port_out, hstate, hnak, if_true]
    exact Dev.sendNak_of_none (by rw [Dev.port_modPort_same])
  case replay =>
    intro s n t r hstate hunacked hfew
    refine devStep_of_eq ?_
    simp only [Dev.port_out, hstate, hunacked, if_true]
    exact Dev.replayOrRetrain_few hunacked hfew
  case retrain =>
    intro s n t r hstate hunacked hfour
    refine devStep_of_eq ?_
    simp only [Dev.port_out, hstate, hunacked, if_true]
    exact Dev.replayOrRetrain_four hunacked hfour
  case ack =>
    intro s n hstate hwaits
    exact devStep_of_eq (if_pos ⟨hstate, hwaits⟩)
  case sent =>
    intro s n tc e hhead hstate hroom hflow hcredit hgate
    exact devStep_of_eq (Dev.transmit_sent (d := { s.dev with out := [] }) hhead hstate hroom hflow hcredit hgate)
  case dry =>
    intro s n tc e hhead hstate hroom hflow hcredit hstall hgate
    exact devStep_of_eq ((Dev.transmit_dry (d := { s.dev with out := [] }) hhead hstate hroom hflow hcredit).trans
      (Dev.settleWait_dry hhead hcredit hstall hgate))
  case rekey =>
    intro s n hframes
    exact devStep_of_eq (by rw [Dev.port_out, decide_eq_true hframes, Dev.guard_true])

end Sys2Proof.Machine

/-! ## DOWN takes no time: what a port disposes of leaves the clock where it is (R198) -/

namespace Sys2Proof.Machine

open Sys2Proof Sys2Proof.Safety

section Clock

variable {d : Dev}

/-- A fold of steps that leave the clock leaves it. -/
theorem now_foldl {α : Type} {f : Dev → α → Dev} (h : ∀ e x, (f e x).now = e.now) (xs : List α) : (xs.foldl f d).now = d.now := by
  induction xs generalizing d with
  | nil => rfl
  | cons x xs ih => rw [List.foldl_cons, ih, h]

/-! ### Packets sent back -/

theorem Dev.now_stamp (p : Packet) : (d.stamp p).2.now = d.now := by
  unfold Dev.stamp
  split <;> rfl

theorem Dev.now_enqueue (n : Nat) (p : Packet) : (d.enqueue n p).now = d.now := by
  unfold Dev.enqueue
  dsimp only
  split <;> simp only [Dev.emit_frame, Dev.settleWait_frame, Dev.modPort_frame]

theorem Dev.now_originate (p : Packet) (request : Bool) : (d.originate p request).2.now = d.now := by
  have hgo : ∀ (n : Nat) (q : Packet), ((d.stamp q).2.enqueue n (d.stamp q).1).now = d.now := fun n q => by
    rw [Dev.now_enqueue, Dev.now_stamp]
  unfold Dev.originate
  split
  · split
    · split <;> rfl
    · split
      · exact hgo _ _
      · rfl
  · split
    · rfl
    · split
      · rfl
      · split
        · exact hgo _ _
        · rfl

theorem Dev.now_sendBack (p : Packet) : (d.sendBack p).now = d.now := d.now_originate p false

theorem Dev.now_reply (p : Packet) (st : Status) (data : List Line) : (d.reply p st data).now = d.now := by
  unfold Dev.reply
  split
  · rfl
  · exact Dev.now_sendBack _

/-! ### Clients of mirror writes -/

theorem Dev.now_cxlRefuse (h : Nat) (st : Status) (read : Bool) (line : Nat) (part : Option Nat) :
    (d.cxlRefuse h st read line part).now = d.now := by
  simp only [Dev.cxlRefuse, apply_ite Dev.now, Dev.emit_frame, Dev.raise_frame, Dev.modHead_frame, Dev.bump_frame, ite_self]

theorem Dev.now_mirrorClient (c : WinReq) (st : Status) : (d.mirrorClient c st).now = d.now := by
  unfold Dev.mirrorClient
  split
  · split
    · split <;> rfl
    · rfl
  · exact Dev.now_reply _ _ _
  · split
    · rfl
    · exact Dev.now_cxlRefuse _ _ _ _ _
  · rfl

theorem Dev.now_tryHandoff : d.tryHandoff.now = d.now := by
  unfold Dev.tryHandoff
  split <;> rfl

theorem Dev.now_endClient (c : WinReq) (st : Status) : (d.endClient c st).now = d.now := by
  rw [Dev.endClient, Dev.now_tryHandoff, Dev.now_mirrorClient]
  rfl

theorem Dev.now_markPage (r page : Nat) : (d.markPage r page).now = d.now := by
  unfold Dev.markPage
  split <;> rfl

theorem Dev.now_serveAlone : d.serveAlone.now = d.now := by
  unfold Dev.serveAlone
  dsimp only
  rw [now_foldl, now_foldl]
  · rfl
  · exact fun e m => e.now_markPage _ _
  · intro e c
    split
    · rfl
    · exact Dev.now_mirrorClient _ _

/-- A mirror write that ends with LINK_DOWN (R317, R319, R324). -/
theorem Dev.now_mirrorAnswer_linkDown (id : Nat) : (d.mirrorAnswer id .linkDown).now = d.now := by
  unfold Dev.mirrorAnswer
  split
  · rfl
  · simp only [reduceCtorEq, if_false]
    split
    · split
      · exact Dev.now_serveAlone
      · rfl
    · exact Dev.now_endClient _ _

/-! ### Requests of chains -/

theorem Dev.now_putChain (j : Job) (c : Chain) : (d.putChain j c).now = d.now := by
  unfold Dev.putChain
  split
  · split <;> rfl
  · rfl

/-- A chain's element that is not read ends the chain, or waits for its abort (R137). -/
theorem Dev.now_elementAnswer_nil (j : Job) (c : Chain) (st : Status) : (d.elementAnswer j c st []).now = d.now := by
  unfold Dev.elementAnswer
  dsimp only
  split <;> rfl

/-- A REDUCE_WRITE's request that ends with LINK_DOWN ends the descriptor (R97). -/
theorem Dev.now_reduceAnswer_linkDown (j : Job) (c : Chain) (read : Option Nat) (data : List Line) :
    (d.reduceAnswer j c read .linkDown data).now = d.now := by
  simp only [Dev.reduceAnswer, reduceCtorEq, ne_eq, not_false_eq_true, if_true]
  rfl

/-- A chain's request that ends with LINK_DOWN: a write, an element or a read of a burst fails (R137, R140). -/
theorem Dev.now_chainAnswer_linkDown (id tag : Nat) (read : Option Nat) : (d.chainAnswer id tag read .linkDown []).now = d.now := by
  unfold Dev.chainAnswer
  cases d.job id with
  | none => rfl
  | some j =>
    cases hchain : j.chain with
    | none => simp only [hchain]
    | some c =>
      simp only [hchain, apply_ite Dev.now, Dev.now_reduceAnswer_linkDown]
      cases read with
      | none => simp only [Dev.now_putChain, ite_self]
      | some off => simp only [apply_ite Dev.now, reduceCtorEq, if_false, Option.isNone_some, Bool.false_eq_true, and_false,
          Dev.now_elementAnswer_nil, Dev.now_putChain, ite_self]

/-! ### DOWN -/

/-- A request that ends with LINK_DOWN (R219). -/
theorem Dev.now_answer_linkDown (r : OutReq) : (d.answer r .linkDown []).now = d.now := by
  unfold Dev.answer
  dsimp only
  split
  · exact Dev.now_chainAnswer_linkDown _ _ _
  · exact Dev.now_chainAnswer_linkDown _ _ _
  · exact Dev.now_mirrorAnswer_linkDown _
  · rfl
  · rfl

theorem Dev.now_dispose (n : Nat) (p : Packet) : (d.dispose n p).now = d.now := by
  unfold Dev.dispose
  dsimp only
  split
  · split
    · split
      · exact Dev.now_answer_linkDown _
      · rw [Dev.now_sendBack]
        exact Dev.now_answer_linkDown _
    · rfl
  · rfl

theorem Dev.now_settleWaits (n : Nat) : (d.settleWaits n).now = d.now :=
  now_foldl (fun e t => by simp only [Dev.settleWait_frame]) _

theorem Dev.now_settleExcluded : d.settleExcluded.now = d.now := by
  refine now_foldl (fun e x => ?_) _
  dsimp only
  split
  · simp only [Dev.modPort_frame, Dev.accrue_frame]
  · split <;> rfl

theorem Dev.now_incTag (x : Domain) : (d.incTag x).now = d.now := by cases x <;> rfl

theorem Dev.now_goDown (n : Nat) (flapping : Bool) : (d.goDown n flapping).now = d.now := by
  simp only [Dev.goDown, now_foldl fun e x => Dev.now_dispose (d := e) n x, apply_ite Dev.now, Dev.bump_frame, ite_self,
    Dev.now_settleExcluded, Dev.modPort_frame, Dev.now_incTag, Dev.now_settleWaits]

/-- Entering DOWN, at once or later, leaves the clock where it is. -/
theorem Dev.now_enterDown (n : Nat) (flapping : Bool) : (d.enterDown n flapping).now = d.now := by
  unfold Dev.enterDown
  split
  · rfl
  · split
    · exact Dev.now_goDown n flapping
    · rfl

end Clock

end Sys2Proof.Machine

/-! ## The phases of PARAM, and PORT_CONTROL (R189, R193, R195, R196, R201, Table 8.5) -/

namespace Sys2Proof.Machine

open Sys2Proof Sys2Proof.Safety

section Param

variable {d : Dev} {n : Nat} {b : ParamBody}

/-- A good frame of the present phase is taken; out of a retrain it is in PARAM (R195). -/
theorem Dev.takeParam_inPhase (hstate : (d.port n).state = .param) (hphase : (d.port n).phase = phaseNo b.content)
    (hversion : b.version = 1) (hrsvd : b.rsvd = false) : d.takeParam n b {} = d.takePhase n b := by
  simp only [Dev.takeParam, hstate, hphase, hversion, hrsvd, Dev.countFrame_clean, beq_self_eq_true, Bool.true_or, Bool.not_true,
    Bool.false_eq_true, ne_eq, not_true_eq_false, or_self, if_false, if_true]

/-- A good frame of the present phase does what the phase does with it. -/
theorem exec_paramFrameReceive_inPhase {s : State} {f : Dev → Dev} (hstate : (s.dev.port n).state = .param)
    (hphase : (s.dev.port n).phase = phaseNo b.content) (hversion : b.version = 1) (hrsvd : b.rsvd = false)
    (hop : { s.dev with out := [] }.takePhase n b = f { s.dev with out := [] }) :
    exec (.paramFrameReceive n b {}) s = .next (s.onDev f) :=
  devStep_of_eq ((Dev.takeParam_inPhase (d := { s.dev with out := [] }) hstate hphase hversion hrsvd).trans hop)

/-- A frame that is bad or out of turn makes the port send its phase again (R183; log entry 86). -/
theorem Dev.takeParam_outOfTurn {c : FrameCond} (hstate : (d.port n).state = .param)
    (hbad : c.uncorrectable ≠ 0 ∨ c.tagFail = true ∨ b.rsvd = true ∨ (b.version = 1 ∧ phaseNo b.content ≠ (d.port n).phase)) :
    d.takeParam n b c = (d.countFrame n c).repeatPhase n := by
  simp only [Dev.takeParam, hstate, beq_self_eq_true, Bool.true_or, Bool.not_true, Bool.false_eq_true, if_false]
  split
  · rfl
  · next hgood =>
    obtain ⟨hversion, hturn⟩ : b.version = 1 ∧ phaseNo b.content ≠ (d.port n).phase := by tauto
    rw [if_neg (not_not.mpr hversion), if_neg hturn]

/-- A port in PARAM is in no retrain, whose phases count AUDIT too (R195). -/
theorem retrain_of_param (hstate : (d.port n).state = .param) : ((d.port n).state == .retrain) = false := by
  rw [hstate]
  rfl

theorem Dev.takePhase_hello {x : BitVec 256} (hstate : (d.port n).state = .param) (hcontent : b.content = .hello x) :
    d.takePhase n b = (d.modPort n fun y => { y with partnerId := b.deviceId, partnerHello := bodyBytes b }).sendPhase n 1 := by
  simp only [Dev.takePhase, hcontent, retrain_of_param hstate]
  rfl

/-- A partner that is refused in training leaves the port BLOCKED (R195). -/
theorem Dev.block_of_param (id : U64) (hstate : (d.port n).state = .param) :
    d.block n id = (d.modPort n fun y => { y with state := .blocked, since := d.now }).raise
      { code := .swAuthFail, unit := some (.swPort, n), detail0 := some id } := by
  simp only [Dev.block, hstate, reduceCtorEq, if_false]
  rfl

section Chain

variable {len off : BitVec 32} {part : List Byte} {ok : Bool} {id : U64}

/-- A part of the certificate chain that comes in order, and is not the last. -/
theorem Dev.takePhase_certPart (hcontent : b.content = .cert len off part ok id) (hoff : off.toNat = (d.port n).partnerChain.length)
    (hmore : off.toNat + part.length < len.toNat) :
    d.takePhase n b = d.modPort n fun y => { y with partnerChain := y.partnerChain ++ part } := by
  rw [hoff] at hmore
  simp only [Dev.takePhase, hcontent, hoff, List.length_append, hmore, ne_eq, not_true_eq_false, if_false, if_true]
  exact Dev.modPort_congr rfl

/-- The last part of a chain of the same device that verifies. -/
theorem Dev.takePhase_certWhole (hstate : (d.port n).state = .param) (hcontent : b.content = .cert len off part true b.deviceId)
    (hoff : off.toNat = (d.port n).partnerChain.length) (hwhole : len.toNat ≤ off.toNat + part.length) :
    d.takePhase n b = (d.modPort n fun y => { y with partnerChain := y.partnerChain ++ part }).sendPhase n 2 := by
  rw [hoff] at hwhole
  simp only [Dev.takePhase, hcontent, hoff, List.length_append, Nat.not_lt.mpr hwhole, retrain_of_param hstate, ne_eq, not_true_eq_false,
    beq_self_eq_true, Bool.and_self, if_false, if_true]
  exact congrArg (fun e : Dev => e.sendPhase n 2) (Dev.modPort_congr rfl)

/-- The last part of a chain that does not verify. -/
theorem Dev.takePhase_certRefused (hstate : (d.port n).state = .param) (hcontent : b.content = .cert len off part false id)
    (hoff : off.toNat = (d.port n).partnerChain.length) (hwhole : len.toNat ≤ off.toNat + part.length) :
    d.takePhase n b =
      (d.modPort n fun y => { y with partnerChain := y.partnerChain ++ part, state := .blocked, since := d.now }).raise
        { code := .swAuthFail, unit := some (.swPort, n), detail0 := some b.deviceId } := by
  rw [hoff] at hwhole
  simp only [Dev.takePhase, hcontent, hoff, List.length_append, Nat.not_lt.mpr hwhole, ne_eq, not_true_eq_false, Bool.false_and,
    Bool.false_eq_true, if_false]
  rw [Dev.block_of_param _ (by rw [Dev.port_modPort_same, hstate]), Dev.modPort_modPort]
  exact congrArg (fun e : Dev => e.raise { code := .swAuthFail, unit := some (.swPort, n), detail0 := some b.deviceId })
    (Dev.modPort_congr rfl)

end Chain

section Keys

variable {k : BitVec 776} {sg : BitVec 768}

theorem Dev.takePhase_keys (hstate : (d.port n).state = .param) (hcontent : b.content = .keys k sg true) :
    d.takePhase n b = (d.modPort n fun y => y.withKeys k).sendPhase n 3 := by
  simp only [Dev.takePhase, hcontent, retrain_of_param hstate, if_true]
  rfl

theorem Dev.takePhase_keysRefused (hstate : (d.port n).state = .param) (hcontent : b.content = .keys k sg false) :
    d.takePhase n b = (d.modPort n fun y => { y with state := .blocked, since := d.now }).raise
      { code := .swAuthFail, unit := some (.swPort, n), detail0 := some b.deviceId } := by
  simp only [Dev.takePhase, hcontent, Bool.false_eq_true, if_false]
  exact Dev.block_of_param _ hstate

end Keys

/-- CREDITS is followed by READY: AUDIT belongs to a retrain alone. -/
theorem Dev.takePhase_credits {adv : Line} (hstate : (d.port n).state = .param) (hcontent : b.content = .credits adv) :
    d.takePhase n b = (d.modPort n fun y => { y with partnerAdv := slotCredits adv }).sendPhase n 5 := by
  simp only [Dev.takePhase, hcontent, retrain_of_param hstate]
  rfl

/-- READY of a port that has nothing to replay (R196). -/
theorem Dev.takePhase_ready (hcontent : b.content = .ready) (hreplay : (d.port n).replayFrom = none) :
    d.takePhase n b = d.modPort n fun y => { y with state := .active, since := d.now, attempt := 1 } := by
  simp only [Dev.takePhase, hcontent, Dev.linkReady, hreplay]

end Param

/-! ### PORT_CONTROL -/

section PortControl

variable {d : Dev} {n : Nat}

/-- A port that is DISABLED, ABSENT or BLOCKED starts (R193; attempt 1: log entry 63). -/
theorem Dev.portEnable_idle (hstate : (d.port n).state = .disabled ∨ (d.port n).state = .absent ∨ (d.port n).state = .blocked) :
    d.portEnable n = d.enterDetect n 1 := by
  rcases hstate with hstate | hstate | hstate <;> simp only [Dev.portEnable, hstate]

/-- A port that carries no traffic is DISABLED. -/
theorem Dev.portDisable_idle (hactive : (d.port n).state ≠ .active) (hretrain : (d.port n).state ≠ .retrain) :
    d.portDisable n = d.goTo n .disabled := by
  unfold Dev.portDisable
  cases hstate : (d.port n).state with
  | active => exact absurd hstate hactive
  | retrain => exact absurd hstate hretrain
  | _ => rfl

/-- An ACTIVE port disposes of its traffic first, which takes no time. -/
theorem Dev.portDisable_active (hstate : (d.port n).state = .active) :
    d.portDisable n = (d.enterDown n false).modPort n fun x => { x with state := .disabled, since := d.now } := by
  simp only [Dev.portDisable, hstate, Dev.goTo, Dev.now_enterDown]

/-- A command on one of the 32 ports that is accepted is run and answered. -/
theorem portCommand_of_accepts {s : State} {h : CmdHdr} {op : Dev → CmdResult} {f : Dev → Dev}
    (ha : Accepts s h { device := true, fm := true } none) (hport : n < 32)
    (hop : op { s.dev with out := [] } = (f { s.dev with out := [] }).done) :
    portCommand h n op s = .next (answered s h 0x0701 .ok [] f) :=
  huanikStep_of_accepts ha rfl (by rw [if_neg (Nat.not_le.mpr hport)]; exact hop)

end PortControl

/-- Settles O34: a PARAM frame is taken in its phase or makes the port send its phase again (log entry 86); PORT_CONTROL is the command's
own equation on the device without its earlier outputs: a start begins with attempt 1 (log entry 63), and the end of an ACTIVE port takes
no time. -/
theorem paramAndPortControl : Obligations.ParamAndPortControl := by
  unfold Obligations.ParamAndPortControl
  refine ⟨?hello, ?certWhole, ?certPart, ?certRefused, ?keys, ?keysRefused, ?credits, ?ready, ?outOfTurn, ?enable, ?disable,
    ?disableActive, ?retrain, ?advertise⟩
  case hello =>
    intro s n b x hstate hphase hversion hrsvd hcontent
    exact exec_paramFrameReceive_inPhase hstate (hcontent ▸ hphase) hversion hrsvd (Dev.takePhase_hello hstate hcontent)
  case certWhole =>
    intro s n b len off part hstate hphase hversion hrsvd hcontent hoff hwhole
    exact exec_paramFrameReceive_inPhase hstate (hcontent ▸ hphase) hversion hrsvd (Dev.takePhase_certWhole hstate hcontent hoff hwhole)
  case certPart =>
    intro s n b len off part ok id hstate hphase hversion hrsvd hcontent hoff hmore
    exact exec_paramFrameReceive_inPhase hstate (hcontent ▸ hphase) hversion hrsvd (Dev.takePhase_certPart hcontent hoff hmore)
  case certRefused =>
    intro s n b len off part id hstate hphase hversion hrsvd hcontent hoff hwhole
    exact exec_paramFrameReceive_inPhase hstate (hcontent ▸ hphase) hversion hrsvd (Dev.takePhase_certRefused hstate hcontent hoff hwhole)
  case keys =>
    intro s n b k sg hstate hphase hversion hrsvd hcontent
    exact exec_paramFrameReceive_inPhase hstate (hcontent ▸ hphase) hversion hrsvd (Dev.takePhase_keys hstate hcontent)
  case keysRefused =>
    intro s n b k sg hstate hphase hversion hrsvd hcontent
    exact exec_paramFrameReceive_inPhase hstate (hcontent ▸ hphase) hversion hrsvd (Dev.takePhase_keysRefused hstate hcontent)
  case credits =>
    intro s n b adv hstate hphase hversion hrsvd hcontent
    exact exec_paramFrameReceive_inPhase hstate (hcontent ▸ hphase) hversion hrsvd (Dev.takePhase_credits hstate hcontent)
  case ready =>
    intro s n b hstate hphase hversion hrsvd hcontent hreplay
    exact exec_paramFrameReceive_inPhase hstate (hcontent ▸ hphase) hversion hrsvd (Dev.takePhase_ready hcontent hreplay)
  case outOfTurn =>
    intro s n b c hstate hbad
    exact devStep_of_eq (Dev.takeParam_outOfTurn (d := { s.dev with out := [] }) hstate hbad)
  case enable =>
    intro s h n ha hport hstate
    exact portCommand_of_accepts ha hport (congrArg Dev.done (Dev.portEnable_idle (d := { s.dev with out := [] }) hstate))
  case disable =>
    intro s h n ha hport hactive hretrain
    exact portCommand_of_accepts ha hport (congrArg Dev.done (Dev.portDisable_idle (d := { s.dev with out := [] }) hactive hretrain))
  case disableActive =>
    intro s h n ha hport hstate
    exact portCommand_of_accepts ha hport (congrArg Dev.done (Dev.portDisable_active (d := { s.dev with out := [] }) hstate))
  case retrain =>
    intro s h n ha hport hstate
    exact portCommand_of_accepts ha hport (congrArg Dev.done (if_pos hstate))
  case advertise =>
    intro s h n adv ha hport hadv
    exact portCommand_of_accepts ha hport (if_pos hadv)

end Sys2Proof.Machine

/-! ## Counting the exclusions from spray sets (R231) -/

namespace Sys2Proof.Machine

open Sys2Proof Sys2Proof.Safety

section Exclusions

variable {d e f : Dev}

/-- Device `e` is `d` but for its counters and the time up to which each port's exclusion has been counted. -/
structure OnlyExclusions (d e : Dev) : Prop where
  rest : e = { d with ctr := e.ctr, ports := e.ports }
  port : ∀ k, ∃ t, e.port k = { d.port k with exclSince := t }

theorem OnlyExclusions.refl (d : Dev) : OnlyExclusions d d := ⟨rfl, fun k => ⟨(d.port k).exclSince, rfl⟩⟩

theorem OnlyExclusions.trans (h : OnlyExclusions d e) (h' : OnlyExclusions e f) : OnlyExclusions d f := by
  refine ⟨by rw [h'.rest, h.rest], fun k => ?_⟩
  obtain ⟨t, ht⟩ := h.port k
  obtain ⟨t', ht'⟩ := h'.port k
  exact ⟨t', by rw [ht', ht]⟩

theorem OnlyExclusions.accrue (d : Dev) (c : Ctr) (ns : Nat) : OnlyExclusions d (d.accrue c ns) := by
  unfold Dev.accrue
  split
  · exact .refl d
  · exact ⟨rfl, fun k => ⟨(d.port k).exclSince, rfl⟩⟩

theorem OnlyExclusions.modPort (d : Dev) (n : Nat) (t : Option Nat) :
    OnlyExclusions d (d.modPort n fun y => { y with exclSince := t }) := by
  refine ⟨rfl, fun k => ?_⟩
  by_cases hk : k = n
  · subst hk
    exact ⟨t, Dev.port_modPort_same d k _⟩
  · exact ⟨(d.port k).exclSince, Dev.port_modPort_other d _ hk⟩

/-- Counting the exclusions from spray sets changes nothing else. -/
theorem Dev.settleExcluded_only (d : Dev) : OnlyExclusions d d.settleExcluded := by
  rw [Dev.settleExcluded]
  generalize d.ports = ports
  induction ports generalizing d with
  | nil => exact .refl d
  | cons x xs ih =>
    refine .trans ?_ (ih _)
    dsimp only
    split
    · exact (OnlyExclusions.accrue d _ _).trans (.modPort _ _ _)
    · split
      · exact .modPort _ _ _
      · exact .refl d

theorem Dev.rt_settleExcluded (d : Dev) : d.settleExcluded.rt = d.rt :=
  congrArg (fun x => x.rt) d.settleExcluded_only.rest

end Exclusions

end Sys2Proof.Machine

/-! ## The windows of a spray set (R215) -/

namespace Sys2Proof.Machine

open Sys2Proof Sys2Proof.Safety

section Windows

variable {d e : Dev} {v : U32} {runs : List SprayRun}

theorem bitsOf_nodup {n : Nat} (x : BitVec n) : (bitsOf x).Nodup := List.nodup_range.filter _

@[simp] theorem SprayRun.window_port (x : SprayRun) (lat : Option Nat) (m2 : Nat) : (x.window lat m2).port = x.port := by
  cases lat <;> rfl

/-- The run of a port in a spray set, a fresh one where there is none, is that port's. -/
theorem sprayRun_port (xs : List SprayRun) (v : U32) (n : Nat) :
    ((xs.find? (fun x => x.spray == v && x.port == n)).getD { spray := v, port := n }).port = n := by
  cases hx : xs.find? (fun x => x.spray == v && x.port == n) with
  | none => rfl
  | some x => exact (by simpa using List.find?_some hx : x.spray = v ∧ x.port = n).2

/-- A window measures one run for each ACTIVE port of its set. -/
theorem map_port_measuredRuns (d : Dev) (v : U32) :
    (measuredRuns d v).2.map (fun x => x.port) = (bitsOf v).filter (fun n => d.portActive n) := by
  simp only [measuredRuns, List.map_map]
  refine (List.map_congr_left fun n _ => ?_).trans (List.map_id _)
  exact (SprayRun.window_port _ _ _).trans (sprayRun_port _ _ _)

theorem length_measuredRuns (d : Dev) (v : U32) :
    ((bitsOf v).filter (fun n => d.portActive n)).length = (measuredRuns d v).2.length := by
  rw [← map_port_measuredRuns, List.length_map]

/-- What a window measures rests on the states and latencies of ports and on the runs before. -/
theorem measuredRuns_congr (hsprays : e.rt.sprays = d.rt.sprays)
    (hport : ∀ n, (e.port n).state = (d.port n).state ∧ (e.port n).latency = (d.port n).latency) :
    measuredRuns e v = measuredRuns d v := by
  simp only [measuredRuns, Dev.portActive, hsprays, hport]

/-- The ports whose runs exclude them, as long as enough ports stay: those slow for a second window in a row, and those excluded until
they have been good for 16 (R215). -/
def slowPorts (runs : List SprayRun) : List Nat :=
  (runs.filter (fun x => if x.excluded then decide (x.good < 16) else decide (2 ≤ x.slow))).map (fun x => x.port)

/-- The runs of a window after which the ports `out` are excluded. -/
def excluding (out : List Nat) (runs : List SprayRun) : List SprayRun :=
  runs.map fun x =>
    if out.contains x.port then { x with excluded := true, good := if x.excluded then x.good else 0 } else { x with excluded := false }

/-- SW_SLOW for each port among `out` that was not excluded before. -/
def Dev.raiseSlow (d : Dev) (out : List Nat) (runs : List SprayRun) : Dev :=
  runs.foldl (fun e x =>
    if out.contains x.port && !x.excluded then
      e.raise { code := .swSlow, unit := some (.swPort, x.port), detail0 := some (BitVec.ofNat 64 x.slow) }
    else e) d

/-- The device with runs of a spray set in place of those before. -/
def Dev.setRuns (d : Dev) (v : U32) (runs : List SprayRun) : Dev :=
  d.modRt fun y => { y with sprays := runs ++ y.sprays.filter (fun z => z.spray != v) }

/-- The ports that a window keeps in its set though they are slow: those of lowest latency, up to a quarter of the set (R215). -/
def Dev.keptSlow (d : Dev) (ties : List Nat) (v : U32) (runs : List SprayRun) : List Nat :=
  ((d.byLatency ties ((bitsOf v).filter fun n => d.portActive n)).filter fun n => (slowPorts runs).contains n).take
    ((runs.length + 3) / 4 - (runs.length - (slowPorts runs).length))

/-- A window sets the runs of its set and reports the ports that it excludes, which are the slow ones but for those kept. -/
theorem Dev.sprayWindow_eq (ties : List Nat) (hruns : (measuredRuns d v).2 = runs) :
    d.sprayWindow ties v =
      (let out := (slowPorts runs).filter fun n => !(d.keptSlow ties v runs).contains n
       (d.setRuns v (excluding out runs)).raiseSlow out runs) := by
  have hlat : ∀ a b : Option Nat, (if a.isSome then a else b) = a.or b := fun a b => by cases a <;> rfl
  subst hruns
  rw [Dev.keptSlow, ← length_measuredRuns]
  simp only [Dev.sprayWindow, hlat]
  rfl

/-- A window that leaves at least a quarter of its set's ports excludes every slow one (R215). -/
theorem Dev.sprayWindow_enough (ties : List Nat) (hruns : (measuredRuns d v).2 = runs)
    (henough : (runs.length + 3) / 4 + (slowPorts runs).length ≤ runs.length) :
    d.sprayWindow ties v = (d.setRuns v (excluding (slowPorts runs) runs)).raiseSlow (slowPorts runs) runs := by
  have hkept : d.keptSlow ties v runs = [] := by
    rw [Dev.keptSlow, Nat.sub_eq_zero_of_le (by omega), List.take_zero]
  have hout : (slowPorts runs).filter (fun n => !([] : List Nat).contains n) = slowPorts runs := List.filter_true _
  rw [Dev.sprayWindow_eq ties hruns, hkept, hout]

/-! ### No port is slow, and one is -/

/-- Runs none of which is slow for a second window or excluded. -/
def Steady (runs : List SprayRun) : Prop := ∀ y ∈ runs, y.excluded = false ∧ y.slow < 2

theorem slowPorts_steady (h : Steady runs) : slowPorts runs = [] := by
  rw [slowPorts, List.filter_eq_nil_iff.mpr, List.map_nil]
  intro y hy
  obtain ⟨hin, hfew⟩ := h y hy
  simpa [hin] using hfew

/-- Runs of ports that stay in the set are left as they are. -/
theorem excluding_elsewhere {out : List Nat} (hin : ∀ y ∈ runs, y.excluded = false) (hout : ∀ y ∈ runs, y.port ∉ out) :
    excluding out runs = runs := by
  refine (List.map_congr_left fun y hy => ?_).trans (List.map_id _)
  rw [if_neg (by simpa using hout y hy), ← hin y hy]
  rfl

theorem Dev.raiseSlow_elsewhere {out : List Nat} (hout : ∀ y ∈ runs, y.port ∉ out) : d.raiseSlow out runs = d := by
  rw [Dev.raiseSlow]
  induction runs generalizing d with
  | nil => rfl
  | cons y ys ih =>
    rw [List.foldl_cons, if_neg (by simpa using fun hin => absurd hin (hout y (by simp)))]
    exact ih fun z hz => hout z (by simp [hz])

/-- A window that leaves no port of its set slow changes the runs alone (R215). -/
theorem Dev.sprayWindow_steady (ties : List Nat) (hruns : (measuredRuns d v).2 = runs) (hsteady : Steady runs) :
    d.sprayWindow ties v = d.setRuns v runs := by
  have hnone := slowPorts_steady hsteady
  rw [Dev.sprayWindow_enough ties hruns (by rw [hnone, List.length_nil]; omega), hnone,
    excluding_elsewhere (fun y hy => (hsteady y hy).1) fun y _ => List.not_mem_nil,
    Dev.raiseSlow_elsewhere fun y _ => List.not_mem_nil]

/-- A window that leaves one of several ports slow for a second time in a row excludes it and raises SW_SLOW (R215). -/
theorem Dev.sprayWindow_slow (ties : List Nat) {x : SprayRun} {b c : List SprayRun} (hruns : (measuredRuns d v).2 = b ++ [x] ++ c)
    (hsteady : Steady (b ++ c)) (hin : x.excluded = false) (hslow : 2 ≤ x.slow) (hothers : b ++ c ≠ []) :
    d.sprayWindow ties v = (d.setRuns v (b ++ [{ x with excluded := true, good := 0 }] ++ c)).raise
      { code := .swSlow, unit := some (.swPort, x.port), detail0 := some (BitVec.ofNat 64 x.slow) } := by
  have hb : Steady b := fun y hy => hsteady y (by simp [hy])
  have hc : Steady c := fun y hy => hsteady y (by simp [hy])
  have hslowPorts : slowPorts (b ++ [x] ++ c) = [x.port] := by
    have hxs : slowPorts [x] = [x.port] := by simp [slowPorts, hin, hslow]
    have happend : slowPorts (b ++ [x] ++ c) = slowPorts b ++ slowPorts [x] ++ slowPorts c := by
      simp only [slowPorts, List.filter_append, List.map_append]
    rw [happend, slowPorts_steady hb, slowPorts_steady hc, hxs]
    rfl
  have hdistinct : ((b ++ [x] ++ c).map fun y => y.port).Nodup := by
    rw [← hruns, map_port_measuredRuns]
    exact (bitsOf_nodup v).filter _
  have hother : ∀ y ∈ b ++ c, y.port ∉ [x.port] := by
    rw [List.append_assoc, List.singleton_append, List.map_append, List.map_cons, List.nodup_middle, ← List.map_append] at hdistinct
    intro y hy hport
    exact (List.nodup_cons.mp hdistinct).1 (List.mem_map.mpr ⟨y, hy, List.mem_singleton.mp hport⟩)
  have hotherB : ∀ y ∈ b, y.port ∉ [x.port] := fun y hy => hother y (by simp [hy])
  have hotherC : ∀ y ∈ c, y.port ∉ [x.port] := fun y hy => hother y (by simp [hy])
  have hexcluding : excluding [x.port] (b ++ [x] ++ c) = b ++ [{ x with excluded := true, good := 0 }] ++ c := by
    have happend : excluding [x.port] (b ++ [x] ++ c) = excluding [x.port] b ++ excluding [x.port] [x] ++ excluding [x.port] c := by
      simp only [excluding, List.map_append]
    rw [happend, excluding_elsewhere (fun y hy => (hb y hy).1) hotherB, excluding_elsewhere (fun y hy => (hc y hy).1) hotherC]
    simp [excluding, hin]
  have hraised : ∀ e : Dev, e.raiseSlow [x.port] (b ++ [x] ++ c) =
      e.raise { code := .swSlow, unit := some (.swPort, x.port), detail0 := some (BitVec.ofNat 64 x.slow) } := fun e => by
    have happend : e.raiseSlow [x.port] (b ++ [x] ++ c) =
        ((e.raiseSlow [x.port] b).raiseSlow [x.port] [x]).raiseSlow [x.port] c := by
      simp only [Dev.raiseSlow, List.foldl_append]
    rw [happend, Dev.raiseSlow_elsewhere hotherB, Dev.raiseSlow_elsewhere hotherC]
    simp [Dev.raiseSlow, hin]
  have henough : ((b ++ [x] ++ c).length + 3) / 4 + (slowPorts (b ++ [x] ++ c)).length ≤ (b ++ [x] ++ c).length := by
    have hmany := List.length_pos_iff.mpr hothers
    rw [hslowPorts]
    simp only [List.length_append, List.length_singleton] at hmany ⊢
    omega
  rw [Dev.sprayWindow_enough ties hruns henough, hslowPorts, hexcluding, hraised]

/-! ### The end of a window -/

/-- The clock at the end of a window, and the ports' exclusions counted up to then, leave what the window measures as it is. -/
theorem measuredRuns_counted (t : Nat) (v : U32) : measuredRuns (d.reach t).settleExcluded v = measuredRuns d v := by
  refine measuredRuns_congr (by rw [Dev.rt_settleExcluded]; rfl) fun n => ?_
  obtain ⟨since, hport⟩ := (d.reach t).settleExcluded_only.port n
  rw [hport]
  exact ⟨rfl, rfl⟩

/-- A window with one spray set in force compares the latencies of that set, and the next window begins (R215). -/
theorem Dev.latencyWindow_single (ties : List Nat) (hsets : d.rt.spraySets = [v])
    (hset : (d.reach (d.rt.windowAt + 64000)).settleExcluded.sprayWindow ties v = e) :
    d.latencyWindow ties =
      ((restarted e).modRt fun y => { y with windowAt := max d.now (d.rt.windowAt + 64000) }).settleExcluded := by
  have hsets' : (d.reach (d.rt.windowAt + 64000)).settleExcluded.rt.spraySets = [v] := by
    rw [Dev.rt_settleExcluded]
    exact hsets
  simp only [Dev.latencyWindow, hsets', List.foldl_cons, List.foldl_nil, hset, Dev.now_settleExcluded]
  rfl

end Windows

end Sys2Proof.Machine

/-! ## A packet leaves the link buffer (R24, R191) -/

namespace Sys2Proof.Machine

open Sys2Proof Sys2Proof.Safety

section Taken

variable {d e f : Dev} {n : Nat} {p : Packet}

/-- Device `e` is `d` but for the turns at the crossbar, the counters, the outputs and its ports, whose states and packets for egress are
those of `d`. -/
structure OnlyTaken (d e : Dev) : Prop where
  rest : e = { d with arb := e.arb, ports := e.ports, ctr := e.ctr, out := e.out }
  port : ∀ k, (e.port k).state = (d.port k).state ∧ (e.port k).egress = (d.port k).egress

theorem OnlyTaken.refl (d : Dev) : OnlyTaken d d := ⟨rfl, fun _ => ⟨rfl, rfl⟩⟩

theorem OnlyTaken.trans (h : OnlyTaken d e) (h' : OnlyTaken e f) : OnlyTaken d f := by
  refine ⟨by rw [h'.rest, h.rest], fun k => ?_⟩
  obtain ⟨hstate, hegress⟩ := h.port k
  obtain ⟨hstate', hegress'⟩ := h'.port k
  exact ⟨hstate'.trans hstate, hegress'.trans hegress⟩

theorem OnlyTaken.modPort (d : Dev) (n : Nat) (g : Port → Port) (hstate : (g (d.port n)).state = (d.port n).state)
    (hegress : (g (d.port n)).egress = (d.port n).egress) : OnlyTaken d (d.modPort n g) := by
  refine ⟨rfl, fun k => ?_⟩
  by_cases hk : k = n
  · subst hk
    rw [Dev.port_modPort_same]
    exact ⟨hstate, hegress⟩
  · rw [Dev.port_modPort_other _ _ hk]
    exact ⟨rfl, rfl⟩

/-- A CONTROL frame that returns credits changes of its port what frames count alone (R182). -/
theorem OnlyTaken.returnCredits (d : Dev) (n : Nat) : OnlyTaken d (d.returnCredits n) := by
  unfold Dev.returnCredits
  split
  · exact (OnlyTaken.modPort d n (fun x => { x.afterFrame with returned := x.freed }) rfl rfl).trans ⟨rfl, fun _ => ⟨rfl, rfl⟩⟩
  · exact .refl d

theorem OnlyTaken.takeRx (d : Dev) (n : Nat) (p : Packet) : OnlyTaken d (d.takeRx n p) := by
  unfold Dev.takeRx
  split
  · exact .modPort d n _ rfl rfl
  · split
    · exact (OnlyTaken.modPort d n _ rfl rfl).trans (.returnCredits _ n)
    · exact .refl d

theorem OnlyTaken.grantLines (d : Dev) (n : Nat) (p : Packet) : OnlyTaken d (d.grantLines n p) := by
  unfold Dev.grantLines
  split
  · exact .refl d
  · exact ⟨rfl, fun _ => ⟨rfl, rfl⟩⟩

/-- A packet that has its turn at the crossbar and leaves the link buffer. -/
theorem OnlyTaken.taken (d : Dev) (n : Nat) (p : Packet) : OnlyTaken d ((d.grantLines n p).takeRx n p) :=
  (OnlyTaken.grantLines d n p).trans (.takeRx _ n p)

/-- The ports of a spray set that may take a packet rest on the states of ports and on the spray runs. -/
theorem Dev.eligible_congr (hactive : e.portActive = d.portActive) (hsprays : e.rt.sprays = d.rt.sprays) (spray : U32) :
    e.eligible spray = d.eligible spray := by
  rw [Dev.eligible, Dev.eligible, hactive, hsprays]

/-- Which port takes a packet rests on the states and queues of ports, on the spray runs, and on the rotation of ties. -/
theorem Dev.routePort_congr (hport : ∀ k, (e.port k).state = (d.port k).state ∧ (e.port k).egress = (d.port k).egress)
    (hsprays : e.rt.sprays = d.rt.sprays) (hrotate : e.rt.rotate = d.rt.rotate) (r : Route) (tc : Nat) :
    e.routePort r tc = d.routePort r tc := by
  have hactive : e.portActive = d.portActive := funext fun k => by rw [Dev.portActive, Dev.portActive, (hport k).1]
  have hqueued : (fun k => (e.port k).queuedUnits tc) = fun k => (d.port k).queuedUnits tc :=
    funext fun k => by rw [Port.queuedUnits, Port.queuedUnits, (hport k).2]
  rw [Dev.routePort, Dev.routePort, Dev.sprayPort, Dev.sprayPort, hactive, hqueued, hrotate, Dev.eligible_congr hactive hsprays]

end Taken

end Sys2Proof.Machine

/-! ## Transit and the escape to TC7 (R223 to R226) -/

namespace Sys2Proof.Machine

open Sys2Proof Sys2Proof.Safety

section Transit

variable {d e : Dev} {n : Nat} {p : Packet}

/-- The device after a transit packet of port `n` has left the link buffer, and the port by which its sender reaches this device is known. -/
def Dev.passing (d : Dev) (n : Nat) (p : Packet) : Dev :=
  ((d.grantLines n p).takeRx n p).modRt fun y => { y with lastPort := tset y.lastPort p.srcEp n }

theorem Dev.passing_frame (d : Dev) (n : Nat) (p : Packet) :
    d.passing n p = { d with
      arb := (d.passing n p).arb, ports := (d.passing n p).ports, ctr := (d.passing n p).ctr, out := (d.passing n p).out
      rt := { d.rt with lastPort := tset d.rt.lastPort p.srcEp n } } := by
  rw [Dev.passing, Dev.modRt, (OnlyTaken.taken d n p).rest]

theorem Dev.transitOn_passing (d : Dev) (n : Nat) (p : Packet) : (d.passing n p).transitOn = d.transitOn := by
  rw [Dev.passing_frame]
  rfl

theorem Dev.transitOn_granted (d : Dev) (n : Nat) (p : Packet) : (d.grantLines n p).transitOn = d.transitOn := by
  rw [(OnlyTaken.grantLines d n p).rest]
  rfl

theorem Dev.routePort_passing (d : Dev) (n : Nat) (p : Packet) (r : Route) (tc : Nat) :
    (d.passing n p).routePort r tc = d.routePort r tc :=
  Dev.routePort_congr (e := d.passing n p) (OnlyTaken.taken d n p).port (by rw [Dev.passing_frame]) (by rw [Dev.passing_frame]) r tc

/-- A transit packet with hops left goes on by the port that its epoch's table and its class give (R223, R226). -/
theorem Dev.transit_forwarded {m : Nat} {r : Route} (hon : d.transitOn = true) (hhops : 0 < p.hops)
    (hversion : (d.rt.version p.epoch).state ≠ .invalid) (hroute : tget (d.rt.version p.epoch).routes p.dstEp = some r)
    (hport : d.routePort r p.tc = some m) :
    (d.grantLines n p).transit n p = (d.passing n p).enqueue m { p with hops := p.hops - 1 } := by
  have hversions : ((d.passing n p).rt.version p.epoch) = d.rt.version p.epoch := by
    rw [Dev.passing_frame]
    rfl
  have hport' := (d.routePort_passing n p r p.tc).trans hport
  rw [Dev.passing] at hversions hport'
  simp only [Dev.transit, Dev.transitOn_granted, hon, Bool.true_eq_false, if_false, if_neg (Nat.pos_iff_ne_zero.mp hhops), hversions,
    if_neg hversion, hroute, hport']
  rfl

/-- A transit packet without hops is dropped and counted (R226). -/
theorem Dev.transit_spent (hon : d.transitOn = true) (hhops : p.hops = 0) :
    (d.grantLines n p).transit n p = (d.passing n p).bump .rtHopDrop := by
  simp only [Dev.transit, Dev.transitOn_granted, hon, Bool.true_eq_false, if_false, if_pos hhops]
  rfl

/-- Every transit packet is dropped and counted while transit mode is off (R225). -/
theorem Dev.transit_off (hoff : d.transitOn = false) : (d.grantLines n p).transit n p = (d.passing n p).bump .rtTransitDrop := by
  simp only [Dev.transit, Dev.transitOn_granted, hoff, if_true]
  rfl

/-- TRANSIT_FORWARD of a packet for another endpoint that may be taken. -/
theorem exec_transitForward {s : State} {f : Dev → Dev} (hdst : p.dstEp ≠ s.dev.selfEp) (hmay : s.dev.mayTake n p = true)
    (hop : (({ s.dev with out := [] } : Dev).grantLines n p).transit n p = f { s.dev with out := [] }) :
    exec (.transitForward n p) s = .next (s.onDev f) := by
  have hopen : (p.dstEp != s.dev.selfEp && s.dev.mayTake n p) = true := by simp [hdst, hmay]
  exact devStep_of_eq ((if_pos hopen).trans hop)

/-- The transit packet at the head of a class that lacks credit moves to TC7 on its escape port (R225). -/
theorem Dev.escape_waited {tc : Nat} {x : EgressPkt} {r : Route} {w : Nat × Nat}
    (hhead : (d.port n).egress.find? (fun y => y.p.tc == tc) = some x) (hstall : tget (d.port n).stallSince tc = some w) (htc : tc ≠ 7)
    (hsrc : x.p.srcEp ≠ d.selfEp) (hcredit : (d.port n).hasCredit x.p = false)
    (hroute : tget (d.rt.version x.p.epoch).routes x.p.dstEp = some r) (hactive : d.portActive r.escapePort = true) :
    d.escape n tc =
      ((((((d.reach (w.1 + 20000)).settleWait n tc).modPort n fun y =>
          { y with egress := y.egress.erase x, stallSince := terase y.stallSince tc }).settleWait n tc).enqueue r.escapePort
        { x.p with tc := 7, escaped := true }).bump (.swEscaped n)) := by
  have hwaits : ¬(tc = 7 ∨ x.p.srcEp = d.selfEp ∨ (d.port n).hasCredit x.p = true) := by simp [htc, hsrc, hcredit]
  simp only [Dev.escape, hhead, hstall, if_neg hwaits, hroute, Option.bind_some, if_pos hactive]

end Transit

/-- Settles O38: a transit packet is forwarded or dropped on the device that it passes through; a window of one spray set is that set's. -/
theorem transitAndSpray : Obligations.TransitAndSpray := by
  unfold Obligations.TransitAndSpray
  refine ⟨?forward, ?spent, ?off, ?escape, ?steady, ?slow⟩
  case forward =>
    intro s n m p r hdst hmay hon hhops hversion hroute hport
    exact exec_transitForward hdst hmay (Dev.transit_forwarded (d := { s.dev with out := [] }) hon hhops hversion hroute hport)
  case spent =>
    intro s n p hdst hmay hon hhops
    exact exec_transitForward hdst hmay (Dev.transit_spent (d := { s.dev with out := [] }) hon hhops)
  case off =>
    intro s n p hdst hmay hoff
    exact exec_transitForward hdst hmay (Dev.transit_off (d := { s.dev with out := [] }) hoff)
  case escape =>
    intro s n tc e r w hhead hstall htc hsrc hcredit hroute hactive
    exact devStep_of_eq (Dev.escape_waited (d := { s.dev with out := [] }) hhead hstall htc hsrc hcredit hroute hactive)
  case steady =>
    intro s v known runs ties hsets hruns hsteady
    refine devStep_of_eq (Dev.latencyWindow_single (d := { s.dev with out := [] }) ties hsets (Dev.sprayWindow_steady ties ?_ hsteady))
    rw [measuredRuns_counted]
    exact congrArg Prod.snd hruns
  case slow =>
    intro s v known x b c ties hsets hruns hsteady hin hslow hothers
    refine devStep_of_eq
      (Dev.latencyWindow_single (d := { s.dev with out := [] }) ties hsets (Dev.sprayWindow_slow ties ?_ hsteady hin hslow hothers))
    rw [measuredRuns_counted]
    exact congrArg Prod.snd hruns

end Sys2Proof.Machine

/-! ## Gates, telemetry and routing versions (R222 to R224, R228 to R231, Table 9.10) -/

namespace Sys2Proof.Machine

open Sys2Proof Sys2Proof.Safety

section Gates

variable {d : Dev} {n e : Nat} {x : Nat × Nat}

/-- The end of an entry within the cycle of a running schedule moves the clock there (R228). -/
theorem Dev.gateBoundary_within (hon : (d.port n).gateOn = true)
    (hentry : entryAt (d.schedule n (d.port n).gateB) 0
      (phaseAt d.now (d.port n).gateOffset (cycleOf (d.schedule n (d.port n).gateB))) = some (x, e))
    (hwithin : e ≠ cycleOf (d.schedule n (d.port n).gateB)) :
    d.gateBoundary n = (d.reach (d.now + (e -
      phaseAt d.now (d.port n).gateOffset (cycleOf (d.schedule n (d.port n).gateB))))).settleWaits n := by
  simp only [Dev.gateBoundary, hon, Bool.not_true, Bool.false_and, Bool.false_eq_true, if_false, if_true, hentry, if_neg hwithin]

/-- The end of the last entry of a running schedule ends the cycle, where what SWn.GATE_CTRL and SWn.GATE_OFFSET ask for applies (R229). -/
theorem Dev.gateBoundary_cycle (hon : (d.port n).gateOn = true)
    (hentry : entryAt (d.schedule n (d.port n).gateB) 0
      (phaseAt d.now (d.port n).gateOffset (cycleOf (d.schedule n (d.port n).gateB))) = some (x, e))
    (hlast : e = cycleOf (d.schedule n (d.port n).gateB)) :
    d.gateBoundary n = (((d.reach (d.now + (e -
      phaseAt d.now (d.port n).gateOffset (cycleOf (d.schedule n (d.port n).gateB))))).settleWaits n).modPort n fun y =>
        { y with gateOn := bit (d.param 0x0025 n) 0, gateB := bit (d.param 0x0025 n) 1
                 gateOffset := (d.param 0x0026 n).toNat }).settleWaits n := by
  simp only [Dev.gateBoundary, hon, Bool.not_true, Bool.false_and, Bool.false_eq_true, if_false, if_true, hentry, if_pos hlast]
  rfl

/-- Gating that is asked for with a schedule without entries is enabled at once (R229; log entry 69). -/
theorem Dev.gateBoundary_empty (hoff : (d.port n).gateOn = false) (hwant : bit (d.param 0x0025 n) 0 = true)
    (hempty : d.schedule n (bit (d.param 0x0025 n) 1) = []) :
    d.gateBoundary n = ((d.settleWaits n).modPort n fun y =>
      { y with gateOn := true, gateB := bit (d.param 0x0025 n) 1, gateOffset := (d.param 0x0026 n).toNat }).settleWaits n := by
  simp only [Dev.gateBoundary, Dev.applyGate, hoff, hwant, Bool.not_false, Bool.not_true, Bool.and_false, Bool.false_eq_true, if_false,
    hempty, entryAt]

end Gates

section Telemetry

variable {d : Dev} {n t : Nat} {q : Nat → Option EgressPkt} {u : Nat → Nat}

/-- A class's sample counts the depth and the delay of what waits: bucket 0 of both where nothing does (R231). -/
theorem Dev.sampleClass_eq (hq : ∀ k, (d.port n).egress.find? (fun y => y.p.tc == k) = q k) (k : Nat) :
    d.sampleClass n k =
      (d.bump (.swQdepthHist n k (if (q k).isSome then depthBucket ((d.port n).queuedUnits k) else 0))).bump
        (.swQdelayHist n k (((q k).map (fun y => delayBucket (d.now - y.at_))).getD 0)) := by
  cases hk : q k <;> simp [Dev.sampleClass, hq k, hk]

/-- Counting a class's sample leaves what the next class's sample looks at. -/
theorem Dev.foldl_sampleClass (hq : ∀ k, (d.port n).egress.find? (fun y => y.p.tc == k) = q k)
    (hu : ∀ k, (d.port n).queuedUnits k = u k) (hnow : d.now = t) (ks : List Nat) :
    ks.foldl (fun f k => f.sampleClass n k) d =
      ks.foldl (fun f k => (f.bump (.swQdepthHist n k (if (q k).isSome then depthBucket (u k) else 0))).bump
        (.swQdelayHist n k (((q k).map (fun y => delayBucket (t - y.at_))).getD 0))) d := by
  induction ks generalizing d with
  | nil => rfl
  | cons k ks ih =>
    rw [List.foldl_cons, List.foldl_cons, Dev.sampleClass_eq hq k, hu k, hnow]
    exact ih hq hu hnow

end Telemetry

section Routes

variable {d : Dev}

/-- A command on version `v` is carried out on it. -/
theorem Dev.onVersion_toNat (v : Bool) (f : Bool → CmdResult) : d.onVersion v.toNat f = f v := by cases v <;> rfl

/-- ROUTE_LOAD fills an INVALID version (R222, R223). -/
theorem Dev.routeLoad_invalid {v : Bool} {es : List RouteIn}
    (hform : es.any (fun e => e.rsvd || decide (65536 ≤ e.dest ∨ 32 ≤ e.escapePort)) = false)
    (hstate : (d.rt.version v).state = .invalid) :
    d.routeLoad v es = (d.modRt fun y => y.setVersion v
      { state := .loaded, routes := es.foldl (fun t e =>
          if e.valid then tset t e.dest { spray := e.spray, escapePort := e.escapePort } else terase t e.dest) [] }).done := by
  rw [Dev.routeLoad, if_neg (Bool.eq_false_iff.mp hform), if_neg (not_not.mpr hstate)]

/-- A change of the routing layer rests on the present one alone. -/
theorem Dev.modRt_congr {f g : Routing → Routing} (hsame : f d.rt = g d.rt) : d.modRt f = d.modRt g := by
  rw [Dev.modRt, Dev.modRt, hsame]

/-- ROUTE_FLIP beside an ACTIVE version makes that one DRAINING (Table 9.10). -/
theorem Dev.routeFlip_active {v : Bool} (hloaded : (d.rt.version v).state = .loaded) (hactive : (d.rt.version (!v)).state = .active) :
    d.routeFlip v = (d.settleExcluded.modRt fun y =>
      (y.setVersion v { y.version v with state := .active }).setVersion (!v)
        { y.version (!v) with state := .draining }).settleExcluded.done := by
  have hmay : ¬((d.rt.version v).state ≠ .loaded ∨
      ((d.rt.version (!v)).state ≠ .active ∧ (d.rt.version (!v)).state ≠ .invalid)) := by
    simp [hloaded, hactive]
  simp only [Dev.routeFlip, if_neg hmay, if_pos hactive]
  refine congrArg (fun e : Dev => e.settleExcluded.done) (Dev.modRt_congr ?_)
  rw [Dev.rt_settleExcluded]

/-- A version put back where it stands changes nothing. -/
theorem Routing.setVersion_version (r : Routing) (v : Bool) : r.setVersion v (r.version v) = r := by cases v <;> rfl

/-- Setting one version leaves the other. -/
theorem Routing.version_setVersion_not (r : Routing) (v : Bool) (x : RtVersion) : (r.setVersion v x).version (!v) = r.version (!v) := by
  cases v <;> rfl

/-- ROUTE_FLIP beside an INVALID version leaves that one (Table 9.10). -/
theorem Dev.routeFlip_alone {v : Bool} (hloaded : (d.rt.version v).state = .loaded) (hinvalid : (d.rt.version (!v)).state = .invalid) :
    d.routeFlip v = (d.settleExcluded.modRt fun y => y.setVersion v { y.version v with state := .active }).settleExcluded.done := by
  have hmay : ¬((d.rt.version v).state ≠ .loaded ∨
      ((d.rt.version (!v)).state ≠ .active ∧ (d.rt.version (!v)).state ≠ .invalid)) := by
    simp [hloaded, hinvalid]
  have hidle : ¬(d.rt.version (!v)).state = .active := by simp [hinvalid]
  simp only [Dev.routeFlip, if_neg hmay, if_neg hidle]
  refine congrArg (fun e => e.settleExcluded.done) (Dev.modRt_congr ?_)
  rw [Dev.rt_settleExcluded, ← Routing.version_setVersion_not d.rt v { d.rt.version v with state := .active }, Routing.setVersion_version]

/-- ROUTE_RETIRE of a DRAINING version whose packets have all left (R224). -/
theorem Dev.routeRetire_drained {v : Bool} (hdraining : (d.rt.version v).state = .draining)
    (hdrained : d.ports.any (fun y => y.2.drain v != 0) = false) :
    d.routeRetire v = (d.settleExcluded.modRt fun y => y.setVersion v {}).settleExcluded.done :=
  if_neg (by simp [hdraining, hdrained])

end Routes

/-- Settles O39: each clause is the equation of the port's work, or of the command's, on the device without its earlier outputs. -/
theorem gatesTelemetryAndRoutes : Obligations.GatesTelemetryAndRoutes := by
  unfold Obligations.GatesTelemetryAndRoutes
  refine ⟨?within, ?cycle, ?empty, ?sample, ?load, ?flip, ?flipAlone, ?retire⟩
  case within =>
    intro s n e x hon hentry hwithin
    exact devStep_of_eq (Dev.gateBoundary_within (d := { s.dev with out := [] }) hon hentry hwithin)
  case cycle =>
    intro s n e x hon hentry hlast
    exact devStep_of_eq (Dev.gateBoundary_cycle (d := { s.dev with out := [] }) hon hentry hlast)
  case empty =>
    intro s n hoff hwant hempty
    exact devStep_of_eq (Dev.gateBoundary_empty (d := { s.dev with out := [] }) hoff hwant hempty)
  case sample =>
    rintro s n e rfl
    refine devStep_of_eq (Dev.foldl_sampleClass (u := (s.dev.port n).queuedUnits) (fun k => ?_) (fun k => ?_) rfl _)
    · rw [Dev.port_modPort_same]
      rfl
    · rw [Dev.port_modPort_same]
      rfl
  case load =>
    intro s h v es ha hform hstate
    exact huanikStep_of_accepts ha rfl
      ((Dev.onVersion_toNat v _).trans (Dev.routeLoad_invalid (d := { s.dev with out := [] }) hform hstate))
  case flip =>
    intro s h v ha hloaded hactive
    exact huanikStep_of_accepts ha rfl
      ((Dev.onVersion_toNat v _).trans (Dev.routeFlip_active (d := { s.dev with out := [] }) hloaded hactive))
  case flipAlone =>
    intro s h v ha hloaded hinvalid
    exact huanikStep_of_accepts ha rfl
      ((Dev.onVersion_toNat v _).trans (Dev.routeFlip_alone (d := { s.dev with out := [] }) hloaded hinvalid))
  case retire =>
    intro s h v ha hdraining hdrained
    exact huanikStep_of_accepts ha rfl
      ((Dev.onVersion_toNat v _).trans (Dev.routeRetire_drained (d := { s.dev with out := [] }) hdraining hdrained))

end Sys2Proof.Machine

/-! ## A packet for this device is delivered (R206, R216) -/

namespace Sys2Proof.Machine

open Sys2Proof Sys2Proof.Safety

section Settled

variable {d e : Dev} {n : Nat} {p : Packet}

/-- A device that met nothing to wait for, and on which no requester is under way (R253). -/
structure Settled (d : Dev) : Prop where
  again : d.again = false
  done : d.winDone = []
  cur : d.cur = none
  stream : d.stream = .other

theorem Settled.atRest (h : Settled d) : d.atRest = d := by
  rw [Dev.atRest, ← h.cur, ← h.stream]

theorem Settled.bump (h : Settled d) (c : Ctr) (k : Nat) : Settled (d.bump c k) := ⟨h.again, h.done, h.cur, h.stream⟩

theorem Settled.modRt (h : Settled d) (f : Routing → Routing) : Settled (d.modRt f) := ⟨h.again, h.done, h.cur, h.stream⟩

theorem Settled.putFlow (h : Settled d) (x : FlowRx) : Settled (d.putFlow x) := h.modRt _

theorem Settled.taken (h : OnlyTaken d e) (hd : Settled d) : Settled e := by
  rw [h.rest]
  exact ⟨hd.again, hd.done, hd.cur, hd.stream⟩

theorem Settled.stamp (h : Settled d) (p : Packet) : Settled (d.stamp p).2 := by
  unfold Dev.stamp
  split
  · exact h
  · exact ⟨h.again, h.done, h.cur, h.stream⟩

theorem Settled.enqueue (h : Settled d) (n : Nat) (p : Packet) : Settled (d.enqueue n p) := by
  obtain ⟨hagain, hdone, hcur, hstream⟩ := h
  unfold Dev.enqueue
  dsimp only
  split <;> constructor <;> simpa only [Dev.emit_frame, Dev.settleWait_frame, Dev.modPort_frame]

/-- Sending a packet of this device's own makes nothing wait. -/
theorem Settled.originate (h : Settled d) (p : Packet) (request : Bool) : Settled (d.originate p request).2 := by
  unfold Dev.originate
  split
  · split
    · split
      · exact h
      · exact h.bump _ _
    · split
      · exact (h.stamp _).enqueue _ _
      · exact h
  · split
    · exact h
    · split
      · exact h.bump _ _
      · split
        · exact (h.stamp _).enqueue _ _
        · exact h

theorem Settled.reply (h : Settled d) (p : Packet) (st : Status) (data : List Line) : Settled (d.reply p st data) := by
  unfold Dev.reply
  split
  · exact h
  · exact h.originate _ _

theorem Settled.resend (h : Settled d) (r : OutReq) : Settled (d.resend r).2 := by
  have hsent := h.originate { r.pkt with retry := true } true
  unfold Dev.resend
  split
  next hpair => rw [hpair] at hsent; exact ⟨hsent.again, hsent.done, hsent.cur, hsent.stream⟩
  next hpair => rw [hpair] at hsent; exact hsent

theorem settled_ready (d : Dev) : Settled (ready d) := ⟨rfl, rfl, rfl, rfl⟩

end Settled

section Arrivals

variable {s : State} {d e : Dev} {n : Nat} {p : Packet} {x : FlowRx} {ok : Bool}

/-! ### What an arrival leaves as it is -/

theorem arrived_eq_passing (d : Dev) (n : Nat) (p : Packet) : arrived d n p = (ready d).passing n p := rfl

theorem settled_arrived (d : Dev) (n : Nat) (p : Packet) : Settled (arrived d n p) :=
  ((settled_ready d).taken (OnlyTaken.taken _ n p)).modRt _

theorem settled_inOrder (d : Dev) (n : Nat) (p : Packet) (x : FlowRx) : Settled (inOrder d n p x) :=
  (settled_arrived d n p).putFlow _

theorem arrived_frame (d : Dev) (n : Nat) (p : Packet) :
    arrived d n p = { ready d with
      arb := (arrived d n p).arb, ports := (arrived d n p).ports, ctr := (arrived d n p).ctr, out := (arrived d n p).out
      rt := { d.rt with lastPort := tset d.rt.lastPort p.srcEp n } } :=
  (ready d).passing_frame n p

theorem arrived_reqs (d : Dev) (n : Nat) (p : Packet) : (arrived d n p).rt.reqs = d.rt.reqs :=
  congrArg (fun y => y.rt.reqs) (arrived_frame d n p)

theorem arrived_records (d : Dev) (n : Nat) (p : Packet) : (arrived d n p).rt.records = d.rt.records :=
  congrArg (fun y => y.rt.records) (arrived_frame d n p)

theorem arrived_selfEp (d : Dev) (n : Nat) (p : Packet) : (arrived d n p).selfEp = d.selfEp :=
  congrArg (fun y => y.selfEp) (arrived_frame d n p)

theorem arrived_now (d : Dev) (n : Nat) (p : Packet) : (arrived d n p).now = d.now :=
  congrArg (fun y => y.now) (arrived_frame d n p)

theorem arrived_flow (d : Dev) (n : Nat) (p : Packet) (f : FlowId) : (arrived d n p).flow f = d.flow f :=
  congrArg (fun y => y.flow f) (arrived_frame d n p)

theorem inOrder_reqs (d : Dev) (n : Nat) (p : Packet) (x : FlowRx) : (inOrder d n p x).rt.reqs = d.rt.reqs := arrived_reqs d n p

theorem inOrder_rankEp (d : Dev) (n : Nat) (p : Packet) (x : FlowRx) (job rank : Nat) :
    (inOrder d n p x).rankEp job rank = d.rankEp job rank :=
  congrArg (fun y => y.rankEp job rank) (arrived_frame d n p)

theorem inOrder_domGen (d : Dev) (n : Nat) (p : Packet) (x : FlowRx) (u : Domain) : (inOrder d n p x).domGen u = d.domGen u :=
  congrArg (fun y => y.domGen u) (arrived_frame d n p)

/-! ### Reordering (R216) -/

/-- The next packet of a flow whose later packets have not come is delivered alone. -/
theorem Dev.reorder_next (hflow : d.flow { src := p.srcEp, dst := p.dstEp, tc := p.flowTc } = some x) (hsync : p.sync = false)
    (hseq : p.flowSeq = x.e) (hheld : x.held = []) (hgone : x.gone = []) (hmissing : x.missing = []) :
    d.reorder n p = ([(n, p)], d.putFlow { x with e := x.e + 1 }) := by
  have hsettle : ({ x with e := x.e + 1, missing := [] } : FlowRx).settle = ([], { x with e := x.e + 1, missing := [] }) := by
    simp only [FlowRx.settle, hheld, hgone, List.length_nil, Nat.add_zero, FlowRx.advance]
  have hnow : (p.flowSeq - x.e).toNat = 0 := by rw [hseq, BitVec.sub_self]; rfl
  simp only [Dev.reorder, hflow, hsync, Bool.false_eq_true, if_false, hnow, if_true, hmissing, List.filter_nil, hsettle]

/-- The next packet of its flow is delivered once it is in order. -/
theorem Dev.arrive_next (h : NextOfFlow d n p x) :
    ((Safety.ready d).grantLines n p).arrive n p = ((inOrder d n p x).deliver n p).atRest := by
  obtain ⟨-, hnumbered, hflow, hsync, hseq, hheld, hgone, hmissing⟩ := h
  have hordered : ¬(p.tc = 7 ∧ p.escaped = false) := by
    rintro ⟨htc, hescaped⟩
    simp [htc, hescaped] at hnumbered
  have hflow' := (arrived_flow d n p _).trans hflow
  have hreorder := Dev.reorder_next (n := n) hflow' hsync hseq hheld hgone hmissing
  rw [arrived] at hreorder
  simp only [Dev.arrive, if_neg hordered, hreorder, List.foldl_cons, List.foldl_nil]
  rfl

/-! ### The rows of the packet kinds -/

/-- The outcome of a command whose work on the device, without the outputs of the command before, ends in device `e`. -/
theorem devStep_of_end {f : Dev → Dev} (h : f { s.dev with out := [] } = e) : devStep f s = .next { s with dev := e } := by
  rw [devStep_eq, State.onDev, h]

/-- A row for a packet's kind takes it from its port; where nothing must be waited for, that is the whole step (R253). -/
theorem devStep_packetRow (hok : ok = true) (harrives : Arrives s.dev n p) (harrive : ((Safety.ready s.dev).grantLines n p).arrive n p = e)
    (hagain : e.again = false) (hdone : e.winDone = []) : devStep (fun d => d.packetRow n p ok) s = .next { s with dev := e } := by
  obtain ⟨hdst, hmay⟩ := harrives
  have hopen : (ok && p.dstEp == s.dev.selfEp && s.dev.mayTake n p) = true := by simp [hok, hdst, hmay]
  exact devStep_of_end ((if_pos hopen).trans (Dev.windowed_undisturbed (d := { s.dev with out := [] })
    (op := fun f => (f.grantLines n p).arrive n p) harrive hagain hdone))

/-- A row that takes the next packet of its flow. -/
theorem devStep_packetRow_next (hok : ok = true) (hnext : NextOfFlow s.dev n p x) (hdeliver : (inOrder s.dev n p x).deliver n p = e)
    (hagain : e.again = false) (hdone : e.winDone = []) :
    devStep (fun d => d.packetRow n p ok) s = .next { s with dev := e.atRest } :=
  devStep_packetRow hok hnext.1 ((Dev.arrive_next hnext).trans (congrArg Dev.atRest hdeliver)) hagain hdone

/-- Such a row whose delivery leaves the device settled. -/
theorem devStep_packetRow_settled (hok : ok = true) (hnext : NextOfFlow s.dev n p x)
    (hdeliver : (inOrder s.dev n p x).deliver n p = e) (he : Settled e) :
    devStep (fun d => d.packetRow n p ok) s = .next { s with dev := e } := by
  rw [devStep_packetRow_next hok hnext hdeliver he.again he.done, he.atRest]

/-- A row that takes a notice, which TC7 carries unnumbered (R206). -/
theorem devStep_noticeRow (hok : ok = true) (hnotice : Notice s.dev n p) (hdeliver : (arrived s.dev n p).deliver n p = e)
    (hagain : e.again = false) (hdone : e.winDone = []) :
    devStep (fun d => d.packetRow n p ok) s = .next { s with dev := e.atRest } := by
  obtain ⟨harrives, htc, hescaped⟩ := hnotice
  exact devStep_packetRow hok harrives ((if_pos ⟨htc, hescaped⟩).trans (congrArg Dev.atRest hdeliver)) hagain hdone

theorem devStep_noticeRow_settled (hok : ok = true) (hnotice : Notice s.dev n p) (hdeliver : (arrived s.dev n p).deliver n p = e)
    (he : Settled e) : devStep (fun d => d.packetRow n p ok) s = .next { s with dev := e } := by
  rw [devStep_noticeRow hok hnotice hdeliver he.again he.done, he.atRest]

end Arrivals

end Sys2Proof.Machine

/-! ## Drops and replies (R207, R212, R337) -/

namespace Sys2Proof.Machine

open Sys2Proof Sys2Proof.Safety

section Drops

variable {d : Dev} {n : Nat} {p : Packet}

/-! ### Delivery by kind -/

theorem Dev.deliver_reserved (h : p.kind = .reserved) : d.deliver n p = d.bump .rtMalformedDrop := by
  simp only [Dev.deliver, Dev.deliverOne, h, reduceCtorEq, if_false]

theorem Dev.deliver_request (h : isRequest p.kind = true) : d.deliver n p = d.takeRequest n p := by
  cases hk : p.kind <;> simp_all [Dev.deliver, Dev.deliverOne, isRequest]

theorem Dev.deliver_reply (h : p.kind = .readReply ∨ p.kind = .writeAck ∨ p.kind = .atomicReply) : d.deliver n p = d.takeReply p := by
  rcases h with h | h | h <;> simp only [Dev.deliver, Dev.deliverOne, h, reduceCtorEq, if_false]

/-! ### Requests that are not let in (R207) -/

/-- A request whose sender is not the rank it names is dropped and counted. -/
theorem Dev.takeRequest_spoofed (h : d.rankEp p.job p.srcRank ≠ some p.srcEp) : d.takeRequest n p = d.bump .rtSpoof := by
  simp only [Dev.takeRequest, Dev.letIn, if_pos h]

theorem Dev.letIn_malformed (hrank : d.rankEp p.job p.srcRank = some p.srcEp) (hbad : badRequest p = true) :
    d.letIn n p = (.refuse .format, d) := by
  rw [Dev.letIn, if_neg (not_not.mpr hrank), if_pos hbad]

/-- A posted request that is malformed is counted. -/
theorem Dev.takeRequest_malformed_posted (hrank : d.rankEp p.job p.srcRank = some p.srcEp) (hbad : badRequest p = true)
    (hposted : p.posted = true) : d.takeRequest n p = d.bump .rtMalformedDrop := by
  simp only [Dev.takeRequest, Dev.letIn_malformed hrank hbad, hposted, if_true, Dev.refusePosted, true_or]

/-- A malformed request that is not posted is answered FORMAT. -/
theorem Dev.takeRequest_malformed (hrank : d.rankEp p.job p.srcRank = some p.srcEp) (hbad : badRequest p = true)
    (hposted : p.posted = false) : d.takeRequest n p = d.reply p .format [] := by
  simp only [Dev.takeRequest, Dev.letIn_malformed hrank hbad, hposted, Bool.false_eq_true, if_false]

/-! ### Replies (R212, R337) -/

theorem Dev.takeReply_unmatched (h : d.rt.reqs.find? (fun r => r.tag == p.reqTag && r.pkt.dstEp == p.srcEp) = none) :
    d.takeReply p = d.bump .rtUnmatched := by
  simp only [Dev.takeReply, h]

theorem Dev.takeReply_stale {r : OutReq} (h : d.rt.reqs.find? (fun r => r.tag == p.reqTag && r.pkt.dstEp == p.srcEp) = some r)
    (hgen : p.gen ≠ d.domGen r.unit) : d.takeReply p = (d.bump .rtUnmatched).bump (.rstStaleReplies (domKind r.unit)) := by
  simp only [Dev.takeReply, h, if_neg hgen]

theorem Dev.takeReply_matched {r : OutReq} (h : d.rt.reqs.find? (fun r => r.tag == p.reqTag && r.pkt.dstEp == p.srcEp) = some r)
    (hgen : p.gen = d.domGen r.unit) : d.takeReply p = d.answer r (statusOfCode p.status) p.data := by
  simp only [Dev.takeReply, h, if_pos hgen]

/-- REPLY_RECEIVE takes the three kinds of reply. -/
theorem isReply_of (h : p.kind = .readReply ∨ p.kind = .writeAck ∨ p.kind = .atomicReply) :
    (p.kind == .readReply || p.kind == .writeAck || p.kind == .atomicReply) = true := by
  rcases h with h | h | h <;> rw [h] <;> rfl

end Drops

/-- Settles O36: each clause is what the packet's delivery does once it is in order; the purposes of requests are the cases of an answer. -/
theorem dropsAndReplies : Obligations.DropsAndReplies := by
  unfold Obligations.DropsAndReplies
  refine ⟨?reserved, ?posted, ?spoofed, ?malformed, ?unmatched, ?stale, ?matched, ?mirror, ?huanik, ?mover⟩
  case reserved =>
    intro s n p x hkind hnext
    exact devStep_packetRow_settled (by rw [hkind]; rfl) hnext (Dev.deliver_reserved hkind) ((settled_inOrder _ _ _ _).bump _ _)
  case posted =>
    intro s n p x hkind hposted hbad hnext hrank
    refine devStep_packetRow_settled (by rw [hkind, hposted]; rfl) hnext ((Dev.deliver_request (by rw [hkind]; rfl)).trans
      (Dev.takeRequest_malformed_posted ?_ hbad hposted)) ((settled_inOrder _ _ _ _).bump _ _)
    rw [inOrder_rankEp, hrank]
  case spoofed =>
    intro s n p x hkind hnext hrank
    refine devStep_packetRow_settled (by rw [hkind]; rfl) hnext ((Dev.deliver_request (by rw [hkind]; rfl)).trans
      (Dev.takeRequest_spoofed ?_)) ((settled_inOrder _ _ _ _).bump _ _)
    rw [inOrder_rankEp]
    exact hrank
  case malformed =>
    intro s n p x hkind hposted hbad hnext hrank
    refine devStep_packetRow_settled (by rw [hkind]; rfl) hnext ((Dev.deliver_request (by rw [hkind]; rfl)).trans
      (Dev.takeRequest_malformed ?_ hbad hposted)) ((settled_inOrder _ _ _ _).reply _ _ _)
    rw [inOrder_rankEp, hrank]
  case unmatched =>
    intro s n p x hkind hnext hnone
    rw [← inOrder_reqs s.dev n p x] at hnone
    exact devStep_packetRow_settled (isReply_of hkind) hnext ((Dev.deliver_reply hkind).trans (Dev.takeReply_unmatched hnone))
      ((settled_inOrder _ _ _ _).bump _ _)
  case stale =>
    intro s n p x r hkind hnext hfound hgen
    rw [← inOrder_reqs s.dev n p x] at hfound
    rw [← inOrder_domGen s.dev n p x] at hgen
    exact devStep_packetRow_settled (isReply_of hkind) hnext ((Dev.deliver_reply hkind).trans (Dev.takeReply_stale hfound hgen))
      (((settled_inOrder _ _ _ _).bump _ _).bump _ _)
  case matched =>
    intro s n p x r e hkind hnext hfound hgen hanswer hagain hdone
    rw [← inOrder_reqs s.dev n p x] at hfound
    rw [← inOrder_domGen s.dev n p x] at hgen
    exact devStep_packetRow_next (isReply_of hkind) hnext
      ((Dev.deliver_reply hkind).trans ((Dev.takeReply_matched hfound hgen).trans hanswer)) hagain hdone
  case mirror =>
    intro d r i st data hpurpose
    simp only [Dev.answer, hpurpose]
  case huanik =>
    intro d r st data hpurpose
    simp only [Dev.answer, hpurpose]
  case mover =>
    intro d r i o st data hpurpose
    simp only [Dev.answer, hpurpose]

end Sys2Proof.Machine

/-! ## Notices and the timers of flows and requests (R216 to R220, Table 9.8) -/

namespace Sys2Proof.Machine

open Sys2Proof Sys2Proof.Safety

section Notices

variable {d : Dev} {n : Nat} {p : Packet}

theorem Dev.deliver_lost (h : p.kind = .lost) : d.deliver n p = d.takeLost p := by
  simp only [Dev.deliver, Dev.deliverOne, h, reduceCtorEq, if_false]

theorem Dev.deliver_replyLost (h : p.kind = .replyLost) : d.deliver n p = d.takeReplyLost p := by
  simp only [Dev.deliver, Dev.deliverOne, h, reduceCtorEq, if_false]

theorem Dev.deliver_skip (h : p.kind = .skip) : d.deliver n p = d.takeSkip p := if_pos h

/-! ### LOST and REPLY_LOST (R218, Table 9.8) -/

/-- A LOST notice of one packet sent within 200 us. -/
theorem Dev.takeLost_recorded {q : U24} {v : SendRec} (hseqs : noticeSeqs p = [q])
    (hrec : d.rt.records.find? (fun y => y.flow == { src := d.selfEp, dst := p.srcEp, tc := (noticeOf p).2.1 } && y.seq == q &&
      decide (d.now ≤ y.sentAt + 200000)) = some v) : d.takeLost p = d.onLost v := by
  simp only [Dev.takeLost, hseqs, List.map_cons, List.map_nil, hrec, List.foldl_cons, List.foldl_nil, List.any_cons, List.any_nil,
    Option.isNone_some, Bool.or_self, Bool.false_eq_true, if_false]

/-- A LOST notice that names no packet on record is counted. -/
theorem Dev.takeLost_unrecorded (hseqs : noticeSeqs p ≠ []) (hrec : d.rt.records = []) : d.takeLost p = d.bump .rtNoticeIgnored := by
  have hignored : ((noticeSeqs p).map fun _ => (none : Option SendRec)).any Option.isNone = true := by
    obtain ⟨q, qs, hqs⟩ := List.exists_cons_of_ne_nil hseqs
    rw [hqs]
    rfl
  simp only [Dev.takeLost, hrec, List.find?_nil, hignored, List.foldl_map, List.foldl_fixed, if_true]

/-- A lost READ or WRITE is resent once (Table 9.8). -/
theorem Dev.onLost_request {v : SendRec} {r : OutReq} (hkind : v.pkt.kind = .write ∨ v.pkt.kind = .read)
    (hreq : d.rt.reqs.find? (fun y => y.tag == v.pkt.reqTag && y.pkt.dstEp == v.pkt.dstEp && y.pkt.flowSeq == v.seq) = some r) :
    d.onLost v = d.resendOnce r := by
  rcases hkind with hkind | hkind <;> simp only [Dev.onLost, hkind, hreq]

theorem Dev.resendOnce_first {r : OutReq} (hresent : r.resent = false) (hsent : (d.resend r).1 = true) :
    d.resendOnce r = (d.resend r).2 := by
  simp only [Dev.resendOnce, hresent, hsent, Bool.false_eq_true, if_false, if_true]

theorem Dev.resendOnce_second {r : OutReq} (hresent : r.resent = true) : d.resendOnce r = d.answer r .timeout [] := if_pos hresent

/-- A REPLY_LOST notice of an ATOMIC ends it with TIMEOUT. -/
theorem Dev.takeReplyLost_atomic {r : OutReq}
    (hreq : d.rt.reqs.find? (fun y => y.tag == p.reqTag && y.pkt.dstEp == p.srcEp && y.pkt.gen == p.gen) = some r)
    (hkind : r.pkt.kind = .atomic) : d.takeReplyLost p = d.answer r .timeout [] := by
  simp only [Dev.takeReplyLost, hreq, hkind]

/-! ### Numbers declared lost (R217, R219) -/

/-- A flow whose next number alone is lost passes over it. -/
theorem FlowRx.settle_lost {x : FlowRx} {ms : List (U24 × Nat)} (hheld : x.held = []) (hgone : x.gone = []) :
    ({ x with gone := [x.e], missing := ms } : FlowRx).settle =
      ([], { x with e := x.e + 1, missing := ms.filter (fun m => m.1 != x.e) }) := by
  simp [FlowRx.settle, hheld, hgone, FlowRx.advance]

/-- A SKIP of the next number of a flow that holds nothing declares it lost (R219). -/
theorem Dev.takeSkip_next {x : FlowRx} (hflow : d.flow { src := p.srcEp, dst := d.selfEp, tc := (noticeOf p).2.1 } = some x)
    (hseqs : noticeSeqs p = [x.e]) (hheld : x.held = []) (hgone : x.gone = []) :
    d.takeSkip p =
      (d.putFlow { x with e := x.e + 1, missing := x.missing.filter (fun m => m.1 != x.e) }).bump .rtLostDeclared := by
  have hnew : (noticeSeqs p).filter (fun s =>
      decide ((s - x.e).toNat < 8388608) && !([] : List U24).contains s && !x.held.any (fun h => h.pkt.flowSeq == s)) = [x.e] := by
    simp only [hseqs, hheld, List.filter_cons, BitVec.sub_self]
    rfl
  have hkept : (x.missing.filter (fun m => !([x.e].contains m.1))).filter (fun m => m.1 != x.e) =
      x.missing.filter (fun m => m.1 != x.e) := by
    rw [List.filter_filter]
    exact List.filter_congr fun m _ => by simp [bne]
  simp only [Dev.takeSkip, hflow, hgone, hnew, reduceCtorEq, if_false, List.nil_append, FlowRx.settle_lost hheld hgone, hkept]
  rfl

/-- A flow whose next number is lost and whose following packet has come delivers it. -/
theorem FlowRx.settle_lost_held {x : FlowRx} {q : HeldPkt} (hheld : x.held = [q]) (hseq : q.pkt.flowSeq = x.e + 1) :
    ({ x with gone := [x.e], missing := [] } : FlowRx).settle =
      ([(q.port, q.pkt)], { x with e := x.e + 2, held := [], gone := [], missing := [] }) := by
  have htwo : x.e + 1#24 + 1#24 = x.e + 2#24 := by rw [BitVec.add_assoc]; rfl
  simp [FlowRx.settle, hheld, FlowRx.advance, hseq, htwo]

/-- A number that has been missing for RT.LOSS_TIME is declared lost and reported, and what its flow held behind it is delivered (R217). -/
theorem Dev.declareLost_one {f : FlowId} {x : FlowRx} {t : Nat} {q : HeldPkt} (hflow : d.flow f = some x) (hmissing : x.missing = [(x.e, t)])
    (hheld : x.held = [q]) (hseq : q.pkt.flowSeq = x.e + 1) (hgone : x.gone = []) :
    d.declareLost f = (((((d.reach (t + (d.param 0x0022 0).toNat * 1000)).putFlow
      { x with e := x.e + 2, held := [], missing := [] }).bump .rtLostDeclared).sendBack (numberNotice .lost f.src f.tc x.e 1)).deliver
        q.port q.pkt) := by
  have hruns : runsOf [x.e] = [(x.e, 1)] := rfl
  simp [Dev.declareLost, hflow, hmissing, hgone, FlowRx.settle_lost_held hheld hseq, hruns]

end Notices

/-- Settles O37: each clause is what the notice's delivery, or the timer's work, does with the one packet, request or number it is about. -/
theorem noticesAndTimers : Obligations.NoticesAndTimers := by
  unfold Obligations.NoticesAndTimers
  refine ⟨?resent, ?lostAgain, ?unrecorded, ?replyLost, ?skip, ?declared, ?timeout, ?expired⟩
  case resent =>
    intro s n p q v r hkind hnotice hseqs hrec hreqKind hreq hresent hsent
    rw [← arrived_records s.dev n p, ← arrived_selfEp s.dev n p, ← arrived_now s.dev n p] at hrec
    rw [← arrived_reqs s.dev n p] at hreq
    exact devStep_noticeRow_settled (by rw [hkind]; rfl) hnotice ((Dev.deliver_lost hkind).trans ((Dev.takeLost_recorded hseqs hrec).trans
      ((Dev.onLost_request hreqKind hreq).trans (Dev.resendOnce_first hresent hsent)))) ((settled_arrived _ _ _).resend _)
  case lostAgain =>
    intro s n p q v r e hkind hnotice hseqs hrec hreqKind hreq hresent hanswer hagain hdone
    rw [← arrived_records s.dev n p, ← arrived_selfEp s.dev n p, ← arrived_now s.dev n p] at hrec
    rw [← arrived_reqs s.dev n p] at hreq
    exact devStep_noticeRow (by rw [hkind]; rfl) hnotice ((Dev.deliver_lost hkind).trans ((Dev.takeLost_recorded hseqs hrec).trans
      ((Dev.onLost_request hreqKind hreq).trans ((Dev.resendOnce_second hresent).trans hanswer)))) hagain hdone
  case unrecorded =>
    intro s n p hkind hnotice hseqs hrec
    rw [← arrived_records s.dev n p] at hrec
    exact devStep_noticeRow_settled (by rw [hkind]; rfl) hnotice ((Dev.deliver_lost hkind).trans (Dev.takeLost_unrecorded hseqs hrec))
      ((settled_arrived _ _ _).bump _ _)
  case replyLost =>
    intro s n p r e hkind hnotice hreq hreqKind hanswer hagain hdone
    rw [← arrived_reqs s.dev n p] at hreq
    exact devStep_noticeRow (by rw [hkind]; rfl) hnotice
      ((Dev.deliver_replyLost hkind).trans ((Dev.takeReplyLost_atomic hreq hreqKind).trans hanswer)) hagain hdone
  case skip =>
    intro s n p x hkind hnotice hflow hseqs hheld hgone
    rw [← arrived_selfEp s.dev n p, ← arrived_flow s.dev n p] at hflow
    exact devStep_noticeRow_settled (by rw [hkind]; rfl) hnotice
      ((Dev.deliver_skip hkind).trans (Dev.takeSkip_next hflow hseqs hheld hgone)) (((settled_arrived _ _ _).putFlow _).bump _ _)
  case declared =>
    intro s f x t q e hflow hmissing hheld hseq hgone hdeliver hagain hdone
    have hlost := (Dev.declareLost_one (d := Safety.ready s.dev) hflow hmissing hheld hseq hgone).trans hdeliver
    exact devStep_of_end (Dev.windowed_undisturbed (d := { s.dev with out := [] }) (op := fun e => (e.declareLost f).atRest)
      (congrArg Dev.atRest hlost) hagain hdone)
  case timeout =>
    intro s t r e hreq hanswer hagain hdone
    refine devStep_of_end ?_
    simp only [hreq]
    exact Dev.windowed_undisturbed (congrArg Dev.atRest hanswer) hagain hdone
  case expired =>
    intro s f q v hrec
    exact devStep_of_eq (by simp only [hrec])

end Sys2Proof.Machine

/-! ## Requests to a partition in a tenant change (R263) -/

namespace Sys2Proof.Machine

open Sys2Proof Sys2Proof.Safety

section TenantChange

variable {d : Dev} {n c : Nat} {p : Packet} {x : FlowRx}

/-- A well-formed request to a context whose partition is in a tenant change is refused with RIGHTS (R263; log entry 27). -/
theorem Dev.takeRequest_tenantChanging (hrank : d.rankEp p.job p.srcRank = some p.srcEp) (hgood : badRequest p = false)
    (hwindow : d.windowCtx p.job p.window p.srcRank = some c) (hchanging : d.tenantChanging (d.context c).partition = true)
    (hposted : p.posted = false) : d.takeRequest n p = d.reply p .rights [] := by
  simp only [Dev.takeRequest, Dev.letIn, if_neg (not_not.mpr hrank), hgood, hwindow, hchanging, hposted, Bool.or_true, Bool.false_eq_true,
    if_false, if_true]

/-- READ_REQUEST to a partition in a tenant change, whatever the partition's own state. -/
theorem exec_readRequest_tenantChanging {s : State} (hkind : p.kind = .read) (hnext : NextOfFlow s.dev n p x) (ha : Admitted s.dev n p c)
    (hchanging : s.dev.tenantChanging (s.dev.context c).partition = true) (hposted : p.posted = false) :
    exec (.readRequest n p) s = .next { s with dev := (inOrder s.dev n p x).reply p .rights [] } := by
  obtain ⟨hrank, hgood, hwindow, -⟩ := ha
  have hframe := arrived_frame s.dev n p
  refine devStep_packetRow_settled (by rw [hkind]; rfl) hnext ((Dev.deliver_request (by rw [hkind]; rfl)).trans
    (Dev.takeRequest_tenantChanging (c := c) ((inOrder_rankEp _ _ _ _ _ _).trans hrank) hgood ?_ ?_ hposted))
    ((settled_inOrder _ _ _ _).reply _ _ _)
  · exact (congrArg (fun y => y.windowCtx p.job p.window p.srcRank) hframe).trans hwindow
  · exact (congrArg (fun y => y.tenantChanging (y.context c).partition) hframe).trans hchanging

/-- A running device with partition 1 ACTIVE, on whose list of long operations a tenant change of partition 1 stands. Context 7 of the
partition maps region 3, and window 1 of job 2 leads there; rank 1 of the job is endpoint 5, by port 3, whose flow of class 2 expects
number 4. -/
def changingTenant : State :=
  { dev :=
      { sys := { stage := .running, resetN := true }
        units := [(0, { trained := true, slots := 128 })]
        parts := [(1, { state := .active })]
        regions := [(3, { partition := 1, grainM8 := 0, width := 1, tier := .capacity, extents := [⟨false, 0, 0⟩] })]
        ctxs := [(7,
          { valid := true, partition := 1, job := 2,
            segments := [{ base := 0, lines := 1024, kind := .region, r := true, targetId := 3 }] })]
        ports := [(3, { state := .active })]
        ranks := [(2, { parts := [1], entries := [(0, 0), (1, 5)] })]
        wins := [(0, { job := 2, window := 1, rankLo := 0, rankHi := 3, context := 7 })]
        rt := { v0 := { state := .active, routes := [(5, { spray := 8, escapePort := 3 })] }
                flows := [{ flow := { src := 5, dst := 0, tc := 2 }, e := 4 }] }
        hk := { ops := [(1, .tenantChange 1 false)] } } }

/-- A READ of the first line of context 7 by endpoint 5, the next packet of its flow. -/
def firstLineRead : Packet :=
  { kind := .read, tc := 2, flowTc := 2, srcEp := 5, dstEp := 0, job := 2, srcRank := 1, window := 1, flowSeq := 4, lines := 1 }

/-- The flow of that packet. -/
def readersFlow : FlowRx := { flow := { src := 5, dst := 0, tc := 2 }, e := 4 }

/-- The segment of context 7. -/
def readersSegment : Segment := { base := 0, lines := 1024, kind := .region, r := true, targetId := 3 }

theorem nextOfFlow_changingTenant : NextOfFlow changingTenant.dev 3 firstLineRead readersFlow := by decide +kernel

theorem served_changingTenant : Served changingTenant.dev 3 firstLineRead readersFlow 7 readersSegment .r
    (serving changingTenant.dev 3 firstLineRead readersFlow 7) := by decide +kernel

theorem admitted_changingTenant : Admitted changingTenant.dev 3 firstLineRead 7 := by decide +kernel

/-- The statuses of the packets that a device sends out. -/
def sentStatuses (d : Dev) : List Nat := d.out.filterMap fun o =>
  match o with
  | .packet _ p => some p.status
  | _ => none

end TenantChange

/-- Refutes O35: it asks of the partition only that it is ACTIVE, and of the device's long operations nothing, while the model refuses a
request with RIGHTS as long as a tenant change of its partition is listed (R263; log entry 27). On `changingTenant` the READ that the
statement has answered OK is answered RIGHTS. -/
theorem not_requestsExecuted : ¬ Obligations.RequestsExecuted := by
  unfold Obligations.RequestsExecuted
  rintro ⟨hread, -⟩
  have hstated := hread changingTenant 3 7 3 0 firstLineRead readersFlow readersSegment (fun k => (0, k)) _ rfl served_changingTenant rfl
    (by decide +kernel) (by decide +kernel) (by decide +kernel)
  have hmodel := exec_readRequest_tenantChanging rfl nextOfFlow_changingTenant admitted_changingTenant (by decide) rfl
  have hstatus := congrArg (fun t => sentStatuses t.dev) (Host.Outcome.next.inj (hstated.symm.trans hmodel))
  exact absurd hstatus (by decide +kernel)

end Sys2Proof.Machine

/-! ## Context, window, rank-table, head-binding and lease commands (R204, R208, R209, R236, R241, R242) -/

namespace Sys2Proof.Machine

open Sys2Proof Sys2Proof.Safety

section Records

variable {d : Dev}

theorem ctxOwner_valid {c : Nat} (hvalid : (d.context c).valid = true) : ctxOwner c d = some (d.context c).partition := if_pos hvalid

/-- CONTEXT_WRITE of a valid record that passes its checks (R209). -/
theorem Dev.contextWrite_valid {c : ContextIn} (hvalid : c.valid = true) (hrsvd : c.rsvd = false) (htc : c.tc ≤ 5)
    (hlength : c.segments.length ≤ 8) (hform : c.segments.any segmentFormat = false) (hmeet : segmentsMeet c.segments = false)
    (hcontext : c.context < 65536) (hpart : (d.partn c.partition).state ≠ .free)
    (hbounds : c.segments.any (d.segmentBounds c.partition c.job) = false) :
    d.contextWrite c =
      (let x : Context := { valid := true, partition := c.partition, job := c.job, tc := c.tc, segments := c.segments }
       { d with ctxs := tset d.ctxs c.context x }.keepTrans fun e => e.ctx != c.context).done := by
  have hformat : ¬(c.rsvd = true ∨ 5 < c.tc ∨ 8 < c.segments.length ∨ c.segments.any segmentFormat = true ∨
      segmentsMeet c.segments = true) := by
    simp only [hrsvd, hform, hmeet, Bool.false_eq_true, or_false, false_or]
    omega
  have hinside : ¬(65536 ≤ c.context ∨ (c.valid = true ∧ (d.partn c.partition).state = .free) ∨
      c.segments.any (d.segmentBounds c.partition c.job) = true) := by
    simp only [hbounds, hpart, and_false, Bool.false_eq_true, or_false]
    omega
  rw [Dev.contextWrite, if_neg hformat, if_neg hinside, hvalid]

/-- WINDOW_WRITE of a valid record that passes its checks writes it (R208). -/
theorem Dev.windowWrite_valid {n : Nat} {w : WindowIn} (hvalid : w.valid = true) (hn : n < 16384) (hrsvd : w.rsvd = false)
    (hranks : w.rankLo ≤ w.rankHi) (hfree : d.wins.any (fun x => x.1 != n && x.2.job == w.job && x.2.window == w.window) = false)
    (hcontext : (d.context w.context).valid = true) (hjob : d.jobOf w.job (d.context w.context).partition = true) :
    d.windowWrite n w =
      (let x : WinRec := { job := w.job, window := w.window, rankLo := w.rankLo, rankHi := w.rankHi, context := w.context }
       { d with wins := tset d.wins n x } : Dev).done := by
  have hformat : ¬(16383 < n ∨ w.rsvd = true ∨ w.rankHi < w.rankLo ∨
      (w.valid = true ∧ d.wins.any (fun x => x.1 != n && x.2.job == w.job && x.2.window == w.window) = true)) := by
    simp only [hrsvd, hfree, Bool.false_eq_true, and_false, false_or, or_false]
    omega
  have hinside : ¬((d.context w.context).valid = false ∨ d.jobOf w.job (d.context w.context).partition = false) := by
    simp [hcontext, hjob]
  simp only [Dev.windowWrite, if_neg hformat, if_neg hinside, if_pos hvalid]

/-- WINDOW_WRITE of a record whose `valid` is 0 frees it, under the checks that need no other record (R208). -/
theorem Dev.windowWrite_freed {n : Nat} {w : WindowIn} (hvalid : w.valid = false) (hn : n < 16384) (hrsvd : w.rsvd = false)
    (hranks : w.rankLo ≤ w.rankHi) (hcontext : (d.context w.context).valid = true)
    (hjob : d.jobOf w.job (d.context w.context).partition = true) :
    d.windowWrite n w = ({ d with wins := terase d.wins n } : Dev).done := by
  have hfreed : ¬ w.valid = true := Bool.eq_false_iff.mp hvalid
  have hformat : ¬(16383 < n ∨ w.rsvd = true ∨ w.rankHi < w.rankLo ∨
      (w.valid = true ∧ d.wins.any (fun x => x.1 != n && x.2.job == w.job && x.2.window == w.window) = true)) := by
    simp only [hrsvd, hfreed, Bool.false_eq_true, false_and, false_or, or_false]
    omega
  have hinside : ¬((d.context w.context).valid = false ∨ d.jobOf w.job (d.context w.context).partition = false) := by
    simp [hcontext, hjob]
  simp only [Dev.windowWrite, if_neg hformat, if_neg hinside, if_neg hfreed]

/-- RANK_TABLE_LOAD of one entry of a job without a table, while there is room for one (R204). -/
theorem Dev.rankTableLoad_new {p job : Nat} {e : RankIn} (hjob : job < 65536) (hrank : e.rank < 65536) (hendpoint : e.endpoint < 65536)
    (hvalid : e.valid = true) (hpart : (d.partn p).state ≠ .free) (hnone : tget d.ranks job = none) (hroom : d.ranks.length < 4096) :
    d.rankTableLoad p job [e] =
      ({ d with ranks := tset d.ranks job { parts := [p], entries := [(e.rank, e.endpoint)] } } : Dev).done := by
  have hformat : ¬(65536 ≤ job ∨ [e].any (fun e => decide (65536 ≤ e.rank ∨ 65536 ≤ e.endpoint)) = true) := by
    simp only [List.any_cons, List.any_nil, Bool.or_false, decide_eq_true_eq]
    omega
  have hfit : ¬((tget d.ranks job).isNone = true ∧ 4096 ≤ d.ranks.length) := fun ⟨_, hfull⟩ => absurd hfull (Nat.not_le.mpr hroom)
  have htable : tgetD d.ranks job { parts := [], entries := [] } = { parts := [], entries := [] } := by rw [tgetD, hnone]; rfl
  rw [Dev.rankTableLoad, if_neg hformat, if_neg hpart, if_neg (List.cons_ne_nil _ _), if_neg hfit, htable]
  simp only [List.foldl_cons, List.foldl_nil, hvalid, if_true]
  rfl

/-- RANK_TABLE_LOAD without entries releases the table of its only partition, which names the job nowhere (R204). -/
theorem Dev.rankTableLoad_released {p job : Nat} {t : RankTable} (hjob : job < 65536) (hpart : (d.partn p).state ≠ .free)
    (hnamed : d.jobNamed job p = false) (ht : tget d.ranks job = some t) (hparts : t.parts = [p]) :
    d.rankTableLoad p job [] = ({ d with ranks := terase d.ranks job } : Dev).done := by
  have hformat : ¬(65536 ≤ job ∨ ([] : List RankIn).any (fun e => decide (65536 ≤ e.rank ∨ 65536 ≤ e.endpoint)) = true) := by
    simp only [List.any_nil, Bool.false_eq_true, or_false]
    omega
  have hrest : t.parts.filter (fun x => x != p) = [] := by simp [hparts]
  rw [Dev.rankTableLoad, if_neg hformat, if_neg hpart, if_pos rfl, if_neg (Bool.eq_false_iff.mp hnamed)]
  simp only [ht, hrest, if_true]

/-- HEAD_BIND of a doorbell context alone acts on the context's partition. -/
theorem headBind_owner {b : HeadBindIn} {c : Nat} (hdcr : b.dcr = []) (hdoorbell : b.doorbell = some c)
    (hcontext : (d.context c).valid = true) :
    (b.dcr.map (fun x => x.2) ++ b.doorbell.toList).findSome? (fun c => ctxOwner c d) = some (d.context c).partition := by
  simp only [hdcr, hdoorbell, List.map_nil, Option.toList_some, List.nil_append, List.findSome?_singleton, ctxOwner_valid hcontext]

/-- HEAD_BIND of a doorbell context alone that no other head binds (R236). -/
theorem Dev.headBind_doorbell {b : HeadBindIn} {c : Nat} (hdcr : b.dcr = []) (hdoorbell : b.doorbell = some c)
    (hcontext : (d.context c).valid = true) (hrsvd : b.rsvd = false) (hhead : d.headExists b.head = true)
    (hfree : d.heads.any (fun x => x.1 != b.head && x.2.contexts.contains c) = false) :
    d.headBind b = ((d.modHead b.head fun x => { x with dcr := [], doorbell := some c }).keepTrans
      fun e => !([c] ++ (d.head b.head).contexts).contains e.ctx).done := by
  have hone : d.heads.any (fun x => x.1 != b.head && x.2.contexts.any (fun y => [c].contains y)) = false := by
    simpa only [List.contains_eq_any_beq, List.any_cons, List.any_nil, Bool.or_false, Bool.beq_comm] using hfree
  simp only [Dev.headBind, hdcr, hdoorbell, List.map_nil, Option.toList_some, List.nil_append, List.map_cons, List.any_nil, List.any_cons,
    List.foldl_nil, hrsvd, hhead, hcontext, hone, allDiffer]
  rfl

/-- LEASE_CREATE over extents that the region has, for a context of the region's partition (R241). -/
theorem Dev.leaseCreate_fit {c r first count dur n : Nat} {x : Region} (hx : tget d.regions r = some x) (hcount : 0 < count)
    (hmost : count ≤ 16384) (hdur : 0 < dur) (hlongest : dur ≤ 3600) (hcontext : (d.context c).valid = true)
    (hpart : (d.context c).partition = x.partition) (hlast : first + count ≤ x.extents.length) (hstays : x.destroying = false)
    (hn : d.freeLease = some n) :
    d.leaseCreate c r first count dur =
      (let l : Lease := { state := .held, head := none, context := c, duration := dur, expiry := d.now + dur * 1000000000, region := r,
                          first := first, count := count }
       { d with leases := tset d.leases n l } : Dev).done [BitVec.ofNat 64 n] := by
  have hformat : ¬(count = 0 ∨ 16384 < count ∨ dur = 0 ∨ 3600 < dur) := by omega
  have hinside : ¬((d.context c).valid = false ∨ (d.context c).partition ≠ x.partition ∨ x.extents.length < first + count) := by
    simp only [hcontext, hpart, ne_eq, not_true_eq_false, Bool.true_eq_false, false_or]
    omega
  simp only [Dev.leaseCreate, if_neg hformat, hx, if_neg hinside, hstays, hn, Bool.false_eq_true, if_false]

theorem leaseOwner_of_tget {n : Nat} {l : Lease} {x : Region} (hl : tget d.leases n = some l) (hx : tget d.regions l.region = some x) :
    leaseOwner n d = some x.partition := by
  rw [leaseOwner, hl, Option.bind_some, regionOwner_of_tget hx]

/-- A command on a lease that is HELD is carried out. -/
theorem Dev.onLease_held {n : Nat} {l : Lease} (f : Lease → CmdResult) (hl : tget d.leases n = some l) (hstate : l.state = .held) :
    d.onLease n f = f l := by
  simp only [Dev.onLease, hl, hstate]

/-- A lease that is renewed before its expiry has its full duration again (R242). -/
theorem Dev.renewLease_held {n : Nat} {l : Lease} (hl : tget d.leases n = some l) (hstate : l.state = .held) (hbefore : d.now < l.expiry) :
    d.renewLease n = { d with leases := tset d.leases n { l with expiry := d.now + l.duration * 1000000000 } } := by
  simp only [Dev.renewLease, hl, hstate, hbefore, and_self, if_true]

/-- LEASE_RENEW before the expiry. -/
theorem Dev.leaseRenew_before {n : Nat} {l : Lease} (hl : tget d.leases n = some l) (hstate : l.state = .held) (hbefore : d.now < l.expiry) :
    d.onLease n (fun l =>
      if d.now < l.expiry then (d.renewLease n).done [BitVec.ofNat 64 (d.now + l.duration * 1000000000)] else d.fail .leaseExpired) =
    ({ d with leases := tset d.leases n { l with expiry := d.now + l.duration * 1000000000 } } : Dev).done
      [BitVec.ofNat 64 (d.now + l.duration * 1000000000)] := by
  rw [Dev.onLease_held _ hl hstate, if_pos hbefore, Dev.renewLease_held hl hstate hbefore]

/-- LEASE_RENEW at or after the expiry. -/
theorem Dev.leaseRenew_after {n : Nat} {l : Lease} (hl : tget d.leases n = some l) (hstate : l.state = .held) (hafter : l.expiry ≤ d.now) :
    d.onLease n (fun l =>
      if d.now < l.expiry then (d.renewLease n).done [BitVec.ofNat 64 (d.now + l.duration * 1000000000)] else d.fail .leaseExpired) =
    d.fail .leaseExpired := by
  rw [Dev.onLease_held _ hl hstate, if_neg (Nat.not_lt.mpr hafter)]

end Records

/-- Settles O46: each clause is the command's own equation on the device without its earlier outputs, which a command that is accepted
runs and answers. -/
theorem recordCommands : Obligations.RecordCommands := by
  unfold Obligations.RecordCommands
  refine ⟨?context, ?window, ?windowFreed, ?ranks, ?ranksReleased, ?head, ?create, ?renew, ?expired, ?query⟩
  case context =>
    intro s h c ha hvalid hrsvd htc hlength hform hmeet hcontext hpart hbounds
    exact huanikStep_of_accepts ha rfl
      (Dev.contextWrite_valid (d := { s.dev with out := [] }) hvalid hrsvd htc hlength hform hmeet hcontext hpart hbounds)
  case window =>
    intro s h n w hvalid hcontext ha hn hrsvd hranks hfree hjob
    exact huanikStep_of_accepts ha (ctxOwner_valid (d := { s.dev with out := [] }) hcontext)
      (Dev.windowWrite_valid (d := { s.dev with out := [] }) hvalid hn hrsvd hranks hfree hcontext hjob)
  case windowFreed =>
    intro s h n w hvalid hcontext ha hn hrsvd hranks hjob
    exact huanikStep_of_accepts ha (ctxOwner_valid (d := { s.dev with out := [] }) hcontext)
      (Dev.windowWrite_freed (d := { s.dev with out := [] }) hvalid hn hrsvd hranks hcontext hjob)
  case ranks =>
    rintro s h j p e rfl ha hj hrank hendpoint hvalid hpart hnone hroom
    exact huanikStep_of_accepts ha rfl
      (Dev.rankTableLoad_new (d := { s.dev with out := [] }) hj hrank hendpoint hvalid hpart hnone hroom)
  case ranksReleased =>
    rintro s h j p t rfl ha hj hpart hnamed ht hparts
    exact huanikStep_of_accepts ha rfl (Dev.rankTableLoad_released (d := { s.dev with out := [] }) hj hpart hnamed ht hparts)
  case head =>
    intro s h b c hdcr hdoorbell hcontext ha hrsvd hhead hfree
    exact huanikStep_of_accepts ha (headBind_owner (d := { s.dev with out := [] }) hdcr hdoorbell hcontext)
      (Dev.headBind_doorbell (d := { s.dev with out := [] }) hdcr hdoorbell hcontext hrsvd hhead hfree)
  case create =>
    intro s h c r first count dur n x hx ha hcount hmost hdur hlongest hcontext hpart hlast hstays hn
    exact huanikStep_of_accepts ha (regionOwner_of_tget hx)
      (Dev.leaseCreate_fit (d := { s.dev with out := [] }) hx hcount hmost hdur hlongest hcontext hpart hlast hstays hn)
  case renew =>
    intro s h n l x hl hx ha hstate hbefore
    exact huanikStep_of_accepts ha (leaseOwner_of_tget (d := { s.dev with out := [] }) hl hx)
      (Dev.leaseRenew_before (d := { s.dev with out := [] }) hl hstate hbefore)
  case expired =>
    intro s h n l x hl hx ha hstate hafter
    exact huanikStep_of_accepts ha (leaseOwner_of_tget (d := { s.dev with out := [] }) hl hx)
      (Dev.leaseRenew_after (d := { s.dev with out := [] }) hl hstate hafter)
  case query =>
    intro s h n l x hl hx ha hstate
    exact huanikStep_of_accepts ha (leaseOwner_of_tget (d := { s.dev with out := [] }) hl hx)
      (Dev.onLease_held (d := { s.dev with out := [] }) _ hl hstate)

end Sys2Proof.Machine

/-! ## CXL.mem accesses of a head (R232, R235, R244, R245) -/

namespace Sys2Proof.Machine

open Sys2Proof Sys2Proof.Safety

section CxlAccess

variable {s : State} {d e f : Dev} {h hpa r off t : Nat} {needs : List Right} {read : Bool} {reg : Region} {c : WinReq} {st : Status}
  {op : Nat → Nat → Region → Dev → Dev}

/-- An access that reaches a region, and there meets nothing to wait for, has its effect at once (R232, R253). -/
theorem Dev.cxlAccess_reached (hopen : d.memOpen h = true) (hlocate : d.settle.cxlLocate h hpa needs = (.ok (r, off), e))
    (hreg : tget e.regions r = some reg) (hop : op r off reg e = f) (hagain : f.again = false) (hdone : f.winDone = []) :
    d.cxlAccess h hpa needs read op = f.atRest := by
  rw [Dev.cxlAccess, hopen, Dev.guard_true]
  exact Dev.windowed_undisturbed (by simp only [hlocate, hreg, hop]) hagain hdone

/-- A row that is one CXL access which reaches its region and meets nothing to wait for. -/
theorem devStep_cxlAccess (hreach : Reaches s.dev h hpa needs r off reg e) (hop : op r off reg e = f) (hu : Undisturbed s.dev f) :
    devStep (fun d => d.cxlAccess h hpa needs read op) s = .next { s with dev := f.atRest } := by
  obtain ⟨hopen, hlocate, hreg, -⟩ := hreach
  obtain ⟨hagain, hdone, -⟩ := hu
  exact devStep_of_end (Dev.cxlAccess_reached (d := { s.dev with out := [] }) hopen hlocate hreg hop hagain hdone)

/-- A row that is one CXL write, likewise, whose line is not mirrored (R317). -/
theorem devStep_cxlWrite (hreach : Reaches s.dev h hpa needs r off reg e) (hop : op r off reg e = f) (hu : Undisturbed s.dev f) :
    devStep (fun d => d.mirrored c fun g => g.cxlAccess h hpa needs read op) s = .next { s with dev := f.atRest } := by
  obtain ⟨hopen, hlocate, hreg, -⟩ := hreach
  obtain ⟨hagain, hdone, hmirror⟩ := hu
  exact devStep_mirrored (Dev.cxlAccess_reached (d := Safety.ready s.dev) hopen hlocate hreg hop hagain hdone) ⟨hagain, hdone, hmirror⟩

theorem undisturbed_of_reaches (hreach : Reaches s.dev h hpa needs r off reg e) : Undisturbed s.dev e := by
  obtain ⟨-, -, -, hu⟩ := hreach
  exact hu

theorem region_of_reaches (hreach : Reaches s.dev h hpa needs r off reg e) : tget e.regions r = some reg := by
  obtain ⟨-, -, hreg, -⟩ := hreach
  exact hreg

theorem window_of_reaches {m line : Nat} (hreach : Reaches s.dev h hpa needs r off reg e) (hvalid : ValidLine e r off m line) :
    reg.window = false := by
  obtain ⟨reg', hplaced⟩ := placed_of_validLine hvalid
  rw [Option.some.inj ((region_of_reaches hreach).symm.trans hplaced.region), hplaced.window]

/-- A full write of a line outside the window that nothing holds. -/
theorem Dev.save_valid {n m line : Nat} (x : Line) (hcalm : Calm d (n + 1)) (hvalid : ValidLine d r off m line) (hfree : FreeToWrite d r) :
    d.save r off x = (.ok, d.writeLine m line x) := by
  obtain ⟨reg', hplaced⟩ := placed_of_validLine hvalid
  exact Dev.save_free x hcalm hplaced hfree

/-! ### Refusals (R244, Table 10.5) -/

/-- The event that reports a refused access of a head, once the refusal is counted and its time noted (R244). -/
def Dev.reportRefusal (d : Dev) (h : Nat) (st : Status) (hpa : Nat) : Dev :=
  (d.modHead h fun x => { x with lastRefused := tset x.lastRefused (statusCode st) d.now }).raise
    { code := .cxlAccessRefused, unit := some (.cxlHead, h), detail0 := some (BitVec.ofNat 64 hpa), detail1 := some (statusWord st) }

/-- The first refusal of a head with a status is reported. -/
theorem Dev.cxlRefuse_first (hnone : tget (d.head h).lastRefused (statusCode st) = none) :
    d.cxlRefuse h st read hpa none =
      ((d.bump (.cxRefused h (statusCode st))).reportRefusal h st hpa).emit (if read then .cxlData h 0 true else .cxlDone h) := by
  have hbump : tget ((d.bump (.cxRefused h (statusCode st))).head h).lastRefused (statusCode st) = none := hnone
  cases read <;> simp only [Dev.cxlRefuse, hbump, Dev.reportRefusal, if_true, Bool.false_eq_true, if_false]

/-- A further one within a millisecond is counted alone. -/
theorem Dev.cxlRefuse_soon (hlast : tget (d.head h).lastRefused (statusCode st) = some t) (hsoon : d.now < t + 1000000) :
    d.cxlRefuse h st read hpa none =
      (d.bump (.cxRefused h (statusCode st))).emit (if read then .cxlData h 0 true else .cxlDone h) := by
  have hbump : tget ((d.bump (.cxRefused h (statusCode st))).head h).lastRefused (statusCode st) = some t := hlast
  have hnot : ¬t + 1000000 ≤ d.now := by omega
  cases read <;> simp only [Dev.cxlRefuse, hbump, Dev.bump_frame, decide_eq_true_eq, hnot, if_true, Bool.false_eq_true, if_false]

theorem undisturbed_raise (x : Event) (hu : Undisturbed d e) : Undisturbed d (e.raise x) := by
  simpa only [Undisturbed, Dev.raise_frame] using hu

theorem undisturbed_cxlRefuse {part : Option Nat} (hu : Undisturbed d e) : Undisturbed d (e.cxlRefuse h st read hpa part) := by
  have hcounted : Undisturbed d (e.bump (.cxRefused h (statusCode st))) := hu
  have hreported := fun (p : Prop) [Decidable p] (f : Head → Head) (x : Event) => undisturbed_ite (p := p)
    (undisturbed_raise (e := (e.bump (.cxRefused h (statusCode st))).modHead h f) x hcounted) hcounted
  exact undisturbed_ite (hreported _ _ _) (hreported _ _ _)

/-- An access that its head's binding does not reach is refused, with no other effect. -/
theorem Dev.cxlAccess_refused (hopen : d.memOpen h = true) (hlocate : d.settle.cxlLocate h hpa needs = (.error st, d.settle)) :
    d.cxlAccess h hpa needs read op = d.settle.cxlRefuse h st read hpa none := by
  obtain ⟨hagain, hdone, -⟩ :=
    undisturbed_cxlRefuse (h := h) (hpa := hpa) (st := st) (read := read) (part := none) (⟨rfl, rfl, rfl⟩ : Undisturbed d d.settle)
  rw [Dev.cxlAccess, hopen, Dev.guard_true]
  exact Dev.windowed_undisturbed (by simp only [hlocate]) hagain hdone

end CxlAccess

section Bar2

variable {s : State} {h off len c : Nat} {g : Segment}

/-- A write to BAR2 in a writable DOORBELL segment of the head's doorbell context is a doorbell write of that context (R235). -/
theorem exec_bar2DoorbellWrite {v : U64} (hup : (s.dev.head h).linkUp = true) (hoff : off < 4194304)
    (hdoorbell : (s.dev.head h).doorbell = some c) (hvalid : (s.dev.context c).valid = true) (hseg : segOf (s.dev.context c) off = some g)
    (hkind : g.kind = .doorbell) (hwrite : g.w = true) :
    exec (.bar2DoorbellWrite h off len (some v)) s =
      .next (s.onDev fun d => d.ringDoorbell { ctx := c, off := g.targetOff + (off - g.base), len := len, value := v }) := by
  have hopen : ((({ s.dev with out := [] } : Dev).head h).linkUp && decide (off < 4194304)) = true := by
    rw [Bool.and_eq_true, decide_eq_true_eq]
    exact ⟨hup, hoff⟩
  have hdoorbell' : (({ s.dev with out := [] } : Dev).head h).doorbell = some c := hdoorbell
  have hvalid' : (({ s.dev with out := [] } : Dev).context c).valid = true := hvalid
  have hseg' : segOf (({ s.dev with out := [] } : Dev).context c) off = some g := hseg
  refine devStep_of_end ?_
  simp only [hopen, Dev.guard_true, hdoorbell', hvalid', hseg', hkind, hwrite, and_self, if_true]

theorem exec_bar2Read (hup : (s.dev.head h).linkUp = true) (hoff : off < 4194304) :
    exec (.bar2DoorbellWrite h off len none) s = .next (s.onDev fun d => d.emit (.bar2Data h len (2 ^ (8 * len) - 1))) := by
  have hopen : ((({ s.dev with out := [] } : Dev).head h).linkUp && decide (off < 4194304)) = true := by
    rw [Bool.and_eq_true, decide_eq_true_eq]
    exact ⟨hup, hoff⟩
  refine devStep_of_end ?_
  simp only [hopen, Dev.guard_true]

end Bar2

/-- Settles O25: an access that reaches its line is one read or write there, and one that does not is refused; BAR2 is the head's doorbell
context. -/
theorem cxlMemAccesses : Obligations.CxlMemAccesses := by
  unfold Obligations.CxlMemAccesses
  refine ⟨?read, ?write, ?partialWrite, ?doorbell, ?bar2Read, ?refusedRead, ?refusedWrite⟩
  case read =>
    intro s h hpa r off m line reg e hreach hvalid hcalm
    have hwindow := window_of_reaches hreach hvalid
    refine devStep_cxlAccess hreach ?_ ((e.activate_rows m line hcalm).1.memory.undisturbed (undisturbed_of_reaches hreach))
    simp only [hwindow, Dev.load_valid hcalm hvalid, Bool.false_eq_true, if_false, if_true]
  case write =>
    intro s h hpa r off m line reg e x hreach hvalid hfree hcalm
    have hwindow := window_of_reaches hreach hvalid
    have hmemory := OnlyMemory.writeLine (m := m) (line := line) x hcalm
    refine devStep_cxlWrite hreach ?_ (hmemory.undisturbed (undisturbed_of_reaches hreach))
    simp only [hwindow, Dev.save_valid x hcalm hvalid hfree, hmemory.pair, ne_eq, not_true_eq_false, Bool.false_eq_true, if_false, if_true]
  case partialWrite =>
    intro s h hpa r off m line reg e x en hreach hvalid hfree hcalm hpart
    have hwindow := window_of_reaches hreach hvalid
    have hmemory := OnlyMemory.writeLine (m := m) (line := line) (mergeBytes (e.lineData m line) x en) hcalm
    have hpair : ((e.activate m line).putLine m line (mergeBytes (e.lineData m line) x en)).pair = e.pair := hmemory.pair
    refine devStep_cxlWrite hreach ?_ (hmemory.undisturbed (undisturbed_of_reaches hreach))
    simp only [hwindow, hpart, Dev.merge_valid x en hcalm hvalid hfree, hpair, ne_eq, not_true_eq_false, Bool.false_eq_true, if_false,
      if_true]
  case doorbell =>
    intro s h off len c v g hup hoff hdoorbell hvalid hseg hkind hwrite
    exact exec_bar2DoorbellWrite hup hoff hdoorbell hvalid hseg hkind hwrite
  case bar2Read =>
    intro s h off len hup hoff
    exact exec_bar2Read hup hoff
  case refusedRead =>
    intro s h hpa st hopen hlocate hnone
    exact devStep_of_end ((Dev.cxlAccess_refused (d := { s.dev with out := [] }) hopen hlocate).trans
      (Dev.cxlRefuse_first (d := Safety.ready s.dev) hnone))
  case refusedWrite =>
    intro s h hpa t x en st hopen hlocate hlast hsoon
    exact devStep_mirrored ((Dev.cxlAccess_refused (d := Safety.ready s.dev) hopen hlocate).trans
      (Dev.cxlRefuse_soon (d := Safety.ready s.dev) hlast hsoon)) ⟨rfl, rfl, rfl⟩

end Sys2Proof.Machine

/-! ## The coherent window as heads and other requesters meet it (R249 to R254, Table 10.8) -/

namespace Sys2Proof.Machine

open Sys2Proof Sys2Proof.Safety

section Window

variable {s : State} {d e : Dev} {n r line m l h : Nat} {reg : Region} {q : WinReq}

/-! ### Nothing to wait for -/

theorem Dev.winBusy_free (hfree : FreeWindow d) (w : Option WinWait) : d.winBusy r line w = false := by
  obtain ⟨htxns, hwaits⟩ := hfree
  simp only [Dev.winBusy, htxns, hwaits, List.any_nil, Bool.or_self]

/-- On a calm device a request that writes nothing is not held up (R153, R175, R343). -/
theorem Dev.winHeld_read (hcalm : Calm d n) : d.winHeld r line false = false := by
  rw [Dev.winHeld]
  split
  · rfl
  · simp only [Dev.mustWait_calm hcalm, Bool.false_and, Bool.false_or, Option.any_eq_false, implies_true]

/-- Nor is one that writes where no pair, migration or rebuild holds writes (R45, R169, R324). -/
theorem Dev.winHeld_write (hcalm : Calm d n) (hreg : tget d.regions r = some reg) (hpaired : d.paired r = false)
    (hstays : reg.migrating = false) (hrebuilds : d.rebuilds = []) : d.winHeld r line true = false := by
  have hfree : d.writeHeld r (64 * line) = false := by simp only [Dev.writeHeld, hpaired, Bool.and_false, Bool.false_and]
  have hpage : (d.pageHeld reg (64 * line)).1 = false := by
    simp only [Dev.pageHeld, hstays, hrebuilds, Bool.false_and, Bool.false_eq_true, if_false, if_true]
  simp only [Dev.winHeld, hreg, hfree, hpage, Dev.mustWait_calm hcalm, Bool.or_self, Bool.and_false, Bool.false_or, Option.any_eq_false,
    implies_true]

/-- A request for a line that is free to it, and that nobody else caches, is carried out at once (R253). -/
theorem Dev.winStart_alone (hsnoops : snoopsFor (d.dirOf r line) q = []) : d.winStart r line q = d.winDo r line q := by
  rw [Dev.winStart, hsnoops]

theorem Dev.winRequest_alone (hfree : FreeWindow d) (hheld : d.winHeld r line q.writes = false)
    (hsnoops : snoopsFor (d.dirOf r line) q = []) : d.winRequest r line q = d.winDo r line q := by
  rw [Dev.winRequest, Dev.winBusy_free hfree, hheld]
  exact Dev.winStart_alone hsnoops

/-! ### Memory behind the window (R148, R150) -/

/-- A requester's read of a valid word on a living unit activates its row and gives its data. -/
theorem Dev.readLine_alive (hcalm : Calm d (n + 1)) (halive : (d.unit m).dead = false) (hfault : d.pool.fault m l = {}) :
    d.readLine m l = (.ok, d.lineData m l, d.activate m l) := by
  obtain ⟨hrows, hcalm'⟩ := d.activate_rows m l hcalm
  have halive' : ((d.activate m l).unit m).dead = false := (congrArg (fun u => u.dead) (hrows.unit m)).trans halive
  have hidle : ((d.activate m l).unit m).retrain = none := by simpa using Dev.retrain_of_calm hcalm' m
  have hvalid : classify (decide (48 ≤ m)) ((d.activate m l).pool.fault m l) 0 = .valid := by
    rw [hrows.pool, hfault, classify_valid]
  rw [Dev.readLine, Dev.demandRead_of_valid (Dev.reads_of_living halive' hidle) hvalid, hrows.lineData]

theorem Dev.winRead_good (hgood : GoodWindowLine d r line m l) (hcalm : Calm d (n + 1)) :
    d.winRead r line = (.ok, d.lineData m l, d.activate m l) := by
  obtain ⟨hplace, halive, hfault⟩ := hgood
  simp only [Dev.winRead, hplace, Dev.readLine_alive hcalm halive hfault]

theorem Dev.winWrite_whole (x : Line) (hplace : d.winPlace r line = some (m, l)) :
    d.winWrite r line x (BitVec.allOnes 64) = (.ok, d.writeLine m l x) := by
  simp only [Dev.winWrite, hplace, if_true]

/-- A grant of a good line hands over its data with its next state (Table 10.8). -/
theorem Dev.winGrant_good (next : DirEntry) (hgood : GoodWindowLine d r line m l) (hcalm : Calm d (n + 1)) :
    d.winGrant r line h next =
      ((d.activate m l).setDir r line next).emit (.cxlGrant h next.state (some (d.lineData m l))) := by
  simp only [Dev.winGrant, Dev.winRead_good hgood hcalm, if_true]

/-! ### A written window line is good (R150, R165) -/

/-- Marking a range stale moves no line. -/
theorem Dev.winPlace_markStale (m l : Nat) : (d.markStale m l).winPlace r line = d.winPlace r line := by
  rw [Dev.markStale]
  split
  · split
    · rw [Dev.winPlace, tget_map (fun x => by split <;> rfl), Option.bind_map, Dev.winPlace]
      congr 1
      funext reg
      simp only [Function.comp]
      split <;> rfl
    · rfl
  · rfl

theorem Dev.winPlace_putLine (x : Line) : (d.putLine m l x).winPlace r line = d.winPlace r line := by
  rw [Dev.putLine, Dev.winPlace_markStale]
  generalize (d.parityPool m l).store m l x = p
  rfl

theorem OnlyRows.winPlace (hrows : OnlyRows d e) : e.winPlace r line = d.winPlace r line :=
  congrArg (fun y => y.winPlace r line) hrows.rest

theorem goodWindowLine_writeLine (x : Line) (hcalm : Calm d (n + 1)) (hplace : d.winPlace r line = some (m, l))
    (halive : (d.unit m).dead = false) : GoodWindowLine (d.writeLine m l x) r line m l := by
  have hrows := (d.activate_rows m l hcalm).1
  have hunits : (d.writeLine m l x).units = (d.activate m l).units := by simp only [Dev.writeLine, Dev.putLine_frame]
  have hunit : (d.writeLine m l x).unit m = (d.activate m l).unit m := by rw [Dev.unit, hunits, ← Dev.unit]
  refine ⟨(Dev.winPlace_putLine x).trans (hrows.winPlace.trans hplace), ?_, ?_⟩
  · rw [hunit]
    exact (congrArg (fun u => u.dead) (hrows.unit m)).trans halive
  · rw [Dev.writeLine, Dev.putLine_pool, Pool.store_fault]

end Window

end Sys2Proof.Machine

/-! ## Releases, other accesses and directory fills of the window (R248, R250, Table 10.8) -/

namespace Sys2Proof.Machine

open Sys2Proof Sys2Proof.Safety

section Releases

variable {s : State} {d e : Dev} {n r line m l h : Nat} {reg : Region}

/-! ### What each request does on a line that nobody else caches -/

theorem Dev.winDo_writeback (x : Line) (hplace : d.winPlace r line = some (m, l)) :
    d.winDo r line (.hostWrite h x (BitVec.allOnes 64)) = ((d.writeLine m l x).setDir r line {}).emit (.cxlDone h) := by
  simp only [Dev.winDo, Dev.winWrite_whole x hplace, if_true]

theorem Dev.winDo_otherRead (hgood : GoodWindowLine d r line m l) (hcalm : Calm d (n + 1)) :
    d.winDo r line (.other .read) = (d.activate m l).emit (.line .ok (d.lineData m l)) := by
  simp only [Dev.winDo, Dev.winRead_good hgood hcalm]

theorem Dev.winDo_otherWrite (x : Line) (hplace : d.winPlace r line = some (m, l)) :
    d.winDo r line (.other (.write x (BitVec.allOnes 64))) = ((d.writeLine m l x).setDir r line {}).emit (.lineAck .ok) := by
  simp only [Dev.winDo, Dev.winWrite_whole x hplace, if_true]

/-- The owner of a line has nobody to ask before it writes the line back. -/
theorem snoopsFor_writeback {y : DirEntry} (x : Line) (en : U64) (howned : y.state = .e ∨ y.state = .m) (hholder : y.holder = h) :
    snoopsFor y (.hostWrite h x en) = [] := by
  rcases howned with hstate | hstate <;> simp only [snoopsFor, hstate, hholder, if_true]

/-! ### A head leaves a line (R252) -/

theorem dirKey_region (r : Nat) (hline : line < 68719476736) : dirKey r line / 68719476736 = r := by
  rw [dirKey]
  omega

theorem dirKey_line (r : Nat) (hline : line < 68719476736) : dirKey r line % 68719476736 = line := by
  rw [dirKey]
  omega

/-- Of two sharers, one stays when the other leaves. -/
theorem putBit_leaves_other : ∀ h < 8, ∀ g < 8, g ≠ h → putBit (putBit (putBit (0 : U8) h true) g true) h false ≠ 0 := by
  decide

/-- A forwarder that leaves a line which others share turns F to S (Table 10.8). -/
theorem Dev.dropWindow_forwarder {k : Nat} {y : DirEntry} {f : Nat → Nat → Bool} (hdir : d.dir = [(k, y)])
    (hpick : f (k / 68719476736) (k % 68719476736) = true) (hstate : y.state = .f) (hholder : y.holder = h)
    (hothers : putBit y.sharers h false ≠ 0#8) :
    (d.dropWindow h f).2 = { d with dir := [(k, { y with state := .s, sharers := putBit y.sharers h false })] } := by
  simp [Dev.dropWindow, hdir, hpick, hstate, hholder, hothers]

/-! ### The rows -/

/-- WINDOW_OTHER_ACCESS asks for the line, unless it is refused with FORMAT before it has any effect (R248). -/
theorem exec_windowOtherAccess {acc : OtherAccess} (hlive : s.dev.sys.live = true) (hreg : tget s.dev.regions r = some reg)
    (hwindow : reg.window = true) (hsound : reg.failed = false) (hplace : s.dev.winPlace r line = some (m, l))
    (hend : (if otherBad acc = true then ({ s.dev with out := [] } : Dev).emit (.line .format 0)
      else ({ s.dev with out := [] } : Dev).winRequest r line (.other acc)) = e) :
    exec (.windowOtherAccess r line acc) s = .next { s with dev := e } := by
  have hreg' : tget ({ s.dev with out := [] } : Dev).regions r = some reg := hreg
  have hplace' : ({ s.dev with out := [] } : Dev).winPlace r line = some (m, l) := hplace
  refine liveStep_of_live hlive ?_
  simp only [hreg', hwindow, hsound, hplace', Option.isSome_some, Bool.not_false, Bool.and_self, Dev.guard_true, hend]

/-- An entry comes into a slice that holds none (R250). -/
theorem Dev.dirFill_empty (hreg : tget d.regions r = some reg) (hwindow : reg.window = true) (hnone : d.dirCached = [])
    (hways : 0 < (d.partn reg.partition).dirWays) : d.dirFill r line = { d with dirCached := [dirKey r line] } := by
  have hroom : ¬(d.partn reg.partition).dirWays * 65536 ≤ 0 := by omega
  simp [Dev.dirFill, hreg, hwindow, hnone, hroom]

end Releases

/-- Settles O27: a request for a line that is free, and that nobody else caches, is carried out at once. -/
theorem windowReleases : Obligations.WindowReleases := by
  unfold Obligations.WindowReleases
  refine ⟨?writeback, ?eviction, ?read, ?write, ?atomic, ?fill⟩
  case writeback =>
    rintro s h hpa r off m l x reg e y hreach hwindow hfree rfl howned hholder hpaired hstays hrebuilds hplace hcalm
    have hheld := Dev.winHeld_write (line := off / 64) hcalm (region_of_reaches hreach) hpaired hstays hrebuilds
    refine devStep_cxlWrite hreach ?_ ((OnlyMemory.writeLine x hcalm).undisturbed (undisturbed_of_reaches hreach))
    simp only [hwindow, if_true]
    exact (Dev.winRequest_alone hfree hheld (snoopsFor_writeback _ _ howned hholder)).trans (Dev.winDo_writeback x hplace)
  case eviction =>
    intro s h g hpa r off reg e y hh hg hgh hreach hwindow hfree hline hcalm hstate hholder hsharers hdir
    have hpick : ((dirKey r (off / 64) / 68719476736 == r) && (dirKey r (off / 64) % 68719476736 == off / 64)) = true := by
      rw [dirKey_region r hline, dirKey_line r hline, beq_self_eq_true, beq_self_eq_true, Bool.and_self]
    have hothers : putBit y.sharers h false ≠ 0 := by
      rw [hsharers]
      exact putBit_leaves_other h hh g hg hgh
    have hu := undisturbed_of_reaches hreach
    refine devStep_cxlAccess hreach ?_ hu
    simp only [hwindow, if_true]
    refine (Dev.winRequest_alone hfree (Dev.winHeld_read hcalm) rfl).trans ?_
    exact congrArg (fun z => z.emit (.cxlDone h))
      (Dev.dropWindow_forwarder (f := fun x k => x == r && k == off / 64) hdir hpick hstate hholder hothers)
  case read =>
    intro s r line m l reg hlive hreg hwindow hsound hgood hfree hnobody hcalm
    obtain ⟨hplace, -⟩ := id hgood
    refine exec_windowOtherAccess hlive hreg hwindow hsound hplace ((if_neg Bool.false_ne_true).trans ?_)
    refine (Dev.winRequest_alone (d := { s.dev with out := [] }) hfree
      (Dev.winHeld_read (d := { s.dev with out := [] }) hcalm) ?_).trans
      (Dev.winDo_otherRead hgood hcalm)
    exact congrArg (fun y => snoopsFor y (.other .read)) hnobody
  case write =>
    intro s r line m l reg x hlive hreg hwindow hsound hplace hfree hnobody hpaired hstays hrebuilds hcalm
    refine exec_windowOtherAccess hlive hreg hwindow hsound hplace ((if_neg Bool.false_ne_true).trans ?_)
    refine (Dev.winRequest_alone (d := { s.dev with out := [] }) hfree
      (Dev.winHeld_write (d := { s.dev with out := [] }) hcalm hreg hpaired hstays hrebuilds) ?_).trans (Dev.winDo_otherWrite x hplace)
    exact congrArg (fun y => snoopsFor y (.other (.write x (BitVec.allOnes 64)))) hnobody
  case atomic =>
    intro s r line offset m l reg op x y hlive hreg hwindow hsound hplace hoffset
    have hbad : otherBad (.atomic op offset x y) = true := by
      simp only [otherBad, bne_iff_ne.mpr hoffset, Bool.or_true, Bool.true_or]
    exact exec_windowOtherAccess hlive hreg hwindow hsound hplace (if_pos hbad)
  case fill =>
    intro s r line reg hlive hreg hwindow hnone hways
    exact liveStep_of_live hlive (Dev.dirFill_empty (d := { s.dev with out := [] }) hreg hwindow hnone hways)

end Sys2Proof.Machine

/-! ## Window transactions: snoop answers, retries and time-outs (R253, R254) -/

namespace Sys2Proof.Machine

open Sys2Proof Sys2Proof.Safety

section Transactions

variable {d : Dev} {n r line m l h g : Nat} {reg : Region} {t : WinTxn} {w : WinWait}

/-! ### The one transaction of a line -/

theorem Dev.putTxn_last (htxns : d.winTxns = [t]) : d.putTxn t none = { d with winTxns := [] } := by
  simp [Dev.putTxn, htxns]

/-- The owner's answer to a shared read, its data written back, ends the transaction: the reader is granted the line (Table 10.8). -/
theorem Dev.snoopAnswer_shared {ans : BiAnswer} {e : DirEntry} (x : Line) (htxns : d.winTxns = [t]) (hregion : t.region = r)
    (hline : t.line = line) (hwaiting : t.waiting = [h]) (hreq : t.req = .readShared g) (hdir : d.dirOf r line = e) (hstate : e.state = .m)
    (hheld : d.winHeld r line true = false) (hplace : d.winPlace r line = some (m, l)) (hcalm : Calm d (n + 1)) :
    d.snoopAnswer r line h ans (some x) = { d.writeLine m l x with winTxns := [] }.winDo r line (.readShared g) := by
  have hfind : d.winTxns.find? (fun t => t.region == r && t.line == line && t.waiting.contains h) = some t := by
    rw [htxns]
    exact List.find?_cons_of_pos (by simp [hregion, hline, hwaiting])
  have hcur : (snoopsFor e (.readShared g)).any (fun x => x == (h, Snoop.cur)) = false := by
    simp only [snoopsFor, hstate]
    split <;> simp
  have hheld' : d.winHeld r line ((some x).isSome || WinReq.writes (.readShared g)) = false := hheld
  have hrest : t.waiting.filter (fun x => x != h) = [] := by simp [hwaiting]
  have htxns' : (d.writeLine m l x).winTxns = [t] := (congrArg (fun y => y.winTxns) (OnlyMemory.writeLine x hcalm)).trans htxns
  simp only [Dev.snoopAnswer, hfind, hreq, hheld', hdir, hcur, Dev.winWrite_whole x hplace, hrest, Dev.putTxn_last htxns', ne_eq,
    not_true_eq_false, Bool.false_eq_true, if_false]

/-- A shared read of a line that another head owned makes the reader its forwarder (Table 10.8). -/
theorem Dev.winDo_readShared_owned {e : DirEntry} (hdir : d.dirOf r line = e) (hstate : e.state = .m) (hholder : e.holder = h)
    (hne : h ≠ g) :
    d.winDo r line (.readShared g) =
      d.winGrant r line g { state := .f, holder := g, sharers := putBit (putBit 0 h true) g true } := by
  simp only [Dev.winDo, hdir, hstate, hholder, hne, if_false]

theorem Dev.biLimit_reach (u : Nat) : (d.reach u).biLimit t h = d.biLimit t h := by
  simp only [Dev.biLimit, Dev.param, Dev.reach_frame]

/-- The last answer of a shared read's transaction, with the owner's data, stores that data and grants F to the reader beside the old
owner. -/
theorem Dev.snoopAnswer_grants {ans : BiAnswer} {e w : Dev} {y : DirEntry} (x : Line) (htxns : d.winTxns = [t]) (hregion : t.region = r)
    (hline : t.line = line) (hwaiting : t.waiting = [h]) (hreq : t.req = .readShared g) (hdir : d.dirOf r line = y) (hstate : y.state = .m)
    (hholder : y.holder = h) (hne : h ≠ g) (hheld : d.winHeld r line true = false) (hplace : d.winPlace r line = some (m, l))
    (halive : (d.unit m).dead = false) (hcalm : Calm d 2) (he : { d.writeLine m l x with winTxns := [] } = e) (hw : e.activate m l = w) :
    d.snoopAnswer r line h ans (some x) =
      (w.setDir r line { state := .f, holder := g, sharers := putBit (putBit 0 h true) g true }).emit
        (.cxlGrant g .f (some (w.lineData m l))) := by
  have hmemory : OnlyMemory d (d.writeLine m l x) := OnlyMemory.writeLine x hcalm
  have hdir' : e.dirOf r line = y := by
    rw [← he]
    exact (congrArg (fun z => z.dirOf r line) hmemory).trans hdir
  have hgood : GoodWindowLine e r line m l := by
    rw [← he]
    exact goodWindowLine_writeLine x hcalm hplace halive
  have hcalm' : Calm e 1 := by
    rw [← he]
    exact calm_writeLine hcalm m l x
  rw [Dev.snoopAnswer_shared x htxns hregion hline hwaiting hreq hdir hstate hheld hplace hcalm, he,
    Dev.winDo_readShared_owned hdir' hstate hholder hne, Dev.winGrant_good _ hgood hcalm', ← hw,
    (e.activate_rows m l hcalm').1.lineData]

/-- The one snoop of a line runs out: its transaction fails at that time (R254). -/
theorem Dev.biTimeout_one (htxns : d.winTxns = [t]) (hregion : t.region = r) (hline : t.line = line) (hwaiting : t.waiting = [h]) :
    d.biTimeout r line = (d.reach (d.biLimit t h)).failTxn t [h] := by
  have hfind : d.winTxns.find? (fun t => t.region == r && t.line == line) = some t := by
    rw [htxns]
    exact List.find?_cons_of_pos (by simp [hregion, hline])
  have hlate : [h].filter (fun x => decide ((d.reach (d.biLimit t h)).biLimit t x ≤ (d.reach (d.biLimit t h)).now)) = [h] := by
    refine List.filter_eq_self.mpr fun x hx => decide_eq_true ?_
    rw [List.mem_singleton.mp hx, Dev.biLimit_reach, Dev.reach_now]
    exact le_max_right _ _
  -- a rewrite by hypothesis: checked by computation, the limit's million would be counted down
  have hnil : ∀ (f : Nat → Nat → Nat) (u : Nat), [].foldl f u = u := fun _ _ => rfl
  simp -zeta only [Dev.biTimeout, hfind, hwaiting, hnil]
  exact congrArg ((d.reach (d.biLimit t h)).failTxn t) hlate

/-- The event of head `h` not answering a snoop of a transaction (log entry 83). -/
def Dev.biTimeoutEvent (d : Dev) (t : WinTxn) (h : Nat) : Event :=
  { code := .biTimeout, part := (tget d.regions t.region).map (fun y => y.partition), unit := some (.cxlHead, h),
    detail0 := some (BitVec.ofNat 64 (dirKey t.region t.line)), detail1 := some (statusWord .timeout) }

/-- A host's read whose snoop went unanswered ends with poisoned data; the line's state stays (R254). -/
theorem Dev.failTxn_readShared (htxns : d.winTxns = [t]) (hreq : t.req = .readShared g) :
    d.failTxn t [h] = ({ d.raise (d.biTimeoutEvent t h) with winTxns := [] } : Dev).cxlRefuse g .timeout true
      (dirKey t.region t.line) none := by
  have htxns' : (d.raise (d.biTimeoutEvent t h)).winTxns = [t] := by simpa only [Dev.raise_frame] using htxns
  simp only [Dev.failTxn, List.foldl_cons, List.foldl_nil, hreq, WinReq.head]
  exact congrArg (fun e : Dev => e.cxlRefuse g .timeout true (dirKey t.region t.line) none) (Dev.putTxn_last htxns')

/-- The one snoop of a host's read runs out: BI_TIMEOUT is raised at the head's limit, and the read is refused (R254). -/
theorem Dev.biTimeout_readShared {e : Dev} (htxns : d.winTxns = [t]) (hregion : t.region = r) (hline : t.line = line)
    (hwaiting : t.waiting = [h]) (hreq : t.req = .readShared g)
    (he : d.reach (t.started + (d.param 0x0032 h).toNat * 1000000) = e) :
    d.biTimeout r line = ({ e.raise (e.biTimeoutEvent t h) with winTxns := [] } : Dev).cxlRefuse g .timeout true (dirKey r line) none := by
  have htxns' : e.winTxns = [t] := by
    rw [← he]
    exact htxns
  rw [Dev.biTimeout_one htxns hregion hline hwaiting, Dev.biLimit, he, Dev.failTxn_readShared htxns' hreq, hregion, hline]

/-! ### The one request that waits for a line (R253) -/

/-- A request of a head that finds its line busy ages; at the head's limit the line is reserved for it. -/
theorem Dev.winRetry_busy (htxns : d.winTxns = [t]) (htRegion : t.region = r) (htLine : t.line = line) (hwaits : d.winWaits = [w])
    (hregion : w.region = r) (hline : w.line = line) (hreq : w.req = .readOwn h) (hnobody : w.who.1 = none) :
    d.winRetry r line = { d with winWaits := [{ w with
      age := w.age + 1, reserved := w.reserved || decide ((d.param 0x0031 h).toNat ≤ w.age + 1) }] } := by
  have hbusy : d.winBusy r line (some w) = true := by simp [Dev.winBusy, htxns, htRegion, htLine]
  simp [Dev.winRetry, hwaits, hregion, hline, hnobody, hbusy, Dev.ageLimit, hreq]

/-- One that finds its line free, and cached by nobody, is granted it for writing. -/
theorem Dev.winRetry_grants (htxns : d.winTxns = []) (hwaits : d.winWaits = [w]) (hregion : w.region = r) (hline : w.line = line)
    (hreq : w.req = .readOwn h) (hnobody : w.who.1 = none) (hdir : d.dirOf r line = {}) (hgood : GoodWindowLine d r line m l)
    (hcalm : Calm d 1) :
    d.winRetry r line = (({ d with winWaits := [] }.activate m l).setDir r line { state := .m, holder := h }).emit
      (.cxlGrant h .m (some (d.lineData m l))) := by
  have hbusy : d.winBusy r line (some w) = false := by simp [Dev.winBusy, htxns, hwaits]
  have hheld : d.winHeld r line (WinReq.writes (.readOwn h)) = false := Dev.winHeld_read hcalm
  have hstarts : d.winRetry r line = { d with winWaits := [] }.winStart r line (.readOwn h) := by
    simp [Dev.winRetry, hwaits, hregion, hline, hnobody, hbusy, hheld, hreq]
  have hsnoops : snoopsFor ({ d with winWaits := [] }.dirOf r line) (.readOwn h) = [] := congrArg (fun y => snoopsFor y (.readOwn h)) hdir
  rw [hstarts, Dev.winStart_alone hsnoops]
  exact Dev.winGrant_good (d := { d with winWaits := [] }) { state := .m, holder := h } hgood hcalm

end Transactions

/-- Settles O28: each clause is the row's equation for the one transaction, or the one waiting request, of its line. -/
theorem windowTransactions : Obligations.WindowTransactions := by
  unfold Obligations.WindowTransactions
  refine ⟨?answered, ?timeout, ?busy, ?retried⟩
  case answered =>
    intro s h g r line m l x reg t e hne htxns hregion hline hwaiting hreq hdir hstate hholder hreg hpaired hstays hrebuilds hplace halive
      hcalm
    have hheld := Dev.winHeld_write (d := { s.dev with out := [] }) (line := line) hcalm hreg hpaired hstays hrebuilds
    exact devStep_of_end (Dev.snoopAnswer_grants (d := { s.dev with out := [] }) x htxns hregion hline hwaiting hreq hdir hstate hholder hne
      hheld hplace halive hcalm rfl rfl)
  case timeout =>
    rintro s h g r line t htxns rfl rfl hwaiting hreq
    exact devStep_of_end (Dev.biTimeout_readShared (d := { s.dev with out := [] }) htxns rfl rfl hwaiting hreq rfl)
  case busy =>
    intro s r line h t w htxns htRegion htLine hwaits hregion hline hreq hnobody
    exact devStep_of_end (Dev.winRetry_busy htxns htRegion htLine hwaits hregion hline hreq hnobody)
  case retried =>
    intro s r line h m l w htxns hwaits hregion hline hreq hnobody hdir hgood hcalm
    exact devStep_of_end (Dev.winRetry_grants (d := { s.dev with out := [] }) htxns hwaits hregion hline hreq hnobody hdir hgood hcalm)

end Sys2Proof.Machine

/-! ## Heads: links, configuration, resets and lost lines (R232, R233, R255, R258, R379) -/

namespace Sys2Proof.Machine

open Sys2Proof Sys2Proof.Safety

section Heads

variable {s : State} {d e : Dev} {h k n : Nat} {y : DirEntry}

/-! ### Lost window lines (R255) -/

/-- WINDOW_LINES_LOST of one line of a head. -/
def lineLost (h : Nat) : Event := { code := .windowLinesLost, unit := some (.cxlHead, h), detail1 := some 1 }

/-- A head that is gone where nothing is cached loses nothing. -/
theorem Dev.headLoss_none (hdir : d.dir = []) (hfree : FreeWindow d) : d.headLoss h = d := by
  obtain ⟨htxns, hwaits⟩ := hfree
  have hsame : { d with winTxns := [], winWaits := [], dir := [] } = d := by
    cases d
    cases htxns
    cases hwaits
    cases hdir
    rfl
  simpa [Dev.headLoss, Dev.dropWindow, htxns, hwaits, hdir] using hsame

/-- A head that is gone loses the one line that it owns: the line becomes I, and is counted. -/
theorem Dev.headLoss_owner (hdir : d.dir = [(k, y)]) (howned : y.state = .e ∨ y.state = .m) (hholder : y.holder = h)
    (hfree : FreeWindow d) : d.headLoss h = { d with dir := [] }.raise (lineLost h) := by
  obtain ⟨htxns, hwaits⟩ := hfree
  have hdrop : { d with winTxns := [], winWaits := [] }.dropWindow h (fun _ _ => true) = (1, { d with dir := [] }) := by
    simp [Dev.dropWindow, hdir, htxns, hwaits, howned, hholder]
  simp [Dev.headLoss, htxns, hwaits, hdrop, lineLost]

/-! ### Resets (R233, R379) -/

/-- What a conventional reset leaves of a head's record (log entry 37). -/
def Head.afterReset (x : Head) : Head := { x with linkUp := false, cfgReady := false, d3hot := false, decoders := [], ideKeys := [] }

theorem Dev.headReset_none (hdir : d.dir = []) (hfree : FreeWindow d) (htag : d.tagFree (.head h) = true) :
    d.headReset h = (d.incTag (.head h)).modHead h Head.afterReset := by
  rw [Dev.headReset, Dev.headLoss_none hdir hfree, Dev.tagOrDefer, if_pos htag]
  rfl

/-- A port that is not bifurcated has one head. -/
theorem Dev.portHeads_whole (hn : n < 4) (hwhole : bit d.sys.cfg.bifurcated n = false) : d.portHeads n = [2 * n] := by
  have hlow : d.headExists (2 * n) = true := by
    simp only [Dev.headExists, Nat.mul_mod_right, beq_self_eq_true, Bool.true_or, Bool.and_true, decide_eq_true_eq]
    omega
  have hhigh : d.headExists (2 * n + 1) = false := by
    have hodd : (2 * n + 1) % 2 = 1 := by omega
    have hport : (2 * n + 1) / 2 = n := by omega
    simp only [Dev.headExists, hodd, hport, hwhole, Bool.or_false, Nat.reduceBEq, Bool.and_false]
  simp only [Dev.portHeads, List.filter_cons, hlow, hhigh, List.filter_nil, if_true, Bool.false_eq_true, if_false]

/-- The widths at which a head's link trains (R232, R233). -/
theorem Dev.widthOk_iff {w : Nat} : d.widthOk h w = true ↔ w = 8 ∨ w = 4 ∨ (w = 16 ∧ bit d.sys.cfg.bifurcated (h / 2) = false) := by
  rw [Dev.widthOk]
  cases bit d.sys.cfg.bifurcated (h / 2)
  · simp only [Bool.false_eq_true, if_false, List.contains_iff_mem, List.mem_cons, List.not_mem_nil, or_false, and_true]
    tauto
  · simp only [if_true, List.contains_iff_mem, List.mem_cons, List.not_mem_nil, or_false, Bool.true_eq_false, and_false]

/-- The device with the PERST pin of port `n` low. -/
def Dev.perstLow (d : Dev) (n : Nat) : Dev :=
  { d with sys := { d.sys with
      perstAsserted := putBit d.sys.perstAsserted n true, trainStarted := putBit d.sys.trainStarted n false } }

/-! ### The rows -/

/-- A row whose precondition holds. -/
theorem devStep_guarded {b : Dev → Bool} {f : Dev → Dev → Dev} (hb : b { s.dev with out := [] } = true)
    (h : f { s.dev with out := [] } { s.dev with out := [] } = e) : devStep (fun d => d.guard (b d) (f d)) s = .next { s with dev := e } :=
  devStep_of_end ((congrArg (fun x => Dev.guard _ x _) hb).trans h)

end Heads

/-- Settles O29: each clause is its row's equation; a head that owns one line loses that one, and one beside an empty directory none. -/
theorem heads : Obligations.Heads := by
  unfold Obligations.Heads
  refine ⟨?assert, ?assertLow, ?deassert, ?retryEnd, ?config, ?configRetry, ?linkUp, ?linkDown, ?decoder, ?reset, ?removal⟩
  case assert =>
    intro s n hn hreset hwarm hwhole hdir hfree htag
    have hheads : (Dev.perstLow { s.dev with out := [] } n).portHeads n = [2 * n] := Dev.portHeads_whole hn hwhole
    have hlost := Dev.headReset_none (d := Dev.perstLow { s.dev with out := [] } n) (h := 2 * n) hdir hfree htag
    refine devStep_of_end ((if_neg (ne_true_of_eq_false (congrArg not hreset))).trans
      ((if_neg (ne_true_of_eq_false hwarm)).trans ?_))
    exact (congrArg (List.foldl (fun (e : Dev) h => e.headReset h) (Dev.perstLow { s.dev with out := [] } n)) hheads).trans hlost
  case assertLow =>
    intro s n hreset
    exact devStep_of_end (if_pos (congrArg not hreset))
  case deassert =>
    intro s n
    rfl
  case retryEnd =>
    intro s h hexists htraining
    exact devStep_guarded (Bool.and_eq_true_iff.mpr ⟨hexists, htraining⟩) rfl
  case config =>
    intro s h hexists htraining hready
    have hopen := Bool.and_eq_true_iff.mpr ⟨hexists, htraining⟩
    exact ⟨fun b => devStep_guarded hopen (if_pos hready), devStep_guarded hopen (if_pos hready), devStep_guarded hopen (if_pos hready),
      devStep_guarded hopen (if_pos hready)⟩
  case configRetry =>
    intro s h q hexists htraining hready
    exact devStep_guarded (Bool.and_eq_true_iff.mpr ⟨hexists, htraining⟩) (if_neg (ne_true_of_eq_false hready))
  case linkUp =>
    intro s h rate w hexists htraining hwidth
    exact devStep_guarded (Bool.and_eq_true_iff.mpr ⟨Bool.and_eq_true_iff.mpr ⟨hexists, htraining⟩, Dev.widthOk_iff.mpr hwidth⟩) rfl
  case linkDown =>
    intro s h
    rfl
  case decoder =>
    intro s h i base size ways gran dpa bi hexists hup hi hways hgran
    refine devStep_guarded ?_ rfl
    simp only [Bool.and_eq_true, decide_eq_true_eq, List.contains_iff_mem]
    exact ⟨⟨⟨⟨hexists, hup⟩, hi⟩, hways⟩, hgran⟩
  case reset =>
    intro s h k y hexists hdir howned hholder hfree
    exact devStep_guarded hexists (Dev.headLoss_owner (d := { s.dev with out := [] }) hdir howned hholder hfree)
  case removal =>
    intro s h k y hexists hdir howned hholder hfree
    exact devStep_guarded hexists (congrArg (fun z => z.modHead h fun x => { x with linkUp := false, removed := true })
      (Dev.headLoss_owner (d := { s.dev with out := [] }) hdir howned hholder hfree))

end Sys2Proof.Machine

/-! ## A released extent whose lease is of another region (R240, R243) -/

namespace Sys2Proof.Machine

open Sys2Proof Sys2Proof.Safety

section StrayLease

/-- The first 256 MiB of head 0, in region 3, under lease 6. -/
def strayExtent : DcExtent :=
  { dpa := 0, length := 268435456, region := 3, r := true, w := true, offset := 0, duration := 30, lease := some 6 }

/-- A HELD lease of head 0 over the first extent of region 4. -/
def strayLease : Lease :=
  { state := .held, head := some 0, context := 7, duration := 30, expiry := 30000000000, region := 4, first := 0, count := 1 }

/-- The one region of the device: a single extent. -/
def strayRegion : Region := { partition := 1, grainM8 := 0, width := 1, tier := .capacity, extents := [⟨false, 0, 0⟩] }

/-- A device whose head 0 holds `strayExtent`, of region 3, under `strayLease`, of region 4. -/
def strayState : State :=
  { dev :=
      { units := [(0, { trained := true, slots := 128 })]
        regions := [(3, strayRegion)]
        ctxs := [(7, { valid := true, partition := 1, segments := [dcSegment strayExtent] })]
        heads := [(0, { linkUp := true, dcr := [(0, 7)], extents := [strayExtent] })]
        leases := [(6, strayLease)] } }

/-- The device after the head releases its extent. -/
def strayReleased : Dev := Dev.dcRelease { strayState.dev with out := [] } 0 strayExtent.dpa strayExtent.length

theorem exec_releaseDc_stray :
    exec (.releaseDc 0 strayExtent.dpa strayExtent.length) strayState = .next { strayState with dev := strayReleased } :=
  devStep_guarded (b := fun d => d.headExists 0) (by decide) rfl

/-- The lease stays FENCED: of the released extent's region no lease is to be settled (R243, step 5). -/
theorem strayReleased_fenced : (tget strayReleased.leases 6).map Lease.state = some .fenced := by decide +kernel

end StrayLease

/-- Refutes O30: its clause on a released extent does not ask that the lease which the extent names be of the extent's own region. The
model settles the leases of the extent's region (R243, step 5), so that on `strayState`, where extent and lease are of different regions,
the lease is left FENCED and not CLEARING. -/
theorem not_dynamicCapacity : ¬ Obligations.DynamicCapacity := by
  unfold Obligations.DynamicCapacity
  rintro ⟨-, -, -, -, hrelease, -⟩
  obtain ⟨t, hstep, -, -, hclearing, -⟩ := hrelease strayState 0 7 6 strayExtent strayLease strayRegion (by decide) rfl rfl rfl rfl
    (by decide +kernel) rfl (by decide) (by decide +kernel) (by decide +kernel) (by decide)
  have hdev : t.dev = strayReleased := congrArg State.dev (Host.Outcome.next.inj (hstep.symm.trans exec_releaseDc_stray))
  have hfenced := strayReleased_fenced
  obtain ⟨l, hl, hstate⟩ := Option.map_eq_some_iff.mp hfenced
  rw [hdev, hl, Option.any_some, hstate] at hclearing
  exact absurd hclearing (by decide)

end Sys2Proof.Machine

/-! ## The pins in DEPLOYED (R284, R405, R408) -/

namespace Sys2Proof.Machine

open Sys2Proof

section Scan

variable {s : State} {i : TapInstr} {hiZ : Bool} {f : Dev → Dev}

/-- In DEPLOYED with RESET_N high, an instruction that takes the pins acts as BYPASS, and the pins stay the device's (R284). -/
theorem devStep_scan_bypass (hdeployed : s.dev.sys.lifeCycle = .deployed) (hreset : s.dev.sys.resetN = true) :
    devStep (fun d => d.scan i hiZ f) s = .next (s.onDev fun d =>
      { d with tap := { d.tap with instr := .bypass, driving := false }, sys := { d.sys with outputsHiZ := false } }.emit (.tdo 1 0)) := by
  have hno : ({ s.dev with out := [] } : Dev).scanAllowed = false := by simp [Dev.scanAllowed, hdeployed, hreset]
  refine devStep_of_eq ?_
  simp only [Dev.scan, hno, Bool.false_eq_true, if_false, Dev.tapBypass, Dev.tapIdle, hreset, Bool.not_true]

/-- While RESET_N is low, an instruction that takes the pins has its effect, and clears RETAIN (R284, R408). -/
theorem devStep_scan_low (hreset : s.dev.sys.resetN = false) :
    devStep (fun d => d.scan i hiZ f) s = .next (s.onDev fun d =>
      f { d with tap := { d.tap with instr := i, driving := !hiZ, scanned := true }, sys := { d.sys with retain := false, outputsHiZ := hiZ } }) := by
  have hallowed : ({ s.dev with out := [] } : Dev).scanAllowed = true := by simp [Dev.scanAllowed, hreset]
  exact devStep_of_eq (if_pos hallowed)

end Scan

/-- Settles O59: each instruction that takes the pins is one scan, which is BYPASS where it is not allowed. -/
theorem scanInDeployed : Obligations.ScanInDeployed := by
  unfold Obligations.ScanInDeployed
  refine ⟨?high, ?bypass, ?extest, ?clamp, ?highz⟩
  case high =>
    intro s c i hdeployed hreset hi
    simp only [List.mem_cons, List.not_mem_nil, or_false] at hi
    obtain rfl | rfl | rfl | rfl | rfl := hi <;> exact devStep_scan_bypass hdeployed hreset
  case bypass =>
    intro s
    rfl
  case extest =>
    intro s c x _ hreset hx
    simp only [List.mem_cons, List.not_mem_nil, or_false] at hx
    obtain rfl | rfl | rfl := hx <;> exact devStep_scan_low hreset
  case clamp =>
    intro s _ hreset
    exact devStep_scan_low hreset
  case highz =>
    intro s _ hreset
    exact devStep_scan_low hreset

end Sys2Proof.Machine

/-! ## Resets of engines, movers, memory units and partitions (R336, R338, R339, R341 to R344) -/

namespace Sys2Proof.Machine

open Sys2Proof

/-! ### Engines and movers (R341, R342) -/

section Engines

variable {d : Dev} {n : Nat}

/-- Where no mode is staged, none waits for a unit. -/
theorem Dev.modWaiting_none (h : d.hk.staged = none) (f : StagedMode → List (UnitKind × Nat)) : d.modWaiting f = d := by
  simp only [Dev.modWaiting, h]

/-- Where no mode is staged, none is committed. -/
theorem Dev.tryCommit_none (h : d.hk.staged = none) : d.tryCommit = d := by
  simp only [Dev.tryCommit, h]

section Idle

variable (hrunning : tget d.engReset n = none) (hgood : bit d.engFailed n = false)
include hrunning hgood

/-- The reset of an engine that works, within the tag rate: it ends what it holds, its tag moves on, and its self-test begins (R341). -/
theorem Dev.resetEngine_idle (cause : Nat) (hfree : d.tagFree (.engine n) = true) (hjobs : d.engineJobs n = []) (hmode : d.hk.staged = none) :
    d.resetEngine n cause = { d.incTag (.engine n) with engReset := tset d.engReset n cause }.raise
      { code := .unitReset, unit := some (.engine, n), detail0 := some (BitVec.ofNat 64 cause)
        detail1 := some ((tgetD (tmod d.engGen n 0 fun g => g + 1) n 0).setWidth 64) } := by
  have hmode' : ({ d.incTag (.engine n) with engReset := tset d.engReset n cause } : Dev).hk.staged = none := hmode
  simp only [Dev.resetEngine, hrunning, hgood, hfree, hjobs, List.foldl_nil, Option.isSome_none, Bool.or_self, Bool.false_and, Bool.not_true,
    Bool.false_eq_true, if_false]
  exact congrArg (fun x : Dev => x.raise _) (Dev.modWaiting_none hmode' _)

/-- The reset of an engine past the tag rate waits (R339). -/
theorem Dev.resetEngine_waits (cause : Nat) (hfull : d.tagFree (.engine n) = false) :
    d.resetEngine n cause = { d with deferred := d.deferred ++ [{ dom := .engine n, cause := cause }] } := by
  simp only [Dev.resetEngine, hrunning, hgood, hfull, Option.isSome_none, Bool.or_self, Bool.false_and, Bool.not_false, Bool.false_eq_true,
    if_false, if_true]

end Idle

/-- An engine that passes its self-test returns to its groups (R341). -/
theorem Dev.engineBack_pass {c : Nat} (hcause : tget d.engReset n = some c) (hc : c ≠ 1) :
    d.engineBack n true = { d with engReset := terase d.engReset n } := by
  simp only [Dev.engineBack, hcause, if_true, if_neg hc]

/-- An engine that fails its self-test is FAILED (R341). -/
theorem Dev.engineBack_fail {c : Nat} (hcause : tget d.engReset n = some c) (hmode : d.hk.staged = none) :
    d.engineBack n false = { d with engReset := terase d.engReset n, engFailed := putBit d.engFailed n true }.raise
      { code := .unitFailed, unit := some (.engine, n), detail0 := some (BitVec.ofNat 64 (unitKindCode .engine))
        detail1 := some (BitVec.ofNat 64 n) } := by
  have hmode' : ({ d with engReset := terase d.engReset n, engFailed := putBit d.engFailed n true } : Dev).hk.staged = none := hmode
  simp only [Dev.engineBack, hcause, Bool.false_eq_true, if_false, Dev.modWaiting_none hmode']
  exact Dev.tryCommit_none (by simpa only [Dev.raise_frame] using hmode)

/-- The reset of an idle mover, within the tag rate (R342). -/
theorem Dev.resetMover_idle (cause : Nat) (hfree : d.tagFree (.mover n) = true) (hjobs : d.moverJobs n = []) :
    d.resetMover n cause = (d.incTag (.mover n)).raise
      { code := .unitReset, unit := some (.mover, n), detail0 := some (BitVec.ofNat 64 cause)
        detail1 := some ((tgetD (tmod d.movGen n 0 fun g => g + 1) n 0).setWidth 64) } := by
  simp only [Dev.resetMover, hfree, hjobs, List.foldl_nil, Bool.not_true, Bool.false_eq_true, if_false]
  rfl

end Engines

/-! ### Retrains (R343) -/

section Retrains

variable {d : Dev} {m : Nat}

/-- A unit that a partition owns, and that is neither dead nor in a retrain, begins one within the tag rate. -/
theorem Dev.startRetrain_within (htrained : (d.unit m).trained = true) (halive : (d.unit m).dead = false)
    (hthere : (d.unit m).removed = false) (howned : (d.unitOwner m).isSome = true) (hidle : (d.unit m).retrain = none)
    (hfree : d.tagFree (.memUnit m) = true) :
    d.startRetrain m = ((d.incTag (.memUnit m)).modUnit m fun v => { v with retrain := some d.now, errTimes := [] }).raise
      { code := .unitRetrain, part := d.unitOwner m, unit := some (memUnitRef m), detail0 := some 0, detail1 := some 0 } := by
  simp only [Dev.startRetrain, Dev.powered, htrained, halive, hthere, howned, hidle, hfree, Bool.not_false, Bool.and_self, Bool.true_or,
    Bool.not_true, Option.isSome_none, Bool.or_self, Bool.false_eq_true, if_false]

/-- Which partition owns a unit is read from the partitions' records alone. -/
theorem Dev.unitOwner_raise (e : Event) : (d.raise e).unitOwner m = d.unitOwner m := by
  simp only [Dev.unitOwner, Dev.raise_frame]

end Retrains

/-! ### Partitions (R344) -/

section Partitions

variable {d : Dev} {p : Nat}

/-- The end of the reset of a partition without movers moves its own tag on, and is reported (R336, R344). -/
theorem Dev.endPartReset_noMovers (hmovers : (d.partn p).movers = 0) :
    d.endPartReset p = (d.setPart p fun x => { x with gen := x.gen + 1 }).raise
      { code := .partResetDone, part := some p, detail0 := some (((d.partn p).gen + 1).setWidth 64)
        detail1 := some (BitVec.ofNat 64 ((d.now - (d.partn p).resetAt) / 1000000)) } := by
  have hnone : bitsOf (d.partn p).movers = [] := by rw [hmovers]; rfl
  simp only [Dev.endPartReset, hnone, List.foldl_nil, Dev.partn_setPart_same, Dev.setPart_frame]

/-- Where no long command runs, none waits for the reset of a partition. -/
theorem Dev.tenantOp_none (hops : d.hk.ops = []) : d.tenantOp p = none := by
  simp only [Dev.tenantOp, hops, List.findSome?_nil]

end Partitions

/-! ### Which operations on memory leave the creations that wait for slots (R265, R301) as they are -/

section Creations

variable (d : Dev)

theorem Dev.startMigration_waitingCreate {r w share : Nat} {tier : Tier} {near : Bool} {salt : U32} {op : Option Nat} {e : Dev}
    (h : d.startMigration r w tier near share salt op = some e) : e.hk.waitingCreate = d.hk.waitingCreate := by
  simp only [Dev.startMigration] at h
  split at h
  · cases h
  · split at h
    · cases h
    · split at h
      · cases h
      · split at h
        · cases h
          rfl
        · cases h

@[simp] theorem Dev.nextRebuildExtent_hk (b : Rebuild) (todo : List Nat) : (d.nextRebuildExtent b todo).1.hk = d.hk := by
  induction todo generalizing d b with
  | nil => rfl
  | cons e rest ih =>
    simp only [Dev.nextRebuildExtent]
    split
    · rfl
    · simp [ih]

@[simp] theorem Dev.startRebuild_hk (u : Nat) (dead : Bool) (op : Option Nat) : (d.startRebuild u dead op).hk = d.hk := by
  simp [Dev.startRebuild, Dev.loseSlots, apply_ite Dev.hk]

@[simp] theorem Dev.leaveNear_waitingCreate (m : Nat) : (d.leaveNear m).hk.waitingCreate = d.hk.waitingCreate := by
  refine foldl_keeps (fun e : Dev => e.hk.waitingCreate) (fun e x => ?_) _ d
  cases h : e.startMigration x.1 x.2.width .nearIfFree false 25 x.2.salt none with
  | none => rfl
  | some f => exact e.startMigration_waitingCreate h

@[simp] theorem Dev.alarm_waitingCreate (m : Nat) : (d.alarm m).hk.waitingCreate = d.hk.waitingCreate := by
  rw [Dev.alarm]
  split <;> simp

@[simp] theorem Dev.logCorrection_waitingCreate (m line pos src : Nat) :
    (d.logCorrection m line pos src).hk.waitingCreate = d.hk.waitingCreate := by
  simp only [Dev.logCorrection, Dev.countCorrection]
  repeat' split
  all_goals simp

@[simp] theorem Dev.reconstruct_hk (m line : Nat) : (d.reconstruct m line).2.hk = d.hk := by
  unfold Dev.reconstruct
  split
  · rfl
  · simp only []
    repeat' split
    all_goals rfl

@[simp] theorem Dev.miscorrect_waitingCreate (m line src : Nat) : (d.miscorrect m line src).2.hk.waitingCreate = d.hk.waitingCreate := by
  simp [Dev.miscorrect, Dev.drawLine, Dev.drawWord]

@[simp] theorem Dev.giveUpLine_hk (m line : Nat) : (d.giveUpLine m line).hk = d.hk := by
  simp only [Dev.giveUpLine]
  split <;> rfl

@[simp] theorem Dev.uncorrectableTwice_hk (m line : Nat) : (d.uncorrectableTwice m line).2.2.hk = d.hk := by
  simp only [Dev.uncorrectableTwice]
  split <;> simp

/-- A demand read corrects, logs, counts and reports, and answers no creation. -/
@[simp] theorem Dev.demandRead_waitingCreate (m line : Nat) (x1 x2 : BitVec 640) :
    (d.demandRead m line x1 x2).2.2.hk.waitingCreate = d.hk.waitingCreate := by
  simp only [Dev.demandRead]
  repeat' split
  all_goals simp [Dev.logTransient, Dev.drawLine]

@[simp] theorem Dev.copyRead_waitingCreate (m line : Nat) (x1 x2 : BitVec 640) :
    (d.copyRead m line x1 x2).2.2.hk.waitingCreate = d.hk.waitingCreate := by
  simp only [Dev.copyRead]
  repeat' split
  all_goals simp

@[simp] theorem Dev.activate_hk (m line : Nat) : (d.activate m line).hk = d.hk := by
  obtain ⟨e, f, hbefore, hevent, hafter⟩ := d.activate_recorded m line
  have he : e.hk = d.hk := (congrArg Dev.hk hbefore.rest :)
  have hf : (d.activate m line).hk = f.hk := (congrArg Dev.hk hafter.rest :)
  rw [hf, ← he]
  obtain rfl | ⟨-, x, rfl⟩ := hevent
  · rfl
  · simp only [Dev.raise_frame]

@[simp] theorem Dev.metaProbe_waitingCreate (idx m line : Nat) (x : BitVec 640) :
    (d.metaProbe idx m line x).2.hk.waitingCreate = d.hk.waitingCreate := by
  simp only [Dev.metaProbe]
  repeat' split
  all_goals simp [Dev.logTransient, Dev.drawLine]

@[simp] theorem Dev.metaWrite_hk (idx : Nat) (x : Line) : (d.metaWrite idx x).hk = d.hk := by
  rw [Dev.metaWrite]
  split <;> rfl

theorem Dev.metaRead_waitingCreate {idx q : Nat} {x0 x1 : BitVec 640} {w : Option Line} {e : Dev} (h : d.metaRead idx q x0 x1 = some (w, e)) :
    e.hk.waitingCreate = d.hk.waitingCreate := by
  have hprobe : ∀ {f e : Dev} {k n : Nat} {x : BitVec 640} {w : Option (Line × Bool)}, f.metaProbe idx k n x = (w, e) →
      e.hk.waitingCreate = f.hk.waitingCreate := fun h =>
        (congrArg (fun y => y.2.hk.waitingCreate) h).symm.trans (Dev.metaProbe_waitingCreate _ _ _ _ _)
  simp only [Dev.metaRead] at h
  split at h
  · split at h
    next w fix e hfirst =>
      cases h
      refine Eq.trans ?_ (hprobe hfirst)
      split <;> rfl
    next e hfirst =>
      split at h
      next w fix f hsecond =>
        cases h
        rw [Dev.metaWrite_hk, hprobe hsecond, hprobe hfirst]
      next f hsecond =>
        cases h
        rw [hprobe hsecond, hprobe hfirst]
  · cases h

@[simp] theorem Dev.metaGone_hk (idx m line : Nat) : (d.metaGone idx m line).hk = d.hk := by
  simp [Dev.metaGone]

@[simp] theorem Dev.lineStore_hk (m line : Nat) (x : Line) : (d.lineStore m line x).hk = d.hk := by
  rw [Dev.lineStore]
  split <;> simp

theorem Dev.lineRead_waitingCreate (m line : Nat) (x1 x2 : BitVec 640) : (d.lineRead m line x1 x2).hk.waitingCreate = d.hk.waitingCreate := by
  simp only [Dev.lineRead]
  split
  · rfl
  · split
    · simp [Dev.hold]
    · split
      · simp
      · split
        · split
          next hread => simp [Dev.metaRead_waitingCreate _ hread]
          next hread => simp [Dev.metaRead_waitingCreate _ hread]
          next => simp
        · split <;> simp [Dev.drawLine]

theorem Dev.lineWrite_waitingCreate (m line : Nat) (x : Line) : (d.lineWrite m line x).hk.waitingCreate = d.hk.waitingCreate := by
  simp only [Dev.lineWrite]
  repeat' split
  all_goals simp [Dev.hold, Dev.drawWord]

theorem Dev.lineMerge_waitingCreate (m line : Nat) (x : Line) (en : U64) (x1 x2 : BitVec 640) :
    (d.lineMerge m line x en x1 x2).hk.waitingCreate = d.hk.waitingCreate := by
  simp only [Dev.lineMerge]
  split
  · rfl
  · split
    · simp [Dev.hold]
    · split
      · simp [Dev.drawWord]
      · split
        · split
          next hread => simp [Dev.metaRead_waitingCreate _ hread]
          next hread => simp [Dev.metaRead_waitingCreate _ hread]
          next => simp
        · split <;> simp

/-- Requests that go on at a unit answer no creation. -/
theorem Dev.release_waitingCreate (m : Nat) (held : List HeldReq) : (d.release m held).hk.waitingCreate = d.hk.waitingCreate := by
  refine foldl_keeps (fun e : Dev => e.hk.waitingCreate) (fun e q => ?_) held d
  cases q with
  | read line x1 x2 => exact e.lineRead_waitingCreate m line x1 x2
  | write line x => exact e.lineWrite_waitingCreate m line x
  | rmw line x en x1 x2 => exact e.lineMerge_waitingCreate m line x en x1 x2

theorem Dev.retryHeld_waitingCreate (m : Nat) : (d.retryHeld m).hk.waitingCreate = d.hk.waitingCreate := by
  rw [Dev.retryHeld]
  split
  · rfl
  · exact Dev.release_waitingCreate _ m _

/-- Noting whether a partition is cleared leaves Huanik's own state. -/
theorem Dev.settleClearing_hk (p : Option Nat) : (d.settleClearing p).hk = d.hk := by
  cases p with
  | none => rfl
  | some n =>
    simp only [Dev.settleClearing]
    split
    · simp only [Dev.setPart_frame]
    · rfl

end Creations

/-! ### Slots that Shutter clears (R265) -/

section Shutter

variable {d : Dev} {m k : Nat}

/-- The device with slot `k` of unit `m` cleared under the unit's present key. -/
def Dev.withCleared (d : Dev) (m k : Nat) : Dev :=
  { d.modUnit m fun u => { u with cleared := k :: u.cleared, slotDraw := tset u.slotDraw k u.key.draw } with
    pool := d.pool.clear m (k * slotLines) (if m < 48 ∨ k < 4 then slotLines else slotLines / 2) }

/-- A slot that no destruction gave back stays its unit's (R265). -/
theorem Dev.slotDone_kept (hwait : d.waitClear = []) : d.slotDone m k = d.withCleared m k := by
  have hnone : (d.withCleared m k).waitClear.contains (m, k) = false := by
    rw [show (d.withCleared m k).waitClear = [] from hwait]
    rfl
  exact if_neg (ne_true_of_eq_false hnone)

/-- Where no long command runs, none goes on with a cleared slot. -/
theorem Dev.settleAll_none (hops : d.hk.ops = []) : ((d.settleTenants).settleAdds).settleDestroys = d := by
  have htenants : d.settleTenants = d := by rw [Dev.settleTenants, hops]; rfl
  have hadds : d.settleAdds = d := by rw [Dev.settleAdds, hops]; rfl
  rw [htenants, hadds, Dev.settleDestroys, hops]
  rfl

/-- Where no creation waits, none is finished. -/
theorem State.finishCreates_none {s : State} (h : s.dev.hk.waitingCreate = []) : s.finishCreates = s := by
  rw [State.finishCreates, h]
  rfl

/-- SHUTTER_SLOT_CLEARED of the slot that is to be cleared, where no command waits for it: the slot is ready, and the unit's waiting
requests are tried again. -/
theorem exec_shutterSlotCleared {s : State} (hlive : s.dev.sys.live = true) (hruns : s.dev.shutterRuns m = true)
    (hslot : (s.dev.uncleared m).contains k = true) (hnext : 48 ≤ m ∨ s.dev.nextShutter m = some k) (hops : s.dev.hk.ops = [])
    (hcreate : s.dev.hk.waitingCreate = []) (hwait : s.dev.waitClear = []) :
    exec (.shutterSlotCleared m k) s =
      .next (s.onDev fun d => ((d.withCleared m k).settleClearing (d.unitOwner m)).retryHeld m) := by
  have hopen : ((s.onDev id).dev.sys.live && (s.onDev id).dev.shutterRuns m && ((s.onDev id).dev.uncleared m).contains k &&
      (decide (48 ≤ m) || (s.onDev id).dev.nextShutter m == some k)) = true := by
    simp only [Bool.and_eq_true, Bool.or_eq_true, decide_eq_true_eq, beq_iff_eq]
    exact ⟨⟨⟨hlive, hruns⟩, hslot⟩, hnext⟩
  have hdone : ((((s.onDev id).dev.slotDone m k).settleTenants).settleAdds).settleDestroys = (s.onDev id).dev.withCleared m k := by
    rw [Dev.slotDone_kept (d := (s.onDev id).dev) hwait]
    exact Dev.settleAll_none hops
  have hnone : ((((s.onDev id).dev.withCleared m k).settleClearing ((s.onDev id).dev.unitOwner m)).retryHeld m).hk.waitingCreate = [] := by
    rw [Dev.retryHeld_waitingCreate, Dev.settleClearing_hk]
    exact hcreate
  refine congrArg Host.Outcome.next ((if_pos hopen).trans ?_)
  rw [hdone]
  exact State.finishCreates_none hnone

end Shutter

/-! ### The rows -/

section Rows

variable {s : State}

/-- A reset that Huanik commands is carried out on a running device (R304, R341, R342). -/
theorem devStep_running {f : Dev → Dev} {e : Dev} (hstage : s.dev.sys.stage = .running) (h : f { s.dev with out := [] } = e) :
    devStep (fun d => d.guard (d.sys.stage == .running) f) s = .next { s with dev := e } :=
  devStep_guarded (b := fun d => d.sys.stage == .running) (f := fun _ => f) (beq_iff_eq.mpr hstage) h

/-- PARTITION_RESET_DONE of a quiet partition without movers that no tenant change waits for: it is ACTIVE again (R344). -/
theorem exec_partitionResetDone {p : Nat} (hstate : (s.dev.partn p).state = .resetting) (hrekeyed : (s.dev.partn p).rekeyed = false)
    (hquiet : s.dev.partQuiet p = true) (hops : s.dev.hk.ops = []) (hmovers : (s.dev.partn p).movers = 0) :
    exec (.partitionResetDone p) s = .next (s.onDev fun d =>
      ((d.setPart p fun x => { x with gen := x.gen + 1 }).raise
        { code := .partResetDone, part := some p, detail0 := some (((d.partn p).gen + 1).setWidth 64)
          detail1 := some (BitVec.ofNat 64 ((d.now - (d.partn p).resetAt) / 1000000)) }).setPart p fun x => { x with state := .active }) := by
  have hopen : ((s.onDev id).dev.partn p).state = .resetting ∧ ((s.onDev id).dev.partn p).rekeyed = false ∧
      (s.onDev id).dev.partQuiet p = true := ⟨hstate, hrekeyed, hquiet⟩
  have hended := Dev.endPartReset_noMovers (d := (s.onDev id).dev) (p := p) hmovers
  have hnone : ((s.onDev id).dev.endPartReset p).tenantOp p = none := by
    refine Dev.tenantOp_none ?_
    rw [hended]
    simp only [Dev.raise_frame, Dev.setPart_frame]
    exact hops
  refine congrArg Host.Outcome.next ((if_pos hopen).trans ?_)
  simp only [hnone]
  rw [hended]
  rfl

end Rows

/-- Settles O55: each clause is its row's equation on the device without its earlier outputs. -/
theorem unitResets : Obligations.UnitResets := by
  unfold Obligations.UnitResets
  refine ⟨?engine, ?engineWaits, ?pass, ?fail, ?mover, ?engineLater, ?portLater, ?queueLater, ?retrain, ?retrained, ?nearDead, ?dead,
    ?partition, ?shutter⟩
  case engine =>
    intro s n hstage hrunning hgood hfree hjobs hmode
    exact devStep_running hstage (Dev.resetEngine_idle (d := { s.dev with out := [] }) hrunning hgood 2 hfree hjobs hmode)
  case engineWaits =>
    intro s n hstage hrunning hgood hfull
    exact devStep_running hstage (Dev.resetEngine_waits (d := { s.dev with out := [] }) hrunning hgood 2 hfull)
  case pass =>
    intro s n c hcause hc
    exact devStep_of_end (Dev.engineBack_pass (d := { s.dev with out := [] }) hcause hc)
  case fail =>
    intro s n c hcause hmode
    exact devStep_of_end (Dev.engineBack_fail (d := { s.dev with out := [] }) hcause hmode)
  case mover =>
    intro s n hstage hfree hjobs
    exact devStep_running hstage (Dev.resetMover_idle (d := { s.dev with out := [] }) 2 hfree hjobs)
  case engineLater | portLater | queueLater =>
    intro s n r hwaits
    refine devStep_of_eq ?_
    simp only [hwaits]
    rfl
  case retrain =>
    intro s m hlive htrained halive hthere howned hidle hfree
    exact liveStep_of_live hlive
      (Dev.startRetrain_within (d := { s.dev with out := [] }) htrained halive hthere howned hidle hfree)
  case retrained =>
    intro s m a b t hlive hretrain htime
    have hretrain' : (({ s.dev with out := [] } : Dev).unit m).retrain = some t := hretrain
    refine liveStep_of_live hlive ?_
    simp only [hretrain', Dev.guard, decide_eq_true_eq, if_pos htime]
    rfl
  case nearDead =>
    intro s m t hlive hretrain hm
    have hretrain' : (({ s.dev with out := [] } : Dev).unit m).retrain = some t := hretrain
    refine liveStep_of_live hlive ?_
    simp only [hretrain', retrainLimit, if_neg (not_lt.mpr hm), Dev.retrainEvent, Dev.unitOwner_raise]
    rfl
  case dead =>
    intro s m t hlive hretrain hm
    have hretrain' : (({ s.dev with out := [] } : Dev).unit m).retrain = some t := hretrain
    refine liveStep_of_live hlive ?_
    simp only [hretrain', retrainLimit, if_pos hm]
    rfl
  case partition =>
    intro s p hstate hrekeyed hquiet hops hmovers
    exact exec_partitionResetDone hstate hrekeyed hquiet hops hmovers
  case shutter =>
    intro s m k hlive hruns hslot hnext hops hcreate hwait
    exact exec_shutterSlotCleared hlive hruns hslot hnext hops hcreate hwait

end Sys2Proof.Machine

/-! ## The reset state, and the mailbox page (R262, R287, R288, R290, R291, R294, R297) -/

namespace Sys2Proof.Machine

open Sys2Proof Sys2Proof.Safety

/-- Settles O2: at reset the tables are empty, so that each record is its default. -/
theorem resetState : Obligations.ResetState := by
  unfold Obligations.ResetState
  exact ⟨rfl, rfl, rfl, fun _ => rfl, fun _ => rfl, fun _ => ⟨rfl, rfl⟩, fun _ => rfl, fun _ => rfl, rfl, rfl, rfl, rfl, rfl, rfl,
    fun _ _ => rfl⟩

/-- Settles O3: the counts are those of an empty mailbox, and the memories are empty. -/
theorem resetMeetsInvariants : Obligations.ResetMeetsInvariants := by
  unfold Obligations.ResetMeetsInvariants
  exact ⟨mailboxOrder_empty, rfl, rfl, rfl⟩

section Page

variable {s : State} {d : Dev} {h off p : Nat} {e : U16}

/-! ### Ownership and doorbells (R290, R291, R294) -/

theorem exec_mbxAttach (hpage : s.hasMailbox h = true) : exec (.mbxAttach h) s = .next (s.attach h) :=
  congrArg Host.Outcome.next (if_pos hpage)

/-- A register write of 8 bytes by a head that has the mailbox reaches the register of its offset (R288). -/
theorem exec_registerWrite_word (hpage : s.hasMailbox h = true) (v : U64) :
    exec (.registerWrite h off 8 (some v)) s = .next (s.mbxWrite h off v) :=
  congrArg Host.Outcome.next (if_neg (by simp [hpage]))

/-- A register write that is not of 8 bytes changes nothing (R288). -/
theorem exec_registerWrite_other {len : Nat} (hpage : s.hasMailbox h = true) (v : U64) (hlen : len ≠ 8) :
    exec (.registerWrite h off len (some v)) s = .next (s.onDev fun d => d) :=
  congrArg Host.Outcome.next ((if_neg (by simp [hpage])).trans (if_neg hlen))

/-- One aligned read of 8 bytes returns the register (R288). -/
theorem exec_registerRead (hpage : s.hasMailbox h = true) (halign : off % 8 = 0) :
    exec (.registerWrite h off 8 none) s = .next (s.onDev fun d => d.emit (.bar4Data h off (s.bar4Read off))) :=
  congrArg Host.Outcome.next ((if_neg (by simp [hpage])).trans (if_pos ⟨rfl, halign⟩))

/-- A doorbell write is fenced unless it is the owner's with the present epoch (R291). -/
theorem Mbx.fences_iff {m : Mbx} : m.fences h e = true ↔ m.ownerHead ≠ h ∨ m.owned = false ∨ e ≠ m.epoch := by
  simp [Mbx.fences, or_assoc, ne_comm]

theorem Mbx.fences_owner {m : Mbx} (hhead : m.ownerHead = h) (howned : m.owned = true) (hepoch : e = m.epoch) :
    m.fences h e = false := by
  simp [Mbx.fences, hhead, howned, hepoch]

section Doorbell

variable {ok : Bool} {f : State → State}

/-- A fenced doorbell write is counted in MBX.FENCED_WRITES, and does nothing else (R291). -/
theorem State.mbxDoorbell_fenced (hpage : s.hasMailbox h = true) (hfenced : s.mbx.ownerHead ≠ h ∨ s.mbx.owned = false ∨ e ≠ s.mbx.epoch) :
    s.mbxDoorbell h e ok f = { s with mbx := { s.mbx with fenced := s.mbx.fenced + 1 } }.onDev fun d => d := by
  rw [State.mbxDoorbell, if_neg (by simp [hpage]), if_pos (Mbx.fences_iff.mpr hfenced)]
  rfl

variable (hpage : s.hasMailbox h = true) (hhead : s.mbx.ownerHead = h) (howned : s.mbx.owned = true) (hepoch : e = s.mbx.epoch)
include hpage hhead howned hepoch

/-- An owner's doorbell write that passes its check is done (R294). -/
theorem State.mbxDoorbell_accepted (hok : ok = true) : s.mbxDoorbell h e ok f = f (s.onDev id) := by
  rw [State.mbxDoorbell, if_neg (by simp [hpage]), if_neg (by simp [Mbx.fences_owner hhead howned hepoch]), if_pos hok]

/-- One that fails its check is counted in MBX.DOORBELL_REFUSED, and does nothing else (R294). -/
theorem State.mbxDoorbell_refused (hbad : ok = false) :
    s.mbxDoorbell h e ok f = { s with mbx := { s.mbx with refused := s.mbx.refused + 1 } }.onDev fun d => d := by
  rw [State.mbxDoorbell, if_neg (by simp [hpage]), if_neg (by simp [Mbx.fences_owner hhead howned hepoch]), if_neg (by simp [hbad])]
  rfl

end Doorbell

/-- A check of two counts passes where neither exceeds its limit. -/
theorem bothWithin {x y k : Nat} (hx : x ≤ k) (hy : y ≤ k) : (decide (x ≤ k) && decide (y ≤ k)) = true := by
  simp [hx, hy]

/-- It fails where either exceeds it. -/
theorem notBothWithin {x y k : Nat} (hbad : k < x ∨ k < y) : (decide (x ≤ k) && decide (y ≤ k)) = false := by
  rw [Bool.and_eq_false_iff, decide_eq_false_iff_not, decide_eq_false_iff_not, not_le, not_le]
  exact hbad

/-! ### Event-ring entries that return (R297) -/

/-- Where no record was lost, entries that return move the head alone. -/
theorem Dev.freeEvents_noneLost (n : U32) (hlost : d.evt.unreported = 0) : d.freeEvents n = { d with evt := { d.evt with head := n } } := by
  simp only [Dev.freeEvents, hlost, bne_self_eq_false, Bool.and_false, Bool.false_eq_true, if_false, ite_self]

/-- Room that returns after records were lost takes EVENTS_LOST first. -/
theorem Dev.freeEvents_lost {n : U32} (hlost : d.evt.unreported ≠ 0) (hmoved : n ≠ d.evt.head) :
    d.freeEvents n = { d with evt := { d.evt with head := n, unreported := 0 } }.putDevEvent
      { code := .eventsLost, detail0 := some (BitVec.ofNat 64 d.evt.unreported) } := by
  simp only [Dev.freeEvents, bne_iff_ne.mpr hlost, bne_iff_ne.mpr hmoved, Bool.and_self, if_true]

/-! ### The rings (R287, R291) -/

/-- A byte of the owner's goes into the command ring (R287). -/
theorem exec_mailboxRingWrite_byte (b : Byte) (hpage : s.hasMailbox h = true) (hhead : s.mbx.ownerHead = h) (howned : s.mbx.owned = true)
    (hlow : 0x100000 ≤ off) (hhigh : off < 0x110000) :
    exec (.mailboxRingWrite h off [b]) s = .next (s.onDev fun d => { d with sram := memWrite d.sram off b }) := by
  have hopen : ¬ (!s.hasMailbox h || decide (off < 0x100000)) = true := by simp [hpage, hlow]
  have howner : ¬ (h != s.mbx.ownerHead || !s.mbx.owned) = true := by simp [hhead, howned]
  have hbyte : sramByte off = true := by simp [sramByte, hlow, hhigh]
  refine congrArg Host.Outcome.next ((if_neg hopen).trans ((if_neg howner).trans ?_))
  simp only [sramWrite, hbyte, if_true]

/-- Bytes of a head that does not own the mailbox are fenced (R291). -/
theorem exec_mailboxRingWrite_fenced (xs : List Byte) (hpage : s.hasMailbox h = true) (hlow : 0x100000 ≤ off)
    (hother : s.mbx.ownerHead ≠ h ∨ s.mbx.owned = false) :
    exec (.mailboxRingWrite h off xs) s = .next ({ s with mbx := { s.mbx with fenced := s.mbx.fenced + 1 } }.onDev fun d => d) := by
  have hopen : ¬ (!s.hasMailbox h || decide (off < 0x100000)) = true := by simp [hpage, hlow]
  have hfenced : (h != s.mbx.ownerHead || !s.mbx.owned) = true := by simpa [ne_comm] using hother
  exact congrArg Host.Outcome.next ((if_neg hopen).trans (if_pos hfenced))

/-! ### Huanik's round and pacing (R262; log entries 77 and 85) -/

/-- Huanik's round finds nothing to do where no write of the management cores waits and no metadata has been lost. -/
theorem Dev.round_idle (hwrites : d.coreWrites = []) (hmeta : d.lostMeta = []) : d.round = d := by
  have hflushed : d.flushCore d.coreWrites.length = d := by rw [hwrites]; rfl
  have hsame : { d with lostMeta := [] } = d := by rw [← hmeta]
  simp only [Dev.round, hflushed, hmeta, List.foldl_nil, hsame]

/-- The next multiple of a slot is not past. -/
theorem le_nextMultiple {now slot : Nat} (hslot : 0 < slot) : now ≤ (now + slot - 1) / slot * slot := by
  have := Nat.lt_div_mul_add (a := now + slot - 1) hslot
  omega

/-- A pacing boundary is a multiple of the slot, and is not past. -/
theorem Dev.nextPace_boundary (hpace : d.hk.paceUs ≠ 0) : d.nextPace p % (d.hk.paceUs * 1000) = 0 ∧ d.now ≤ d.nextPace p := by
  have hahead := le_nextMultiple (now := d.now) (slot := d.hk.paceUs * 1000) (by omega)
  simp only [Dev.nextPace]
  split
  · split
    · exact ⟨by rw [Nat.add_mod_right, Nat.mul_mod_left], by omega⟩
    · exact ⟨Nat.mul_mod_left _ _, hahead⟩
  · exact ⟨Nat.mul_mod_left _ _, hahead⟩

/-- Pacing that is on has boundaries while Huanik runs. -/
theorem paceOpen (hstage : d.sys.stage = .running) (hpace : d.hk.paceUs ≠ 0) : (d.sys.stage == .running && d.hk.paceUs != 0) = true := by
  simp [hstage, hpace]

end Page

/-- Settles O40: both rows attach the head. -/
theorem mailboxAttach : Obligations.MailboxAttach := by
  unfold Obligations.MailboxAttach
  exact ⟨fun s h hpage => exec_mbxAttach hpage, fun s h v hpage => exec_registerWrite_word hpage v⟩

/-- Settles O41: a doorbell write is fenced, refused or done; each other clause is its row's equation. -/
theorem mailboxRings : Obligations.MailboxRings := by
  unfold Obligations.MailboxRings
  refine ⟨?command, ?commandRefused, ?response, ?responseRefused, ?events, ?eventsLost, ?eventsRefused, ?commandFenced, ?responseFenced,
    ?eventsFenced, ?interrupts, ?short, ?read, ?registers, ?ring, ?ringFenced, ?heartbeat, ?boundary, ?pace, ?paceAnswer⟩
  case command =>
    intro s h n e hpage hhead howned hepoch hhost hrsp
    exact congrArg Host.Outcome.next (State.mbxDoorbell_accepted hpage hhead howned hepoch (bothWithin hhost hrsp))
  case response =>
    intro s h n e hpage hhead howned hepoch hrsp hdev
    exact congrArg Host.Outcome.next (State.mbxDoorbell_accepted hpage hhead howned hepoch (bothWithin hrsp hdev))
  case commandRefused | responseRefused | eventsRefused =>
    intro s h n e hpage hhead howned hepoch hbad
    exact congrArg Host.Outcome.next (State.mbxDoorbell_refused hpage hhead howned hepoch (notBothWithin hbad))
  case events =>
    intro s h n e hpage hhead howned hepoch hback htail hlost
    have hdone := State.mbxDoorbell_accepted (f := fun t => { t with dev := t.dev.freeEvents n }) hpage hhead howned hepoch
      (bothWithin hback htail)
    rw [Dev.freeEvents_noneLost (d := (s.onDev id).dev) n hlost] at hdone
    exact congrArg Host.Outcome.next hdone
  case eventsLost =>
    intro s h n e hpage hhead howned hepoch hback htail hlost hmoved
    have hdone := State.mbxDoorbell_accepted (f := fun t => { t with dev := t.dev.freeEvents n }) hpage hhead howned hepoch
      (bothWithin hback htail)
    rw [Dev.freeEvents_lost (d := (s.onDev id).dev) hlost hmoved] at hdone
    exact congrArg Host.Outcome.next hdone
  case commandFenced | responseFenced | eventsFenced =>
    intro s h n e hpage hfenced
    exact congrArg Host.Outcome.next (State.mbxDoorbell_fenced hpage hfenced)
  case interrupts =>
    intro s h v hpage
    exact exec_registerWrite_word hpage v
  case short =>
    intro s h off len v hpage hlen
    exact exec_registerWrite_other hpage v hlen
  case read =>
    intro s h off hpage halign
    exact exec_registerRead hpage halign
  case registers =>
    intro s
    refine ⟨rfl, rfl, rfl, rfl, rfl, fun off hoff => ?_⟩
    fin_cases hoff <;> rfl
  case ring =>
    intro s h off b hpage hhead howned hlow hhigh
    exact exec_mailboxRingWrite_byte b hpage hhead howned hlow hhigh
  case ringFenced =>
    intro s h off xs hpage hlow hother
    exact exec_mailboxRingWrite_fenced xs hpage hlow hother
  case heartbeat =>
    intro s hstage hwrites hmeta
    refine devStep_guarded (beq_iff_eq.mpr hstage) ?_
    rw [Dev.round_idle (by exact hwrites) (by exact hmeta)]
  case boundary =>
    intro d p hpace
    exact Dev.nextPace_boundary hpace
  case pace =>
    intro s p hstage hpace hnone
    have hnone' : tget (({ s.dev with out := [] } : Dev).reach (({ s.dev with out := [] } : Dev).nextPace p)).hk.paced p = none := hnone
    refine devStep_guarded (paceOpen hstage hpace) ?_
    simp only [hnone']
  case paceAnswer =>
    intro s p st outs seq op hstage hpace hsome
    have hsome' : tget (({ s.dev with out := [] } : Dev).reach (({ s.dev with out := [] } : Dev).nextPace p)).hk.paced p =
      some (st, outs, seq, op) := hsome
    refine devStep_guarded (paceOpen hstage hpace) ?_
    simp only [hsome']

end Sys2Proof.Machine

/-! ## Which commands are taken before RUNNING, the runtime load, images and the life cycle (R275 to R278, R303, R304, R307 to R310) -/

namespace Sys2Proof.Machine

open Sys2Proof Sys2Proof.Safety

section Stages

variable {s : State} {h : CmdHdr} {i : Instr} {n : Nat} {src : Sources} {target : Option Nat} {of : Dev → Option Nat} {op : Dev → CmdResult}

/-! ### Commands that are not taken, and commands that are refused -/

/-- Every Huanik command but REGION_CREATE, whose answer may wait (R265), is one row of `huanikStep` under its opcode (Table 12.7). -/
theorem exec_of_commandOf (hi : commandOf i = some (h, n)) :
    (∃ r, i = .regionCreate h r ∧ n = 0x0201) ∨ ∃ src of op, exec i s = huanikStep h n src of op s := by
  cases i
  case regionCreate h' r =>
    cases hi
    exact .inl ⟨r, rfl, rfl⟩
  case huanikNop | runtimeLoad | fwDownload | fwVerify | fwActivate | fwConfirm | fwInfo | lcTransition | modeChange
      | partCreate | partTenantChange | partDestroy | partAddUnit | partMailbox | partEventRing | regionDestroy
      | regionMigrate | regionQuery | objectCreate | rankTableLoad | windowWrite | contextWrite | headBind | routeLoad
      | routeFlip | routeRetire | portControlEnable | portControlDisable | portControlRetrain | portControlCreditAdv
      | leaseCreate | leaseRenew | leaseQuery | queueCreate | queueReset | queueAbort | queueDestroy | tallyPair
      | tallyUnpair | tallySet | paramSet | policeSet | gateCtrlSet | gateEntrySet | pairEnableSet | forceClaim | domeReq
      | rebuildStart | logRead | logClear | countersRead | injectFlip | rawWrite | rawRead | rawModeEnter | rawModeExit =>
    cases hi
    exact .inr ⟨_, _, _, rfl⟩
  all_goals cases hi

/-- A command that is not taken leaves all but the earlier outputs. -/
theorem huanikStep_untaken (htakes : s.takes h = false) : huanikStep h n src of op s = .next (s.onDev fun d => d) :=
  congrArg Host.Outcome.next (if_pos (by rw [State.takes_onDev_id, htakes]; rfl))

/-- A command that is taken and refused is answered with that status, and does nothing. -/
theorem huanikStep_of_refused {st : Status} (htakes : s.takes h = true)
    (hrefused : s.refusal h n src (of { s.dev with out := [] }) = some st) :
    huanikStep h n src of op s = .next (answered s h n st [] fun d => d) := by
  simp only [huanikStep, State.huanik, State.takes_onDev_id, htakes, State.onDev_id_dev, State.refusal_onDev_id, hrefused, Bool.not_true,
    Bool.false_eq_true, if_false]
  rfl

theorem exec_regionCreate_untaken {r : RegionIn} (htakes : s.takes h = false) :
    exec (.regionCreate h r) s = .next (s.onDev fun d => d) :=
  congrArg Host.Outcome.next (if_pos (by rw [State.takes_onDev_id, htakes]; rfl))

theorem exec_regionCreate_of_refused {r : RegionIn} {st : Status} (htakes : s.takes h = true)
    (hrefused : s.refusal h 0x0201 { device := true, fm := true } (some (hdrTarget h)) = some st) :
    exec (.regionCreate h r) s = .next (answered s h 0x0201 st [] fun d => d) := by
  change execRegionCreate h r s = _
  simp only [execRegionCreate, State.takes_onDev_id, htakes, State.refusal_onDev_id, hrefused, Bool.not_true, Bool.false_eq_true, if_false]
  rfl

/-! ### Before RUNNING (R303) -/

/-- A RETIRED device takes no command (R303). -/
theorem State.takes_retired (hstage : s.dev.sys.stage = .retired) : s.takes h = false := by
  simp [State.takes, hstage]

/-- Before RUNNING every command but NOP, RUNTIME_LOAD, LC_TRANSITION and FW_INFO is refused with NO_RESOURCE (R303). -/
theorem State.refusal_beforeRunning (hstage : s.dev.sys.stage ≠ .running) (hheader : s.badHeader h = false)
    (hn : [0x0001, 0x0002, 0x0008, 0x0010].contains n = false) : s.refusal h n src target = some .noResource :=
  (if_neg (by simp [hheader])).trans (if_pos ⟨hstage, by rw [hn]; rfl⟩)

/-- Those four pass in every stage, if the device ring brings them and Dome is not requested (R303, R366). -/
theorem State.refusal_ofFour (hsrc : h.src = .device) (hheader : s.badHeader h = false) (hdome : s.dev.sys.domeReqAt = none)
    (hn : [0x0001, 0x0002, 0x0008, 0x0010].contains n = true) (hmarked : src.device = true) : s.refusal h n src none = none := by
  have hsource : ¬ (!src.has h.src) = true := by simp [hsrc, Sources.has, hmarked]
  have hasked : ¬ s.dev.sys.domeReqAt.isSome = true := by simp [hdome]
  refine (if_neg (by simp [hheader])).trans ((if_neg (by rw [hn]; simp)).trans ((if_neg hsource).trans ((if_neg hasked).trans ?_)))
  rw [hsrc]

/-- One of the four that is taken is run and answered with its own result. -/
theorem huanikStep_ofFour {st : Status} {outs : List U64} {f : Dev → Dev} (hsrc : h.src = .device) (htakes : s.takes h = true)
    (hheader : s.badHeader h = false) (hdome : s.dev.sys.domeReqAt = none) (hn : [0x0001, 0x0002, 0x0008, 0x0010].contains n = true)
    (hmarked : src.device = true) (hop : op { s.dev with out := [] } = (st, outs, f { s.dev with out := [] })) :
    huanikStep h n src noTarget op s = .next (answered s h n st outs f) := by
  simp only [huanikStep, State.huanik, State.takes_onDev_id, htakes, State.onDev_id_dev, noTarget, State.refusal_onDev_id,
    State.refusal_ofFour hsrc hheader hdome hn hmarked, hop, Bool.not_true, Bool.false_eq_true, if_false]
  rfl

end Stages

section Operations

variable {d : Dev}

/-! ### The runtime load (R304) -/

/-- A first chunk in AWAIT_RUNTIME leads to LOADING. -/
theorem Dev.runtimeChunk_first {len total : Nat} (v : Bool) (svn : U16) (dg : BitVec 384) (hstage : d.sys.stage = .awaitRuntime)
    (hpos : 0 < len) (hlen : len ≤ 2097152) (hmore : len < total) (htotal : total ≤ 33554432) :
    d.runtimeChunk 0 len total false v svn dg = (.ok, [BitVec.ofNat 64 len],
      let e := d.setSys fun x => { x with stage := .loading }
      { e with sys := { e.sys with loadGot := len, loadTotal := total } }) := by
  have hopen : ¬ ((0 = 0 ∧ d.sys.stage ≠ .awaitRuntime) ∨ (0 ≠ 0 ∧ d.sys.stage ≠ .loading)) := by simp [hstage]
  have hgood : ¬ (0 ≠ (if 0 = 0 then 0 else d.sys.loadGot) ∨ 2097152 < len ∨ len = 0 ∨ total = 0 ∨ 33554432 < total ∨ total < len ∨
      (0 ≠ 0 ∧ total ≠ d.sys.loadTotal) ∨ false ≠ decide (len = total)) := by
    simp only [decide_eq_false hmore.ne, if_true, ne_eq, not_true, false_and, false_or, or_false]
    omega
  unfold Dev.runtimeChunk
  rw [Nat.zero_add]
  exact (if_neg hopen).trans (if_neg hgood)

section LastChunk

variable {off len : Nat} {svn : U16} (dg : BitVec 384) (hstage : d.sys.stage = .loading) (hoff : 0 < off) (hgot : off = d.sys.loadGot)
  (hpos : 0 < len) (hlen : len ≤ 2097152) (hend : off + len ≤ 33554432) (htotal : d.sys.loadTotal = off + len)
include hstage hoff hgot hpos hlen hend htotal

/-- The last chunk of an image is well formed, and SEC's verdict decides. -/
theorem Dev.runtimeChunk_last (v : Bool) :
    d.runtimeChunk off len (off + len) true v svn dg =
      (let e : Dev := { d with sys := { d.sys with loadGot := off + len, loadTotal := off + len } }
       if v = true ∧ (d.sys.lifeCycle = .deployed → d.sys.svnFloor ≤ svn) then
        (({ e with sys := { e.sys with runtimeSvn := svn, runtimeDigest := dg, loadStatus := 0, loadGot := 0 } } : Dev).measure
          4).enterRunning.done ((List.range 6).map fun i => (dg >>> (64 * i)).truncate 64)
       else (e.setSys fun x => { x with
          stage := .awaitRuntime, loadStatus := BitVec.ofNat 8 (statusCode .rights), loadGot := 0 }).fail .rights) := by
  have hnext : ¬ off = 0 := by omega
  have hopen : ¬ ((off = 0 ∧ d.sys.stage ≠ .awaitRuntime) ∨ (off ≠ 0 ∧ d.sys.stage ≠ .loading)) := by simp [hstage, hnext]
  have hgood : ¬ (off ≠ (if off = 0 then 0 else d.sys.loadGot) ∨ 2097152 < len ∨ len = 0 ∨ off + len = 0 ∨ 33554432 < off + len ∨
      off + len < off + len ∨ (off ≠ 0 ∧ off + len ≠ d.sys.loadTotal) ∨ true ≠ decide (off + len = off + len)) := by
    simp only [if_neg hnext, decide_true, ne_eq, not_true, or_false]
    omega
  refine (if_neg hopen).trans ((if_neg hgood).trans ?_)
  simp only [if_neg hnext]
  rfl

/-- An image that verifies, not below the floor of a DEPLOYED device, runs. -/
theorem Dev.runtimeChunk_verified (hfloor : d.sys.lifeCycle = .deployed → d.sys.svnFloor ≤ svn) :
    d.runtimeChunk off len (off + len) true true svn dg = (.ok, (List.range 6).map fun i => (dg >>> (64 * i)).truncate 64,
      ({ d with sys := { d.sys with runtimeSvn := svn, runtimeDigest := dg, loadStatus := 0, loadGot := 0,
                                    loadTotal := off + len } }.measure 4).enterRunning) :=
  (Dev.runtimeChunk_last dg hstage hoff hgot hpos hlen hend htotal true).trans (if_pos ⟨rfl, hfloor⟩)

/-- One that does not verify leads back to AWAIT_RUNTIME. -/
theorem Dev.runtimeChunk_unverified :
    d.runtimeChunk off len (off + len) true false svn dg = (.rights, [],
      let e := { d with sys := { d.sys with loadGot := off + len, loadTotal := off + len } }
      e.setSys fun x => { x with stage := .awaitRuntime, loadStatus := BitVec.ofNat 8 (statusCode .rights), loadGot := 0 }) :=
  (Dev.runtimeChunk_last dg hstage hoff hgot hpos hlen hend htotal false).trans (if_neg (by simp))

end LastChunk

/-! ### Boot images (R307 to R310) -/

/-- The first chunk of an image journals DOWNLOADING and goes into the slot that is not confirmed. -/
theorem Dev.fwDownload_first {xs : List Byte} (htrial : d.sys.trialPending = false) (hidle : d.sys.downloading = false)
    (hlen : xs.length ≤ 31457280) :
    d.fwDownload 0 xs = (.ok, [],
      let x := d.sys.record .downloading (!d.sys.confirmed) d.sys.confirmed 0 0
      { d with sys := { x with downloading := true, flash := memWriteList d.sys.flash (slotBase (!d.sys.confirmed)) xs } }) := by
  have hopen : ¬ (d.sys.trialPending = true ∨ (0 = 0 ∧ d.sys.downloading = true) ∨ (0 ≠ 0 ∧ (!d.sys.downloading) = true)) := by
    simp [htrial, hidle]
  exact (if_neg hopen).trans (if_neg (by omega))

/-- A later chunk is written behind it. -/
theorem Dev.fwDownload_next {off : Nat} {xs : List Byte} (htrial : d.sys.trialPending = false) (hbusy : d.sys.downloading = true)
    (hoff : off ≠ 0) (hlen : off + xs.length ≤ 31457280) :
    d.fwDownload off xs = (.ok, [],
      { d with sys := { d.sys with flash := memWriteList d.sys.flash (slotBase (!d.sys.confirmed) + off) xs } }) := by
  have hopen : ¬ (d.sys.trialPending = true ∨ (off = 0 ∧ d.sys.downloading = true) ∨ (off ≠ 0 ∧ (!d.sys.downloading) = true)) := by
    simp [htrial, hbusy, hoff]
  refine (if_neg hopen).trans ((if_neg (Nat.not_lt.mpr hlen)).trans ?_)
  simp only [if_neg hoff]
  rfl

/-- An image that verifies is journalled VERIFIED with its digest. -/
theorem Dev.fwVerify_verified (dg : BitVec 384) (hbusy : d.sys.downloading = true) :
    d.fwVerify true dg = (.ok, (List.range 6).map fun i => (dg >>> (64 * i)).truncate 64,
      { d with sys := { d.sys.record .verified (!d.sys.confirmed) d.sys.confirmed 0 dg with downloading := false } }) := by
  simp only [Dev.fwVerify, hbusy, Bool.not_true, Bool.false_eq_true, if_false, if_true]
  rfl

/-- One that does not verify ends its download. -/
theorem Dev.fwVerify_unverified (dg : BitVec 384) (hbusy : d.sys.downloading = true) :
    d.fwVerify false dg = (.rights, [], { d with sys := { d.sys with downloading := false } }) := by
  simp only [Dev.fwVerify, hbusy, Bool.not_true, Bool.false_eq_true, if_false]
  rfl

/-- A verified image is put on trial. -/
theorem Dev.fwActivate_verified {r : FwRecord} (hlast : d.sys.journal.getLast? = some r) (hverified : r.state = .verified) :
    d.fwActivate = (.ok, [], { d with sys := d.sys.record .trial r.slotB r.confirmedB 0 r.digest }) := by
  simp only [Dev.fwActivate, Sys.standing, hlast, hverified, if_true]
  rfl

/-- An image on trial is confirmed. -/
theorem Dev.fwConfirm_trial {r : FwRecord} (hlast : d.sys.journal.getLast? = some r) (htrial : d.sys.trial = true) :
    d.fwConfirm = (.ok, [],
      d.setSys fun x => { x.record .confirmed x.bootSlotB x.bootSlotB 0 r.digest with trial := false, trialBoots := 0 }) := by
  simp only [Dev.fwConfirm, Sys.standing, hlast, htrial, if_true]
  rfl

/-! ### Life-cycle transitions (R275 to R278) -/

/-- A token that does not verify is refused in every state. -/
theorem Dev.lcTransition_unverified (t : Nat) (o : Bool) (own : BitVec 384) (fl : U16) :
    d.lcTransition t o false own fl = (.rights, [], d) := by
  simp only [Dev.lcTransition, Bool.false_eq_true, false_and, if_false]
  split
  · split <;> rfl
  · rfl

/-- What a change of MBX.STATUS fields makes of them. -/
@[simp] theorem Dev.setSys_sys (f : Sys → Sys) : (d.setSys f).sys = f d.sys := by
  unfold Dev.setSys
  split <;> rfl

/-- A verified token whose transition runs from the present state, which is not one that a start left pending, burns its fuses. -/
theorem Dev.lcTransition_verified {t : Nat} {o : Bool} (own : BitVec 384) (fl : U16) (hstage : d.sys.stage = .running)
    (hallows : lifeAllows d.sys.lifeCycle t o = true) :
    d.lcTransition t o true own fl =
      (.ok, [BitVec.ofNat 64 (lifeCode (d.burn (t - 1) own fl).sys.lifeCycle)], d.burn (t - 1) own fl) := by
  have hopen : ¬ d.sys.stage = .transitionPending := by simp [hstage]
  simp only [Dev.lcTransition, if_neg hopen, hallows, and_self, if_true]
  rfl

/-- The token of MANUFACTURED leads to PROVISIONED. -/
theorem Dev.lcTransition_provision (own : BitVec 384) (fl : U16) (hstage : d.sys.stage = .running)
    (hlife : d.sys.lifeCycle = .manufactured) :
    d.lcTransition 1 false true own fl = (.ok, [1],
      let e := { d with sys := { d.sys with
        fuseToken := some 0, fuseOwner := own, fuseFloor := fl
        fuses := tset d.sys.fuses 0 { intent := true, data := true, commit := true } } }
      e.setSys fun x => { x with lifeCycle := .provisioned }) := by
  rw [Dev.lcTransition_verified own fl hstage (by rw [hlife]; rfl)]
  simp [Dev.burn, transTarget, lifeCode]

/-- The token of PROVISIONED leads to DEPLOYED, with the owner's key and the floor that it carries. -/
theorem Dev.lcTransition_deploy (own : BitVec 384) (fl : U16) (hstage : d.sys.stage = .running)
    (hlife : d.sys.lifeCycle = .provisioned) :
    d.lcTransition 2 false true own fl = (.ok, [2],
      let e := { d with sys := { d.sys with
        fuseToken := some 1, fuseOwner := own, fuseFloor := fl
        fuses := tset d.sys.fuses 1 { intent := true, data := true, commit := true } } }
      e.setSys fun x => { x with lifeCycle := .deployed, ownerHash := own, svnFloor := fl }) := by
  rw [Dev.lcTransition_verified own fl hstage (by rw [hlife]; rfl)]
  simp [Dev.burn, transTarget, lifeCode]

end Operations

/-- A command is accepted only in RUNNING. -/
theorem stage_of_accepts {s : State} {h : CmdHdr} {src : Sources} {target : Option Nat} (ha : Accepts s h src target) :
    s.dev.sys.stage = .running := by
  obtain ⟨⟨hstage, -⟩, -⟩ := ha
  exact hstage

/-- Settles O42: each command is refused with NO_RESOURCE, is one of the four that pass, or is not taken. -/
theorem stageGatesCommands : Obligations.StageGatesCommands := by
  unfold Obligations.StageGatesCommands
  refine ⟨?refused, ?nop, ?info, ?load, ?token, ?retired⟩
  case refused =>
    intro s i h n hi hsrc hstage hretired htakes hheader hnop hload htoken hinfo
    have hn : [0x0001, 0x0002, 0x0008, 0x0010].contains n = false := by simp [hnop, hload, htoken, hinfo]
    rcases exec_of_commandOf hi with ⟨r, rfl, rfl⟩ | ⟨src, of, op, hrow⟩
    · exact exec_regionCreate_of_refused htakes (State.refusal_beforeRunning hstage hheader hn)
    · exact hrow.trans (huanikStep_of_refused htakes (State.refusal_beforeRunning hstage hheader hn))
  case nop =>
    intro s h hsrc htakes hheader hdome hstage
    exact huanikStep_ofFour hsrc htakes hheader hdome rfl rfl rfl
  case info =>
    intro s h hsrc htakes hheader hdome hstage
    exact huanikStep_ofFour hsrc htakes hheader hdome rfl rfl rfl
  case load =>
    intro s h len total v svn dg hsrc htakes hheader hstage hdome hpos hlen hmore htotal
    exact huanikStep_ofFour hsrc htakes hheader hdome rfl rfl
      (Dev.runtimeChunk_first (d := { s.dev with out := [] }) v svn dg hstage hpos hlen hmore htotal)
  case token =>
    intro s h t o own fl hsrc htakes hheader hdome hstage
    exact huanikStep_ofFour hsrc htakes hheader hdome rfl rfl (Dev.lcTransition_unverified t o own fl)
  case retired =>
    intro s i h n hi hstage
    rcases exec_of_commandOf hi with ⟨r, rfl, rfl⟩ | ⟨src, of, op, hrow⟩
    · exact exec_regionCreate_untaken (State.takes_retired hstage)
    · exact hrow.trans (huanikStep_untaken (State.takes_retired hstage))

/-- Settles O43: each clause is the command's own equation on the device without its earlier outputs, which a command that is taken
runs and answers. -/
theorem firmwareAndLifeCycle : Obligations.FirmwareAndLifeCycle := by
  unfold Obligations.FirmwareAndLifeCycle
  refine ⟨?nop, ?info, ?download, ?chunk, ?verify, ?verifyFails, ?activate, ?confirm, ?load, ?loadFails, ?provision, ?deploy, ?token⟩
  case nop =>
    intro s h ha
    exact huanikStep_of_accepts ha rfl rfl
  case info =>
    intro s h ha
    exact huanikStep_of_accepts ha rfl rfl
  case download =>
    intro s h xs ha htrial hidle hlen
    exact huanikStep_of_accepts ha rfl (Dev.fwDownload_first (d := { s.dev with out := [] }) htrial hidle hlen)
  case chunk =>
    intro s h off xs ha htrial hbusy hoff hlen
    exact huanikStep_of_accepts ha rfl (Dev.fwDownload_next (d := { s.dev with out := [] }) htrial hbusy hoff hlen)
  case verify =>
    intro s h dg ha hbusy
    exact huanikStep_of_accepts ha rfl (Dev.fwVerify_verified (d := { s.dev with out := [] }) dg hbusy)
  case verifyFails =>
    intro s h dg ha hbusy
    exact huanikStep_of_accepts ha rfl (Dev.fwVerify_unverified (d := { s.dev with out := [] }) dg hbusy)
  case activate =>
    intro s h r ha hlast hverified
    exact huanikStep_of_accepts ha rfl (Dev.fwActivate_verified (d := { s.dev with out := [] }) hlast hverified)
  case confirm =>
    intro s h r ha hlast htrial
    exact huanikStep_of_accepts ha rfl (Dev.fwConfirm_trial (d := { s.dev with out := [] }) hlast htrial)
  case load =>
    intro s h off len svn dg hsrc htakes hheader hstage hdome hoff hgot hpos hlen hend htotal hfloor
    exact huanikStep_ofFour hsrc htakes hheader hdome rfl rfl
      (Dev.runtimeChunk_verified (d := { s.dev with out := [] }) dg hstage hoff hgot hpos hlen hend htotal hfloor)
  case loadFails =>
    intro s h off len svn dg hsrc htakes hheader hstage hdome hoff hgot hpos hlen hend htotal
    exact huanikStep_ofFour hsrc htakes hheader hdome rfl rfl
      (Dev.runtimeChunk_unverified (d := { s.dev with out := [] }) dg hstage hoff hgot hpos hlen hend htotal)
  case provision =>
    intro s h own fl ha hlife
    exact huanikStep_of_accepts ha rfl
      (Dev.lcTransition_provision (d := { s.dev with out := [] }) own fl (stage_of_accepts ha) hlife)
  case deploy =>
    intro s h own fl ha hlife
    exact huanikStep_of_accepts ha rfl
      (Dev.lcTransition_deploy (d := { s.dev with out := [] }) own fl (stage_of_accepts ha) hlife)
  case token =>
    intro s h t o own fl ha
    exact huanikStep_of_accepts ha rfl (Dev.lcTransition_unverified t o own fl)

end Sys2Proof.Machine

/-! ## PARAM_SET (R7, R227, R229, R230, R312, R313, R327, R366, Table 12.12) -/

namespace Sys2Proof.Machine

open Sys2Proof Sys2Proof.Safety

section Params

variable {d : Dev} {k i : Nat} {v w : U64}

/-! ### The command itself (R312) -/

/-- A value in range, of a parameter that may change now, is set, and the old value is the output. -/
theorem Dev.paramSet_good (hbits : paramBits k v = w) (hgood : d.paramBad k i w = false) (hfree : d.paramHeld k i w = false) :
    d.paramSet k i v = (.ok, [d.paramOld k i], d.paramApply k i w) := by
  simp only [Dev.paramSet, hbits, hgood, hfree, Bool.false_eq_true, if_false, Dev.done]

/-- A value out of range is FORMAT. -/
theorem Dev.paramSet_bad (hbad : d.paramBad k i (paramBits k v) = true) : d.paramSet k i v = (.format, [], d) := by
  simp only [Dev.paramSet, hbad, if_true, Dev.fail]

/-- One that may not change now is NO_RESOURCE. -/
theorem Dev.paramSet_held (hbits : paramBits k v = w) (hgood : d.paramBad k i w = false) (hheld : d.paramHeld k i w = true) :
    d.paramSet k i v = (.noResource, [], d) := by
  simp only [Dev.paramSet, hbits, hgood, hheld, Bool.false_eq_true, if_false, if_true, Dev.fail]

/-! ### Values in range (Table 12.12) -/

/-- No value of 64 bits is out of the range of a parameter that has no bounds of its own. -/
theorem within64 (w : U64) : ¬ (w.toNat < 0 ∨ 18446744073709551615 < w.toNat) := by omega

theorem Dev.paramBad_police (hi : i < 1024) (hgood : policeBad w = false) : d.paramBad 0x0024 i w = false := by
  simp only [Dev.paramBad, paramCount, Dev.paramRange, hgood, decide_eq_false (within64 w), decide_eq_false (Nat.not_le.mpr hi),
    Bool.or_self]

theorem Dev.paramBad_gateCtrl (hi : i < 32) : d.paramBad 0x0025 i w = false := by
  simp only [Dev.paramBad, paramCount, Dev.paramRange, decide_eq_false (within64 w), decide_eq_false (Nat.not_le.mpr hi), Bool.or_self]

theorem Dev.paramBad_gateEntry (hi : i < 4096) (hgood : d.gateEntryBad i w = false) : d.paramBad 0x0027 i w = false := by
  simp only [Dev.paramBad, paramCount, Dev.paramRange, hgood, decide_eq_false (within64 w), decide_eq_false (Nat.not_le.mpr hi),
    Bool.or_self]

/-! ### What some values do -/

/-- `gate_en` is not among the reserved bits of SWn.GATE_CTRL. -/
theorem gateEn_kept (v : U64) : bit (v &&& 3) 0 = bit v 0 := by
  simp [bit]

/-- SWn.GATE_CTRL with `gate_en` clear opens every class at once (R229, R230). -/
theorem Dev.paramApply_gateCtrl : d.paramApply 0x0025 i (v &&& 3) =
    (let e := d.setParam 0x0025 i (v &&& 3)
     if bit v 0 then e else ((e.settleWaits i).modPort i fun p => { p with gateOn := false }).settleWaits i) := by
  rw [← gateEn_kept v]
  rfl

/-- A pair that is enabled begins as STANDBY, UNSYNCED, with a full resync (R313). -/
theorem Dev.pairEnable_on (hoff : d.pair.enable = false) :
    d.pairEnable true = { d with pair := { d.pair with enable := true, role := .standby, sync := .unsynced, fullResync := true } } := by
  simp only [Dev.pairEnable, hoff, Bool.not_false, Bool.and_self, if_true, Dev.modPair]

/-- The present value of PAIR.ENABLE. -/
theorem Dev.paramOld_pairEnable {b : Bool} (henable : d.pair.enable = b) : d.paramOld 0x0060 0 = if b then 1 else 0 :=
  congrArg (fun x : Bool => if x then (1 : U64) else 0) henable

/-- A forced claim of a STANDBY device takes control (R327). -/
theorem Dev.paramApply_forceClaim (hrole : d.pair.role = .standby) :
    d.paramApply 0x0067 0 1 = d.takeControl .pairTakeover true .unsynced :=
  if_pos hrole

/-- A first request for Dome notes its time (R366). -/
theorem Dev.domeAsk_first (hnone : d.sys.domeReqAt = none) : d.domeAsk = { d with sys := { d.sys with domeReqAt := some d.now } } := by
  simp only [Dev.domeAsk, hnone, Option.isSome_none, Bool.false_eq_true, if_false]

end Params

/-- A command is accepted only while Dome is not requested (R366). -/
theorem domeReqAt_of_accepts {s : State} {h : CmdHdr} {src : Sources} {target : Option Nat} (ha : Accepts s h src target) :
    s.dev.sys.domeReqAt = none := by
  obtain ⟨-, -, hdome, -⟩ := ha
  exact hdome

/-- Settles O48: a value that is good and free is set by the parameter's own rule, whichever row brings it. -/
theorem paramCommands : Obligations.ParamCommands := by
  unfold Obligations.ParamCommands
  refine ⟨?set, ?format, ?held, ?police, ?gateCtrl, ?gateEntry, ?enable, ?disable, ?claim, ?dome⟩
  case set =>
    intro s h k i v w ha hbits hgood hfree
    exact huanikStep_of_accepts ha rfl (Dev.paramSet_good (d := { s.dev with out := [] }) hbits.symm hgood hfree)
  case format =>
    intro s h k i v ha hbad
    exact huanikStep_of_accepts ha rfl (Dev.paramSet_bad (d := { s.dev with out := [] }) hbad)
  case held =>
    intro s h k i v w ha hbits hgood hheld
    exact huanikStep_of_accepts ha rfl (Dev.paramSet_held (d := { s.dev with out := [] }) hbits.symm hgood hheld)
  case police =>
    intro s h i v w ha hi hbits hgood
    exact huanikStep_of_accepts ha rfl
      (Dev.paramSet_good (d := { s.dev with out := [] }) (k := 0x0024) hbits.symm (Dev.paramBad_police hi hgood) rfl)
  case gateCtrl =>
    intro s h i v ha hi
    have hset := Dev.paramSet_good (d := { s.dev with out := [] }) (k := 0x0025) (v := v) rfl (Dev.paramBad_gateCtrl hi) rfl
    rw [paramBits, Dev.paramApply_gateCtrl] at hset
    exact huanikStep_of_accepts ha rfl hset
  case gateEntry =>
    intro s h i v w ha hi hbits hgood hfree
    exact huanikStep_of_accepts ha rfl
      (Dev.paramSet_good (d := { s.dev with out := [] }) (k := 0x0027) hbits.symm (Dev.paramBad_gateEntry hi hgood) hfree)
  case enable =>
    intro s h ha hoff
    have hset := Dev.paramSet_good (d := { s.dev with out := [] }) (k := 0x0060) (i := 0) (v := 1) rfl rfl rfl
    rw [Dev.paramOld_pairEnable (d := { s.dev with out := [] }) hoff] at hset
    exact huanikStep_of_accepts ha rfl (hset.trans (congrArg (fun e : Dev => (Status.ok, [0], e)) (Dev.pairEnable_on hoff)))
  case disable =>
    intro s h ha hon
    have hset := Dev.paramSet_good (d := { s.dev with out := [] }) (k := 0x0060) (i := 0) (v := 0) rfl rfl rfl
    rw [Dev.paramOld_pairEnable (d := { s.dev with out := [] }) hon] at hset
    exact huanikStep_of_accepts ha rfl hset
  case claim =>
    rintro s h c ha hrole rfl
    have hset := Dev.paramSet_good (d := { s.dev with out := [] }) (k := 0x0067) (i := 0) (v := 1) rfl rfl rfl
    exact huanikStep_of_accepts ha rfl
      (hset.trans (congrArg (fun e : Dev => (Status.ok, [0], e)) (Dev.paramApply_forceClaim hrole)))
  case dome =>
    intro s h ha
    have hset := Dev.paramSet_good (d := { s.dev with out := [] }) (k := 0x0055) (i := 0) (v := 1) rfl rfl rfl
    exact huanikStep_of_accepts ha rfl
      (hset.trans (congrArg (fun e : Dev => (Status.ok, [0], e)) (Dev.domeAsk_first (domeReqAt_of_accepts ha))))

end Sys2Proof.Machine

/-! ## The CXL mailbox of a head, SPDM and IDE keys (R271 to R274, R306, Table 12.8) -/

namespace Sys2Proof.Machine

open Sys2Proof Sys2Proof.Safety

section Cxl

variable {s : State} {d : Dev} {h : Nat} {f g : Dev → Dev}

/-- A mailbox command of a head whose mailbox answers is run on the device without its earlier outputs (R306). -/
theorem devStep_cxlCmd (hup : MailboxUp s.dev h) (hrun : f { s.dev with out := [] } = g { s.dev with out := [] }) :
    devStep (fun d => d.cxlCmd h f) s = .next (s.onDev g) := by
  obtain ⟨hexists, hreset, hpower⟩ := hup
  have hopen : (s.dev.headExists h && s.dev.sys.resetN && !s.dev.sys.islandsOff) = true := by simp [hexists, hreset, hpower]
  exact devStep_of_eq ((if_pos hopen).trans hrun)

/-- The log of a number that Table 12.8's logs have: the command effects log, or the correction log of every unit. -/
theorem Dev.cxlLog_of_words {k : Nat} {ws : List U64}
    (hlog : k = 0 ∧ ws = (cxlOpcodes h).map (fun x => BitVec.ofNat 64 x) ∨
      k = 1 ∧ ws = d.units.flatMap fun u => u.2.log.flatMap (logWords u.1)) : d.cxlLog h k = some ws := by
  rcases hlog with ⟨rfl, rfl⟩ | ⟨rfl, rfl⟩ <;> rfl

/-- Heads 0 and 2 carry the firmware commands (Table 12.8). -/
theorem fwHead_of_eq (hh : h = 0 ∨ h = 2) : fwHead h = true := by
  rcases hh with rfl | rfl <;> rfl

/-- A first chunk of Transfer FW is FW_DOWNLOAD of it. -/
theorem Dev.transferFw_first {xs : List Byte} (hh : h = 0 ∨ h = 2) (hstage : d.sys.stage = .running) (v : Bool)
    (hok : (d.fwDownload 0 xs).1 = .ok) : d.transferFw h 0 xs true false v = Dev.mboxResult (d.fwDownload 0 xs) h := by
  simp [Dev.transferFw, fwHead_of_eq hh, hstage, hok]

/-- Activate FW, offline, of the slot of the standing record is FW_ACTIVATE. -/
theorem exec_activateFw_offline {r : FwRecord} (hup : MailboxUp s.dev h) (hh : h = 0 ∨ h = 2) (hstage : s.dev.sys.stage = .running)
    (hlast : s.dev.sys.journal.getLast? = some r) :
    exec (.activateFw h (1 + r.slotB.toNat) false) s = .next (s.onDev fun d => Dev.mboxResult d.fwActivate h) := by
  refine devStep_cxlCmd hup ?_
  simp [fwHead_of_eq hh, hstage, Sys.standing, hlast]

/-! ### SPDM (R272 to R274) -/

/-- SEC answers a request that a path brings, once the boot ROM runs and outside Dome (R272, R367). -/
theorem exec_spdmRequest {p : SpdmPath} {r : SpdmReq} (hdome : s.dev.sys.inDome = false) (hreset : s.dev.sys.resetN = true)
    (hpower : s.dev.sys.islandsOff = false) (hpath : s.dev.spdmPath p = true) :
    exec (.spdmRequest p r) s = .next (s.onDev fun d => d.spdm p r) := by
  have hanswers : ¬ (s.dev.sys.inDome = true ∧ p = .sideband) := by simp [hdome]
  have hopen : (s.dev.sys.resetN && !s.dev.sys.islandsOff && s.dev.spdmPath p) = true := by simp [hreset, hpower, hpath]
  exact devStep_of_eq ((if_neg hanswers).trans (if_pos hopen))

/-- A measurement block that is reported is answered with its content, signed (R274). -/
theorem Dev.spdm_measurement {i : Nat} (p : SpdmPath) (hlife : d.sys.lifeCycle ≠ .retired) (hi : measured i = true) :
    d.spdm p (.getMeasurement i) = { d with free := d.free + 1 }.emit (.spdm p ([0x60, i, tgetD d.sys.measCounts i 0 % 4294967296] ++
      d.measurement i ++ [(Config.freeWord d.free).toNat])) :=
  (if_neg hlife).trans (if_pos hi)

/-- A RETIRED device answers GET_VERSION alone (R278). -/
theorem Dev.spdm_retired {r : SpdmReq} (p : SpdmPath) (hlife : d.sys.lifeCycle = .retired) (hr : r ≠ .getVersion) :
    d.spdm p r = d.emit (.spdmError p) := by
  cases r
  case getVersion => exact absurd rfl hr
  all_goals exact if_pos hlife

end Cxl

/-- Settles O51: each clause is the command's own equation on the device without its earlier outputs, which a mailbox that answers, or
SEC, runs. -/
theorem cxlMailboxCommands : Obligations.CxlMailboxCommands := by
  unfold Obligations.CxlMailboxCommands
  refine ⟨?identify, ?records, ?clear, ?policy, ?setPolicy, ?fwInfo, ?transfer, ?activate, ?timestamp, ?setTimestamp, ?logs, ?log,
    ?memory, ?health, ?alert, ?setAlert, ?poison, ?dcConfig, ?dcExtents, ?unsupported, ?version, ?measurement, ?retired, ?keyProg⟩
  case identify | policy | setPolicy | fwInfo | timestamp | setTimestamp | health | alert | setAlert | dcConfig =>
    intros
    exact devStep_cxlCmd ‹MailboxUp _ _› rfl
  case records =>
    rintro s h n xs hup hn rfl
    exact devStep_cxlCmd hup (if_neg (Nat.not_le.mpr hn))
  case clear =>
    intro s h n hup hn
    refine devStep_cxlCmd hup ?_
    simp only [Bool.not_true, Bool.false_and, Bool.or_false, decide_eq_true_eq, if_neg (Nat.not_le.mpr hn)]
    rfl
  case transfer =>
    intro s h xs hup hh hstage htrial hidle hlen
    have hdone := Dev.fwDownload_first (d := { s.dev with out := [] }) htrial hidle hlen
    refine devStep_cxlCmd hup ((Dev.transferFw_first (d := { s.dev with out := [] }) hh hstage true (by rw [hdone])).trans ?_)
    rw [hdone]
    rfl
  case activate =>
    rintro s h n r hup hh hstage hlast hverified rfl
    refine (exec_activateFw_offline hup hh hstage hlast).trans (congrArg Host.Outcome.next ?_)
    rw [State.onDev, Dev.fwActivate_verified (d := { s.dev with out := [] }) hlast hverified]
    rfl
  case logs =>
    intro s h hup
    refine devStep_cxlCmd hup ?_
    simp only [List.flatMap_cons, List.flatMap_nil, Dev.cxlLog, Option.getD_some, List.length_map]
    rfl
  case log =>
    intro s h k off len ws hup hlog hoff hlen hend
    refine devStep_cxlCmd hup ?_
    simp only [Dev.cxlLog_of_words (d := { s.dev with out := [] }) hlog, if_pos (And.intro hoff (And.intro hlen hend))]
    rfl
  case memory =>
    rintro s h n hup rfl
    exact devStep_cxlCmd hup rfl
  case poison =>
    rintro s h ps hup rfl
    exact devStep_cxlCmd hup rfl
  case dcExtents =>
    rintro s h xs g hup rfl rfl
    exact devStep_cxlCmd hup rfl
  case unsupported =>
    intro s h n hup hother
    exact devStep_cxlCmd hup (if_pos (by rw [hother]; rfl))
  case version =>
    intro s p hdome hreset hpower hpath
    exact exec_spdmRequest hdome hreset hpower hpath
  case measurement =>
    intro s p i hdome hreset hpower hpath hlife hi
    refine (exec_spdmRequest hdome hreset hpower hpath).trans (congrArg Host.Outcome.next ?_)
    rw [State.onDev, Dev.spdm_measurement (d := { s.dev with out := [] }) p hlife hi]
    rfl
  case retired =>
    intro s p r hdome hreset hpower hpath hlife hr
    refine (exec_spdmRequest hdome hreset hpower hpath).trans (congrArg Host.Outcome.next ?_)
    rw [State.onDev, Dev.spdm_retired (d := { s.dev with out := [] }) p hlife hr]
    rfl
  case keyProg =>
    intro s h k n hup hk hn hlife
    exact devStep_cxlCmd hup (if_pos (by simp [hk, hn, hlife]))

end Sys2Proof.Machine

/-! ## Heartbeats and paths of a pair (R320 to R322, R325, R330 to R332) -/

namespace Sys2Proof.Machine

open Sys2Proof Sys2Proof.Safety

section Keys

variable {d : Dev} {claim id : U64} {hb : Heartbeat}

/-! ### Keys (R314, R325) -/

/-- A key of a lower claim is the lower key, whatever the identifiers. -/
theorem key_lt_of_claim {a b i j : U64} (h : a.toNat < b.toNat) :
    a.toNat * 18446744073709551616 + i.toNat < b.toNat * 18446744073709551616 + j.toNat := by
  have hi := i.isLt
  omega

/-- A key below the device's own and the seen one changes nothing. -/
theorem Dev.checkKey_lower (hown : claim.toNat < d.pair.claim.toNat) (hseen : claim.toNat < d.pair.seenClaim.toNat) :
    d.checkKey claim id = d := by
  have hbelow : ¬ d.ownKey < claim.toNat * 18446744073709551616 + id.toNat := (key_lt_of_claim hown).le.not_gt
  have hknown : ¬ d.seenKey < claim.toNat * 18446744073709551616 + id.toNat := (key_lt_of_claim hseen).le.not_gt
  simp only [Dev.checkKey, Dev.seeKey, hbelow, hknown, decide_false, Bool.false_eq_true, if_false]

/-! ### What a heartbeat asks for (R326, R329) -/

/-- An ACTIVE device follows no one's `sync`. -/
theorem Dev.followSync_active (hrole : d.pair.role = .active) : d.followSync hb = d := by
  simp only [Dev.followSync, hrole, reduceCtorEq, false_and, if_false]

/-- An ACTIVE device that is not asked for control keeps it. -/
theorem Dev.followReturn_active (hrole : d.pair.role = .active) (hpref : hb.preferred ≠ d.sys.straps.pairPref)
    (hask : hb.returnRequest = false) : d.followReturn hb = d := by
  simp only [Dev.followReturn, if_neg hpref, hrole, hask, reduceCtorEq, Bool.false_eq_true, false_and, and_false, if_false]

end Keys

/-! ### Demotion leaves what was seen (R325) -/

section Demotion

variable {d : Dev} {claim id : U64} {hb : Heartbeat}

/-- What a device's part in its pair rests on, and what the completion of its clients leaves: its role, its key, the seen key, the
partner's record, the straps, and whether anything must be waited for. -/
structure PairView where
  role : Role
  claim : U64
  seenClaim : U64
  seenId : U64
  partner : Option Heartbeat
  straps : Straps
  again : Bool
  winDone : List (Nat × Nat)

/-- The device's part in its pair. -/
def Dev.pairView (d : Dev) : PairView where
  role := d.pair.role
  claim := d.pair.claim
  seenClaim := d.pair.seenClaim
  seenId := d.pair.seenId
  partner := d.pair.partner
  straps := d.sys.straps
  again := d.again
  winDone := d.winDone

@[simp] theorem Dev.raise_straps (e : Event) : (d.raise e).sys.straps = d.sys.straps := by
  unfold Dev.raise
  cases e.part <;> simp only [] <;> split <;> simp

theorem Dev.pairView_emit (o : Output) : (d.emit o).pairView = d.pairView := rfl

theorem Dev.pairView_bump (c : Ctr) (k : Nat) : (d.bump c k).pairView = d.pairView := rfl

theorem Dev.pairView_modHead (n : Nat) (f : Head → Head) : (d.modHead n f).pairView = d.pairView := rfl

theorem Dev.pairView_raise (e : Event) : (d.raise e).pairView = d.pairView := by
  simp only [Dev.pairView, Dev.raise_frame, Dev.raise_straps]

theorem Dev.pairView_stamp (p : Packet) : (d.stamp p).2.pairView = d.pairView := by
  unfold Dev.stamp
  split <;> rfl

theorem Dev.pairView_enqueue (n : Nat) (p : Packet) : (d.enqueue n p).pairView = d.pairView := by
  unfold Dev.enqueue
  dsimp only
  split <;> simp only [Dev.pairView, Dev.emit_frame, Dev.settleWait_frame, Dev.modPort_frame]

theorem Dev.pairView_originate (p : Packet) (request : Bool) : (d.originate p request).2.pairView = d.pairView := by
  have hgo : ∀ (n : Nat) (q : Packet), ((d.stamp q).2.enqueue n (d.stamp q).1).pairView = d.pairView := fun n q => by
    rw [Dev.pairView_enqueue, Dev.pairView_stamp]
  unfold Dev.originate
  split
  · split
    · split <;> rfl
    · split
      · exact hgo _ _
      · rfl
  · split
    · rfl
    · split
      · rfl
      · split
        · exact hgo _ _
        · rfl

theorem Dev.pairView_reply (p : Packet) (st : Status) (data : List Line) : (d.reply p st data).pairView = d.pairView := by
  unfold Dev.reply
  split
  · rfl
  · exact Dev.pairView_originate _ _

theorem Dev.pairView_cxlRefuse (h : Nat) (st : Status) (read : Bool) (line : Nat) (part : Option Nat) :
    (d.cxlRefuse h st read line part).pairView = d.pairView := by
  simp only [Dev.cxlRefuse, apply_ite Dev.pairView, Dev.pairView_emit, Dev.pairView_raise, Dev.pairView_modHead, Dev.pairView_bump,
    ite_self]

theorem Dev.pairView_mirrorClient (c : WinReq) (st : Status) : (d.mirrorClient c st).pairView = d.pairView := by
  unfold Dev.mirrorClient
  split
  · split
    · split <;> rfl
    · rfl
  · exact Dev.pairView_reply _ _ _
  · split
    · rfl
    · exact Dev.pairView_cxlRefuse _ _ _ _ _
  · rfl

theorem Dev.pairView_tryHandoff : d.tryHandoff.pairView = d.pairView := by
  unfold Dev.tryHandoff
  split <;> rfl

theorem Dev.pairView_endClient (c : WinReq) (st : Status) : (d.endClient c st).pairView = d.pairView := by
  rw [Dev.endClient, Dev.pairView_tryHandoff, Dev.pairView_mirrorClient]
  rfl

theorem Dev.pairView_dropFailed : d.dropFailed.pairView = d.pairView :=
  foldl_keeps Dev.pairView (fun e c => e.pairView_endClient c .fenced) _ d

/-- An ACTIVE device that meets a key above its own is a STANDBY, and has seen that key. -/
theorem Dev.pairView_checkKey_higher (hrole : d.pairView.role = .active) (hown : d.pairView.claim.toNat < claim.toNat)
    (hseen : d.pairView.seenClaim.toNat < claim.toNat) :
    (d.checkKey claim id).pairView = { d.pairView with role := .standby, seenClaim := claim, seenId := id } := by
  have habove : d.ownKey < claim.toNat * 18446744073709551616 + id.toNat := key_lt_of_claim hown
  have hnew : d.seenKey < claim.toNat * 18446744073709551616 + id.toNat := key_lt_of_claim hseen
  have hrole' : d.pair.role = .active := hrole
  simp only [Dev.checkKey, Dev.seeKey, Dev.demote, Dev.modPair, habove, hnew, hrole', decide_true, if_true, Dev.pairView_dropFailed,
    Dev.pairView_raise]
  rfl

/-- Following the active's `sync` leaves the device's part in its pair. -/
theorem Dev.pairView_followSync : (d.followSync hb).pairView = d.pairView := by
  unfold Dev.followSync
  split
  · dsimp only
    split
    · rw [Dev.pairView_raise]
      rfl
    · rfl
  · rfl

/-- The key that a STANDBY has seen changes nothing. -/
theorem Dev.checkKey_seen (hrole : d.pairView.role = .standby) (hclaim : d.pairView.seenClaim = claim) (hid : d.pairView.seenId = id) :
    d.checkKey claim id = d := by
  subst hclaim hid
  have hrole' : d.pair.role = .standby := hrole
  have hknown : ¬ d.seenKey < d.pairView.seenClaim.toNat * 18446744073709551616 + d.pairView.seenId.toNat := lt_irrefl d.seenKey
  simp only [Dev.checkKey, Dev.seeKey, Dev.demote, hknown, hrole', reduceCtorEq, if_false, ite_self]

/-- A STANDBY that is not offered control stays one. -/
theorem Dev.followReturn_standby (hrole : d.pairView.role = .standby) (hpref : hb.preferred ≠ d.pairView.straps.pairPref)
    (hoffer : hb.handoffReady = false) : d.followReturn hb = d := by
  have hrole' : d.pair.role = .standby := hrole
  have hpref' : hb.preferred ≠ d.sys.straps.pairPref := hpref
  simp only [Dev.followReturn, if_neg hpref', hrole', hoffer, reduceCtorEq, Bool.false_eq_true, false_and, and_false, if_false]

/-- What a device's part in its pair says of it. -/
theorem Dev.pair_of_view {v : PairView} (h : d.pairView = v) :
    d.pair.role = v.role ∧ d.pair.seenClaim = v.seenClaim ∧ d.pair.seenId = v.seenId ∧ d.pair.partner = v.partner ∧
      d.again = v.again ∧ d.winDone = v.winDone := by
  subst h
  exact ⟨rfl, rfl, rfl, rfl, rfl, rfl⟩

end Demotion

/-! ### Heartbeats that arrive (R321, R330) -/

section Heard

variable {s : State} {d : Dev} {ring : Bool} {hb : Heartbeat} {n : Nat} {p : Packet} {x : FlowRx}

/-- A path of the pair: the ring, or the fabric. -/
def Dev.path (d : Dev) (ring : Bool) : Path := if ring then d.pair.ring else d.pair.fabric

/-- The device that has heard a heartbeat of the partner on a path, and keeps its record (R321). -/
def Dev.heard (d : Dev) (ring : Bool) (hb : Heartbeat) : Dev :=
  let path' := { d.path ring with seen := true, lastSeq := some hb.hbSeq }
  d.modPair fun p => if ring then { p with ring := path', partner := some hb } else { p with fabric := path', partner := some hb }

/-- A heartbeat is the partner's, on an enabled pair, and newer than the last of its path. -/
structure Fresh (d : Dev) (ring : Bool) (hb : Heartbeat) : Prop where
  enable : d.pair.enable = true
  partner : hb.deviceId = d.pair.partnerId
  newer : ∀ q, (d.path ring).lastSeq = some q → q.toNat < hb.hbSeq.toNat

/-- Both claims of a heartbeat are below both of the device's. -/
structure Lower (d : Dev) (hb : Heartbeat) : Prop where
  claimOwn : hb.claim.toNat < d.pair.claim.toNat
  claimSeen : hb.claim.toNat < d.pair.seenClaim.toNat
  seenOwn : hb.seenClaim.toNat < d.pair.claim.toNat
  seenSeen : hb.seenClaim.toNat < d.pair.seenClaim.toNat

theorem Fresh.congr {e : Dev} (h : Fresh d ring hb) (hpair : e.pair = d.pair) : Fresh e ring hb := by
  obtain ⟨henable, hpartner, hnewer⟩ := h
  have hpath : e.path ring = d.path ring := by rw [Dev.path, Dev.path, hpair]
  exact ⟨hpair ▸ henable, hpair ▸ hpartner, hpath ▸ hnewer⟩

theorem Lower.congr {e : Dev} (h : Lower d hb) (hpair : e.pair = d.pair) : Lower e hb := by
  obtain ⟨hco, hcs, hso, hss⟩ := h
  exact ⟨hpair ▸ hco, hpair ▸ hcs, hpair ▸ hso, hpair ▸ hss⟩

/-- Hearing a heartbeat leaves the keys. -/
theorem Lower.heard (h : Lower d hb) : Lower (d.heard ring hb) hb := by
  obtain ⟨hco, hcs, hso, hss⟩ := h
  cases ring <;> exact ⟨hco, hcs, hso, hss⟩

theorem Dev.heard_role : (d.heard ring hb).pair.role = d.pair.role := by cases ring <;> rfl

theorem Dev.pairView_heard : (d.heard ring hb).pairView = { d.pairView with partner := some hb } := by
  cases ring <;> rfl

/-- A fresh heartbeat is heard; then its keys are checked, and what it asks for is done. -/
theorem Dev.takeHeartbeat_fresh (h : Fresh d ring hb) :
    d.takeHeartbeat ring hb =
      ((((d.heard ring hb).checkKey hb.claim hb.deviceId).checkKey hb.seenClaim hb.seenId).followSync hb).followReturn hb := by
  obtain ⟨henable, hpartner, hnewer⟩ := h
  have hfresh : (match (d.path ring).lastSeq with | some q => decide (q.toNat < hb.hbSeq.toNat) | none => true) = true := by
    cases hlast : (d.path ring).lastSeq with
    | none => rfl
    | some q => exact decide_eq_true (hnewer q hlast)
  exact if_pos (by rw [henable, hpartner, BEq.rfl]; exact hfresh)

/-- A heartbeat that is not newer than the last of its path is not used. -/
theorem Dev.takeHeartbeat_old {q : U32} (hlast : (d.path ring).lastSeq = some q) (hold : hb.hbSeq.toNat ≤ q.toNat) :
    d.takeHeartbeat ring hb = d := by
  have hstale : (match (d.path ring).lastSeq with | some q => decide (q.toNat < hb.hbSeq.toNat) | none => true) = false := by
    rw [hlast]
    exact decide_eq_false hold.not_gt
  exact if_neg (by rw [Bool.and_eq_true]; exact fun h => Bool.false_ne_true (hstale.symm.trans h.2))

/-- A fresh heartbeat of lower claims that asks an ACTIVE device for nothing is heard, and no more. -/
theorem Dev.takeHeartbeat_lower (h : Fresh d ring hb) (hlower : Lower d hb) (hrole : d.pair.role = .active)
    (hpref : hb.preferred ≠ d.sys.straps.pairPref) (hask : hb.returnRequest = false) : d.takeHeartbeat ring hb = d.heard ring hb := by
  obtain ⟨hco, hcs, hso, hss⟩ := hlower.heard (ring := ring)
  have hrole' := (Dev.heard_role (ring := ring) (hb := hb)).trans hrole
  rw [Dev.takeHeartbeat_fresh h, Dev.checkKey_lower hco hcs, Dev.checkKey_lower hso hss, Dev.followSync_active hrole',
    Dev.followReturn_active hrole' hpref hask]

/-- A fresh heartbeat of a claim above its own that offers no control makes an ACTIVE device a STANDBY that has seen that claim (R325). -/
theorem Dev.takeHeartbeat_higher (h : Fresh d ring hb) (hrole : d.pair.role = .active) (hown : d.pair.claim.toNat < hb.claim.toNat)
    (hseen : d.pair.seenClaim.toNat < hb.claim.toNat) (hclaim : hb.seenClaim = hb.claim) (hid : hb.seenId = hb.deviceId)
    (hpref : hb.preferred ≠ d.sys.straps.pairPref) (hoffer : hb.handoffReady = false) :
    (d.takeHeartbeat ring hb).pair.role = .standby ∧ (d.takeHeartbeat ring hb).pair.seenClaim = hb.claim ∧
      (d.takeHeartbeat ring hb).pair.seenId = hb.deviceId ∧ (d.takeHeartbeat ring hb).pair.partner = some hb ∧
      (d.takeHeartbeat ring hb).again = d.again ∧ (d.takeHeartbeat ring hb).winDone = d.winDone := by
  have hheard := Dev.pairView_heard (d := d) (ring := ring) (hb := hb)
  have hview := Dev.pairView_checkKey_higher (d := d.heard ring hb) (claim := hb.claim) (id := hb.deviceId)
    (by rw [hheard]; exact hrole) (by rw [hheard]; exact hown) (by rw [hheard]; exact hseen)
  rw [hheard] at hview
  generalize hchecked : (d.heard ring hb).checkKey hb.claim hb.deviceId = e at hview
  have hknown : e.checkKey hb.claim hb.deviceId = e :=
    Dev.checkKey_seen (by rw [hview]) (by rw [hview]) (by rw [hview])
  have hfollow := (Dev.pairView_followSync (d := e) (hb := hb)).trans hview
  have hstays : (e.followSync hb).followReturn hb = e.followSync hb :=
    Dev.followReturn_standby (by rw [hfollow]) (by rw [hfollow]; exact hpref) hoffer
  rw [Dev.takeHeartbeat_fresh h, hclaim, hid, hchecked, hknown, hstays]
  exact Dev.pair_of_view hfollow

/-! ### The rows of the two paths -/

theorem inOrder_pair (d : Dev) (n : Nat) (p : Packet) (x : FlowRx) : (inOrder d n p x).pair = d.pair :=
  (congrArg Dev.pair (arrived_frame d n p) :)

theorem inOrder_sys (d : Dev) (n : Nat) (p : Packet) (x : FlowRx) : (inOrder d n p x).sys = d.sys :=
  (congrArg Dev.sys (arrived_frame d n p) :)

theorem Dev.deliver_heartbeat (hkind : p.kind = .heartbeat) (hbody : hbOfLine (p.data.headD 0) = hb) :
    d.deliver n p = d.takeHeartbeat false hb := by
  simp only [Dev.deliver, Dev.deliverOne, hkind, hbody, reduceCtorEq, if_false]

/-- HEARTBEAT_RECEIVE takes the packets that carry the heartbeat named. -/
theorem isHeartbeat_of (hkind : p.kind = .heartbeat) (hbody : hbOfLine (p.data.headD 0) = hb) :
    (p.kind == .heartbeat && hbOfLine (p.data.headD 0) == hb) = true := by
  rw [hkind, hbody, BEq.rfl, BEq.rfl, Bool.and_self]

theorem Settled.heard (h : Settled d) : Settled (d.heard ring hb) := ⟨h.again, h.done, h.cur, h.stream⟩

/-- HEARTBEAT_RECEIVE of a fresh heartbeat of lower claims, by an ACTIVE device that it asks for nothing. -/
theorem exec_heartbeatReceive_lower (hkind : p.kind = .heartbeat) (hbody : hbOfLine (p.data.headD 0) = hb)
    (hnext : NextOfFlow s.dev n p x) (hfresh : Fresh s.dev false hb) (hlower : Lower s.dev hb) (hrole : s.dev.pair.role = .active)
    (hpref : hb.preferred ≠ s.dev.sys.straps.pairPref) (hask : hb.returnRequest = false) :
    exec (.heartbeatReceive n p hb) s = .next { s with dev := (inOrder s.dev n p x).heard false hb } := by
  have hpair := inOrder_pair s.dev n p x
  have hsys := inOrder_sys s.dev n p x
  have hfresh' : Fresh (inOrder s.dev n p x) false hb := hfresh.congr hpair
  have hlower' : Lower (inOrder s.dev n p x) hb := hlower.congr hpair
  rw [← hpair] at hrole
  rw [← hsys] at hpref
  exact devStep_packetRow_settled (isHeartbeat_of hkind hbody) hnext ((Dev.deliver_heartbeat hkind hbody).trans
    (Dev.takeHeartbeat_lower hfresh' hlower' hrole hpref hask)) (settled_inOrder _ _ _ _).heard

/-- HEARTBEAT_RECEIVE of a fresh heartbeat of a claim above its own, by an ACTIVE device that it offers no control. -/
theorem exec_heartbeatReceive_higher (hkind : p.kind = .heartbeat) (hbody : hbOfLine (p.data.headD 0) = hb)
    (hnext : NextOfFlow s.dev n p x) (hfresh : Fresh s.dev false hb) (hrole : s.dev.pair.role = .active)
    (hown : s.dev.pair.claim.toNat < hb.claim.toNat) (hseen : s.dev.pair.seenClaim.toNat < hb.claim.toNat)
    (hclaim : hb.seenClaim = hb.claim) (hid : hb.seenId = hb.deviceId) (hpref : hb.preferred ≠ s.dev.sys.straps.pairPref)
    (hoffer : hb.handoffReady = false) :
    ∃ t, exec (.heartbeatReceive n p hb) s = .next t ∧ t.dev.pair.role = .standby ∧ t.dev.pair.seenClaim = hb.claim ∧
      t.dev.pair.seenId = hb.deviceId ∧ t.dev.pair.partner = some hb := by
  have hpair := inOrder_pair s.dev n p x
  have hsys := inOrder_sys s.dev n p x
  have hsettled := settled_inOrder s.dev n p x
  have hfresh' : Fresh (inOrder s.dev n p x) false hb := hfresh.congr hpair
  rw [← hpair] at hrole hown hseen
  rw [← hsys] at hpref
  obtain ⟨hrole', hseen', hid', hpartner', hagain, hdone⟩ :=
    Dev.takeHeartbeat_higher hfresh' hrole hown hseen hclaim hid hpref hoffer
  exact ⟨_, devStep_packetRow_next (isHeartbeat_of hkind hbody) hnext (Dev.deliver_heartbeat hkind hbody)
    (hagain.trans hsettled.again) (hdone.trans hsettled.done), hrole', hseen', hid', hpartner'⟩

/-- A ring message of another device that has hops left is sent on, and taken where it is the partner's (R330). -/
theorem Dev.ringMessage_partner {k : Nat} (hring : d.sys.straps.mringEn = true) (hother : hb.deviceId ≠ Config.deviceId)
    (hpartner : hb.deviceId = d.pair.partnerId) (hk : k < 63) :
    d.ringMessage hb k true = (d.emit (.ringMsg hb (k + 1))).takeHeartbeat true hb := by
  simp only [Dev.ringMessage, hring, Bool.not_true, Bool.or_self, Bool.false_eq_true, if_false, if_neg hother,
    if_neg (Nat.not_le.mpr hk), if_pos hpartner]

/-- This device's own message, which others have passed on, shows the ring whole and not alone (R331). -/
theorem Dev.ringMessage_own {k : Nat} (hring : d.sys.straps.mringEn = true) (hk : 0 < k) :
    d.ringMessage { hb with deviceId := Config.deviceId } k true = ({ d with pair := { d.pair with
      ownReturn := some d.now, ringHops := k, ringWhole := true, brokenRaised := false, singleton := false } } : Dev).pairDecide := by
  have hothers : (k == 0) = false := beq_false_of_ne hk.ne'
  simp only [Dev.ringMessage, hring, Bool.not_true, Bool.or_self, Bool.false_eq_true, if_false, if_true, Dev.ownMessage, hothers, hk.ne',
    false_and, Dev.modPair]

end Heard

/-! ### Periods (R321, R322) -/

section Periods

variable {d : Dev} {p : Path} {now : Nat} {may : Bool}

/-- A good path that was heard stays good. -/
theorem Path.period_heard (hgood : p.failed = false) (hseen : p.seen = true) :
    p.period now may = { p with missed := 0, good := p.good + 1, seen := false } := by
  have hfew : ¬ 10 ≤ 0 := by omega
  simp only [Path.period, hgood, hseen, hfew, Bool.false_eq_true, if_false, if_true]

/-- The tenth silent period fails a path. -/
theorem Path.period_tenth (hgood : p.failed = false) (hsilent : p.seen = false) (hmissed : p.missed = 9) :
    p.period now may = { failed := true, missed := 10, good := 0, seen := false, lastSeq := none, failedAt := now } := by
  simp only [Path.period, hgood, hsilent, hmissed, Bool.false_eq_true, if_false, le_refl, if_true]

/-- A path that stays as it was is not reported. -/
theorem Dev.pathEvent_same {was is_ : Path} (k : U64) (h : was.failed = is_.failed) : d.pathEvent was is_ k = d := if_pos h

/-- A path that fails is reported. -/
theorem Dev.pathEvent_failed {was is_ : Path} (k : U64) (hwas : was.failed = false) (his : is_.failed = true) :
    d.pathEvent was is_ k = d.raise { code := .pairPathFailed, detail0 := some k } := by
  simp only [Dev.pathEvent, hwas, his, Bool.false_eq_true, if_false, if_true]

/-- Two good paths, of a pair that is not SPLIT, end a discrepancy that had begun (Table 13.5). -/
theorem Dev.pairDecide_good (henable : d.pair.enable = true) (hfabric : d.pair.fabric.failed = false) (hring : d.pair.ring.failed = false)
    (hsplit : d.pair.split = false) :
    d.pairDecide = { d with pair := { d.pair with isolated := false, bothFailedAt := none, disagreeSince := none } } := by
  simp only [Dev.pairDecide, henable, hfabric, hring, hsplit, Bool.not_true, Bool.or_self, Bool.and_self, Bool.false_and, bne_self_eq_false,
    Bool.false_eq_true, if_false, Dev.modPair]

/-- One failed path begins a discrepancy, or goes on with it; it breaks no resync off where none runs (Table 13.5). -/
theorem Dev.pairDecide_fabricFailed (henable : d.pair.enable = true) (hfabric : d.pair.fabric.failed = true)
    (hring : d.pair.ring.failed = false) (hsync : d.pair.sync = .synced) :
    d.pairDecide = { d with pair := { d.pair with
      isolated := false, bothFailedAt := none
      disagreeSince := if d.pair.disagreeSince.isSome then d.pair.disagreeSince else some d.now } } := by
  have hkept : (Sync.synced == Sync.resync) = false := rfl
  simp only [Dev.pairDecide, henable, hfabric, hring, hsync, hkept, Bool.not_true, Bool.and_false, Bool.false_eq_true, if_false, if_true,
    Bool.true_bne, Bool.not_false, Dev.modPair]

/-- A period in which both paths, which are good, were heard. -/
theorem Dev.heartbeatPeriod_heard (henable : d.pair.enable = true) (hfabric : d.pair.fabric.failed = false)
    (hring : d.pair.ring.failed = false) (hseenF : d.pair.fabric.seen = true) (hseenR : d.pair.ring.seen = true)
    (hsplit : d.pair.split = false) :
    d.heartbeatPeriod = { d with pair := { d.pair with
      fabric := { d.pair.fabric with missed := 0, good := d.pair.fabric.good + 1, seen := false }
      ring := { d.pair.ring with missed := 0, good := d.pair.ring.good + 1, seen := false }
      isolated := false, bothFailedAt := none, disagreeSince := none } } := by
  simp only [Dev.heartbeatPeriod, henable, if_true, Path.period_heard hfabric hseenF, Path.period_heard hring hseenR]
  rw [Dev.pathEvent_same, Dev.pathEvent_same]
  · simp only [hfabric, Bool.false_and, Bool.false_eq_true, if_false]
    rw [Dev.pairDecide_good] <;> simp only [Dev.modPair, henable, hring, hsplit]
  · rfl
  · rfl

/-- The tenth period in which the fabric alone was silent, of a pair that is SYNCED. -/
theorem Dev.heartbeatPeriod_tenth (henable : d.pair.enable = true) (hfabric : d.pair.fabric.failed = false)
    (hring : d.pair.ring.failed = false) (hsilent : d.pair.fabric.seen = false) (hmissed : d.pair.fabric.missed = 9)
    (hseen : d.pair.ring.seen = true) (hsync : d.pair.sync = .synced) :
    d.heartbeatPeriod =
      (let e : Dev := { d with pair := { d.pair with
        fabric := { failed := true, missed := 10, good := 0, seen := false, lastSeq := none, failedAt := d.now }
        ring := { d.pair.ring with missed := 0, good := d.pair.ring.good + 1, seen := false } } }
      let f := e.raise { code := .pairPathFailed, detail0 := some 0 }
      { f with pair := { f.pair with
          isolated := false, bothFailedAt := none
          disagreeSince := if d.pair.disagreeSince.isSome then d.pair.disagreeSince else some d.now } }) := by
  simp only [Dev.heartbeatPeriod, henable, if_true, Path.period_tenth hfabric hsilent hmissed, Path.period_heard hring hseen]
  rw [Dev.pathEvent_failed 0 hfabric rfl, Dev.pathEvent_same]
  · simp only [hring, Bool.and_false, Bool.false_and, Bool.false_eq_true, if_false]
    rw [Dev.pairDecide_fabricFailed] <;> simp only [Dev.raise_frame, Dev.modPair, henable, hsync]
  · rfl

/-- DISCREPANCY_TIMER of a pair whose paths disagree: it is SPLIT (R322). -/
theorem exec_discrepancyTimer {s : State} {t : Nat} (hsince : s.dev.pair.disagreeSince = some t) (hsplit : s.dev.pair.split = false) :
    exec .discrepancyTimer s = .next (s.onDev fun d =>
      ((d.reach (t + d.pair.discMs * 1000000)).modPair fun p => { p with split := true }).raise
        { code := .pairSplit, detail0 := some (if d.pair.fabric.failed then 0 else 1)
          detail1 := some (BitVec.ofNat 64 (((d.reach (t + d.pair.discMs * 1000000)).now - t) / 1000000)) }) := by
  refine devStep_of_eq ?_
  simp only [hsince, hsplit, Bool.false_eq_true, if_false]

end Periods

/-- Settles O52: a heartbeat's row is what its path takes of it, a period's is what becomes of each path, and each timer's is its
equation. -/
theorem pairPaths : Obligations.PairPaths := by
  unfold Obligations.PairPaths
  refine ⟨?send, ?lower, ?higher, ?badCrc, ?oldOnRing, ?lowerOnRing, ?hops, ?own, ?heard, ?tenth, ?split, ?unwhole, ?broken, ?lockLoss,
    ?lockGain⟩
  case send =>
    intro s hbeats
    exact devStep_of_end (if_pos hbeats)
  case lower =>
    intro s n p x hb hkind hbody hnext henable hpartner hnewer hco hcs hso hss hrole hpref hask
    exact exec_heartbeatReceive_lower hkind hbody hnext ⟨henable, hpartner, hnewer⟩ ⟨hco, hcs, hso, hss⟩ hrole hpref hask
  case higher =>
    intro s n p x hb hkind hbody hnext henable hpartner hnone hown hseen hclaim hid hrole hpref hoffer
    have hnewer : ∀ q, s.dev.pair.fabric.lastSeq = some q → q.toNat < hb.hbSeq.toNat := fun q hq =>
      absurd (hq.symm.trans hnone) (Option.some_ne_none q)
    exact exec_heartbeatReceive_higher hkind hbody hnext ⟨henable, hpartner, hnewer⟩ hrole hown hseen hclaim hid hpref hoffer
  case badCrc =>
    intro s hb k
    rfl
  case oldOnRing =>
    rintro s hb k hring hother hpartner hk henable ⟨q, hlast, hold⟩
    exact devStep_of_end ((Dev.ringMessage_partner (d := { s.dev with out := [] }) hring hother hpartner hk).trans
      (Dev.takeHeartbeat_old hlast hold))
  case lowerOnRing =>
    intro s hb k hring hother hpartner hk henable hnewer hco hcs hso hss hrole hpref hask
    exact devStep_of_end ((Dev.ringMessage_partner (d := { s.dev with out := [] }) hring hother hpartner hk).trans
      (Dev.takeHeartbeat_lower ⟨henable, hpartner, hnewer⟩ ⟨hco, hcs, hso, hss⟩ hrole hpref hask))
  case hops =>
    intro s hb k hring hother hk
    refine devStep_of_eq ?_
    simp only [Dev.ringMessage, hring, Bool.not_true, Bool.or_self, Bool.false_eq_true, if_false, if_neg hother, if_pos hk]
  case own =>
    intro s hb k hring hk
    exact devStep_of_end (Dev.ringMessage_own (d := { s.dev with out := [] }) hring hk)
  case heard =>
    intro s hlive henable hfabric hring hseenF hseenR hsplit
    exact liveStep_of_live hlive
      (Dev.heartbeatPeriod_heard (d := { s.dev with out := [] }) henable hfabric hring hseenF hseenR hsplit)
  case tenth =>
    intro s hlive henable hfabric hring hsilent hmissed hseen hsync
    exact liveStep_of_live hlive
      (Dev.heartbeatPeriod_tenth (d := { s.dev with out := [] }) henable hfabric hring hsilent hmissed hseen hsync)
  case split =>
    intro s t hsince hsplit
    exact exec_discrepancyTimer hsince hsplit
  case unwhole =>
    intro s hwhole
    exact devStep_of_end (if_pos hwhole)
  case broken =>
    intro s hwhole hraised
    exact devStep_of_end ((if_neg (ne_true_of_eq_false hwhole)).trans (if_neg (ne_true_of_eq_false hraised)))
  case lockLoss =>
    intro s
    rfl
  case lockGain =>
    intro s hring
    exact devStep_of_end (if_pos hring)

end Sys2Proof.Machine

/-! ## Takeover, resync and return of a pair (R323, R324, R328, R329) -/

namespace Sys2Proof.Machine

open Sys2Proof Sys2Proof.Safety

section PairControl

variable {s : State} {d : Dev} {r : Resync} {e pg : Nat}

/-! ### The active serves alone (R324) -/

/-- An active that holds no write serves alone at once. -/
theorem Dev.serveAlone_none (hnone : d.pair.mirrors = []) :
    d.serveAlone = { d with pair := { d.pair with alone := true, sync := .unsynced, holdSince := none } } := by
  simp only [Dev.serveAlone, hnone, List.filter_nil, List.map_nil, List.foldl_nil, List.dedup_nil, Dev.modPair]

/-- The one write that an active holds, whose mirror failed, is marked in its page, and its client's write is complete. -/
theorem Dev.serveAlone_one {m : MirrorWrite} (hone : d.pair.mirrors = [m]) (hfailed : m.failed = true)
    (hnew : d.pair.pendingPages.contains (m.region, m.offset / pageBytes) = false) :
    d.serveAlone = ({ d with pair := { d.pair with
      alone := true, sync := .unsynced, holdSince := none, mirrors := []
      pendingPages := d.pair.pendingPages ++ [(m.region, m.offset / pageBytes)] } } : Dev).mirrorClient m.client .ok := by
  have hdone : [m].filter (fun x => x.failed) = [m] := by rw [List.filter_singleton, hfailed]; rfl
  have hleft : [m].filter (fun x => !x.failed) = [] := by rw [List.filter_singleton, hfailed]; rfl
  simp only [Dev.serveAlone, Dev.modPair, hone, hdone, hleft, List.map_cons, List.map_nil, List.foldl_cons, List.foldl_nil,
    List.dedup_cons_of_notMem List.not_mem_nil, List.dedup_nil, Dev.markPage, hnew, List.any_nil, Bool.false_eq_true, if_false]

/-- MIRROR_HOLD_END of an active that holds writes: it waits no longer than `disc_ms`. -/
theorem exec_mirrorHoldEnd {t : Nat} (hhold : s.dev.pair.holdSince = some t) :
    exec .mirrorHoldEnd s = .next (s.onDev fun d => (d.reach (t + d.pair.discMs * 1000000)).serveAlone) := by
  refine devStep_of_eq ?_
  simp only [hhold]

/-! ### Resync (R328) -/

/-- Where no page is left, the resync is done. -/
theorem Dev.resyncNext_done (hdone : r.todo = []) : d.resyncNext r = d.resyncDone r := by
  simp only [Dev.resyncNext, hdone]

/-- The first page left is sent. -/
theorem Dev.resyncNext_page {l : List (Nat × Nat)} (hnext : r.todo = (e, pg) :: l) :
    d.resyncNext r = ({ d with pair := { d.pair with resync := some r } } : Dev).sendPage e pg := by
  simp only [Dev.resyncNext, hnext, Dev.modPair]

/-- RESYNC_START, where a resync may start: it is reported, and copies the first page of its plan. -/
theorem exec_resyncStart (hready : s.dev.resyncReady = true) (hplan : s.dev.resyncPlan = r) :
    exec .resyncStart s = .next (s.onDev fun d =>
      (({ d with pair := { d.pair with sync := .resync, alone := false, resync := some r } } : Dev).raise
        { code := .pairResyncStart, detail0 := some (BitVec.ofNat 64 r.total)
          detail1 := some (if r.full then 1 else 0) }).resyncNext r) := by
  subst hplan
  exact devStep_of_end (if_pos hready)

/-- RESYNC_PAGE_DONE, once every write of the page is acknowledged: its mark goes, and the resync copies the next page. -/
theorem exec_resyncPageDone {l : List (Nat × Nat)} (hresync : s.dev.pair.resync = some r) (hsync : s.dev.pair.sync = .resync)
    (hacked : s.dev.rt.reqs.all (fun q => q.purpose != .resync) = true) (htodo : r.todo = (e, pg) :: l) :
    exec .resyncPageDone s = .next (s.onDev fun d =>
      ({ d with pair := { d.pair with
        pendingPages := d.pair.pendingPages.filter fun x => x != ((tgetD d.pair.entries e {}).region, pg) } } : Dev).resyncNext
          { r with todo := l }) := by
  refine devStep_of_eq ?_
  simp only [hresync, htodo, if_pos (And.intro hsync hacked), Dev.modPair]

/-! ### Takeover and return (R323, R329) -/

/-- PAIR_TAKEOVER of a STANDBY that has waited since both paths failed, and has no good copy: it reports that, and stays. -/
theorem exec_pairTakeover_unsynced {t : Nat} (hfailed : s.dev.pair.bothFailedAt = some t) (henable : s.dev.pair.enable = true)
    (hrole : s.dev.pair.role = .standby) (hsync : s.dev.pair.sync ≠ .synced) :
    exec .pairTakeover s = .next (s.onDev fun d =>
      ((d.reach (t + 2000000)).modPair fun p => { p with bothFailedAt := none }).raise
        { code := .pairNoTakeover, detail0 := some (BitVec.ofNat 64 (syncCode d.pair.sync))
          detail1 := some (if d.sys.straps.mringEn then 1 else 0) }) := by
  refine devStep_of_eq ?_
  simp only [hfailed, if_pos (And.intro henable hrole), if_pos hsync]

/-- PAIR_TAKEOVER of one with a good copy, on a whole ring with others: it takes control. -/
theorem exec_pairTakeover_synced {t : Nat} (hfailed : s.dev.pair.bothFailedAt = some t) (henable : s.dev.pair.enable = true)
    (hrole : s.dev.pair.role = .standby) (hsync : s.dev.pair.sync = .synced) (hring : s.dev.sys.straps.mringEn = true)
    (hwhole : s.dev.pair.ringWhole = true) (hothers : s.dev.pair.singleton = false) :
    exec .pairTakeover s = .next (s.onDev fun d =>
      ((d.reach (t + 2000000)).modPair fun p => { p with bothFailedAt := none }).takeControl .pairTakeover false .unsynced) := by
  refine devStep_of_eq ?_
  simp only [hfailed, if_pos (And.intro henable hrole), if_neg (not_not.mpr hsync), hring, hwhole, hothers, Bool.not_false, Bool.and_self,
    if_true]

/-- RETURN_RETRY, where control may be asked for again: it is. -/
theorem exec_returnRetry {t : Nat} (hretry : s.dev.pair.retryAt = some t) (hmay : s.dev.mayReturn = true) :
    exec .returnRetry s = .next (s.onDev fun d => ((d.reach t).modPair fun p => { p with retryAt := none }).askReturn) := by
  refine devStep_of_eq ?_
  simp only [hretry]
  exact if_pos hmay

end PairControl

/-- Settles O53: each clause is its row's equation; the active serves alone with no write held, or with the one whose mirror failed. -/
theorem pairControl : Obligations.PairControl := by
  unfold Obligations.PairControl
  refine ⟨?noTakeover, ?takeover, ?holdEnd, ?holdEndWrite, ?resyncEmpty, ?resyncPages, ?lastPage, ?nextPage, ?request, ?timeout, ?retry,
    ?handoff⟩
  case noTakeover =>
    intro s t hfailed henable hrole hsync
    exact exec_pairTakeover_unsynced hfailed henable hrole hsync
  case takeover =>
    rintro s t c hfailed henable hrole hsync hring hwhole hothers rfl
    exact exec_pairTakeover_synced hfailed henable hrole hsync hring hwhole hothers
  case holdEnd =>
    intro s t hhold hnone
    exact (exec_mirrorHoldEnd hhold).trans (devStep_of_eq (Dev.serveAlone_none (d := ({ s.dev with out := [] } : Dev).reach _) hnone))
  case holdEndWrite =>
    intro s t h y en m hhold hone hfailed hclient hnew
    refine (exec_mirrorHoldEnd hhold).trans (devStep_of_eq 
      ((Dev.serveAlone_one (d := ({ s.dev with out := [] } : Dev).reach _) hone hfailed hnew).trans ?_))
    rw [hclient]
    rfl
  case resyncEmpty =>
    intro s r hready hplan hdone
    exact (exec_resyncStart hready hplan).trans (devStep_of_eq (Dev.resyncNext_done hdone))
  case resyncPages =>
    intro s r e pg l hready hplan hnext
    exact (exec_resyncStart hready hplan).trans (devStep_of_eq (Dev.resyncNext_page hnext))
  case lastPage =>
    intro s r e pg hresync hsync hacked htodo
    exact (exec_resyncPageDone hresync hsync hacked htodo).trans (devStep_of_eq (Dev.resyncNext_done rfl))
  case nextPage =>
    intro s r e pg e2 p2 l hresync hsync hacked htodo
    exact (exec_resyncPageDone hresync hsync hacked htodo).trans (devStep_of_eq (Dev.resyncNext_page rfl))
  case request =>
    intro s hmay hretry
    exact devStep_of_end (if_pos (by rw [Bool.and_eq_true]; exact ⟨hmay, by rw [hretry]; rfl⟩))
  case timeout =>
    intro s hrequest
    exact devStep_of_end (if_pos hrequest)
  case retry =>
    intro s t hretry hmay
    exact exec_returnRetry hretry hmay
  case handoff =>
    intro s hquiescing
    exact devStep_of_end (if_pos hquiescing)

end Sys2Proof.Machine

/-! ## Tests of a standby, detectors and slow units (R333, R340, R353, R354) -/

namespace Sys2Proof.Machine

open Sys2Proof Sys2Proof.Safety

section Detectors

variable {s : State} {d : Dev} {m n : Nat} {j : Job}

/-! ### Tests of a standby (R333) -/

/-- A line without errors is left as it is, raw or not. -/
theorem Dev.scrubLine_sound {line : Nat} (x2 : BitVec 640) (hsound : d.pool.fault m line = {}) : d.scrubLine m line 0 x2 = d := by
  cases hraw : d.isRaw m line with
  | true => exact if_pos hraw
  | false => exact Dev.scrubLine_valid x2 hraw hsound

/-- Which line is next in the patrol does not rest on the outputs of the command before. -/
theorem Dev.patrolLine_out (o : List Output) (k : Nat) : { d with out := o }.patrolLine k = d.patrolLine k := by
  have hgo : ∀ (l : List (Nat × PairEntry)) (k : Nat), Dev.patrolLine.go { d with out := o } l k = Dev.patrolLine.go d l k := by
    intro l
    induction l with
    | nil => exact fun _ => rfl
    | cons e rest ih =>
      intro k
      simp only [Dev.patrolLine.go, ih]
      rfl
  exact hgo _ k

/-- The patrol of a line without errors, of a unit in no retrain, moves on. -/
theorem Dev.patrol_sound {line : Nat} (x2 : BitVec 640) (hrole : d.pair.role = .standby) (hpos : d.pair.patrolPos < d.pairLines)
    (hline : d.patrolLine d.pair.patrolPos = some (m, line)) (hidle : (d.unit m).retrain = none) (hsound : d.pool.fault m line = {}) :
    d.patrol 0 x2 = { d with pair := { d.pair with patrolPos := d.pair.patrolPos + 1 } } := by
  have hruns : ¬ (d.pair.role ≠ .standby ∨ d.pairLines = 0) := by
    rintro (h | h)
    · exact h hrole
    · omega
  simp only [Dev.patrol, if_neg hruns, if_neg (Nat.not_le.mpr hpos), hline, hidle, Option.isSome_none, Bool.false_eq_true, if_false,
    Dev.scrubLine_sound x2 hsound, Nat.sub_self, Nat.add_zero]

/-- An engine that passes its idle self-test stays as it is. -/
theorem exec_engineIdleSelftest_pass : exec (.engineIdleSelftest n true) s = .next (s.onDev fun d => d) := by
  refine devStep_of_eq ?_
  simp only [Dev.guard, if_true, ite_self]

/-- An idle engine of a STANDBY that fails it is counted, reported and reset. -/
theorem exec_engineIdleSelftest_fail (hlive : s.dev.sys.live = true) (hrole : s.dev.pair.role = .standby)
    (hjobs : s.dev.engineJobs n = []) (hrunning : tget s.dev.engReset n = none) (hgood : bit s.dev.engFailed n = false) :
    exec (.engineIdleSelftest n false) s = .next (s.onDev fun d =>
      ({ d with pair := { d.pair with engineFail := d.pair.engineFail + 1 } }.raise
        { code := .pairSelftestFail, unit := some (.engine, n), detail0 := some (BitVec.ofNat 64 (unitKindCode .engine))
          detail1 := some (BitVec.ofNat 64 n) }).resetEngine n 1) := by
  have hidle : (s.dev.pair.role == .standby && s.dev.engineJobs n == [] && (tget s.dev.engReset n).isNone &&
      !bit s.dev.engFailed n) = true := by simp [hrole, hjobs, hrunning, hgood]
  exact liveStep_of_live hlive (if_pos hidle)

/-! ### Hang detectors (R340) -/

/-- ENGINE_HANG_DETECT of an engine that holds one descriptor: it is reported with the descriptor, and the engine is reset. -/
theorem exec_engineHangDetect (hone : s.dev.engineJobs n = [j]) :
    exec (.engineHangDetect n) s = .next (s.onDev fun d =>
      ((d.reach (j.lastAccess + d.threshold 0x40)).hung (.engine, n) 0x40 (tgetD d.engGen n 0) (some j) none).resetEngine n 0) := by
  have hone' : ({ s.dev with out := [] } : Dev).engineJobs n = [j] := hone
  refine devStep_of_eq ?_
  simp only [hone', List.foldl_cons, List.foldl_nil, Nat.zero_max]

/-- The running channel of a mover, with descriptor `j`, has finished no burst since `t`: a REDUCE_WRITE counts from its dispatch, a chain
that has started from its last burst. -/
abbrev RunsSince (d : Dev) (j : Job) (t : Nat) : Prop := d.runsNow j = true ∧
  (dOpcode j.desc = 0x30 ∧ j.chain = none ∧ t = j.dispatchedAt ∨
    ∃ x, j.chain = some x ∧ x.started = true ∧ t = max x.lastBurst j.dispatchedAt)

/-- MOVER_HANG_DETECT of a mover with one descriptor, which has made no burst since `t`: it is reported, and the mover is reset. -/
theorem exec_moverHangDetect {c t : Nat} (hone : s.dev.moverJobs n = [j]) (hunit : j.unit = .mover n c) (hruns : RunsSince s.dev j t) :
    exec (.moverHangDetect n c) s = .next (s.onDev fun d =>
      ((d.reach (t + d.threshold 0x41)).hung (.mover, n) 0x41 (tgetD d.movGen n 0) (some j) none).resetMover n 0) := by
  have hone' : ({ s.dev with out := [] } : Dev).moverJobs n = [j] := hone
  obtain ⟨hnow, hsince⟩ := hruns
  have hnow' : ({ s.dev with out := [] } : Dev).runsNow j = true := hnow
  refine devStep_of_eq ?_
  obtain ⟨hop, hchain, rfl⟩ | ⟨x, hchain, hstarted, rfl⟩ := hsince
  · simp only [hone', List.find?_cons, hunit, hnow', hop, hchain, BEq.rfl, Bool.and_self, Bool.true_or, List.foldl_cons, List.foldl_nil]
  · simp only [hone', List.find?_cons, hunit, hnow', hchain, hstarted, Option.any_some, BEq.rfl, Bool.and_self, Bool.or_true,
      List.foldl_cons, List.foldl_nil]

/-- MC_HANG_DETECT of a memory unit at work: it is reported with the bank, and the unit is retrained. -/
theorem exec_mcHangDetect {r b : Nat} (hlive : s.dev.sys.live = true) (htrained : (s.dev.unit m).trained = true)
    (halive : (s.dev.unit m).dead = false) (hthere : (s.dev.unit m).removed = false) (hidle : (s.dev.unit m).retrain = none) :
    exec (.mcHangDetect m r b) s = .next (s.onDev fun d =>
      ((d.reach (d.now + d.threshold 0x42)).hung (memUnitRef m) 0x42 (tgetD d.unitGen m 0) none
        (some { rank := r, bank := b, column := 0, row := 0 })).startRetrain m) := by
  have hworks : ((s.dev.unit m).trained && !(s.dev.unit m).dead && !(s.dev.unit m).removed && (s.dev.unit m).retrain.isNone) = true := by
    simp [htrained, halive, hthere, hidle]
  exact liveStep_of_live hlive (if_pos hworks)

/-! ### Slow units (R353, R354) -/

/-- The median of one number is the number. -/
theorem medianTwice_singleton (t : Nat) : medianTwice [t] = t + t := by
  simp [medianTwice, insertUp, lgetD]

/-- The device after a window in which engine `n` of a group kept pace. -/
def Dev.keptPace (d : Dev) (p g n : Nat) : Dev :=
  { d with now := max d.now (d.now + 1000000) }.modGroup p g fun y => { y with
    slowRuns := tset y.slowRuns n 0, goodRuns := tset y.goodRuns n (tgetD y.goodRuns n 0 + 1) }

/-- An engine that was measured alone keeps pace; one that was withdrawn is readmitted after 16 good windows. -/
theorem Dev.slowWindow_alone {p g : Nat} (t : Nat) (hmember : bit (d.group p g).engines n = true) :
    d.slowWindow p g [(n, t)] =
      if 16 ≤ tgetD (d.group p g).goodRuns n 0 + 1 ∧ bit (d.group p g).withdrawn n = true then
        (d.keptPace p g n).modGroup p g fun y => { y with withdrawn := putBit y.withdrawn n false }
      else d.keptPace p g n := by
  have hmine : [(n, t)].filter (fun x => bit ((d.reach (d.now + 1000000)).group p g).engines x.1) = [(n, t)] := by
    rw [List.filter_singleton]
    exact (congrArg (fun b => bif b then [(n, t)] else []) hmember :)
  have hslow : ¬ 2 * (t + t) < t := by omega
  have hgood : t ≤ t + t := by omega
  have hnone : ¬ 2 ≤ 0 := by omega
  simp only [Dev.slowWindow, hmine, List.map_cons, List.map_nil, medianTwice_singleton, List.foldl_cons, List.foldl_nil, if_neg hslow,
    if_pos hgood, hnone, false_and, if_false]
  rfl

/-- MEMORY_UNIT_SLOW of an owned unit below half of its peers' rate: it is reported. -/
theorem exec_memoryUnitSlow {a b o : Nat} (hlive : s.dev.sys.live = true) (htrained : (s.dev.unit m).trained = true)
    (howner : s.dev.unitOwner m = some o) (hslow : 2 * a < b) :
    exec (.memoryUnitSlow m a b) s = .next (s.onDev fun d =>
      (d.reach (d.now + 1000000000)).raise
        { code := .unitSlow, part := some o, unit := some (memUnitRef m)
          detail0 := some (BitVec.ofNat 64 (packBits [(0, 32, unitKindCode (memUnitRef m).1), (32, 32, (memUnitRef m).2)]))
          detail1 := some (BitVec.ofNat 64 a) }) := by
  have hopen : ((s.dev.unit m).trained && (s.dev.unitOwner m).isSome && decide (2 * a < b)) = true := by
    simp [htrained, howner, hslow]
  refine liveStep_of_live hlive ((if_pos hopen).trans ?_)
  rw [← howner]
  rfl

end Detectors

/-- Settles O54: each clause is its row's equation; a threshold is its parameter in the parameter's own unit. -/
theorem detectorsAndTests : Obligations.DetectorsAndTests := by
  unfold Obligations.DetectorsAndTests
  refine ⟨?patrol, ?pass, ?fail, ?loopback, ?engine, ?mover, ?memory, ?core, ?crossbar, ?paceKept, ?readmitted, ?slow⟩
  case patrol =>
    intro s m line hlive hrole hpos hline hidle hsound
    exact liveStep_of_live hlive (Dev.patrol_sound (d := { s.dev with out := [] }) 0 hrole hpos
      ((Dev.patrolLine_out [] _).trans hline) hidle hsound)
  case pass =>
    intro s n
    exact exec_engineIdleSelftest_pass
  case fail =>
    intro s n hlive hrole hjobs hrunning hgood
    exact exec_engineIdleSelftest_fail hlive hrole hjobs hrunning hgood
  case loopback =>
    intro s v henable hrole
    exact devStep_of_end (if_pos (show (s.dev.pair.enable && s.dev.pair.role == .standby) = true by simp [henable, hrole]))
  case engine =>
    intro s n j hone
    exact exec_engineHangDetect hone
  case mover =>
    intro s n c t j hone hunit hnow hsince
    exact exec_moverHangDetect hone hunit ⟨hnow, hsince⟩
  case memory =>
    intro s m r b hlive htrained halive hthere hidle
    exact exec_mcHangDetect hlive htrained halive hthere hidle
  case core =>
    intro s hstage
    exact devStep_running hstage rfl
  case crossbar =>
    intro s sec n hreset hpower
    exact devStep_of_end (if_pos (show (s.dev.sys.resetN && !s.dev.sys.islandsOff) = true by simp [hreset, hpower]))
  case paceKept =>
    intro s p g n t hlive hmember hserves
    exact liveStep_of_live hlive ((Dev.slowWindow_alone (d := { s.dev with out := [] }) t hmember).trans
      (if_neg fun h => Bool.false_ne_true (hserves.symm.trans h.2)))
  case readmitted =>
    intro s p g n t hlive hmember hwithdrawn hgood
    refine ⟨_, liveStep_of_live hlive ((Dev.slowWindow_alone (d := { s.dev with out := [] }) t hmember).trans
      (if_pos ⟨Nat.succ_le_succ hgood, hwithdrawn⟩)), ?_⟩
    simp only [Dev.group_modGroup_same, Dev.keptPace]
    rfl
  case slow =>
    intro s m a b o hlive htrained howner hslow
    exact exec_memoryUnitSlow hlive htrained howner hslow

end Sys2Proof.Machine

/-! ## A step of the machine (log entry 8) -/

namespace Sys2Proof.Machine

open Sys2Proof Sys2Proof.Safety

/-- A step on an empty queue idles. -/
theorem step_of_empty {s : State} (hempty : s.pending = []) : step s = .next (idle s) := by
  simp only [step, hempty]

/-- Settles O1: each clause is an equation of `step`, by what stands in the queue. -/
theorem stepRunsFrontCommand : Obligations.StepRunsFrontCommand := by
  unfold Obligations.StepRunsFrontCommand
  refine ⟨?front, ?queue, ?empty⟩
  case front =>
    intro c rest s hfront
    simp only [step, hfront]
  case queue =>
    intro rest s
    exact ⟨rfl, rfl, rfl⟩
  case empty =>
    intro s hempty
    exact step_of_empty hempty

end Sys2Proof.Machine

/-! ## The TAP outside DEPLOYED (R405 to R408) -/

namespace Sys2Proof.Machine

open Sys2Proof Sys2Proof.Safety

section Scan

variable {s : State} {i : TapInstr} {hiZ : Bool} {f : Dev → Dev}

/-- Outside DEPLOYED, an instruction that takes the pins has its effect, and clears RETAIN (R284, R408). -/
theorem devStep_scan_undeployed (hlife : s.dev.sys.lifeCycle ≠ .deployed) :
    devStep (fun d => d.scan i hiZ f) s = .next (s.onDev fun d =>
      f { d with
        tap := { d.tap with instr := i, driving := !hiZ, scanned := true }
        sys := { d.sys with retain := false, outputsHiZ := hiZ } }) := by
  have hallowed : ({ s.dev with out := [] } : Dev).scanAllowed = true := by simp [Dev.scanAllowed, hlife]
  exact devStep_of_eq (if_pos hallowed)

/-- The identification register, field by field (R406). -/
theorem idcodeValue_eq : idcodeValue = 1 + 0x2B9 * 2 + 0x7480 * 2 ^ 12 + Config.stepping.toNat * 2 ^ 28 := by
  simp only [idcodeValue]
  omega

end Scan

/-- Settles O60: outside DEPLOYED each instruction that takes the pins is one scan that has its effect, and the others are their equations. -/
theorem tapInstructions : Obligations.TapInstructions := by
  unfold Obligations.TapInstructions
  refine ⟨?reset, ?idcode, ?sample, ?extest, ?highz, ?clamp, ?pulse, ?train⟩
  case reset =>
    intro s
    rfl
  case idcode =>
    intro s
    rw [← idcodeValue_eq]
    rfl
  case sample =>
    intro s p c
    rfl
  case extest =>
    intro s c hlife
    exact devStep_scan_undeployed hlife
  case highz =>
    intro s hlife
    exact devStep_scan_undeployed hlife
  case clamp =>
    intro s hlife
    exact devStep_scan_undeployed hlife
  case pulse =>
    intro s c hlife
    exact devStep_scan_undeployed hlife
  case train =>
    intro s c hlife
    exact devStep_scan_undeployed hlife

end Sys2Proof.Machine

/-! ## Stale completions (R338) -/

namespace Sys2Proof.Machine

open Sys2Proof Sys2Proof.Safety

section Stale

variable {d : Dev} {i : Nat} {j : Job} {res : Result}

/-- The completion of a job without holds, of a generation that its queue has left, is dropped and counted (R338). -/
theorem Dev.complete_stale (hjob : d.job i = some j) (hresult : j.result = some res) (hholds : j.holds = []) (hbefore : j.before = none)
    (hmirrors : d.pair.mirrors = []) (hgen : (d.queue j.queue).gen ≠ j.queueGen) :
    d.complete i = (d.dropJob i).bump .rstStaleCompletions := by
  have hgone : ((d.releaseHolds j).dropJob i).appendDone j = d.dropJob i := by
    simp only [Dev.releaseHolds, hholds, List.foldl_nil, Dev.appendDone, hbefore, Option.isSome_none, Bool.false_eq_true, if_false]
  simp only [Dev.complete, hjob, hresult, hmirrors, List.any_nil, Bool.false_eq_true, if_false, hgone, if_pos hgen]

end Stale

/-- Settles O10: a completion that is dropped writes nothing, and so meets nothing that it must wait for. -/
theorem staleCompletionDropped : Obligations.StaleCompletionDropped := by
  unfold Obligations.StaleCompletionDropped
  intro s i j res hjob _ hresult hholds hbefore hmirrors hgen
  have hdropped := Dev.complete_stale (d := Safety.ready s.dev) hjob hresult hholds hbefore hmirrors hgen
  exact devStep_mirrored hdropped ⟨rfl, rfl, rfl⟩

end Sys2Proof.Machine

/-! ## Mode changes (R128, R350 to R352) -/

namespace Sys2Proof.Machine

open Sys2Proof Sys2Proof.Safety

section Modes

variable {d : Dev} {m : ModeIn} {x : StagedMode}

/-- The device with Huanik's record replaced. -/
def Dev.withHk (d : Dev) (h : Huanik) : Dev := { d with hk := h }

/-- The device with the group and queue records of a mode in force (R350, step 2). -/
def Dev.regrouped (d : Dev) (m : ModeIn) : Dev :=
  m.queues.foldl (fun e q => e.modQueue q.1 fun y => { y with group := q.2.1, prioCap := q.2.2.1, weight := q.2.2.2 })
    (m.groups.foldl (fun e g => e.modGroup g.1 g.2.1 fun y => { y with engines := g.2.2.1, movers := g.2.2.2 }) d)

/-- Steps that leave Huanik's record alone, and a change of that record, are made in either order. -/
theorem foldl_withHk {β : Type} {f : Dev → β → Dev} (hf : ∀ e h y, f (Dev.withHk e h) y = (f e y).withHk h) (l : List β) (h : Huanik) :
    l.foldl f (d.withHk h) = (l.foldl f d).withHk h :=
  List.foldl_hom (fun e => Dev.withHk e h) fun e y => hf e h y

/-- Group and queue records, and Huanik's record, are changed in either order. -/
theorem Dev.regrouped_withHk (h : Huanik) : (d.withHk h).regrouped m = (d.regrouped m).withHk h := by
  unfold Dev.regrouped
  rw [foldl_withHk, foldl_withHk]
  · exact fun e h q => rfl
  · exact fun e h g => rfl

theorem Dev.regrouped_hk : (d.regrouped m).hk = d.hk := by
  unfold Dev.regrouped
  refine (foldl_keeps Dev.hk ?_ _ _).trans (foldl_keeps Dev.hk ?_ _ _)
  · exact fun e q => rfl
  · exact fun e g => rfl

/-- Huanik's record with a mode in force and nothing staged. -/
def Huanik.withMode (h : Huanik) (m : ModeIn) : Huanik :=
  { h with
    formats := m.formats.getD h.formats, arbFixed := (m.arbMode.map (fun a => a == 1)).getD h.arbFixed
    paceUs := m.paceUs.getD h.paceUs, paceAt := if m.paceUs.getD h.paceUs = h.paceUs then h.paceAt else [], staged := none }

/-- A mode in force is its group and queue records, Huanik's record of it, the mode generation moved on, and the operation ended. -/
theorem inForce_eq (op : Nat) :
    inForce d m op = ((((d.regrouped m).withHk (d.hk.withMode m)).setSys fun y => { y with modeGen := y.modeGen + 1 }).measure 5).commandDone
      (some op) none .ok := by
  rw [← Dev.regrouped_hk (d := d) (m := m)]
  unfold inForce
  rw [← Dev.regrouped_hk (d := d) (m := m)]
  rfl

/-- What is staged does not show in a mode in force. -/
theorem inForce_staged (st : Option StagedMode) (op : Nat) :
    inForce { d with hk := { d.hk with staged := st } } m op = inForce d m op := by
  rw [inForce_eq, inForce_eq]
  change ((((d.withHk { d.hk with staged := st }).regrouped m).withHk _).setSys _ |>.measure 5).commandDone _ _ _ = _
  rw [Dev.regrouped_withHk]
  rfl

/-- A mode is put in force, and with it the staged mode goes, where no paced response is left to be written (R262, R350). -/
theorem Dev.applyMode_eq (hpace : m.paceUs.getD d.hk.paceUs ≠ 0 ∨ d.hk.paced = []) :
    ({ d.applyMode m with hk := { (d.applyMode m).hk with staged := none } } : Dev) = (d.regrouped m).withHk (d.hk.withMode m) := by
  have hregrouped : (d.regrouped m).hk = d.hk := Dev.regrouped_hk
  unfold Dev.applyMode
  extract_lets d1 d2 pace d3
  have hrest : pace ≠ 0 ∨ d2.hk.paced = [] := by
    change m.paceUs.getD (d.regrouped m).hk.paceUs ≠ 0 ∨ (d.regrouped m).hk.paced = []
    rwa [hregrouped]
  have hwritten : d3 = d.regrouped m := by
    obtain hpaced | hnone := hrest
    · exact if_neg hpaced
    · simp only [d3, hnone, List.foldl_nil, ite_self]
      rfl
  have hpaced : (if pace = 0 then [] else (d.regrouped m).hk.paced) = (d.regrouped m).hk.paced := by
    obtain hpaced | hnone := hrest
    · exact if_neg hpaced
    · rw [ite_eq_right_iff]
      exact fun _ => hnone.symm
  clear_value d3
  subst hwritten
  rw [← hregrouped]
  exact congrArg (fun p => (d.regrouped m).withHk { (d.regrouped m).hk.withMode m with paced := p }) hpaced

/-- A staged mode for which no unit is waited any more is put in force (R350). -/
theorem Dev.tryCommit_eq (hstaged : d.hk.staged = some x) (hwaiting : x.waiting = [])
    (hpace : x.mode.paceUs.getD d.hk.paceUs ≠ 0 ∨ d.hk.paced = []) : d.tryCommit = inForce d x.mode x.op := by
  simp only [Dev.tryCommit, hstaged, hwaiting, if_true, Dev.applyMode_eq hpace, inForce_eq]

/-- A staged mode for which a unit is waited stays staged. -/
theorem Dev.tryCommit_waiting (hstaged : d.hk.staged = some x) (hwaiting : x.waiting ≠ []) : d.tryCommit = d := by
  simp only [Dev.tryCommit, hstaged, if_neg hwaiting]

/-- MODE_CHANGE that passes its checks stages its mode at the units that it affects, as a long operation, and goes on as far as it can. -/
theorem Dev.modeChange_checked (hcheck : d.modeCheck m = none) :
    d.modeChange m = (.ok, [BitVec.ofNat 64 (d.hk.opNo + 1), (d.sys.modeGen + 1).setWidth 64],
      ({ d with hk := { d.hk with
          opNo := d.hk.opNo + 1, ops := d.hk.ops ++ [(d.hk.opNo + 1, LongOp.modeChange)]
          staged := some { mode := m, waiting := d.modeUnits m, since := d.now, op := d.hk.opNo + 1 } } } : Dev).tryCommit) := by
  simp only [Dev.modeChange, hcheck]
  rfl

end Modes

section Rows

variable {s : State} {k : UnitKind} {n : Nat} {x : StagedMode} {e : Dev}

/-- UNIT_MODE_ACK of a unit that is no engine in reset. -/
theorem exec_unitModeAck (hup : k ≠ .engine ∨ tget s.dev.engReset n = none) (hstaged : s.dev.hk.staged = some x)
    (h : ({ s.dev with out := [], hk := { s.dev.hk with
      staged := some { x with waiting := x.waiting.filter fun u => u != (k, n) } } } : Dev).tryCommit = e) :
    exec (.unitModeAck k n) s = .next { s with dev := e } := by
  have hopen : (!(k == .engine && (tget s.dev.engReset n).isSome)) = true := by
    obtain hkind | hidle := hup
    · simp [hkind]
    · simp [hidle]
  refine devStep_guarded (b := fun d => !(k == .engine && (tget d.engReset n).isSome))
    (f := fun _ e => (e.modWaiting (fun st => st.waiting.filter (fun u => u != (k, n)))).tryCommit) hopen ?_
  rw [← h]
  simp only [Dev.modWaiting, hstaged]

end Rows

/-- Settles O49: a command or an acknowledgement leaves a staged mode, which is put in force once no unit is waited for; the timeout's clause
is its row's equation. -/
theorem modeChanges : Obligations.ModeChanges := by
  unfold Obligations.ModeChanges
  refine ⟨?staged, ?unaffected, ?ack, ?last, ?timeout⟩
  case staged =>
    intro s h m ha hcheck hunits
    refine huanikStep_of_accepts ha rfl ((Dev.modeChange_checked (d := { s.dev with out := [] }) hcheck).trans ?_)
    rw [Dev.tryCommit_waiting rfl hunits]
  case unaffected =>
    intro s h m ha hcheck hunits hpace
    refine huanikStep_of_accepts ha rfl ((Dev.modeChange_checked (d := { s.dev with out := [] }) hcheck).trans ?_)
    rw [Dev.tryCommit_eq rfl hunits hpace]
    exact congrArg (fun e => (_, _, e)) (inForce_staged (d := (Dev.startOp { s.dev with out := [] } .modeChange).2) _ _)
  case ack =>
    intro s k n x hup hstaged hwaiting
    refine (exec_unitModeAck hup hstaged (Dev.tryCommit_waiting rfl hwaiting)).trans ?_
    rfl
  case last =>
    intro s k n x hup hstaged hwaiting hpace
    have hnone : x.waiting.filter (fun u => u != (k, n)) = [] := by simp [hwaiting]
    refine exec_unitModeAck hup hstaged ((Dev.tryCommit_eq (x := { x with waiting := x.waiting.filter fun u => u != (k, n) })
      ?same hnone ?unpaced).trans ?mode)
    case same => rfl
    case unpaced => exact hpace
    case mode => exact inForce_staged (d := { s.dev with out := [] }) _ x.op
  case timeout =>
    intro s u r x hstaged hwaiting
    refine devStep_of_eq ?_
    simp only [hstaged, hwaiting]

end Sys2Proof.Machine

/-! ## Warm resets and Dome (R346 to R348, R366 to R368, R372) -/

namespace Sys2Proof.Machine

open Sys2Proof Sys2Proof.Safety

section ResetViews

variable {d : Dev}

/-- What a device reset ends, and the phase it leaves AON in: the descriptors in flight, the tallies, the fabric's routing records, the
window transactions, and whether a warm reset runs and the memory is in self-refresh (R346). -/
structure ResetView where
  jobs : List Job
  tallies : Tab Tally
  rt : Routing
  winTxns : List WinTxn
  warmPhase : Bool
  selfRefresh : Bool

/-- What a device has of it. -/
def Dev.resetView (d : Dev) : ResetView where
  jobs := d.jobs
  tallies := d.tallies
  rt := d.rt
  winTxns := d.winTxns
  warmPhase := d.sys.warmPhase
  selfRefresh := d.sys.selfRefresh

/-- An event raised touches of the boot and life-cycle state the FATAL cause of ALERT_N alone (R400). -/
theorem Dev.raise_sys_eq (e : Event) :
    (d.raise e).sys = { d.sys with causeFatal := d.sys.causeFatal || decide (severity e = 3) } := by
  by_cases hfatal : severity e = 3
  · unfold Dev.raise
    cases e.part <;> simp [hfatal]
  · simp [Dev.raise_sys d e hfatal, hfatal]

theorem Dev.resetView_raise (e : Event) : (d.raise e).resetView = d.resetView := by
  simp only [Dev.resetView, Dev.raise_frame, Dev.raise_sys_eq]

/-- Of a change of MBX.STATUS fields the view sees the two that it names. -/
theorem Dev.resetView_setSys (f : Sys → Sys) : (d.setSys f).resetView =
    { d.resetView with warmPhase := (f d.sys).warmPhase, selfRefresh := (f d.sys).selfRefresh } := by
  simp only [Dev.resetView, Dev.setSys_sys]
  unfold Dev.setSys
  split <;> rfl

theorem Dev.resetView_measure (i : Nat) : (d.measure i).resetView = d.resetView := rfl

theorem Dev.resetView_startFailed (n : Nat) : (d.startFailed n).resetView = d.resetView := by
  simp only [Dev.startFailed, Dev.resetView_raise, Dev.resetView_setSys]
  rfl

theorem Dev.resetView_retire : d.retire.resetView = d.resetView :=
  Dev.resetView_setSys fun x => { x.closeBypass with stage := .retired, lifeCycle := .retired }

theorem Dev.resetView_burn (t : Nat) (owner : BitVec 384) (floor : U16) : (d.burn t owner floor).resetView = d.resetView := by
  unfold Dev.burn
  split
  · exact Dev.resetView_retire
  · exact Dev.resetView_setSys _

/-- The choice of a slot leaves what a reset has ended as it is. -/
theorem Sys.chooseSlot_phase (x : Sys) : x.chooseSlot.1.warmPhase = x.warmPhase ∧ x.chooseSlot.1.selfRefresh = x.selfRefresh := by
  unfold Sys.chooseSlot
  split
  · split
    · split <;> exact ⟨rfl, rfl⟩
    · exact ⟨rfl, rfl⟩
  · exact ⟨rfl, rfl⟩

theorem Dev.resetView_bootSlot (b : BootFindings) : (d.bootSlot b).resetView = d.resetView := by
  obtain ⟨hwarm, hself⟩ := d.sys.chooseSlot_phase
  simp only [Dev.bootSlot, apply_ite Dev.resetView, Dev.resetView_measure, Dev.resetView_setSys, Dev.resetView_startFailed]
  simp only [Dev.resetView, hwarm, hself, ite_self]

/-- The boot ROM, at a warm reset, ends and resumes nothing more (R346, step 4). -/
theorem Dev.resetView_boot {b : BootFindings} : (d.boot b false).resetView = d.resetView := by
  unfold Dev.boot
  dsimp only
  split
  · exact Dev.resetView_startFailed 1
  · split
    · split
      · exact Dev.resetView_burn _ _ _
      · split
        · exact (Dev.resetView_bootSlot b).trans (Dev.resetView_burn _ _ _)
        · exact Dev.resetView_setSys _
    · split
      · exact Dev.resetView_retire
      · exact Dev.resetView_bootSlot b

theorem Dev.resetView_loadKey (p m : Nat) : (d.loadKey p m).resetView = d.resetView := rfl

theorem Dev.resetView_reloadKeys : d.reloadKeys.resetView = d.resetView := by
  unfold Dev.reloadKeys
  split
  · rfl
  · exact foldl_keeps Dev.resetView (fun e k => foldl_keeps Dev.resetView (fun f m => Dev.resetView_loadKey (d := f) _ m) _ e) _ _

theorem Dev.resetView_bumpTags : d.bumpTags.resetView = d.resetView := rfl

theorem Dev.resetHeads_jobs : d.resetHeads.jobs = d.jobs := by
  unfold Dev.resetHeads
  refine foldl_keeps Dev.jobs (fun e h => ?_) _ _
  dsimp only
  split
  · split <;> rfl
  · split <;> rfl

theorem Dev.endJobs_jobs : d.endJobs.jobs = [] := rfl

/-- The reset of the islands ends every descriptor in flight, and empties the tallies, the routing records and the window transactions
(R346, step 3; Table 14.6). -/
theorem Dev.resetIslands_ended (drained : Bool) : (d.resetIslands drained).jobs = [] ∧ (d.resetIslands drained).tallies = [] ∧
    (d.resetIslands drained).rt = {} ∧ (d.resetIslands drained).winTxns = [] := by
  simp only [Dev.resetIslands, Dev.resetHeads_jobs, Dev.endJobs_jobs, and_self]

/-- A warm reset has ended all that the view names, with the memory in self-refresh (R346). -/
theorem Dev.resetView_warmStart (drained : Bool) (b : BootFindings) : (d.warmStart drained b).resetView =
    { jobs := [], tallies := [], rt := {}, winTxns := [], warmPhase := true, selfRefresh := true } := by
  unfold Dev.warmStart
  extract_lets d1 y d2
  have hkeys : d1.resetView = ({ d with sys := d.sys.closeBypass }.resetIslands drained).resetView :=
    Dev.resetView_reloadKeys.trans Dev.resetView_bumpTags
  have hended : d2.resetView = { jobs := [], tallies := [], rt := {}, winTxns := [], warmPhase := true, selfRefresh := true } := by
    obtain ⟨hjobs, htallies, hrt, htxns, -, -⟩ := ResetView.mk.inj hkeys
    obtain ⟨hjobs', htallies', hrt', htxns'⟩ := Dev.resetIslands_ended (d := { d with sys := d.sys.closeBypass }) drained
    simp only [Dev.resetView, d2, hjobs, htallies, hrt, htxns, hjobs', htallies', hrt', htxns']
  exact Dev.resetView_boot.trans hended

/-- Entering Dome leaves the device in Dome from now on, with the request gone and the memory in self-refresh (R366). -/
theorem Dev.enterDome_sys : d.enterDome.sys.inDome = true ∧ d.enterDome.sys.selfRefresh = true ∧ d.enterDome.sys.domeReqAt = none ∧
    d.enterDome.sys.domeEntered = d.now := by
  simp only [Dev.enterDome, Dev.drawWord, Dev.emit, and_self]

/-- Measuring the configuration moves counts of measurements alone (R274). -/
theorem Dev.measureConfig_sys : ∃ counts, d.measureConfig.sys = { d.sys with measCounts := counts } := by
  refine List.foldlRecOn (motive := fun (e : Dev) => ∃ counts, e.sys = { d.sys with measCounts := counts }) _ _ ⟨_, rfl⟩ fun e he p _ => ?_
  obtain ⟨counts, he⟩ := he
  exact ⟨_, congrArg (fun x => { x with measCounts := tmod e.sys.measCounts (16 + p) 0 fun n => n + 1 }) he⟩

/-- The events of a start leave the boot and life-cycle state, but for the FATAL cause of ALERT_N (R391, R400). -/
theorem Dev.flushStart_sys : ∃ fatal, d.flushStart.sys = { d.sys with startEvents := [], causeFatal := fatal } := by
  refine List.foldlRecOn (motive := fun (e : Dev) => ∃ fatal, e.sys = { d.sys with startEvents := [], causeFatal := fatal }) _ _ ⟨_, rfl⟩
    fun e he x _ => ?_
  obtain ⟨fatal, he⟩ := he
  exact ⟨fatal || decide (severity x = 3), by rw [Dev.raise_sys_eq, he]⟩

/-- The last work of a start, once `stage` is AWAIT_RUNTIME, leaves the stage, the power state and the device's tag (R387, R391). -/
theorem Dev.startEnd_sys : d.measureConfig.flushStart.sys.inDome = d.sys.inDome ∧
    d.measureConfig.flushStart.sys.selfRefresh = d.sys.selfRefresh ∧ d.measureConfig.flushStart.sys.stage = d.sys.stage ∧
    d.measureConfig.flushStart.sys.deviceGen = d.sys.deviceGen := by
  obtain ⟨fatal, hflush⟩ := Dev.flushStart_sys (d := d.measureConfig)
  obtain ⟨counts, hmeasure⟩ := Dev.measureConfig_sys (d := d)
  simp only [hflush, hmeasure, and_self]

theorem Dev.loadKey_sys (p m : Nat) : (d.loadKey p m).sys = d.sys := rfl

/-- The reload of keys leaves the boot and life-cycle state. -/
theorem Dev.reloadKeys_sys : d.reloadKeys.sys = d.sys := by
  unfold Dev.reloadKeys
  split
  · rfl
  · exact foldl_keeps Dev.sys (fun e k => foldl_keeps Dev.sys (fun f m => Dev.loadKey_sys (d := f) _ m) _ e) _ _

/-- A wake whose resident stage matches its digest ends Dome and self-refresh, moves the device's tag on and reaches AWAIT_RUNTIME
(R336, R368). -/
theorem Dev.wake_sys (b : BootFindings) : (d.wake true b).sys.inDome = false ∧ (d.wake true b).sys.selfRefresh = false ∧
    (d.wake true b).sys.stage = .awaitRuntime ∧ (d.wake true b).sys.deviceGen = d.sys.deviceGen + 1 := by
  simp only [Dev.wake, if_true, Dev.measure, Dev.setSys_sys, Dev.drawWord, Dev.raise_sys_eq, Dev.startEnd_sys, Dev.reloadKeys_sys,
    Dev.bumpTags, and_self]

end ResetViews

section Rows

variable {s : State} {b : BootFindings}

/-- WARM_RESET of a running device, by the pin or by the driver of a halted Huanik. -/
theorem exec_warmReset {sb dr : Bool} (hlive : s.dev.sys.live = true) (hasked : sb = false ∨ s.dev.sys.causeHalted = true) :
    exec (.warmReset sb dr b) s = .next { s with dev := ({ s.dev with out := [] } : Dev).warmStart dr b }.resetMbx := by
  have hopen : (s.dev.sys.warmAllowed && (!sb || s.dev.sys.causeHalted)) = true := by simpa [Sys.warmAllowed, hlive] using hasked
  exact congrArg Host.Outcome.next (if_pos hopen)

/-- WARM_RESET while the islands do not run. -/
theorem exec_warmReset_idle {sb dr : Bool} (hlive : s.dev.sys.live = false) :
    exec (.warmReset sb dr b) s = .next (s.onDev fun d => d) := by
  have hclosed : ¬ (s.dev.sys.warmAllowed && (!sb || s.dev.sys.causeHalted)) = true := by simp [Sys.warmAllowed, hlive]
  exact congrArg Host.Outcome.next (if_neg hclosed)

/-- The end of a warm reset in which no port's PERST_N was asserted (R346, step 6). -/
theorem Dev.warmDone_noPerst {d : Dev} (hnone : d.sys.perstPending = 0) :
    d.warmDone =
      (let e := (d.setSys fun x => { x with
        perstPending := 0, warmPhase := false, stage := .awaitRuntime, causeFatal := false, selfRefresh := false }).measureConfig.flushStart
      { e with free := e.free + 1 }.raise
        { code := .warmResetDone, detail0 := some (e.sys.deviceGen.setWidth 64), detail1 := some (Config.freeWord e.free) }) := by
  have hheads : bitsOf d.sys.perstPending = [] := by rw [hnone]; decide
  simp only [Dev.warmDone, hheads, List.foldl_nil]
  rfl

/-- A WARM_N pulse of 10 µs or more on a running device is a warm reset (Table 17.8). -/
theorem exec_warmNPulse_long {n : Nat} {dr : Bool} (hlong : 10000 ≤ n) (hlive : s.dev.sys.live = true) :
    exec (.warmNPulse n dr b) s = .next { s with dev := ({ s.dev with out := [] } : Dev).warmStart dr b }.resetMbx := by
  have hsure : (decide (1000 ≤ n) && decide (n < 10000)) = false := by
    rw [decide_eq_false (by omega : ¬ n < 10000), Bool.and_false]
  have hseen : (decide (10000 ≤ n) || (decide (1000 ≤ n) && bit (Config.freeWord s.dev.free) 0)) = true := by
    rw [decide_eq_true hlong, Bool.true_or]
  change execWarmNPulse n dr b s = _
  simp only [execWarmNPulse, State.onDev_id_dev, Dev.drawWord, hsure, hseen, Sys.warmAllowed, hlive, Bool.false_eq_true, if_false,
    Bool.and_self, if_true]
  rfl

/-- A WARM_N pulse below 1 µs is ignored (Table 17.8). -/
theorem exec_warmNPulse_short {n : Nat} {dr : Bool} (hshort : n < 1000) :
    exec (.warmNPulse n dr b) s = .next (s.onDev fun d => d) := by
  have hlong : decide (10000 ≤ n) = false := decide_eq_false (by omega)
  have hsome : decide (1000 ≤ n) = false := decide_eq_false (by omega)
  change execWarmNPulse n dr b s = _
  simp only [execWarmNPulse, hlong, hsome, Bool.false_and, Bool.or_self, Bool.false_eq_true, if_false]
  rfl

/-- DOME_ENTRY of a running, quiet device that asked for Dome and fails no check. -/
theorem exec_domeEntry {t : Nat} (hlive : s.dev.sys.live = true) (hasked : s.dev.sys.domeReqAt = some t) (hbar : s.dev.domeBar = none)
    (hquiet : s.dev.jobs = []) : exec .domeEntry s = .next { s with dev := ({ s.dev with out := [] } : Dev).enterDome }.resetMbx := by
  have hopen : (s.dev.sys.live && s.dev.sys.domeReqAt.isSome && s.dev.domeBar.isNone && s.dev.jobs.isEmpty) = true := by
    simp [hlive, hasked, hbar, hquiet]
  exact congrArg Host.Outcome.next (if_pos hopen)

/-- DOME_REFUSED of a running device that asked for Dome and fails a check (R366). -/
theorem exec_domeRefused_check {t c : Nat} (hlive : s.dev.sys.live = true) (hasked : s.dev.sys.domeReqAt = some t)
    (hbar : s.dev.domeBar = some c) :
    exec .domeRefused s = .next (s.onDev fun d =>
      { d with sys := { d.sys with domeReqAt := none } }.raise { code := .domeRefused, detail0 := some (BitVec.ofNat 64 c) }) := by
  have hbar' : ({ s.dev with out := [] } : Dev).domeBar = some c := hbar
  refine liveStep_of_live hlive ?_
  simp only [hasked]
  simp only [hbar']

/-- DOME_REFUSED 100 ms after the request, of a device that fails no check and has descriptors in flight (R366). -/
theorem exec_domeRefused_busy {t : Nat} (hlive : s.dev.sys.live = true) (hasked : s.dev.sys.domeReqAt = some t)
    (hbar : s.dev.domeBar = none) (hbusy : s.dev.jobs ≠ []) :
    exec .domeRefused s = .next (s.onDev fun d =>
      { d with now := max d.now (t + 100000000), sys := { d.sys with domeReqAt := none } }.raise
        { code := .domeRefused, detail0 := some 3 }) := by
  have hflight : s.dev.jobs.isEmpty = false := by simpa using hbusy
  have hbar' : ({ s.dev with out := [] } : Dev).domeBar = none := hbar
  refine liveStep_of_live hlive ?_
  simp only [hasked]
  simp only [hbar', hflight, Bool.false_eq_true, if_false]
  rfl

end Rows

/-- Settles O56: what a reset ends is read off the reset of the islands, and no later work of a warm reset brings it back; the rows of Dome
are their equations. -/
theorem warmResetsAndDome : Obligations.WarmResetsAndDome := by
  unfold Obligations.WarmResetsAndDome
  refine ⟨?reset, ?idle, ?done, ?short, ?long, ?entry, ?check, ?busy, ?wake, ?rails⟩
  case reset =>
    intro s sb dr b hlive hasked
    obtain ⟨hjobs, htallies, hrt, htxns, hwarm, hself⟩ :=
      ResetView.mk.inj (Dev.resetView_warmStart (d := { s.dev with out := [] }) dr b)
    exact ⟨_, exec_warmReset hlive hasked, rfl, rfl, hjobs, htallies, hrt, htxns, hwarm, hself⟩
  case idle =>
    intro s sb dr b hlive
    exact exec_warmReset_idle hlive
  case done =>
    intro s hwarm hstage hnone
    have hopen : (s.dev.sys.warmPhase && s.dev.sys.stage == .bootImage) = true := by simp [hwarm, hstage]
    exact devStep_guarded (b := fun d => d.sys.warmPhase && d.sys.stage == .bootImage) (f := fun _ => Dev.warmDone) hopen
      (Dev.warmDone_noPerst hnone)
  case short =>
    intro s n dr b hshort
    exact exec_warmNPulse_short hshort
  case long =>
    intro s n dr b hlong hlive
    exact ⟨_, exec_warmNPulse_long hlong hlive, exec_warmReset hlive (.inl rfl)⟩
  case entry =>
    intro s t hlive hasked hbar hquiet
    obtain ⟨hdome, hself, hreq, hentered⟩ := Dev.enterDome_sys (d := { s.dev with out := [] })
    exact ⟨_, exec_domeEntry hlive hasked hbar hquiet, rfl, rfl, hdome, hself, hreq, hentered⟩
  case check =>
    intro s t c hlive hasked hbar
    exact exec_domeRefused_check hlive hasked hbar
  case busy =>
    intro s t hlive hasked hbar hbusy
    exact exec_domeRefused_busy hlive hasked hbar hbusy
  case wake =>
    intro s w b hdome hreset
    have hopen : (s.dev.sys.inDome && (!w || s.dev.sys.resetN)) = true := by simp [hdome, hreset]
    obtain ⟨hleft, hself, hstage, hgen⟩ := Dev.wake_sys (d := { s.dev with out := [] }) b
    exact ⟨_, devStep_guarded (b := fun d => d.sys.inDome && (!w || d.sys.resetN)) (f := fun _ e => e.wake true b) hopen rfl,
      hleft, hself, hstage, hgen⟩
  case rails =>
    intro s hdome
    exact devStep_guarded (b := fun d => d.sys.inDome) hdome rfl

end Sys2Proof.Machine

/-! ## A start with retained memory (R375, R388, R391) -/

namespace Sys2Proof.Machine

open Sys2Proof Sys2Proof.Safety

section RingAtStart

/-- A device at the end of its boot image, with its memory retained: an event ring of partition 1, which the reset should have ended,
stands in a line of a DURABLE region, and an event of the partition waits for the rings. -/
def ringAtStart : State :=
  { dev :=
      { sys := { stage := .bootImage, resetN := true, retain := true, startEvents := [{ code := .ntDegraded, part := some 1 }] }
        regions := [(3,
          { partition := 1, grainM8 := 0, width := 1, tier := .capacity, durable := true, extents := [⟨false, 1, 0⟩]
            parity := [{ parity := ⟨false, 3, 0⟩, members := [0] }] })]
        ctxs := [(7,
          { valid := true, partition := 1
            segments := [{ base := 0, lines := 1024, kind := .region, w := true, targetId := 3 }] })]
        partRings := [(1, { ctx := 7, addr := 0, log2 := 6 })] } }

/-- Both metadata subchannels of n = 0 train, and both copies are found there. -/
def bothCopiesFound : TrainFindings :=
  { trained := [(0, 128, 2), (24, 128, 2)]
    headers :=
      [{ unit := 0, copy1 := false, k := 1, otherUnit := 24, seq := 7, slots := [0], tagOk := true },
       { unit := 24, copy1 := true, k := 1, otherUnit := 0, seq := 7, slots := [0], tagOk := true }] }

/-- The stale ranges of each parity group of a device's regions. -/
def staleRanges (rs : Tab Region) : List (Tab Nat) := rs.flatMap fun x => x.2.parity.map ParityGroup.stale

/-- The device after TRAINING_DONE, where the boot image runs (R382, R174). -/
def Dev.trainingEnd (d : Dev) (x : TrainFindings) : Dev :=
  (List.range 48).foldl (fun e m => e.rfmSweep m)
    (((d.resetChannels x).foldl (fun (e : Dev) n => e.emit (.ddrReset n)) d).train x)

/-- TRAINING_DONE of a device whose boot image runs and that is in no warm reset. -/
theorem exec_trainingDone {s : State} (x : TrainFindings) (hreset : s.dev.sys.resetN = true) (hwarm : s.dev.sys.warmPhase = false)
    (hstage : s.dev.sys.stage = .bootImage) : exec (.trainingDone x) s = .next (s.onDev fun d => d.trainingEnd x) := by
  have hopen : (s.dev.sys.resetN && !s.dev.sys.warmPhase && s.dev.sys.stage == .bootImage) = true := by simp [hreset, hwarm, hstage]
  exact devStep_guarded (b := fun d => d.sys.resetN && !d.sys.warmPhase && d.sys.stage == .bootImage)
    (f := fun _ e => e.trainingEnd x) hopen rfl

/-- The event's record is written into the ring, and the range of its line is stale from then on (R165, R300). -/
theorem staleRanges_ringAtStart :
    staleRanges (ringAtStart.onDev fun d => d.trainingEnd bothCopiesFound).dev.regions = [[(0, 0)]] := by decide +kernel

end RingAtStart

/-- Refutes O57: its last clause has the regions of a RETAINED start stand but for stale parity unprotected, and does not ask that no
partition has an event ring. The model writes the start's events into the rings that there are (R300, R391), and on `ringAtStart` that write
marks a parity range stale. (Every reset of the islands ends the rings, so that a start behind a reset has none.) -/
theorem not_resetsAndStarts : ¬ Obligations.ResetsAndStarts := by
  unfold Obligations.ResetsAndStarts
  rintro ⟨-, -, -, -, -, -, -, -, -, -, -, hretained⟩
  obtain ⟨t, hstep, -, -, hregions⟩ := hretained ringAtStart bothCopiesFound 0 rfl rfl rfl (by decide) (by decide)
  have hend : t = ringAtStart.onDev fun d => d.trainingEnd bothCopiesFound :=
    Host.Outcome.next.inj (hstep.symm.trans (exec_trainingDone bothCopiesFound rfl rfl rfl))
  have hstale := staleRanges_ringAtStart
  rw [← hend, hregions] at hstale
  exact absurd hstale (by decide)

end Sys2Proof.Machine
